-- ==== Sys2Proof/Word.lean ====
section
/-! DEFINITION. Words of the OV4: bytes, 32-bit and 64-bit words, 128-byte lines, and unit indexes (Table AR-2). -/
namespace Sys2Proof

/-- A byte, the smallest addressable unit (R10). -/
abbrev Byte := BitVec 8
/-- A vector register lane, an FP32 or INT32 value, or a Tally value. -/
abbrev Word := BitVec 32
/-- A register of the device (R4) or a scalar register of a thread group. -/
abbrev DWord := BitVec 64
/-- A line of 128 bytes (R123): byte `i` is bits `8i+7:8i`. -/
abbrev Line := BitVec 1024

/-- Global core `n` (Table AR-2). -/
abbrev CoreId := Fin 512
/-- Global cluster `g` (Table AR-2). -/
abbrev ClusterId := Fin 64
/-- Engine `e` of a core. -/
abbrev EngineId := Fin 4
/-- Thread-group slot of a core. -/
abbrev SlotId := Fin 8
/-- Bay index. -/
abbrev BayId := Fin 64
/-- Image slot of a Bay. -/
abbrev ImgId := Fin 4
/-- Instance index: 0 is function 0, 1-32 are virtual functions. -/
abbrev InstId := Fin 33
/-- Virtual function `i + 1`. -/
abbrev VfId := Fin 32
/-- Larder slice. -/
abbrev SliceId := Fin 64
/-- Compute die. -/
abbrev DieId := Fin 4
/-- Joist link. -/
abbrev LinkId := Fin 8
/-- Chute port. -/
abbrev PortId := Fin 8
/-- Cellar channel. -/
abbrev ChanId := Fin 32

end Sys2Proof
end

