-- ==== Sys2Proof/Messages.lean ====
section
/-! DEFINITION. The operands of commands that are records of their own: who writes a register, injected arithmetic errors. -/
namespace Sys2Proof

/-- Who makes a register access: function 0 (the manager) or virtual function i (a tenant), the Storekeeper firmware and its
channels, a privileged channel 0 of a cluster Porter, the REGACC chain of the TAP. -/
inductive Writer where
  | fn (f : InstId)
  | storekeeper
  | porter0
  | tap
  deriving DecidableEq, Repr

/-- Which part of a register a read names (R4). -/
inductive Half where
  | whole | low | high
  deriving DecidableEq, Repr

/-- A fault in a column's adder tree: block `blk` of column `col` is off by `delta` (R29). -/
structure SumError where
  col : Fin 64
  blk : Fin 2
  delta : Int
  deriving DecidableEq, Repr

/-- The shadow's value for the scale-and-add of block `blk` of column `col`, where it is not the fault-free one (R30). -/
structure ShadowError where
  col : Fin 64
  blk : Fin 2
  shadow : Word
  deriving DecidableEq, Repr

/-- Who sends requests to homes and takes their answers. -/
inductive Agent where
  | cluster (g : Nat)
  | porter (p c : Nat)
  | group (n g : Nat)
  | sequencer (n : Nat)
  | host
  | storekeeper
  | mmu
  | slice
  | chute (port : Nat)
  deriving DecidableEq, Repr

inductive RedCode where
  | add | max | min
  deriving DecidableEq, Repr

inductive RedTy where
  | fp32 | bf16 | int32
  deriving DecidableEq, Repr

/-- A reduction (R157): `wide` is an FP32 operand on a BF16 line. -/
structure RedOp where
  op : RedCode
  ty : RedTy
  wide : Bool := false
  sectors : BitVec 4 := 0xF
  operand : BitVec 2048 := 0
  deriving DecidableEq, Repr

/-- Atomic operations (R107). -/
inductive AtomCode where
  | add | min | max | and | or | xor | xchg | cas
  deriving DecidableEq, Repr

/-- One thread's part of an atomic: thread, byte offset in the line, VB, VC. -/
structure AtomPart where
  thread : Nat
  off : Nat
  vb : Word
  vc : Word
  deriving DecidableEq, Repr

/-- An atomic as it reaches a home (R162). -/
structure AtomOp where
  code : AtomCode
  ty : Nat
  parts : List AtomPart
  deriving DecidableEq, Repr

/-- A Chute message (Table CH-4): TYPE with bit 5 for POISON, header fields, data as a little-endian number of LEN + 1 bytes
(RRED: its 128 or 256 bytes). -/
structure ChuteMsg where
  type : Nat
  sdev : Nat := 0
  ddev : Nat := 0
  score : Nat := 0
  dcore : Nat := 0
  epoch : Nat := 0
  tag : Nat := 0
  tally : Nat := 0
  len : Nat := 0
  addr : Nat := 0
  data : Nat := 0
  deriving DecidableEq, Repr

/-- A Joist message (Table JT-5): header and data slots. -/
structure JoistMsg where
  hdr : BitVec 128
  slots : List (BitVec 128) := []
  deriving DecidableEq, Repr

/-- What a start finds (Table SE-1, R371, R375): the GOOD record reads, flash and PUF helper data are valid, image slots whose MAGIC, LEN and
signature are valid (bit 0 A, bit 1 B), a fatal code of the firmware (0 none), PCLK cycles; then the results of self test and training:
usable dies, Undercrofts, clusters and engines, modules of each Joist link with lanes repaired, sampled straps, Cellar packages fitted and good with their size. -/
structure Bringup where
  goodReads : Bool := true
  flashOk : Bool := true
  pufOk : Bool := true
  images : BitVec 2 := 1
  fatal : Nat := 0
  pclk : Nat := 0
  dies : BitVec 4 := 0
  undercrofts : BitVec 4 := 0
  clusters : BitVec 64 := 0
  engines : List (BitVec 64) := []
  modules : List (BitVec 24) := []
  repaired : List Nat := []
  straps : BitVec 8 := 0
  fitted : BitVec 8 := 0
  packages : BitVec 8 := 0
  packageGib : Nat := 0
  deriving DecidableEq, Repr

/-- Corrected errors of one way in one set of a unit in a retirement window: unit 0-63 a Larder slice, 64 + g the Cupboard of cluster g (R392). -/
structure WayCount where
  unit : Fin 128
  set : Nat
  way : Fin 16
  count : Nat
  deriving DecidableEq, Repr

/-- A configuration request: a read, ATS Enable, the size of BAR2 as a power of two. -/
inductive CfgOp where
  | read (off : Nat)
  | atsEnable (on : Bool)
  | barSize (log2 : Nat)
  deriving DecidableEq, Repr

/-- An inbound memory request (R308, R309). -/
inductive HostOp where
  | read (len : Nat)
  | write (data : List Byte) (poison : Bool)
  | atomic
  deriving DecidableEq, Repr

end Sys2Proof
end

