-- ==== Sys2Proof/Syntax.lean ====
section
/-! DEFINITION. The commands of the block: one constructor per row of spec/opcode_table.json, with the row's operands. -/
namespace Sys2Proof

/-- A command. Unit numbers are bounded by their types; the unit whose sequencer or group acts finds its instruction word itself. -/
inductive Instr where
  /-- REG_WRITE (R5): A write to a register that has no row of its own acts by the field access types; a reserved, narrow, missing-offset or refused write is discarded and logged. -/
  | regWrite (w : Writer) (off width : Nat) (v : DWord)
  /-- RC_READ (R6): A read of an RC register at its main offset returns the value and clears the RC fields in the half or halves it covers. -/
  | rcRead (w : Writer) (off : Nat) (half : Half)
  /-- TILE_FETCH (R44): An engine reads its next tile entry, skips it when not VALID, and checks ROWS and ranges. -/
  | tileFetch (n : CoreId) (e : EngineId)
  /-- ENGINE_ROW_ENTRY (R34): A row enters an engine's skew stage and moves through the array, adder trees, checks and accumulator write on fixed timing. -/
  | engineRowEntry (n : CoreId) (e : EngineId) (sums : List SumError) (shadows : List ShadowError)
  /-- OUTPUT_ROW_WRITE (R24): The output stage applies bias, activation, residual and requantisation to one accumulator row and writes it to the Pantry. -/
  | outputRowWrite (n : CoreId) (e : EngineId) (shadowBad : Bool)
  /-- TILE_COMPLETE (R33): The last output row of a tile is visible and the tile is complete. -/
  | tileComplete (n : CoreId) (e : EngineId)
  /-- STEP_COMMIT (R51): A Step commits once all engines finished and checks passed, updates CST_STEP_STAT, increments its Tally and lets a queued Step start. -/
  | stepCommit (n : CoreId)
  /-- STEP (R59): The sequencer reaches STEP, sets BANK from the inventory and issues the descriptor, or stalls when both places are full. -/
  | step (n : CoreId)
  /-- MOVE (R61): The sequencer reaches MOVE and copies a Porter descriptor into a channel queue, stalling on a full queue. -/
  | move (n : CoreId)
  /-- MOVE_ENQUEUE (R58): A MOVE stalled on a full channel queue enqueues once room appears. -/
  | moveEnqueue (n : CoreId)
  /-- LAUNCH (R62): The sequencer reaches LAUNCH and starts the kernel's groups once enough slots are free. -/
  | launch (n : CoreId)
  /-- LAUNCH_START (R89): A stalled LAUNCH places its groups in the lowest free slots once slots free. -/
  | launchStart (n : CoreId)
  /-- WAIT (R63): The sequencer reaches WAIT, updates the expectation register and holds until the Tally reaches it. -/
  | wait (n : CoreId)
  /-- WAIT_TARGET_REACHED (R177): A waiting WAIT finds its Tally reached under the modular comparison and completes as an acquire. -/
  | waitTargetReached (n : CoreId)
  /-- SIG (R64): The sequencer reaches SIG, checks it and waits for earlier Steps, MOVEs and kernels. -/
  | sig (n : CoreId)
  /-- SIG_ISSUE (R64): Once the earlier work is done, SIG increments the named Tally by AMOUNT as a release. -/
  | sigIssue (n : CoreId)
  /-- FENCE (R65): The sequencer reaches FENCE; a release waits as SIG does and an acquire holds later instructions. -/
  | fence (n : CoreId)
  /-- FENCE_COMPLETE (R171): A waiting sequencer FENCE completes, invalidating the Shelf for a wide acquire. -/
  | fenceComplete (n : CoreId)
  /-- LOOP (R66): LOOP pushes a loop frame. -/
  | loop (n : CoreId)
  /-- ENDLOOP (R66): ENDLOOP raises INDEX and jumps back or pops the frame. -/
  | endloop (n : CoreId)
  /-- CALL (R66): CALL pushes the return PC and jumps. -/
  | call (n : CoreId)
  /-- RET (R66): RET pops the return PC and jumps. -/
  | ret (n : CoreId)
  /-- SELECT (R67): SELECT reads a Bay control word atomically and jumps through a table on a field of it. -/
  | select (n : CoreId)
  /-- CHEAP (R69): CHEAP costs one cycle, or waits as SIG when a stop or pre-emption is pending. -/
  | cheap (n : CoreId)
  /-- CHEAP_STOP (R69): The stream stops at a CHEAP: run-ahead undone, state saved, live ranges recorded, and the slot moves on when all cores stopped. -/
  | cheapStop (n : CoreId)
  /-- YIELD (R70): YIELD ends the stream's turn when another stream is ready or its wake mask is set, else costs one cycle. -/
  | yield (n : CoreId)
  /-- YIELD_STOP (R70): After its wait, a yielding core stops at the YIELD and the slot goes ready or dormant. -/
  | yieldStop (n : CoreId)
  /-- HALT (R70): The sequencer reaches HALT and waits as SIG waits. -/
  | halt (n : CoreId)
  /-- HALT_STOP (R70): The stream stops on the core, records CODE, cancels unstarted prefetches, and the slot becomes HALTED when all cores halted. -/
  | haltStop (n : CoreId)
  /-- PREFETCH_MOVE_START (R72): The run-ahead scan starts a prefetch MOVE whose Step is 4 ahead or less and whose destination lies in the run-ahead area. -/
  | prefetchMoveStart (n : CoreId)
  /-- LOAD (R79): LOAD reads an image, checks it in reading order, places sections and measures it. -/
  | load (b : BayId) (j : ImgId) (failAt : Option Nat)
  /-- LOAD_END (R79): The image reads end and the slot enters LOADED with its measurement and Joist profile, or REFUSED with a reason. -/
  | loadEnd (b : BayId) (j : ImgId)
  /-- START (R82): START begins every core at ENTRY from LOADED, or makes a STOPPED slot ready. -/
  | start (b : BayId) (j : ImgId)
  /-- STOP (R82): STOP has each core stop at its next CHEAP or YIELD, or stops an off-core slot at once. -/
  | stop (b : BayId) (j : ImgId)
  /-- ABORT (R82): ABORT stops every core of the slot at once and ends its groups, Steps and run-ahead. -/
  | abort (b : BayId) (j : ImgId)
  /-- UNLOAD (R82): UNLOAD frees the slot's code regions and releases its held ranges. -/
  | unload (b : BayId) (j : ImgId)
  /-- VECTOR_FP_OP (R28): A class 0x0 instruction performs FP arithmetic, conversion or selection for executing threads, with mod-3 checks and replay. -/
  | vectorFpOp (n : CoreId) (g : SlotId) (mism : Fin 3)
  /-- VECTOR_INT_OP (R93): A class 0x1 instruction performs integer arithmetic, logic or TID. -/
  | vectorIntOp (n : CoreId) (g : SlotId) (mism : Fin 3)
  /-- VECTOR_IMM_OP (R93): A class 0x2 instruction performs an immediate operation. -/
  | vectorImmOp (n : CoreId) (g : SlotId) (mism : Fin 3)
  /-- SPECIAL_FUNCTION (R28): A class 0x3 instruction computes EXP2, LOG2, RCP or RSQ on the special-function pipe. -/
  | specialFunction (n : CoreId) (g : SlotId) (mism : Fin 3)
  /-- VECTOR_COMPARE (R93): A compare writes predicate bits of executing threads. -/
  | vectorCompare (n : CoreId) (g : SlotId)
  /-- PREDICATE_LOGIC (R90): PAND, POR, PXOR or PANDN writes a whole predicate register when some thread executes. -/
  | predicateLogic (n : CoreId) (g : SlotId)
  /-- S2P (R93): S2P copies a scalar register into a predicate register. -/
  | s2p (n : CoreId) (g : SlotId)
  /-- P2S (R93): P2S copies a predicate register into a scalar register. -/
  | p2s (n : CoreId) (g : SlotId)
  /-- SCALAR_OP (R93): A class 0x5 instruction performs a 64-bit scalar operation. -/
  | scalarOp (n : CoreId) (g : SlotId)
  /-- SHFL (R99): SHFL reads VA of the thread that VB names. -/
  | shfl (n : CoreId) (g : SlotId)
  /-- SHFLX (R99): SHFLX reads VA of thread t xor LANE. -/
  | shflx (n : CoreId) (g : SlotId)
  /-- SHFLU (R99): SHFLU reads VA of thread t minus LANE. -/
  | shflu (n : CoreId) (g : SlotId)
  /-- SHFLD (R99): SHFLD reads VA of thread t plus LANE. -/
  | shfld (n : CoreId) (g : SlotId)
  /-- BCAST (R99): BCAST broadcasts VA of one lane. -/
  | bcast (n : CoreId) (g : SlotId)
  /-- V2S (R99): V2S copies one lane of VA into a scalar register. -/
  | v2s (n : CoreId) (g : SlotId)
  /-- S2V (R99): S2V copies a scalar into VD of executing threads. -/
  | s2v (n : CoreId) (g : SlotId)
  /-- ANY (R99): ANY sets a predicate to all ones when any executing thread has the source bit. -/
  | any (n : CoreId) (g : SlotId)
  /-- ALL (R99): ALL sets a predicate to all ones when every executing thread has the source bit. -/
  | all (n : CoreId) (g : SlotId)
  /-- BALLOT (R99): BALLOT writes the executing mask AND a predicate into a scalar. -/
  | ballot (n : CoreId) (g : SlotId)
  /-- RADD (R99): RADD folds VA by addition in ascending thread order. -/
  | radd (n : CoreId) (g : SlotId) (mism : Fin 3)
  /-- RMIN (R99): RMIN folds VA by minimum. -/
  | rmin (n : CoreId) (g : SlotId)
  /-- RMAX (R99): RMAX folds VA by maximum. -/
  | rmax (n : CoreId) (g : SlotId)
  /-- LD (R100): LD checks every executing thread's address precisely and loads from the Pantry or through the Shelf. -/
  | ld (n : CoreId) (g : SlotId)
  /-- ST (R103): ST checks addresses precisely and stores to the Pantry or writes through the Shelf. -/
  | st (n : CoreId) (g : SlotId)
  /-- LDS (R100): LDS loads 8 bytes at one uniform address into a scalar register. -/
  | lds (n : CoreId) (g : SlotId)
  /-- SHELF_FILL (R126): A Shelf line fill returns its data to the waiting loads and is installed unless an invalidation came first. -/
  | shelfFill (n : CoreId) (line : Nat)
  /-- ATOM_ADD (R107): An atomic ADD updates each addressed 4-byte value, combined per address, returning serial values. -/
  | atomAdd (n : CoreId) (g : SlotId) (mism : Fin 3)
  /-- ATOM_MIN (R107): An atomic MIN updates each addressed value. -/
  | atomMin (n : CoreId) (g : SlotId)
  /-- ATOM_MAX (R107): An atomic MAX updates each addressed value. -/
  | atomMax (n : CoreId) (g : SlotId)
  /-- ATOM_AND (R107): An atomic AND updates each addressed value. -/
  | atomAnd (n : CoreId) (g : SlotId)
  /-- ATOM_OR (R107): An atomic OR updates each addressed value. -/
  | atomOr (n : CoreId) (g : SlotId)
  /-- ATOM_XOR (R107): An atomic XOR updates each addressed value. -/
  | atomXor (n : CoreId) (g : SlotId)
  /-- ATOM_XCHG (R108): An atomic XCHG performs one memory operation per thread in thread order. -/
  | atomXchg (n : CoreId) (g : SlotId)
  /-- ATOM_CAS (R108): An atomic CAS stores VB where the value equals VC, one operation per thread. -/
  | atomCas (n : CoreId) (g : SlotId)
  /-- PK (R94): PK forms two MX blocks from FP32 values and returns element and scale codes. -/
  | pk (n : CoreId) (g : SlotId) (mism : Fin 3)
  /-- UNPK (R94): UNPK converts an element and a scale code to FP32. -/
  | unpk (n : CoreId) (g : SlotId) (mism : Fin 3)
  /-- NOP (R92): NOP advances the PC. -/
  | nop (n : CoreId) (g : SlotId)
  /-- JMP (R95): JMP moves every active thread to the target, updating the spin count on a backward transfer. -/
  | jmp (n : CoreId) (g : SlotId)
  /-- BRNZ (R95): BRNZ jumps when a scalar is non-zero. -/
  | brnz (n : CoreId) (g : SlotId)
  /-- BRZ (R95): BRZ jumps when a scalar is zero. -/
  | brz (n : CoreId) (g : SlotId)
  /-- SPLIT (R95): SPLIT pushes a split entry and runs the taken path first. -/
  | split (n : CoreId) (g : SlotId)
  /-- JOIN (R95): JOIN runs the pending path or restores and pops the split entry. -/
  | join (n : CoreId) (g : SlotId)
  /-- LPUSH (R96): LPUSH pushes a loop entry. -/
  | lpush (n : CoreId) (g : SlotId)
  /-- BRK (R96): BRK removes threads from the active mask of a divergent loop. -/
  | brk (n : CoreId) (g : SlotId)
  /-- LOOPIF (R96): LOOPIF keeps the predicated threads and loops or leaves. -/
  | loopif (n : CoreId) (g : SlotId)
  /-- LPOP (R96): LPOP restores and pops the loop entry. -/
  | lpop (n : CoreId) (g : SlotId)
  /-- WAITSIB (R114): WAITSIB swaps to the sibling path or makes the group not ready for 64 cycles. -/
  | waitsib (n : CoreId) (g : SlotId)
  /-- WTALLY (R111): WTALLY holds the group until a core Tally reaches a scalar target. -/
  | wtally (n : CoreId) (g : SlotId)
  /-- WTALLY_TARGET_REACHED (R111): A waiting WTALLY finds its Tally reached and completes as an acquire. -/
  | wtallyTargetReached (n : CoreId) (g : SlotId)
  /-- SIGT (R112): SIGT waits as a release, then increments a Tally of a core of this device. -/
  | sigt (n : CoreId) (g : SlotId)
  /-- GROUP_FENCE (R110): A Lemgus-V FENCE waits for earlier memory operations or holds later instructions. -/
  | groupFence (n : CoreId) (g : SlotId)
  /-- GBAR (R113): GBAR holds the group until every unended group of the kernel arrives at the same ID, then releases all. -/
  | gbar (n : CoreId) (g : SlotId)
  /-- EXIT (R98): EXIT removes executing threads from live and active and moves the mask stack. -/
  | exit (n : CoreId) (g : SlotId)
  /-- GROUP_END (R89): A group whose live mask is zero ends once its stores and atomics are performed, freeing its slot and completing its kernel when last. -/
  | groupEnd (n : CoreId) (g : SlotId)
  /-- TRAP (R116): TRAP parks the group with code 0x0B and keeps its CODE. -/
  | trap (n : CoreId) (g : SlotId)
  /-- RESUME (R117): RESUME re-executes a parked group's faulting instruction. -/
  | resume (w : Writer) (n : CoreId) (g : SlotId)
  /-- RESUME_NEXT (R117): RESUME_NEXT continues a parked group at PC plus one. -/
  | resumeNext (w : Writer) (n : CoreId) (g : SlotId)
  /-- DISCARD (R117): DISCARD ends a parked group as if every live thread exited. -/
  | discard (w : Writer) (n : CoreId) (g : SlotId)
  /-- GROUP_STATE_WRITE (R118): A write of a parked group's state view or active mask takes effect; otherwise it is discarded. -/
  | groupStateWrite (w : Writer) (n : CoreId) (off : Nat) (v : DWord)
  /-- QMAP_CMD (R131): A write of LRD_QMAP_CMD starts moving a Cellar granule's home to a new die. -/
  | qmapCmd (w : Writer) (granule : Fin 512) (die : DieId)
  /-- QMAP_CHANGE_END (R131): The granule's write-back and invalidation finish, the new die is set and waiting accesses complete. -/
  | qmapChangeEnd
  /-- TLB_WALK (R136): A TLB miss or denied cached entry walks the page tables and completes or fails the translation. -/
  | tlbWalk (g : ClusterId) (i : InstId) (va : BitVec 48) (read write : Bool)
  /-- TLB_INV (R137): A write of LRD_TLB_INV drops matching TLB entries of an instance. -/
  | tlbInv (w : Writer) (i : Fin 64) (size : Fin 4) (vpn : BitVec 36)
  /-- TLB_INV_END (R137): BUSY falls once every dropped entry's users have completed. -/
  | tlbInvEnd
  /-- PREFETCH (R138): A range PREFETCH starts filling the range's lines into their homes. -/
  | prefetch (w : Writer) (i : InstId)
  /-- FLUSH (R138): A range FLUSH starts writing dirty data of the range back. -/
  | flush (w : Writer) (i : InstId)
  /-- INVALIDATE (R138): A range INVALIDATE starts flushing and removing every copy of the range. -/
  | invalidate (w : Writer) (i : InstId)
  /-- RANGE_DISCARD (R138): A range DISCARD starts marking the range's Larder lines dead. -/
  | rangeDiscard (w : Writer) (i : InstId)
  /-- RANGE_LINE (R138): A range operation translates and acts on its next line, ending with an error or completing the operation after the last line. -/
  | rangeLine (i : InstId) (fail : Bool)
  /-- GRANT_PIN (R140): GRANT_PIN starts writing back and removing a way to give it to an instance as a PIN way. -/
  | grantPin (w : Writer) (way : Fin 16) (i : Fin 64)
  /-- GRANT_LOCKER (R140): GRANT_LOCKER starts clearing a way to back the next Locker unit. -/
  | grantLocker (w : Writer) (way : Fin 16) (i : Fin 64)
  /-- REVOKE (R140): REVOKE frees a PIN way after write-back, or unbacks the highest Locker unit at once. -/
  | revoke (w : Writer) (way : Fin 16) (i : Fin 64)
  /-- PIN_CMD_END (R140): PIN_BUSY falls and the grant or PIN revoke becomes visible in the registers. -/
  | pinCmdEnd
  /-- RDS (R152): A home takes RdS and grants E or S, snooping an owner when there is one. -/
  | rds (g : ClusterId) (line : Nat)
  /-- RDU (R152): A home takes RdU, invalidates every holder and grants M with data. -/
  | rdu (g : ClusterId) (line : Nat)
  /-- UPG (R152): A home takes Upg and grants M without data, or treats it as RdU. -/
  | upg (g : ClusterId) (line : Nat)
  /-- WRU (R152): A home takes WrU, invalidates holders and grants M for a full-line write. -/
  | wru (g : ClusterId) (line : Nat) (data : Line)
  /-- WBD (R152): A home takes WbD, stores the data dirty and clears the owner. -/
  | wbd (g : ClusterId) (line : Nat)
  /-- EVC (R152): A home takes EvC and updates PRES and OWN. -/
  | evc (g : ClusterId) (line : Nat)
  /-- RDN (R152): A home takes RdN and completes with data, cleaning an owner first. -/
  | rdn (who : Agent) (line tag : Nat)
  /-- WRN (R152): A home takes WrN, invalidates holders and merges the bytes. -/
  | wrn (who : Agent) (line tag : Nat) (data : Line) (mask : BitVec 128) (poison : Bool)
  /-- RED (R158): A home takes a Red, snoops holders away, sets RED and queues it, or forwards it to the memory side. -/
  | red (who : Agent) (line tag : Nat) (op : RedOp)
  /-- ATM (R162): A home takes an Atm and handles it through the reduction queue as a Red. -/
  | atm (who : Agent) (line tag : Nat) (op : AtomOp)
  /-- SNPS (R151): A Cupboard takes SnpS and supplies data to the requester. -/
  | snps (g : ClusterId) (line : Nat)
  /-- SNPC (R151): A Cupboard takes SnpC and writes dirty data back. -/
  | snpc (g : ClusterId) (line : Nat)
  /-- SNPI (R151): A Cupboard takes SnpI, invalidates and returns dirty data. -/
  | snpi (g : ClusterId) (line : Nat)
  /-- FWD (R155): In owner ordering, an owner takes a forwarded request and serves it. -/
  | fwd (line : Nat)
  /-- DAT (R151): A requester takes data with its granted state. -/
  | dat (who : Agent) (line : Nat)
  /-- GNTM (R151): A requester takes ownership without data. -/
  | gntm (who : Agent) (line : Nat)
  /-- RSP (R153): A home takes a filter's combined snoop response. -/
  | rsp (die : DieId) (line : Nat)
  /-- CMP (R150): A non-caching requester or Red or Atm sender takes a completion. -/
  | cmp (who : Agent) (line tag : Nat)
  /-- ACK (R150): A home takes Ack, ends the transaction and starts the next conflicting one. -/
  | ack (who : Agent) (line : Nat)
  /-- LARDER_FILL (R154): A home fills an absent line, choosing and evicting a victim, or waits for an eligible way. -/
  | larderFill (line : Nat)
  /-- RED_BIND (R158): A free reduction unit binds to a queued line and reads it. -/
  | redBind (sl : SliceId) (unit : SlotId)
  /-- RED_UNBIND (R158): A reduction unit finishes its binding, writes the line back, completes its requests and clears RED when none remain. -/
  | redUnbind (sl : SliceId) (unit : SlotId) (mism : Fin 3)
  /-- MRED (R160): A Cellar controller performs a forwarded reduction as a read-modify-write of the Cellar line. -/
  | mred (line : Nat)
  /-- MACK (R160): A home takes MAck, sends Cmp and clears the forward entry at the last one. -/
  | mack (line : Nat)
  /-- ENTER_OWNER (R156): ENTER_OWNER stops homes starting transactions and drains them before forwarding. -/
  | enterOwner (w : Writer) (reason : Fin 4)
  /-- EXIT_OWNER (R156): EXIT_OWNER rebuilds PRES and OWN from the filters and resumes home ordering. -/
  | exitOwner (w : Writer)
  /-- OWNER_ORDER_ENTERED (R156): The drain ends and ORDER reads 1. -/
  | ownerOrderEntered
  /-- HOME_ORDER_RESUMED (R156): The rebuild ends, ORDER and REASON read 0 and held requests start. -/
  | homeOrderResumed
  /-- CST_TALLY_WRITE (R181): A write of CST_TALLYi sets the Tally VALUE, before any increment of the cycle. -/
  | cstTallyWrite (w : Writer) (n : CoreId) (i : Fin 4096) (v : DWord)
  /-- CST_TALLY_ADD (R176): A write of CST_TALLY_ADDi increments the Tally by AMOUNT as a system-scope release. -/
  | cstTallyAdd (w : Writer) (n : CoreId) (i : Fin 4096) (v : DWord)
  /-- CHANNEL_START (R188): A Porter channel starts its next queued descriptor once the present one has issued, or completed under ORDER. -/
  | channelStart (p : Fin 1024) (c : Fin 16)
  /-- PORTER_ACCESS (R188): An active channel takes its turn and issues one access, checking the fields it depends on. -/
  | porterAccess (p : Fin 1024) (c : Fin 16)
  /-- DESCRIPTOR_COMPLETE (R195): A descriptor completes once writes are performed, Reds complete and increments applied, completing its MOVE. -/
  | descriptorComplete (p : Fin 1024) (c : Fin 16)
  /-- BUS_ERROR (R198): An error response reaches a Porter instance, which stops issuing and enters STOPPING. -/
  | busError (p : Fin 1024)
  /-- PORTER_STOPPED (R198): The accesses in flight end, the instance enters STOPPED and its MOVEs complete with error. -/
  | porterStopped (p : Fin 1024)
  /-- PORTER_CLEAR (R199): CLEAR drops every descriptor of a stopped instance, which then runs. -/
  | porterClear (w : Writer) (p : Fin 1024)
  /-- PORTER_RETRY (R199): RETRY restarts each stopped descriptor at its PROG row. -/
  | porterRetry (w : Writer) (p : Fin 1024)
  /-- CLEAR_CHANNEL (R199): CLEAR_CHANNEL drops the descriptors of a channel in ERROR. -/
  | clearChannel (w : Writer) (p : Fin 1024) (c : Fin 16)
  /-- RETRY_CHANNEL (R199): RETRY_CHANNEL restarts a channel in ERROR from PROG. -/
  | retryChannel (w : Writer) (p : Fin 1024) (c : Fin 16)
  /-- CH0_POST (R201): A write of CH0_POST copies a descriptor from global memory into cluster channel 0's queue. -/
  | ch0Post (w : Writer) (g : ClusterId)
  /-- ROUND_BOUNDARY (R212): At a round boundary the serving program takes requests, cancels, ends sequences, admits and builds the batch. -/
  | roundBoundary (b : BayId) (seen : List (Nat × Byte))
  /-- DRAFT_PROPOSE (R220): The draft model proposes and samples up to n draft tokens. -/
  | draftPropose (b : BayId) (slot draft : Fin 1024) (logits : List (List Word))
  /-- ROUND_COMMIT (R223): After the round's Steps commit, LEN is advanced atomically, GEN rolls back Landing rows and PENDING is set. -/
  | roundCommit (b : BayId) (slot : Fin 1024) (poison : Fin 3) (logits : List (List Word))
  /-- COMPLETION_POST (R207): A completion entry is written, PROD released at system scope and the vector raised, or held while the ring is full. -/
  | completionPost (b : BayId) (c : Fin 4) (seen : List (Nat × Byte))
  /-- BAY_FORM (R226): A write of BAY_CFG with EN 1 forms the Bay when its checks pass and zeroes its control words. -/
  | bayForm (w : Writer) (b : BayId) (inst : Fin 64) (ordered : Bool)
  /-- BAY_DISSOLVE (R226): A write of EN 0 dissolves a Bay whose slots are all EMPTY. -/
  | bayDissolve (w : Writer) (b : BayId)
  /-- CONTROL_WORD_WRITE (R228): A write of a Bay control word stores it atomically and wakes dormant slots whose wake mask names it. -/
  | controlWordWrite (w : Writer) (b : BayId) (i : Fin 16) (v : DWord)
  /-- SLICE_END (R231): A stream's time slice expires and the scheduler may make a switch pending. -/
  | sliceEnd (b : BayId)
  /-- CORE_RESUME (R232): A core's spills and restores end and it reloads the incoming context and resumes. -/
  | coreResume (n : CoreId)
  /-- SLOW_WINDOW_END (R240): At each 1 ms window end each Bay's slow-down is computed. -/
  | slowWindowEnd (b : BayId) (i : Fin 131072)
  /-- TENANT_POST (R248): A write of HAT_TPOST copies the tenant staging into the tenant-to-manager ring, or refuses the post. -/
  | tenantPost (w : Writer) (v : VfId)
  /-- MANAGER_POST (R248): A write of HAT_MPOST copies the manager staging into the manager-to-tenant ring, or refuses it. -/
  | managerPost (w : Writer) (v : VfId)
  /-- HATCH_CONS_WRITE (R248): A consumer index write advances CONS unless it would pass PROD. -/
  | hatchConsWrite (w : Writer) (v : VfId) (m2t : Bool) (cons : Word)
  /-- DEVICE_MESSAGE (R249): The OV4 posts a device message into the manager-to-tenant ring, queueing or counting it when the ring is full or closed. -/
  | deviceMessage (v : VfId)
  /-- ENABLE (R251): ENABLE moves an ABSENT instance to ACTIVE and clears its Hatch page. -/
  | enable (w : Writer) (v : VfId)
  /-- QUIESCE (R253): QUIESCE closes the data path and stops the instance's running slots. -/
  | quiesce (w : Writer) (v : VfId)
  /-- QUIESCE_FORCE (R253): FORCE_US after QUIESCE expires and slots still STOPPING are aborted. -/
  | quiesceForce (v : VfId)
  /-- QUIESCE_COMPLETE (R253): The instance enters QUIESCED in the first cycle in which all its work has drained. -/
  | quiesceComplete (v : VfId)
  /-- INSTANCE_RESUME (R251): RESUME returns a QUIESCED or FROZEN instance to ACTIVE. -/
  | instanceResume (w : Writer) (v : VfId)
  /-- FREEZE (R257): FREEZE writes back and invalidates the Bays' Cupboards and refuses inbound traffic. -/
  | freeze (w : Writer) (v : VfId)
  /-- SAVE (R257): SAVE writes the instance's save record with the Storekeeper channels. -/
  | save (w : Writer) (v : VfId)
  /-- SAVE_END (R257): The save record's DIGEST is written last and the instance returns to FROZEN. -/
  | saveEnd (v : VfId) (fail : Bool)
  /-- RESTORE (R258): RESTORE reads and checks a save record and places it into the instance. -/
  | restore (w : Writer) (v : VfId)
  /-- RESTORE_END (R258): Placement ends and the instance returns to FROZEN, or fails with slots EMPTY. -/
  | restoreEnd (v : VfId) (fail : Fin 3)
  /-- RESET (R255): RESET clears the instance's tenant-visible state and keeps the manager's set-up. -/
  | reset (w : Writer) (v : VfId)
  /-- RESET_END (R255): The clearing of RESET completes and the instance returns to QUIESCED. -/
  | resetEnd (v : VfId)
  /-- REMOVE (R256): REMOVE clears a fully released instance and makes it ABSENT. -/
  | remove (w : Writer) (v : VfId)
  /-- VF_FLR (R254): A function-level reset of a virtual function aborts, resets and reactivates its instance. -/
  | vfFlr (v : VfId)
  /-- SHARED_REFETCH (R259): An uncorrectable error in a shared-range line marks it refetching and starts a backing read. -/
  | sharedRefetch (line : Nat)
  /-- SHARED_REFETCH_DONE (R259): The backing line arrives, POISON clears and waiting requests complete. -/
  | sharedRefetchDone (line : Nat) (host : Line)
  /-- SHARED_REFETCH_FAIL (R260): The backing read fails or exceeds 1 ms, the line is poisoned and SHARED_POISON posted. -/
  | sharedRefetchFail (line : Nat)
  /-- JOIST_FLIT_RECEIVE (R265): A Joist receiver takes a flit, checks CRC, delivers in LSEQ order, processes acks and credits, and NAKs on error. -/
  | joistFlitReceive (k : Fin 16) (m : Fin 24) (flit : BitVec 2048)
  /-- JOIST_ACK_TIMEOUT (R266): A DATA flit unacknowledged for 8 us fails the link. -/
  | joistAckTimeout (k : Fin 16)
  /-- JOIST_MESSAGE_SEND (R267): A message is sent on a Joist channel once it holds credits for all its slots. -/
  | joistMessageSend (d : Fin 6) (who : Agent) (m : JoistMsg)
  /-- PRD (R267): A core takes a Pantry-window read message. -/
  | prd (d : DieId) (k : Nat)
  /-- PWR (R267): A core takes a Pantry-window write message. -/
  | pwr (d : DieId) (k : Nat)
  /-- TINC (R267): A core takes a Tally increment message. -/
  | tinc (d : DieId) (k : Nat)
  /-- PCMP (R267): A requester takes a Pantry-window write completion. -/
  | pcmp (d : Fin 6) (k : Nat)
  /-- PDAT (R267): A requester takes Pantry-window read data. -/
  | pdat (d : Fin 6) (k : Nat)
  /-- CMPD (R267): A requester takes a completion with data. -/
  | cmpd (d : Fin 6) (k : Nat)
  /-- GRD (R267): A die's register block takes a register read message. -/
  | grd (d : Fin 6) (k : Nat)
  /-- GWR (R267): A die's register block takes a register write message. -/
  | gwr (d : Fin 6) (k : Nat)
  /-- GCMP (R267): A requester takes a register access completion. -/
  | gcmp (d : Fin 6) (k : Nat)
  /-- SEVT (R267): A management agent takes a sensor and event report. -/
  | sevt (d : Fin 6) (k : Nat)
  /-- MODULE_CRC_WINDOW (R272): At each 1 ms window a module over THRESH is taken out for retraining. -/
  | moduleCrcWindow (j : LinkId)
  /-- MODULE_RETRAIN_END (R272): A retraining module returns or is disabled, narrowing the link. -/
  | moduleRetrainEnd (j : LinkId) (ok : Bool) (lanes : Fin 9)
  /-- LINK_SILENCE (R275): A receiver takes no good flit for 2 us and the link reports silence. -/
  | linkSilence (j : LinkId) (d : Fin 6) (late : Bool)
  /-- SUPPLY_MONITOR_TRIP (R275): A rail stays below its monitor level for 1 us and the die is lost. -/
  | supplyMonitorTrip (rail : Fin 12)
  /-- REJOIN (R278): REJOIN starts bringing a fenced compute die back in quadrant mode. -/
  | rejoin (w : Writer) (d : DieId)
  /-- REJOIN_END (R278): The die is trained, routes restored, LOST cleared and home ordering resumed. -/
  | rejoinEnd (d : DieId) (x : Bringup)
  /-- CHUTE_BLOCK_RECEIVE (R284): A Chute receiver decodes a block of six codewords and delivers or discards its 15 flits. -/
  | chuteBlockReceive (p : PortId) (corrected : Nat) (bad : Fin 7) (block : BitVec 30840)
  /-- CHUTE_ACK_TIMEOUT (R287): A DATA flit unacknowledged for 16 us fails the port. -/
  | chuteAckTimeout (p : PortId)
  /-- LANE_LOCK_LOSS (R287): Loss of framing lock on any lane fails the port. -/
  | laneLockLoss (p : PortId) (lane : Fin 12)
  /-- CHUTE_TRAINING_DONE (R285): A port completes training and runs at the lower protocol level. -/
  | chuteTrainingDone (p : PortId) (peer : Fin 2048) (level : Fin 256)
  /-- CHUTE_TRAINING_RETRY (R285): An untrained port retries at 1 s intervals. -/
  | chuteTrainingRetry (p : PortId)
  /-- CHUTE_MESSAGE_SEND (R288): A Chute message is sent once it has a tag and credits on its channel. -/
  | chuteMessageSend (k : Nat)
  /-- RWR (R290): A destination takes RWR, checks epoch and inbound map and writes the data. -/
  | rwr (k : Nat)
  /-- RWR_B (R290): A destination takes RWR_B, writes the data and counts its bytes on a Tally. -/
  | rwrB (k : Nat)
  /-- RWR_P (R290): A destination takes RWR_P, writes the data and counts one on a Tally. -/
  | rwrP (k : Nat)
  /-- RRED (R290): A destination takes RRED and performs a Red at the home. -/
  | rred (k : Nat)
  /-- RRED_B (R290): A destination takes RRED_B and counts the covered bytes at Cmp. -/
  | rredB (k : Nat)
  /-- RRED_P (R290): A destination takes RRED_P and counts one at Cmp. -/
  | rredP (k : Nat)
  /-- RTINC (R290): A destination takes RTINC and increments a Tally as a span-scope release. -/
  | rtinc (k : Nat)
  /-- RRD (R290): A destination takes RRD and reads with RdN. -/
  | rrd (k : Nat)
  /-- RCMP (R291): A source takes a completion, completing the message or with error. -/
  | rcmp (k : Nat)
  /-- RCMPD (R291): A source takes a read completion with data. -/
  | rcmpd (k : Nat)
  /-- CHUTE_FORWARD (R298): A transit device forwards a message from ingress to egress port by its transit table. -/
  | chuteForward (k : Nat)
  /-- SPN_PWR (R364): A master takes a power report or a member takes a cap. -/
  | spnPwr (k : Nat)
  /-- SPN_CEPOCH (R303): A member takes the collective epoch, stores it and sets CHU_EVT.CEPOCH. -/
  | spnCepoch (k : Nat)
  /-- SPN_FAIL (R303): The master takes a failure report, raises CEPOCH and sends it to every member. -/
  | spnFail (k : Nat)
  /-- MESSAGE_TIMEOUT (R301): A REQ message without completion after TIMEOUT_US completes with TIMEOUT. -/
  | messageTimeout (k : Nat)
  /-- RETRAIN (R300): CHU_CMD RETRAIN retrains a failed port. -/
  | retrain (w : Writer) (p : PortId)
  /-- RESTORE_ROUTES (R300): RESTORE_ROUTES returns lookups to the primary tables or the lowest failed port's alternate. -/
  | restoreRoutes (w : Writer)
  /-- XLOAD (R297): XLOAD installs the transit route tables from CHU_XADDR. -/
  | xload (w : Writer)
  /-- SPAN_ENABLE (R302): A write of CHU_SPAN sets the span ID and master and enables span traffic. -/
  | spanEnable (w : Writer) (v : DWord)
  /-- CONFIG_REQUEST (R318): A configuration request is retried until inventory and configuration are ready, then completed; the first success marks start success. -/
  | configRequest (f : InstId) (op : CfgOp)
  /-- HOST_REQUEST (R308): An inbound BAR0 or BAR2 memory request through a function is served, translated or refused. -/
  | hostRequest (f : InstId) (bar : Fin 6) (off : Nat) (op : HostOp) (peer ide : Bool)
  /-- HOST_COMPLETION (R316): A completion arrives from the host for a request of the OV4, or is discarded as late. -/
  | hostCompletion (tag : Nat) (status : Fin 3) (data : Nat) (poison : Bool)
  /-- COMPLETION_TIMEOUT (R316): A non-posted request without completion in the timeout fails as a bus error. -/
  | completionTimeout (tag : Nat)
  /-- ATS_TRANSLATION (R314): An ATS translation completes and the access is issued translated or fails. -/
  | atsTranslation (tag : Nat) (ok : Bool) (size : Fin 64)
  /-- ATS_INVALIDATE (R314): An Invalidate Request drops cache entries and completes after their users. -/
  | atsInvalidate (f : InstId) (size : Fin 64) (page : Nat)
  /-- MSIX_UNMASK (R313): Unmasking a vector with its pending bit set sends one message. -/
  | msixUnmask (f : InstId) (v : Fin 256)
  /-- F0_FLR (R319): A function-level reset of function 0 performs a warm restart. -/
  | f0Flr (x : Bringup)
  /-- VF_ENABLE_SET (R318): VF Enable set starts the virtual functions' 1 ms retry period. -/
  | vfEnableSet
  /-- VF_READY (R318): After 1 ms each virtual function sends Function Readiness Status. -/
  | vfReady
  /-- VF_ENABLE_CLEAR (R319): Clearing VF Enable quiesces and aborts every present instance. -/
  | vfEnableClear
  /-- HOST_LINK_DOWN (R320): The host link goes down and every outstanding request of the OV4 fails. -/
  | hostLinkDown
  /-- HOST_LINK_TRAIN (R320): The link trains to the highest rate and width that equalise. -/
  | hostLinkTrain (speed : Fin 8) (width : Fin 33)
  /-- CELLAR_READ (R328): A Cellar read returns, with inline and link ECC correction, reissue up to three times, or POISON. -/
  | cellarRead (line : Nat) (bad : Fin 5) (fixed : Bool)
  /-- CELLAR_WRITE (R329): A Cellar write stores a line with its check word and FLAGS, encrypted for owned blocks. -/
  | cellarWrite (line : Nat)
  /-- CELLAR_RETRAIN_TURN (R331): A channel's periodic or requested retraining window opens. -/
  | cellarRetrainTurn
  /-- RETRAIN_WINDOW_END (R331): The retraining window ends and waiting requests proceed, or the channel fails. -/
  | retrainWindowEnd (ok : Bool)
  /-- CELLAR_RETRAIN_CMD (R331): CEL_CMD RETRAIN requests a retraining of a channel at the next turn. -/
  | cellarRetrainCmd (w : Writer) (c : ChanId)
  /-- FOLD (R333): FOLD flushes, rebuilds the interleave over 28 channels and moves lines. -/
  | fold (w : Writer) (p : Fin 8)
  /-- FOLD_END (R333): The fold completes and waiting Cellar accesses proceed. -/
  | foldEnd
  /-- ASSIGN (R335): ASSIGN gives a 2 MiB block to an instance's key. -/
  | assign (w : Writer) (block : Fin 262144) (i : Fin 64)
  /-- KEY_CLEAR (R335): CLEAR gives a block no owner. -/
  | keyClear (w : Writer) (block : Fin 262144)
  /-- REKEY (R335): REKEY replaces an instance's XTS key pair. -/
  | rekey (w : Writer) (i : Fin 64)
  /-- REFCLK_CHECK (R339): Each 1,024 PCLK cycles the Pilot counts reference cycles and resets the package when out of range. -/
  | refclkCheck (count : Nat)
  /-- CLK_PLL_WRITE (R343): A write of CLK_PLLu_p starts or stops a PLL and clears READY, or is refused. -/
  | clkPllWrite (w : Writer) (u : Fin 6) (p : Fin 5) (v : DWord)
  /-- PLL_READY (R343): 4,096 reference cycles after start READY rises. -/
  | pllReady (u : Fin 6) (p : Fin 5)
  /-- CLK_SEL_WRITE (R345): A write of CLK_SELu starts a glitch-free switch, or is refused. -/
  | clkSelWrite (w : Writer) (u : Fin 6) (v : DWord)
  /-- CLOCK_SWITCH_DONE (R344): The multiplexer finishes the switch and SWITCHING falls. -/
  | clockSwitchDone (u : Fin 6)
  /-- SSC_PERIOD_START (R347): At the next modulation period start a new CLK_SSCu value takes effect. -/
  | sscPeriodStart (u : Fin 6)
  /-- THROTTLE_TICK (R353): Every 100 ns the current samples update every throttle accumulator and each die's level. -/
  | throttleTick (amps : List Nat)
  /-- THROTTLE_FRAME (R354): At each 64-cycle frame a die's new bubble level takes effect. -/
  | throttleFrame (d : DieId)
  /-- TEMPERATURE_SAMPLE (R355): Every 10 us temperatures are read, starting or ending hard throttles. -/
  | temperatureSample (d : Fin 6) (tc tu : Byte)
  /-- CLOCK_GATE_TIMER (R357): An idle cluster clock-gates after CG_DELAY_US. -/
  | clockGateTimer (g : ClusterId)
  /-- POWER_GATE_TIMER (R357): A clock-gated cluster writes back its Cupboard and power-gates after PG_DELAY_US. -/
  | powerGateTimer (g : ClusterId)
  /-- CLUSTER_WAKE (R358): A wake trigger starts waking a power-gated cluster. -/
  | clusterWake (g : ClusterId)
  /-- WAKE_COMPLETE (R358): The cluster is powered and waiting switches, increments and accesses proceed. -/
  | wakeComplete (g : ClusterId)
  /-- PHASE_SAMPLE (R360): Every 1 us each Bay's phase is sampled and clusters vote operating points. -/
  | phaseSample
  /-- VREG_ACK (R361): The regulator acknowledges a voltage write and the raise switches clocks. -/
  | vregAck (d : DieId)
  /-- VREG_TIMEOUT (R361): A regulator silent for 100 us leaves the die at its old point and sets VREG. -/
  | vregTimeout (d : DieId)
  /-- D3HOT_ENTRY (R362): Entry to D3hot aborts running slots and enters Standby. -/
  | d3hotEntry
  /-- D3COLD_ENTRY (R362): Entry to Off flushes the Larder and powers down all but the Pilot. -/
  | d3coldEntry
  /-- SPAN_PERIOD_END (R364): At each power period end a device computes its weight and sends SPN_PWR. -/
  | spanPeriodEnd
  /-- COLD_START (R369): A cold start runs every step of Table SE-1, counted under R371, possibly entering Boxroom mode. -/
  | coldStart (x : Bringup)
  /-- WARM_RESTART (R369): The Storekeeper begins a warm restart from row W, keeping the verified image, keys and Cellar. -/
  | warmRestart (x : Bringup)
  /-- START_WATCHDOG (R370): A start not succeeded in 80,000,000 PCLK cycles ends with a package reset and a cause record. -/
  | startWatchdog (stage detail : Nat)
  /-- NEW_NONCE (R383): NEW_NONCE writes a fresh random nonce. -/
  | newNonce (w : Writer)
  /-- APPLY_TOKEN (R383): APPLY_TOKEN verifies and applies a token and consumes the nonce. -/
  | applyToken (w : Writer) (fails vendorSig ownerSig : Bool)
  /-- DEBUG_CLOSE (R381): DEBUG_CLOSE sets the debug state to Closed. -/
  | debugClose (w : Writer)
  /-- COMMIT_SVN (R375): COMMIT_SVN raises SVN_MIN to the running image's SVN. -/
  | commitSvn (w : Writer)
  /-- RETRY (R372): RETRY in Boxroom mode clears the failed-start count and resets the package. -/
  | retry (w : Writer)
  /-- RECOVER (R372): RECOVER verifies and writes a recovery image, then acts as RETRY. -/
  | recover (w : Writer) (fails sig : Bool)
  /-- GET_VERSION (R377): The SPDM responder answers GET_VERSION. -/
  | getVersion (f : InstId)
  /-- GET_CAPABILITIES (R377): The SPDM responder answers GET_CAPABILITIES. -/
  | getCapabilities (f : InstId)
  /-- NEGOTIATE_ALGORITHMS (R377): The SPDM responder answers NEGOTIATE_ALGORITHMS. -/
  | negotiateAlgorithms (f : InstId)
  /-- GET_DIGESTS (R377): The SPDM responder returns certificate digests. -/
  | getDigests (f : InstId)
  /-- GET_CERTIFICATE (R377): The SPDM responder returns the certificate chain. -/
  | getCertificate (f : InstId)
  /-- CHALLENGE (R377): The SPDM responder answers CHALLENGE. -/
  | challenge (f : InstId)
  /-- GET_MEASUREMENTS (R377): The SPDM responder returns measurement blocks, with the quote when signed. -/
  | getMeasurements (f : InstId) (index : Fin 256) (signed : Bool)
  /-- KEY_EXCHANGE (R377): The SPDM responder starts a secure session. -/
  | keyExchange (f : InstId)
  /-- FINISH (R377): The SPDM responder finishes session set-up. -/
  | finish (f : InstId) (ok : Bool)
  /-- HEARTBEAT (R377): The SPDM responder answers HEARTBEAT. -/
  | heartbeat (f : InstId)
  /-- KEY_UPDATE (R377): The SPDM responder updates session keys. -/
  | keyUpdate (f : InstId)
  /-- END_SESSION (R377): The SPDM responder ends the session. -/
  | endSession (f : InstId)
  /-- CHUNK_SEND (R377): The SPDM responder takes a message chunk. -/
  | chunkSend (f : InstId) (chunk : List Byte) (last : Bool)
  /-- CHUNK_GET (R377): The SPDM responder returns a response chunk. -/
  | chunkGet (f : InstId)
  /-- SET_MIGRATION_SECRET (R379): A tenant sets its migration secret inside a secure session, extending the measurement log. -/
  | setMigrationSecret (v : VfId) (secret : BitVec 256)
  /-- IDE_KM (R321): A secured IDE_KM message sets a function's IDE stream keys. -/
  | ideKm (f : InstId)
  /-- LOCK_INTERFACE_REQUEST (R378): LOCK_INTERFACE_REQUEST locks a virtual function's TDI, or is refused. -/
  | lockInterfaceRequest (v : VfId)
  /-- STOP_INTERFACE (R321): STOP_INTERFACE resets the instance and returns the TDI to CONFIG_UNLOCKED. -/
  | stopInterface (v : VfId)
  /-- GET_DEVICE_INTERFACE_REPORT (R378): The responder lists the TDI's BAR ranges. -/
  | getDeviceInterfaceReport (v : VfId)
  /-- EXTEST_ENTRY (R382): Entering EXTEST resets the package without counting the start as failed. -/
  | extestEntry
  /-- EXTEST_EXIT (R382): Leaving EXTEST begins an uncounted cold start. -/
  | extestExit
  /-- REGACC (R382): REGACC performs a 64-bit BAR0 access in Owner or Vendor debug. -/
  | regacc (off : Nat) (write : Option DWord)
  /-- VENDORSCAN (R382): VENDORSCAN shifts internal chains in Vendor debug. -/
  | vendorscan
  /-- RETIREMENT_WINDOW (R392): At each 1 s window units whose corrected count exceeds ERR_THR are retired. -/
  | retirementWindow (ways : List WayCount)
  /-- WAY_DELETE_END (R393): The deletion completes and waiting requests to the set proceed. -/
  | wayDeleteEnd (unit : Fin 128) (set : Nat)
  /-- PILOT_PWROK_RISE (R402): pilot_pwrok rises and the Pilot begins a cold start and rail sequencing. -/
  | pilotPwrokRise
  /-- PILOT_PWROK_FALL (R403): pilot_pwrok falls and every enable is deasserted at once. -/
  | pilotPwrokFall
  /-- PERST_DEASSERT (R369): perst_n deasserts and a cold start begins. -/
  | perstDeassert
  /-- PWR_PG_RISE (R402): A group's pwr_pg rises and the next enable follows after 100 us. -/
  | pwrPgRise (g : Fin 5)
  /-- PWR_PG_TIMEOUT (R402): A pwr_pg that has not risen in 2 ms ends the start with code 0x05. -/
  | pwrPgTimeout (stage : Nat)
  /-- VR_ALERT (R404): vr_alert_n makes the OV4 read every rail's Status and write a corrected record. -/
  | vrAlert (r : Fin 13)
  /-- AVS_READ_TIMEOUT (R404): An AVSBus read unanswered for 1 ms uses the rail nominal and sets VREG. -/
  | avsReadTimeout (r : Fin 13)
  /-- RETURN_TO_D0 (R362): On return to D0 from Standby, by leaving D3hot or L1.2, clusters wake on demand, the Cellar leaves self-refresh and Chute ports retrain. -/
  | returnToD0
  /-- LINK_L1_2_ENTRY (R362): The host link entering L1.2 with no stream on any cores puts the OV4 into Standby. -/
  | linkL12Entry
  /-- START_INTERFACE_REQUEST (R321): The TDISP request that moves a virtual function's TDI from CONFIG_LOCKED to RUN. -/
  | startInterfaceRequest (v : VfId) (ok : Bool)
  /-- COMPLETER_ABORT_TIMEOUT (R317): An inbound non-posted request not completed within 1 ms completes with Completer Abort and a contained record. -/
  | completerAbortTimeout (k : Nat)
  /-- CELLAR_REFRESH (R324): A per-bank refresh of a Cellar channel at the rate set by the MR4 read-out, updating CEL_CHc_STAT.TEMP. -/
  | cellarRefresh (c : ChanId) (temp : Byte)
  /-- PWR_PG_FALL (R403): A group's pwr_pg falls, ending the start with code 0x05 during R402 or allowing the next enable to be deasserted on entry to Off. -/
  | pwrPgFall (g : Fin 5) (stage : Nat)
  /-- ENABLE_DEASSERT_TIMEOUT (R403): During entry to Off, 2 ms after an enable is deasserted without its pwr_pg falling, the Pilot deasserts the next enable. -/
  | enableDeassertTimeout
  /-- PERST_ASSERT (R412): Assertion of perst_n, which holds off the start until deassertion while letting a running rail sequence complete, with FAILS kept. -/
  | perstAssert
  /-- INBOUND_CHUTE_RETRAIN_REQUEST (R405): An inbound Chute retrain request while the OV4 is Off makes it assert wake_n to leave Off. -/
  | inboundChuteRetrainRequest (p : PortId)
  /-- CHUTE_ACK_INTERVAL (R287): A Chute receiver that has not acknowledged for 200 ns sends an acknowledgement. -/
  | chuteAckInterval (p : PortId)
  /-- REGULATOR_TELEMETRY_READ (R352): Every 100 us the OV4 reads each rail's voltage over the regulator telemetry bus for package power. -/
  | regulatorTelemetryRead (r : Fin 13) (mv : BitVec 16)
  deriving DecidableEq, Repr

end Sys2Proof
end

