-- ==== Sys2Proof/Config.lean ====
section
/-! DEFINITION. What the spec leaves to the part, to a die, to flash or to nobody: opaque constants with no body.
Nothing in Lean can evaluate one; a claim that holds, holds for every value of it.
A constant applied to a plain counter (`State.free`) gives a fresh value at each draw. -/
namespace Sys2Proof.Config

/-- Which of the results inside the error bound of Table NM-8 EXP2 gives for an operand. -/
opaque ulpExp2 : Word → Nat
/-- Which of the results inside the error bound of Table NM-8 LOG2 gives for an operand. -/
opaque ulpLog2 : Word → Nat
/-- Which of the results inside the error bound of Table NM-8 RCP gives for an operand. -/
opaque ulpRcp : Word → Nat
/-- Which of the results inside the error bound of Table NM-8 RSQ gives for an operand. -/
opaque ulpRsq : Word → Nat
/-- A mode-0 activation table whose index is NaN or negative (R25 states no result): operand, then the table's index value. -/
opaque actIndex : Word → Word → Word
/-- Values of the part itself: package revision, feature levels, device ID, flash contents (kind, index; log 3). -/
opaque deviceValue : Nat → Nat → DWord
/-- A choice the spec leaves open, for the k-th draw: a pseudo-LRU victim, a TLB entry to replace. -/
opaque pick : Nat → Nat
/-- What a Cellar line written under one key reads as under another (R335): key written under, key in force, line number, plaintext. -/
opaque otherKey : Option (Nat × Nat) → Option (Nat × Nat) → Nat → Line → Line
/-- The signature of an iteration after one more address and returned value (R115 gives no function). -/
opaque spinSig : Word → Nat → Nat → Word
/-- The destination Bay's core that a thread group's span access names (R293): issuing core, global address. -/
opaque spanCore : Nat → Nat → Nat
/-- An undefined byte: a destination byte that overlaps the source of its own descriptor (Table PT-5), for the k-th draw. -/
opaque freeByte : Nat → Byte

/-- PT_ADDR of a sequence record: Bay, batch slot (R215 gives the page table no place). -/
opaque pageTable : Nat → Nat → Nat
/-- DEC_WORD of a round (R205: its layout belongs to the image), for the k-th draw. -/
opaque roundDecision : Nat → DWord

/-- A random number of the Storekeeper's source, for the k-th draw: nonces, identifiers. -/
opaque random : Nat → BitVec 256
/-- An XTS key pair sealed with AES-256-GCM, and its tag: secret S, key's inst. and generation, nonce (R379). -/
opaque sealKey : BitVec 256 → Nat → Nat → BitVec 96 → BitVec 640
/-- A sealed key pair opened: the generation that stands for it, `none` on a tag mismatch (R379). -/
opaque unsealKey : BitVec 256 → BitVec 96 → BitVec 640 → Option Nat

/-- What AUX of a Joist message stands for (R268 lists its contents by TYPE without their places): 0 bytes of a PRd, 1 bytes of a PWr, 2 Tally index,
3 amount, 4 LKIND, 5 LSCOPE, 6 LCORE, 7 core of a TINC within its cluster. -/
opaque joistAux : Nat → BitVec 24 → Nat

/-- Contents of an SPDM or TDISP response that the manual does not lay out, by response code and draw. -/
opaque spdmReply : Nat → Nat → Nat
/-- Measurement block 1, and block 4 over the state that Table SE-5 lists without a layout. -/
opaque romDigest : BitVec 512
opaque stateDigest : List Nat → BitVec 512
/-- The measurement M that an accepted SET_MIGRATION_SECRET extends (R376 does not say over what). -/
opaque secretMeas : BitVec 256 → BitVec 512

/-- M0 of the image that a flash slot was delivered with. -/
opaque flashImage : Nat → BitVec 512

/-- Excess over a limit of zero (R353 divides by the limit), by what is measured. -/
opaque overZero : Rat → Rat

/-- HAT_INST_SLENi.USED, 24 bits, for a record's length in bytes (the spec gives the field no unit). -/
opaque usedField : Nat → Nat

end Sys2Proof.Config
end

