-- ==== Sys2Proof/Machine/Bits.lean ====
section
/-! DEFINITION. Bit-field, byte-order and list helpers that the meanings share. -/
namespace Sys2Proof.Machine

/-- Bits `hi:lo` of a number. -/
def bitsOf (x hi lo : Nat) : Nat := (x >>> lo) % 2 ^ (hi + 1 - lo)

/-- Bits `hi:lo` of a bit vector, as a number. -/
def fieldOf {w : Nat} (x : BitVec w) (hi lo : Nat) : Nat := bitsOf x.toNat hi lo

/-- Bit `i` of a bit vector. -/
def bitAt {w : Nat} (x : BitVec w) (i : Nat) : Bool := x.getLsbD i

/-- `x` with bits `hi:lo` replaced by the low bits of `v`. -/
def withField {w : Nat} (x : BitVec w) (hi lo v : Nat) : BitVec w :=
  let m := 2 ^ (hi + 1 - lo)
  let n := x.toNat
  BitVec.ofNat w (n - ((n >>> lo) % m) * 2 ^ lo + (v % m) * 2 ^ lo)

/-- A `w`-bit number read as two's complement. -/
def signExt (w x : Nat) : Int := if x % 2 ^ w < 2 ^ (w - 1) then (x % 2 ^ w : Nat) else (x % 2 ^ w : Nat) - (2 ^ w : Nat)

/-- Little-endian bytes of a number, `n` of them. -/
def leBytes : Nat → Nat → List Byte
  | 0, _ => []
  | n + 1, x => BitVec.ofNat 8 x :: leBytes n (x / 256)

/-- The number that little-endian bytes spell. -/
def ofLeBytes : List Byte → Nat
  | [] => 0
  | b :: bs => b.toNat + 256 * ofLeBytes bs

/-- The `n` bytes of a line from byte `off`, as a number. -/
def lineField (l : Line) (off n : Nat) : Nat := (l.toNat >>> (8 * off)) % 2 ^ (8 * n)

/-- A line with the bytes that `mask` selects taken from `new` (byte `i` where bit `i` of `mask` is 1). -/
def mergeLine (old new : Line) (mask : BitVec 128) : Line :=
  (List.range 128).foldl (fun l i => if mask.getLsbD i then withField l (8 * i + 7) (8 * i) (lineField new i 1) else l) old

/-- `l` with position `i` replaced by `v`; unchanged past its end. -/
def setAt {α : Type} : List α → Nat → α → List α
  | [], _, _ => []
  | _ :: t, 0, v => v :: t
  | x :: t, i + 1, v => x :: setAt t i v

/-- Position `i` of a list, or `d` past its end. -/
def getAt {α : Type} (l : List α) (i : Nat) (d : α) : α := l.getD i d

/-- `l` with the first entry that `p` accepts removed. -/
def dropFirst {α : Type} (p : α → Bool) : List α → List α
  | [] => []
  | x :: t => if p x then t else x :: dropFirst p t

/-- Ceiling division. -/
def ceilDiv (a b : Nat) : Nat := (a + b - 1) / b

/-- The modular comparison of two 32-bit counters: `value` has reached `target` (R177: 0 ≤ value − target < 2³¹). -/
def reached (value target : Word) : Bool := (value - target).toNat < 2 ^ 31

/-- A count that stops at `cap`. -/
def satAdd (cap x n : Nat) : Nat := min cap (x + n)

/-- Even parity of `w` bits of a number. -/
def parityOf : Nat → Nat → Bool
  | 0, _ => false
  | w + 1, x => xor (x % 2 == 1) (parityOf w (x / 2))

/-- Number of ones among the low `w` bits. -/
def popCount : Nat → Nat → Nat
  | 0, _ => 0
  | w + 1, x => x % 2 + popCount w (x / 2)

/-- Index of the lowest one among the low `w` bits from `i`, if any. -/
def lowestOne (x : Nat) : Nat → Nat → Option Nat
  | 0, _ => none
  | w + 1, i => if x.testBit i then some i else lowestOne x w (i + 1)

/-- The indexes below `n` whose bit in `x` is 1, rising. -/
def onesOf (n x : Nat) : List Nat := (List.range n).filter (fun i => x.testBit i)

/-- The number whose one bits are the listed indexes. -/
def maskOf (is : List Nat) : Nat := is.foldl (fun m i => m ||| 2 ^ i) 0

end Sys2Proof.Machine
end

