-- ==== Sys2Proof/Machine/RegTable.lean ====
section
/-! DEFINITION. Every register of the device, written out from the register tables of the spec: offset in BAR0 of function 0,
array dimensions, fields with access type (R5) and reset value. Bits of no field are reserved. A register whose live value is held
in a unit's state is read through Machine/Views.lean; its entry here still gives its place, access types and reset. -/
namespace Sys2Proof.Machine

/-- Access types of Table SC-5 (reserved bits belong to no field). -/
inductive Acc where
  | rw | ro | rw1c | rc | ws
  deriving DecidableEq, Repr

/-- A reset value: a number, one number per register of an array, a value of the part itself, or the least of a part's six levels (log 3). -/
inductive Rst where
  | val (v : Nat)
  | byIndex (vs : List Nat)
  | dev (k : Nat)
  | least (k : Nat)
  deriving DecidableEq, Repr

/-- A field of a register. -/
structure RegField where
  hi : Nat
  lo : Nat
  acc : Acc
  rst : Rst
  deriving DecidableEq, Repr

/-- A register, or an array of registers: `dims` gives count and stride of each index, outermost first. -/
structure RegSpec where
  base : Nat
  dims : List (Nat × Nat)
  fields : List RegField
  deriving DecidableEq, Repr

/-- The bits of a field, for reading and updating it by name. -/
structure Fld where
  hi : Nat
  lo : Nat
  deriving DecidableEq, Repr

/-- R9, Table AR-4 (01_device_at_work.md). -/
def Reg.DEV_ID : RegSpec := ⟨0x0, [], [⟨39, 32, .ro, .dev 0⟩, ⟨31, 16, .ro, .val 4⟩, ⟨15, 0, .ro, .val 20310⟩]⟩
/-- R9, Table AR-5 (01_device_at_work.md). -/
def Reg.DEV_FEATURE : RegSpec := ⟨0x8, [], [⟨55, 48, .ro, .least 1⟩, ⟨47, 40, .ro, .dev 1⟩, ⟨39, 32, .ro, .dev 1⟩, ⟨31, 24, .ro, .dev 1⟩, ⟨23, 16, .ro, .dev 1⟩, ⟨15, 8, .ro, .dev 1⟩, ⟨7, 0, .ro, .dev 1⟩]⟩
/-- R9, Table AR-6 (01_device_at_work.md). -/
def Reg.DEV_INV_DIE : RegSpec := ⟨0x10, [], [⟨23, 16, .ro, .val 0⟩, ⟨9, 9, .ro, .val 0⟩, ⟨8, 8, .ro, .val 0⟩, ⟨7, 4, .ro, .val 0⟩, ⟨3, 0, .ro, .val 0⟩]⟩
/-- R9, Table AR-7 (01_device_at_work.md). -/
def Reg.DEV_INV_CLUSTER : RegSpec := ⟨0x18, [], [⟨63, 0, .ro, .val 0⟩]⟩
/-- R9, Table AR-7 (01_device_at_work.md). -/
def Reg.DEV_INV_ENGINE : RegSpec := ⟨0x100, [(32, 0x8)], [⟨63, 0, .ro, .val 0⟩]⟩
/-- R32, Table NM-10 (02_number_formats_and_arithmetic.md). -/
def Reg.CST_ARITH_CNT : RegSpec := ⟨0x10002000, [(512, 0x40000)], [⟨59, 48, .rc, .val 0⟩, ⟨47, 36, .rc, .val 0⟩, ⟨35, 24, .rc, .val 0⟩, ⟨23, 12, .rc, .val 0⟩, ⟨11, 0, .rc, .val 0⟩]⟩
/-- R55, Table EN-10 (03_matrix_engines_and_steps.md). -/
def Reg.CST_STEP_STAT : RegSpec := ⟨0x10002010, [(512, 0x40000)], [⟨63, 32, .ro, .val 0⟩, ⟨11, 10, .ro, .val 0⟩, ⟨9, 9, .ro, .val 0⟩, ⟨8, 8, .ro, .val 0⟩, ⟨7, 4, .ro, .val 0⟩, ⟨3, 0, .ro, .val 0⟩]⟩
/-- R55, Table EN-10 (03_matrix_engines_and_steps.md). -/
def Reg.CST_STEP_INFO : RegSpec := ⟨0x10002018, [(512, 0x40000)], [⟨63, 32, .ro, .val 0⟩, ⟨7, 0, .ro, .val 0⟩]⟩
/-- R55, Table EN-10 (03_matrix_engines_and_steps.md). -/
def Reg.CST_ENG_PROG : RegSpec := ⟨0x10002020, [(512, 0x40000)], [⟨59, 48, .ro, .val 0⟩, ⟨43, 32, .ro, .val 0⟩, ⟨27, 16, .ro, .val 0⟩, ⟨11, 0, .ro, .val 0⟩]⟩
/-- R86, Table SQ-9 (04_sequencer_and_schedule_images.md). -/
def Reg.CST_SEQ_STAT : RegSpec := ⟨0x10001000, [(512, 0x40000)], [⟨63, 48, .ro, .val 0⟩, ⟨44, 42, .ro, .val 0⟩, ⟨41, 38, .ro, .val 0⟩, ⟨37, 34, .ro, .val 0⟩, ⟨33, 30, .ro, .val 0⟩, ⟨29, 22, .ro, .val 0⟩, ⟨17, 0, .ro, .val 0⟩]⟩
/-- R86, Table SQ-9 (04_sequencer_and_schedule_images.md). -/
def Reg.CST_SEQ_WAIT : RegSpec := ⟨0x10001008, [(512, 0x40000)], [⟨63, 52, .ro, .val 0⟩, ⟨51, 48, .ro, .val 0⟩, ⟨31, 0, .ro, .val 0⟩]⟩
/-- R86, Table SQ-9 (04_sequencer_and_schedule_images.md). -/
def Reg.CST_SEQ_LOOP : RegSpec := ⟨0x10001100, [(512, 0x40000), (8, 0x8)], [⟨63, 48, .ro, .val 0⟩, ⟨47, 32, .ro, .val 0⟩, ⟨17, 0, .ro, .val 0⟩]⟩
/-- R86, Table SQ-9 (04_sequencer_and_schedule_images.md). -/
def Reg.CST_SEQ_LSTR : RegSpec := ⟨0x10001140, [(512, 0x40000), (8, 0x8)], [⟨31, 0, .ro, .val 0⟩]⟩
/-- R86, Table SQ-9 (04_sequencer_and_schedule_images.md). -/
def Reg.CST_SEQ_CALL : RegSpec := ⟨0x10001180, [(512, 0x40000), (8, 0x8)], [⟨17, 0, .ro, .val 0⟩]⟩
/-- R86, Table SQ-9 (04_sequencer_and_schedule_images.md). -/
def Reg.CST_SEQ_EXP : RegSpec := ⟨0x10001200, [(512, 0x40000), (16, 0x8)], [⟨31, 0, .ro, .val 0⟩]⟩
/-- R86, Table SQ-9 (04_sequencer_and_schedule_images.md). -/
def Reg.CST_SEQ_RA : RegSpec := ⟨0x10001280, [(512, 0x40000)], [⟨39, 36, .ro, .val 0⟩, ⟨35, 33, .ro, .val 0⟩, ⟨32, 30, .ro, .val 0⟩, ⟨17, 0, .ro, .val 0⟩]⟩
/-- R86, Table SQ-9 (04_sequencer_and_schedule_images.md). -/
def Reg.CST_SEQ_CHEAP : RegSpec := ⟨0x10001300, [(512, 0x40000)], [⟨63, 32, .rc, .val 0⟩, ⟨31, 0, .ro, .val 0⟩]⟩
/-- R86, Table SQ-9 (04_sequencer_and_schedule_images.md). -/
def Reg.CST_SEQ_CHAIN : RegSpec := ⟨0x10001308, [(512, 0x40000)], [⟨17, 0, .ro, .val 0⟩]⟩
/-- R87, Table SQ-10 (04_sequencer_and_schedule_images.md). -/
def Reg.BAY_IMG_ADDR : RegSpec := ⟨0x1001000, [(64, 0x40000), (4, 0x100)], [⟨51, 0, .rw, .val 0⟩]⟩
/-- R87, Table SQ-10 (04_sequencer_and_schedule_images.md). -/
def Reg.BAY_IMG_LEN : RegSpec := ⟨0x1001008, [(64, 0x40000), (4, 0x100)], [⟨39, 0, .rw, .val 0⟩]⟩
/-- R87, Table SQ-10 (04_sequencer_and_schedule_images.md). -/
def Reg.BAY_IMG_CMD : RegSpec := ⟨0x1001010, [(64, 0x40000), (4, 0x100)], [⟨3, 0, .ws, .val 0⟩]⟩
/-- R87, Table SQ-10 (04_sequencer_and_schedule_images.md). -/
def Reg.BAY_IMG_STAT : RegSpec := ⟨0x1001018, [(64, 0x40000), (4, 0x100)], [⟨47, 32, .ro, .val 0⟩, ⟨23, 16, .ro, .val 0⟩, ⟨11, 8, .ro, .val 0⟩, ⟨3, 0, .ro, .val 0⟩]⟩
/-- R87, Table SQ-10 (04_sequencer_and_schedule_images.md). -/
def Reg.BAY_IMG_MEAS : RegSpec := ⟨0x1001040, [(64, 0x40000), (4, 0x100), (8, 0x8)], [⟨63, 0, .ro, .val 0⟩]⟩
/-- R120, Table TG-7 (05_thread_groups.md). -/
def Reg.CST_GRP_STAT : RegSpec := ⟨0x10003000, [(512, 0x40000), (8, 0x40)], [⟨63, 48, .ro, .val 0⟩, ⟨47, 40, .ro, .val 0⟩, ⟨37, 33, .ro, .val 0⟩, ⟨32, 30, .ro, .val 0⟩, ⟨29, 27, .ro, .val 0⟩, ⟨17, 0, .ro, .val 0⟩]⟩
/-- R120, Table TG-7 (05_thread_groups.md). -/
def Reg.CST_GRP_FADDR : RegSpec := ⟨0x10003008, [(512, 0x40000), (8, 0x40)], [⟨63, 0, .ro, .val 0⟩]⟩
/-- R120, Table TG-7 (05_thread_groups.md). -/
def Reg.CST_GRP_FMASK : RegSpec := ⟨0x10003010, [(512, 0x40000), (8, 0x40)], [⟨63, 0, .ro, .val 0⟩]⟩
/-- R120, Table TG-7 (05_thread_groups.md). -/
def Reg.CST_GRP_LIVE : RegSpec := ⟨0x10003018, [(512, 0x40000), (8, 0x40)], [⟨63, 0, .ro, .val 0⟩]⟩
/-- R120, Table TG-7 (05_thread_groups.md). -/
def Reg.CST_GRP_ACT : RegSpec := ⟨0x10003020, [(512, 0x40000), (8, 0x40)], [⟨63, 0, .rw, .val 0⟩]⟩
/-- R120, Table TG-7 (05_thread_groups.md). -/
def Reg.CST_GRP_SPIN : RegSpec := ⟨0x10003028, [(512, 0x40000), (8, 0x40)], [⟨43, 32, .ro, .val 0⟩, ⟨31, 0, .ro, .val 0⟩]⟩
/-- R120, Table TG-7 (05_thread_groups.md). -/
def Reg.CST_GRP_CTL : RegSpec := ⟨0x10003030, [(512, 0x40000), (8, 0x40)], [⟨1, 0, .ws, .val 0⟩]⟩
/-- R120, Table TG-7 (05_thread_groups.md). -/
def Reg.CST_VEC_CNT : RegSpec := ⟨0x10003200, [(512, 0x40000)], [⟨61, 32, .rc, .val 0⟩, ⟨31, 8, .rc, .val 0⟩, ⟨7, 0, .rc, .val 0⟩]⟩
/-- R144, Table MH-9 (06_memory_hierarchy.md). -/
def Reg.LRD_ILV_CFG : RegSpec := ⟨0x8000000, [], [⟨8, 8, .rw, .val 1⟩, ⟨1, 1, .rw, .val 0⟩, ⟨0, 0, .ro, .val 0⟩]⟩
/-- R144, Table MH-9 (06_memory_hierarchy.md). -/
def Reg.LRD_QMAP_CMD : RegSpec := ⟨0x8000008, [], [⟨10, 9, .ws, .val 0⟩, ⟨8, 0, .ws, .val 0⟩]⟩
/-- R144, Table MH-9 (06_memory_hierarchy.md). -/
def Reg.LRD_MH_STAT : RegSpec := ⟨0x8000010, [], [⟨63, 32, .rc, .val 0⟩, ⟨20, 16, .ro, .val 0⟩, ⟨10, 8, .ro, .val 0⟩, ⟨1, 1, .ro, .val 0⟩, ⟨0, 0, .ro, .val 0⟩]⟩
/-- R144, Table MH-9 (06_memory_hierarchy.md). -/
def Reg.LRD_QMAP : RegSpec := ⟨0x8000100, [(16, 0x8)], [⟨63, 0, .ro, .val 0xE4E4E4E4E4E4E4E4⟩]⟩
/-- R144, Table MH-9 (06_memory_hierarchy.md). -/
def Reg.LRD_PIN_CMD : RegSpec := ⟨0x8000200, [], [⟨13, 12, .ws, .val 0⟩, ⟨11, 8, .ws, .val 0⟩, ⟨5, 0, .ws, .val 0⟩]⟩
/-- R144, Table MH-9 (06_memory_hierarchy.md). -/
def Reg.LRD_PIN_CFG : RegSpec := ⟨0x8000400, [(33, 0x8)], [⟨32, 32, .rw, .val 0⟩, ⟨31, 16, .ro, .val 0⟩, ⟨15, 0, .ro, .val 0⟩]⟩
/-- R144, Table MH-9 (06_memory_hierarchy.md). -/
def Reg.LRD_LOCKER_MAP : RegSpec := ⟨0x8000600, [], [⟨63, 0, .ro, .val 0⟩]⟩
/-- R144, Table MH-9 (06_memory_hierarchy.md). -/
def Reg.LRD_MMU_ROOT : RegSpec := ⟨0x8001000, [(33, 0x8)], [⟨51, 12, .rw, .val 0⟩, ⟨0, 0, .rw, .val 0⟩]⟩
/-- R144, Table MH-9 (06_memory_hierarchy.md). -/
def Reg.LRD_TLB_INV : RegSpec := ⟨0x8001200, [], [⟨61, 56, .ws, .val 0⟩, ⟨55, 54, .ws, .val 0⟩, ⟨35, 0, .ws, .val 0⟩]⟩
/-- R144, Table MH-9 (06_memory_hierarchy.md). -/
def Reg.LRD_TLB_STAT : RegSpec := ⟨0x8001210, [], [⟨0, 0, .ro, .val 0⟩]⟩
/-- R144, Table MH-9 (06_memory_hierarchy.md). -/
def Reg.LRD_RNG_ADDR : RegSpec := ⟨0x8002000, [(33, 0x40)], [⟨47, 0, .rw, .val 0⟩]⟩
/-- R144, Table MH-9 (06_memory_hierarchy.md). -/
def Reg.LRD_RNG_LEN : RegSpec := ⟨0x8002008, [(33, 0x40)], [⟨39, 0, .rw, .val 0⟩]⟩
/-- R144, Table MH-9 (06_memory_hierarchy.md). -/
def Reg.LRD_RNG_CMD : RegSpec := ⟨0x8002010, [(33, 0x40)], [⟨2, 0, .ws, .val 0⟩]⟩
/-- R144, Table MH-9 (06_memory_hierarchy.md). -/
def Reg.LRD_RNG_STAT : RegSpec := ⟨0x8002018, [(33, 0x40)], [⟨63, 32, .ro, .val 0⟩, ⟨23, 16, .ro, .val 0⟩, ⟨0, 0, .ro, .val 0⟩]⟩
/-- R144, Table MH-9 (06_memory_hierarchy.md). -/
def Reg.LRD_RNG_FAIL : RegSpec := ⟨0x8002020, [(33, 0x40)], [⟨47, 0, .ro, .val 0⟩]⟩
/-- R164, Table CO-8 (07_larder_coherence_and_reductions.md). -/
def Reg.LRD_COH_CMD : RegSpec := ⟨0x8003000, [], [⟨1, 0, .ws, .val 0⟩]⟩
/-- R164, Table CO-8 (07_larder_coherence_and_reductions.md). -/
def Reg.LRD_COH_STAT : RegSpec := ⟨0x8003008, [], [⟨11, 8, .ro, .val 0⟩, ⟨5, 4, .ro, .val 1⟩, ⟨1, 0, .ro, .val 1⟩]⟩
/-- R164, Table CO-8 (07_larder_coherence_and_reductions.md). -/
def Reg.LRD_RED_CFG : RegSpec := ⟨0x8003010, [], [⟨6, 0, .rw, .val 64⟩]⟩
/-- R164, Table CO-8 (07_larder_coherence_and_reductions.md). -/
def Reg.LRD_SL_CNT : RegSpec := ⟨0x8004000, [(64, 0x20)], [⟨63, 32, .rc, .val 0⟩, ⟨31, 0, .rc, .val 0⟩]⟩
/-- R164, Table CO-8 (07_larder_coherence_and_reductions.md). -/
def Reg.LRD_SL_STAT : RegSpec := ⟨0x8004008, [(64, 0x20)], [⟨39, 32, .ro, .val 255⟩, ⟨25, 20, .ro, .val 0⟩, ⟨8, 0, .ro, .val 0⟩]⟩
/-- R186, Table MM-9 (08_memory_model.md). -/
def Reg.CST_MM_CFG : RegSpec := ⟨0x10007000, [(512, 0x40000)], [⟨8, 8, .ro, .val 0⟩, ⟨0, 0, .rw, .val 0⟩]⟩
/-- R186, Table MM-9 (08_memory_model.md). -/
def Reg.CST_MM_AUDIT : RegSpec := ⟨0x10007008, [(512, 0x40000)], [⟨63, 32, .rc, .val 0⟩, ⟨31, 29, .ro, .val 0⟩, ⟨28, 26, .ro, .val 0⟩, ⟨11, 0, .ro, .val 0⟩]⟩
/-- R186, Table MM-9 (08_memory_model.md). -/
def Reg.CST_TALLY : RegSpec := ⟨0x10010000, [(512, 0x40000), (4096, 0x8)], [⟨63, 61, .ro, .val 0⟩, ⟨55, 53, .ro, .val 0⟩, ⟨52, 52, .ro, .val 0⟩, ⟨51, 41, .ro, .val 0⟩, ⟨40, 32, .ro, .val 0⟩, ⟨31, 0, .rw, .val 0⟩]⟩
/-- R186, Table MM-9 (08_memory_model.md). -/
def Reg.CST_TALLY_ADD : RegSpec := ⟨0x10018000, [(512, 0x40000), (4096, 0x8)], [⟨31, 0, .ws, .val 0⟩]⟩
/-- R201, Table PT-6 (09_porter_engines.md). -/
def Reg.CST_PTR_STAT : RegSpec := ⟨0x10006000, [(512, 0x40000)], [⟨15, 8, .ro, .val 0⟩, ⟨1, 0, .ro, .val 0⟩]⟩
/-- R201, Table PT-6 (09_porter_engines.md). -/
def Reg.PTR_CL_STAT : RegSpec := ⟨0x4000000, [(64, 0x10000)], [⟨15, 8, .ro, .val 0⟩, ⟨1, 0, .ro, .val 0⟩]⟩
/-- R201, Table PT-6 (09_porter_engines.md). -/
def Reg.PTR_SK_STAT : RegSpec := ⟨0x4400000, [], [⟨15, 8, .ro, .val 0⟩, ⟨1, 0, .ro, .val 0⟩]⟩
/-- R201, Table PT-6 (09_porter_engines.md). -/
def Reg.CST_PTR_ERRADDR : RegSpec := ⟨0x10006008, [(512, 0x40000)], [⟨51, 0, .ro, .val 0⟩]⟩
/-- R201, Table PT-6 (09_porter_engines.md). -/
def Reg.PTR_CL_ERRADDR : RegSpec := ⟨0x4000008, [(64, 0x10000)], [⟨51, 0, .ro, .val 0⟩]⟩
/-- R201, Table PT-6 (09_porter_engines.md). -/
def Reg.PTR_SK_ERRADDR : RegSpec := ⟨0x4400008, [], [⟨51, 0, .ro, .val 0⟩]⟩
/-- R201, Table PT-6 (09_porter_engines.md). -/
def Reg.CST_PTR_CTL : RegSpec := ⟨0x10006010, [(512, 0x40000)], [⟨7, 4, .ws, .val 0⟩, ⟨3, 0, .ws, .val 0⟩]⟩
/-- R201, Table PT-6 (09_porter_engines.md). -/
def Reg.PTR_CL_CTL : RegSpec := ⟨0x4000010, [(64, 0x10000)], [⟨7, 4, .ws, .val 0⟩, ⟨3, 0, .ws, .val 0⟩]⟩
/-- R201, Table PT-6 (09_porter_engines.md). -/
def Reg.PTR_SK_CTL : RegSpec := ⟨0x4400010, [], [⟨7, 4, .ws, .val 0⟩, ⟨3, 0, .ws, .val 0⟩]⟩
/-- R201, Table PT-6 (09_porter_engines.md). -/
def Reg.CST_PTR_CNT : RegSpec := ⟨0x10006018, [(512, 0x40000)], [⟨63, 63, .rc, .val 0⟩, ⟨62, 0, .rc, .val 0⟩]⟩
/-- R201, Table PT-6 (09_porter_engines.md). -/
def Reg.PTR_CL_CNT : RegSpec := ⟨0x4000018, [(64, 0x10000)], [⟨63, 63, .rc, .val 0⟩, ⟨62, 0, .rc, .val 0⟩]⟩
/-- R201, Table PT-6 (09_porter_engines.md). -/
def Reg.PTR_SK_CNT : RegSpec := ⟨0x4400018, [], [⟨63, 63, .rc, .val 0⟩, ⟨62, 0, .rc, .val 0⟩]⟩
/-- R201, Table PT-6 (09_porter_engines.md). -/
def Reg.CST_PTR_CH_STAT : RegSpec := ⟨0x10006100, [(512, 0x40000), (8, 0x40)], [⟨31, 24, .ro, .val 0⟩, ⟨20, 16, .ro, .val 0⟩, ⟨4, 4, .ro, .val 0⟩, ⟨3, 3, .ro, .val 0⟩, ⟨2, 0, .ro, .val 0⟩]⟩
/-- R201, Table PT-6 (09_porter_engines.md). -/
def Reg.PTR_CL_CH_STAT : RegSpec := ⟨0x4000100, [(64, 0x10000), (16, 0x40)], [⟨31, 24, .ro, .val 0⟩, ⟨20, 16, .ro, .val 0⟩, ⟨4, 4, .ro, .val 0⟩, ⟨3, 3, .ro, .val 0⟩, ⟨2, 0, .ro, .val 0⟩]⟩
/-- R201, Table PT-6 (09_porter_engines.md). -/
def Reg.PTR_SK_CH_STAT : RegSpec := ⟨0x4400100, [(4, 0x40)], [⟨31, 24, .ro, .val 0⟩, ⟨20, 16, .ro, .val 0⟩, ⟨4, 4, .ro, .val 0⟩, ⟨3, 3, .ro, .val 0⟩, ⟨2, 0, .ro, .val 0⟩]⟩
/-- R201, Table PT-6 (09_porter_engines.md). -/
def Reg.CST_PTR_CH_PROG : RegSpec := ⟨0x10006108, [(512, 0x40000), (8, 0x40)], [⟨39, 0, .ro, .val 0⟩]⟩
/-- R201, Table PT-6 (09_porter_engines.md). -/
def Reg.PTR_CL_CH_PROG : RegSpec := ⟨0x4000108, [(64, 0x10000), (16, 0x40)], [⟨39, 0, .ro, .val 0⟩]⟩
/-- R201, Table PT-6 (09_porter_engines.md). -/
def Reg.PTR_SK_CH_PROG : RegSpec := ⟨0x4400108, [(4, 0x40)], [⟨39, 0, .ro, .val 0⟩]⟩
/-- R201, Table PT-6 (09_porter_engines.md). -/
def Reg.CST_PTR_CH_TAG : RegSpec := ⟨0x10006110, [(512, 0x40000), (8, 0x40)], [⟨63, 0, .ro, .val 0⟩]⟩
/-- R201, Table PT-6 (09_porter_engines.md). -/
def Reg.PTR_CL_CH_TAG : RegSpec := ⟨0x4000110, [(64, 0x10000), (16, 0x40)], [⟨63, 0, .ro, .val 0⟩]⟩
/-- R201, Table PT-6 (09_porter_engines.md). -/
def Reg.PTR_SK_CH_TAG : RegSpec := ⟨0x4400110, [(4, 0x40)], [⟨63, 0, .ro, .val 0⟩]⟩
/-- R201, Table PT-6 (09_porter_engines.md). -/
def Reg.CST_PTR_CH_DONE : RegSpec := ⟨0x10006118, [(512, 0x40000), (8, 0x40)], [⟨31, 0, .ro, .val 0⟩]⟩
/-- R201, Table PT-6 (09_porter_engines.md). -/
def Reg.PTR_CL_CH_DONE : RegSpec := ⟨0x4000118, [(64, 0x10000), (16, 0x40)], [⟨31, 0, .ro, .val 0⟩]⟩
/-- R201, Table PT-6 (09_porter_engines.md). -/
def Reg.PTR_SK_CH_DONE : RegSpec := ⟨0x4400118, [(4, 0x40)], [⟨31, 0, .ro, .val 0⟩]⟩
/-- R201, Table PT-6 (09_porter_engines.md). -/
def Reg.PTR_CL_CH0_DESC : RegSpec := ⟨0x4000120, [(64, 0x10000)], [⟨51, 7, .rw, .val 0⟩]⟩
/-- R201, Table PT-6 (09_porter_engines.md). -/
def Reg.PTR_CL_CH0_POST : RegSpec := ⟨0x4000128, [(64, 0x10000)], [⟨0, 0, .ws, .val 0⟩]⟩
/-- R245, Table BY-5 (11_bays_scheduling_preemption.md). -/
def Reg.BAY_CLUSTERS : RegSpec := ⟨0x1000000, [(64, 0x40000)], [⟨63, 0, .rw, .val 0⟩]⟩
/-- R245, Table BY-5 (11_bays_scheduling_preemption.md). -/
def Reg.BAY_CFG : RegSpec := ⟨0x1000008, [(64, 0x40000)], [⟨13, 8, .rw, .val 0⟩, ⟨1, 1, .rw, .val 0⟩, ⟨0, 0, .rw, .val 0⟩]⟩
/-- R245, Table BY-5 (11_bays_scheduling_preemption.md). -/
def Reg.BAY_SLICE : RegSpec := ⟨0x1000010, [(64, 0x40000)], [⟨47, 24, .rw, .val 2000⟩, ⟨23, 0, .rw, .val 500⟩]⟩
/-- R245, Table BY-5 (11_bays_scheduling_preemption.md). -/
def Reg.BAY_SHARE : RegSpec := ⟨0x1000018, [(64, 0x40000)], [⟨23, 16, .rw, .val 16⟩, ⟨15, 8, .rw, .val 16⟩, ⟨7, 0, .rw, .val 16⟩]⟩
/-- R245, Table BY-5 (11_bays_scheduling_preemption.md). -/
def Reg.BAY_SCHED : RegSpec := ⟨0x1000020, [(64, 0x40000)], [⟨39, 36, .ro, .val 0⟩, ⟨35, 32, .ro, .val 0⟩, ⟨11, 10, .ro, .val 0⟩, ⟨9, 8, .ro, .val 0⟩, ⟨4, 4, .ro, .val 0⟩, ⟨3, 3, .ro, .val 0⟩, ⟨1, 0, .ro, .val 0⟩]⟩
/-- R245, Table BY-5 (11_bays_scheduling_preemption.md). -/
def Reg.BAY_EVT : RegSpec := ⟨0x1000028, [(64, 0x40000)], [⟨7, 7, .rw1c, .val 0⟩, ⟨6, 6, .rw1c, .val 0⟩, ⟨5, 5, .rw1c, .val 0⟩, ⟨4, 4, .rw1c, .val 0⟩, ⟨3, 3, .rw1c, .val 0⟩, ⟨2, 2, .rw1c, .val 0⟩, ⟨1, 1, .rw1c, .val 0⟩, ⟨0, 0, .rw1c, .val 0⟩]⟩
/-- R245, Table BY-5 (11_bays_scheduling_preemption.md). -/
def Reg.BAY_EVT_EN : RegSpec := ⟨0x1000030, [(64, 0x40000)], [⟨7, 0, .rw, .val 255⟩]⟩
/-- R245, Table BY-5 (11_bays_scheduling_preemption.md). -/
def Reg.BAY_SLOW : RegSpec := ⟨0x1000038, [(64, 0x40000)], [⟨63, 48, .rw, .val 384⟩, ⟨15, 0, .ro, .val 256⟩]⟩
/-- R245, Table BY-5 (11_bays_scheduling_preemption.md). -/
def Reg.BAY_SPILL : RegSpec := ⟨0x1000040, [(64, 0x40000), (4, 0x8)], [⟨51, 16, .rw, .val 0⟩]⟩
/-- R245, Table BY-5 (11_bays_scheduling_preemption.md). -/
def Reg.BAY_WAKE : RegSpec := ⟨0x1000060, [(64, 0x40000), (4, 0x8)], [⟨15, 0, .rw, .val 0⟩]⟩
/-- R245, Table BY-5 (11_bays_scheduling_preemption.md). -/
def Reg.BAY_CLAIM : RegSpec := ⟨0x1000080, [(64, 0x40000), (4, 0x8)], [⟨39, 0, .rw, .val 1099511627775⟩]⟩
/-- R245, Table BY-5 (11_bays_scheduling_preemption.md). -/
def Reg.BAY_OVR : RegSpec := ⟨0x10000a0, [(64, 0x40000), (4, 0x8)], [⟨63, 32, .rc, .val 0⟩, ⟨31, 0, .ro, .val 0⟩]⟩
/-- R245, Table BY-5 (11_bays_scheduling_preemption.md). -/
def Reg.BAY_CTLW : RegSpec := ⟨0x1000100, [(64, 0x40000), (16, 0x8)], [⟨63, 0, .rw, .val 0⟩]⟩
/-- R245, Table BY-5 (11_bays_scheduling_preemption.md). -/
def Reg.BAY_ENG : RegSpec := ⟨0x1000200, [(64, 0x40000)], [⟨63, 63, .rw1c, .val 0⟩, ⟨62, 0, .ro, .val 0⟩]⟩
/-- R245, Table BY-5 (11_bays_scheduling_preemption.md). -/
def Reg.BAY_LRD : RegSpec := ⟨0x1000208, [(64, 0x40000)], [⟨63, 63, .rw1c, .val 0⟩, ⟨62, 0, .ro, .val 0⟩]⟩
/-- R245, Table BY-5 (11_bays_scheduling_preemption.md). -/
def Reg.BAY_XFR : RegSpec := ⟨0x1000210, [(64, 0x40000)], [⟨63, 63, .rw1c, .val 0⟩, ⟨62, 0, .ro, .val 0⟩]⟩
/-- R245, Table BY-5 (11_bays_scheduling_preemption.md). -/
def Reg.BAY_CHU : RegSpec := ⟨0x1000218, [(64, 0x40000)], [⟨63, 63, .rw1c, .val 0⟩, ⟨62, 0, .ro, .val 0⟩]⟩
/-- R245, Table BY-5 (11_bays_scheduling_preemption.md). -/
def Reg.BAY_INTF : RegSpec := ⟨0x1000220, [(64, 0x40000)], [⟨63, 63, .rw1c, .val 0⟩, ⟨62, 0, .ro, .val 0⟩]⟩
/-- R245, Table BY-5 (11_bays_scheduling_preemption.md). -/
def Reg.BAY_INST_ENG : RegSpec := ⟨0x1002000, [(33, 0x40000)], [⟨63, 63, .rw1c, .val 0⟩, ⟨62, 0, .ro, .val 0⟩]⟩
/-- R245, Table BY-5 (11_bays_scheduling_preemption.md). -/
def Reg.BAY_INST_LRD : RegSpec := ⟨0x1002008, [(33, 0x40000)], [⟨63, 63, .rw1c, .val 0⟩, ⟨62, 0, .ro, .val 0⟩]⟩
/-- R245, Table BY-5 (11_bays_scheduling_preemption.md). -/
def Reg.BAY_INST_XFR : RegSpec := ⟨0x1002010, [(33, 0x40000)], [⟨63, 63, .rw1c, .val 0⟩, ⟨62, 0, .ro, .val 0⟩]⟩
/-- R245, Table BY-5 (11_bays_scheduling_preemption.md). -/
def Reg.BAY_INST_CHU : RegSpec := ⟨0x1002018, [(33, 0x40000)], [⟨63, 63, .rw1c, .val 0⟩, ⟨62, 0, .ro, .val 0⟩]⟩
/-- R249, Table TN-3 (12_tenants_hatches_migration.md). -/
def Reg.HAT_TSTAGE : RegSpec := ⟨0x2000000, [(32, 0x10000), (8, 0x8)], [⟨63, 0, .rw, .val 0⟩]⟩
/-- R249, Table TN-3 (12_tenants_hatches_migration.md). -/
def Reg.HAT_TPOST : RegSpec := ⟨0x2000040, [(32, 0x10000)], [⟨0, 0, .ws, .val 0⟩]⟩
/-- R249, Table TN-3 (12_tenants_hatches_migration.md). -/
def Reg.HAT_MSTAGE : RegSpec := ⟨0x2000080, [(32, 0x10000), (8, 0x8)], [⟨63, 0, .rw, .val 0⟩]⟩
/-- R249, Table TN-3 (12_tenants_hatches_migration.md). -/
def Reg.HAT_MPOST : RegSpec := ⟨0x20000c0, [(32, 0x10000)], [⟨0, 0, .ws, .val 0⟩]⟩
/-- R249, Table TN-3 (12_tenants_hatches_migration.md). -/
def Reg.HAT_T2M_IDX : RegSpec := ⟨0x2000100, [(32, 0x10000)], [⟨63, 32, .rw, .val 0⟩, ⟨31, 0, .ro, .val 0⟩]⟩
/-- R249, Table TN-3 (12_tenants_hatches_migration.md). -/
def Reg.HAT_M2T_IDX : RegSpec := ⟨0x2000108, [(32, 0x10000)], [⟨63, 32, .rw, .val 0⟩, ⟨31, 0, .ro, .val 0⟩]⟩
/-- R249, Table TN-3 (12_tenants_hatches_migration.md). -/
def Reg.HAT_STAT : RegSpec := ⟨0x2000110, [(32, 0x10000)], [⟨23, 16, .ro, .val 0⟩, ⟨15, 15, .rw1c, .val 0⟩, ⟨14, 13, .ro, .val 0⟩, ⟨12, 12, .rw1c, .val 0⟩, ⟨11, 10, .ro, .val 0⟩, ⟨9, 9, .rw1c, .val 0⟩, ⟨3, 0, .ro, .val 0⟩]⟩
/-- R249, Table TN-3 (12_tenants_hatches_migration.md). -/
def Reg.HAT_IRQ : RegSpec := ⟨0x2000118, [(32, 0x10000)], [⟨1, 1, .rw, .val 0⟩, ⟨0, 0, .rw, .val 0⟩]⟩
/-- R262, Table TN-11 (12_tenants_hatches_migration.md). -/
def Reg.HAT_INST_CMD : RegSpec := ⟨0x3000000, [(33, 0x100)], [⟨3, 0, .ws, .val 0⟩]⟩
/-- R262, Table TN-11 (12_tenants_hatches_migration.md). -/
def Reg.HAT_INST_STAT : RegSpec := ⟨0x3000008, [(33, 0x100)], [⟨63, 32, .rc, .val 0⟩, ⟨31, 16, .rc, .val 0⟩, ⟨15, 8, .ro, .val 0⟩, ⟨4, 4, .ro, .val 0⟩, ⟨3, 0, .ro, .val 0⟩]⟩
/-- R262, Table TN-11 (12_tenants_hatches_migration.md). -/
def Reg.HAT_INST_SAVE : RegSpec := ⟨0x3000010, [(33, 0x100)], [⟨51, 0, .rw, .val 0⟩]⟩
/-- R262, Table TN-11 (12_tenants_hatches_migration.md). -/
def Reg.HAT_INST_SLEN : RegSpec := ⟨0x3000018, [(33, 0x100)], [⟨63, 40, .ro, .val 0⟩, ⟨39, 0, .rw, .val 0⟩]⟩
/-- R262, Table TN-11 (12_tenants_hatches_migration.md). -/
def Reg.HAT_INST_QCFG : RegSpec := ⟨0x3000020, [(33, 0x100)], [⟨23, 0, .rw, .val 0⟩]⟩
/-- R262, Table TN-11 (12_tenants_hatches_migration.md). -/
def Reg.HAT_INST_RMAP : RegSpec := ⟨0x3000028, [(33, 0x100)], [⟨63, 0, .rw, .val 0⟩]⟩
/-- R262, Table TN-11 (12_tenants_hatches_migration.md). -/
def Reg.HAT_SHR_BASE : RegSpec := ⟨0x3800000, [(16, 0x40)], [⟨51, 7, .rw, .val 0⟩, ⟨0, 0, .rw, .val 0⟩]⟩
/-- R262, Table TN-11 (12_tenants_hatches_migration.md). -/
def Reg.HAT_SHR_LEN : RegSpec := ⟨0x3800008, [(16, 0x40)], [⟨39, 0, .rw, .val 0⟩]⟩
/-- R262, Table TN-11 (12_tenants_hatches_migration.md). -/
def Reg.HAT_SHR_BACK : RegSpec := ⟨0x3800010, [(16, 0x40)], [⟨51, 7, .rw, .val 0⟩, ⟨0, 0, .rw, .val 0⟩]⟩
/-- R262, Table TN-11 (12_tenants_hatches_migration.md). -/
def Reg.HAT_SHR_SHARE : RegSpec := ⟨0x3800018, [(16, 0x40)], [⟨32, 1, .rw, .val 0⟩]⟩
/-- R262, Table TN-11 (12_tenants_hatches_migration.md). -/
def Reg.HAT_SHR_CNT : RegSpec := ⟨0x3800020, [(16, 0x40)], [⟨63, 0, .rc, .val 0⟩]⟩
/-- R262, Table TN-11 (12_tenants_hatches_migration.md). -/
def Reg.HAT_SAVE_FMT : RegSpec := ⟨0x3801000, [], [⟨31, 16, .ro, .val 1⟩, ⟨15, 0, .ro, .val 0⟩]⟩
/-- R281, Table JT-8 (13_package_joists.md). -/
def Reg.JST_LINK_STAT : RegSpec := ⟨0xa000000, [(8, 0x100)], [⟨63, 56, .ro, .val 0⟩, ⟨52, 48, .ro, .val 0⟩, ⟨47, 44, .ro, .val 0⟩, ⟨39, 32, .ro, .val 0⟩, ⟨23, 0, .ro, .val 0⟩]⟩
/-- R281, Table JT-8 (13_package_joists.md). -/
def Reg.JST_LINK_CNT : RegSpec := ⟨0xa000008, [(8, 0x100)], [⟨63, 32, .rc, .val 0⟩, ⟨31, 0, .rc, .val 0⟩]⟩
/-- R281, Table JT-8 (13_package_joists.md). -/
def Reg.JST_LINK_CFG : RegSpec := ⟨0xa000010, [(8, 0x100)], [⟨15, 0, .rw, .val 64⟩]⟩
/-- R281, Table JT-8 (13_package_joists.md). -/
def Reg.JST_ROUTE : RegSpec := ⟨0xa001000, [(6, 0x8)], [⟨23, 0, .ro, .byIndex [0xac8a80, 0xbdb808, 0xea909a, 0xfb09b9, 0xc0dcdc, 0xefefe]⟩]⟩
/-- R281, Table JT-8 (13_package_joists.md). -/
def Reg.JST_DIE_STAT : RegSpec := ⟨0xa002000, [], [⟨47, 24, .ro, .val 0⟩, ⟨23, 0, .ro, .val 0⟩]⟩
/-- R281, Table JT-8 (13_package_joists.md). -/
def Reg.JST_DIE_CMD : RegSpec := ⟨0xa002008, [], [⟨6, 4, .ws, .val 0⟩, ⟨3, 0, .ws, .val 0⟩]⟩
/-- R281, Table JT-8 (13_package_joists.md). -/
def Reg.JST_EVT : RegSpec := ⟨0xa002010, [], [⟨63, 32, .rc, .val 0⟩, ⟨2, 2, .rw1c, .val 0⟩, ⟨1, 1, .rw1c, .val 0⟩, ⟨0, 0, .rw1c, .val 0⟩]⟩
/-- R306, Table CH-11 (14_chute_ports_and_spans.md). -/
def Reg.CHU_SPAN : RegSpec := ⟨0xb000000, [], [⟨63, 32, .ro, .val 0⟩, ⟨31, 31, .rw, .val 0⟩, ⟨26, 16, .rw, .val 0⟩, ⟨10, 0, .rw, .val 0⟩]⟩
/-- R306, Table CH-11 (14_chute_ports_and_spans.md). -/
def Reg.CHU_CFG : RegSpec := ⟨0xb000008, [], [⟨15, 0, .rw, .val 1000⟩]⟩
/-- R306, Table CH-11 (14_chute_ports_and_spans.md). -/
def Reg.CHU_CMD : RegSpec := ⟨0xb000010, [], [⟨7, 4, .ws, .val 0⟩, ⟨3, 0, .ws, .val 0⟩]⟩
/-- R306, Table CH-11 (14_chute_ports_and_spans.md). -/
def Reg.CHU_XADDR : RegSpec := ⟨0xb000018, [], [⟨51, 6, .rw, .val 0⟩]⟩
/-- R306, Table CH-11 (14_chute_ports_and_spans.md). -/
def Reg.CHU_RSTAT : RegSpec := ⟨0xb000020, [], [⟨15, 8, .ro, .val 0⟩, ⟨3, 0, .ro, .val 0⟩]⟩
/-- R306, Table CH-11 (14_chute_ports_and_spans.md). -/
def Reg.CHU_DROP : RegSpec := ⟨0xb000028, [], [⟨63, 32, .rc, .val 0⟩, ⟨31, 0, .rc, .val 0⟩]⟩
/-- R306, Table CH-11 (14_chute_ports_and_spans.md). -/
def Reg.CHU_EVT : RegSpec := ⟨0xb000030, [], [⟨1, 1, .rw1c, .val 0⟩, ⟨0, 0, .rw1c, .val 0⟩]⟩
/-- R306, Table CH-11 (14_chute_ports_and_spans.md). -/
def Reg.CHU_PORT_STAT : RegSpec := ⟨0xb001000, [(8, 0x100)], [⟨60, 50, .ro, .val 0⟩, ⟨47, 40, .ro, .val 0⟩, ⟨39, 36, .ro, .val 0⟩, ⟨23, 12, .ro, .val 0⟩]⟩
/-- R306, Table CH-11 (14_chute_ports_and_spans.md). -/
def Reg.CHU_PORT_CNT : RegSpec := ⟨0xb001008, [(8, 0x100)], [⟨63, 32, .rc, .val 0⟩, ⟨31, 0, .rc, .val 0⟩]⟩
/-- R306, Table CH-11 (14_chute_ports_and_spans.md). -/
def Reg.CHU_PORT_FEC : RegSpec := ⟨0xb001010, [(8, 0x100)], [⟨63, 0, .rc, .val 0⟩]⟩
/-- R306, Table CH-11 (14_chute_ports_and_spans.md). -/
def Reg.CHU_PORT_CFG : RegSpec := ⟨0xb001018, [(8, 0x100)], [⟨1, 1, .rw, .val 0⟩, ⟨0, 0, .rw, .val 1⟩]⟩
/-- R306, Table CH-11 (14_chute_ports_and_spans.md). -/
def Reg.CHU_EPOCH : RegSpec := ⟨0xb002000, [(64, 0x8)], [⟨15, 0, .rw, .val 0⟩]⟩
/-- R306, Table CH-11 (14_chute_ports_and_spans.md). -/
def Reg.CHU_INWIN_BASE : RegSpec := ⟨0xb003000, [(8, 0x10)], [⟨51, 12, .rw, .val 0⟩, ⟨11, 11, .rw, .val 0⟩, ⟨10, 10, .rw, .val 0⟩, ⟨9, 9, .rw, .val 0⟩, ⟨5, 0, .rw, .val 0⟩]⟩
/-- R306, Table CH-11 (14_chute_ports_and_spans.md). -/
def Reg.CHU_INWIN_LIM : RegSpec := ⟨0xb003008, [(8, 0x10)], [⟨36, 0, .rw, .val 0⟩]⟩
/-- R323, Table HP-6 (15_host_port.md). -/
def Reg.HST_LINK_STAT : RegSpec := ⟨0xc000000, [], [⟨15, 15, .ro, .val 0⟩, ⟨14, 14, .ro, .val 0⟩, ⟨13, 8, .ro, .val 0⟩, ⟨2, 0, .ro, .val 0⟩]⟩
/-- R323, Table HP-6 (15_host_port.md). -/
def Reg.HST_LINK_CFG : RegSpec := ⟨0xc000008, [], [⟨2, 0, .rw, .val 7⟩]⟩
/-- R323, Table HP-6 (15_host_port.md). -/
def Reg.HST_F0_WIN : RegSpec := ⟨0xc000010, [], [⟨51, 30, .rw, .val 0⟩]⟩
/-- R323, Table HP-6 (15_host_port.md). -/
def Reg.HST_ERR : RegSpec := ⟨0xc000018, [], [⟨63, 48, .rc, .val 0⟩, ⟨47, 32, .rc, .val 0⟩, ⟨31, 16, .rc, .val 0⟩, ⟨15, 0, .rc, .val 0⟩]⟩
/-- R323, Table HP-6 (15_host_port.md). -/
def Reg.HST_VF_WIN : RegSpec := ⟨0xc000100, [(33, 0x8)], [⟨15, 0, .rw, .val 0⟩]⟩
/-- R323, Table HP-6 (15_host_port.md). -/
def Reg.HST_TDI_STAT : RegSpec := ⟨0xc000200, [(33, 0x8)], [⟨1, 0, .ro, .val 0⟩]⟩
/-- R338, Table CL-3 (16_cellar_interface.md). -/
def Reg.CEL_CAP : RegSpec := ⟨0x9000000, [], [⟨59, 57, .ro, .val 0⟩, ⟨56, 56, .ro, .val 0⟩, ⟨55, 48, .ro, .val 0⟩, ⟨47, 32, .ro, .val 0⟩, ⟨31, 0, .ro, .val 0⟩]⟩
/-- R338, Table CL-3 (16_cellar_interface.md). -/
def Reg.CEL_CFG : RegSpec := ⟨0x9000008, [], [⟨31, 16, .rw, .val 100⟩, ⟨7, 5, .rw, .val 0⟩, ⟨0, 0, .rw, .val 1⟩]⟩
/-- R338, Table CL-3 (16_cellar_interface.md). -/
def Reg.CEL_CMD : RegSpec := ⟨0x9000010, [], [⟨15, 11, .ws, .val 0⟩, ⟨10, 8, .ws, .val 0⟩, ⟨3, 0, .ws, .val 0⟩]⟩
/-- R338, Table CL-3 (16_cellar_interface.md). -/
def Reg.CEL_KEY_CMD : RegSpec := ⟨0x9000018, [], [⟨39, 38, .ws, .val 0⟩, ⟨37, 32, .ws, .val 0⟩, ⟨17, 0, .ws, .val 0⟩]⟩
/-- R338, Table CL-3 (16_cellar_interface.md). -/
def Reg.CEL_STAT : RegSpec := ⟨0x9000020, [], [⟨39, 32, .ro, .val 0⟩, ⟨26, 24, .ro, .val 0⟩, ⟨20, 16, .ro, .val 0⟩, ⟨15, 15, .ro, .val 0⟩, ⟨0, 0, .ro, .val 0⟩]⟩
/-- R338, Table CL-3 (16_cellar_interface.md). -/
def Reg.CEL_EVT : RegSpec := ⟨0x9000028, [], [⟨3, 3, .rw1c, .val 0⟩, ⟨2, 2, .rw1c, .val 0⟩, ⟨1, 1, .rw1c, .val 0⟩, ⟨0, 0, .rw1c, .val 0⟩]⟩
/-- R338, Table CL-3 (16_cellar_interface.md). -/
def Reg.CEL_KMISM : RegSpec := ⟨0x9000030, [], [⟨63, 0, .rc, .val 0⟩]⟩
/-- R338, Table CL-3 (16_cellar_interface.md). -/
def Reg.CEL_CH_CNT : RegSpec := ⟨0x9001000, [(32, 0x20)], [⟨63, 48, .rc, .val 0⟩, ⟨47, 32, .rc, .val 0⟩, ⟨31, 0, .rc, .val 0⟩]⟩
/-- R338, Table CL-3 (16_cellar_interface.md). -/
def Reg.CEL_CH_STAT : RegSpec := ⟨0x9001008, [(32, 0x20)], [⟨15, 8, .ro, .val 0⟩, ⟨2, 0, .ro, .val 0⟩]⟩
/-- R349, Table CK-4 (17_clocks.md). -/
def Reg.CLK_PLL : RegSpec := ⟨0x100000, [(6, 0x100), (5, 0x8)], [⟨63, 48, .rw, .val 0⟩, ⟨37, 32, .rw, .val 1⟩, ⟨26, 16, .rw, .val 560⟩, ⟨1, 1, .ro, .val 0⟩, ⟨0, 0, .rw, .val 0⟩]⟩
/-- R349, Table CK-4 (17_clocks.md). -/
def Reg.CLK_SEL : RegSpec := ⟨0x100080, [(6, 0x100)], [⟨7, 6, .rw, .val 0⟩, ⟨5, 4, .rw, .val 0⟩, ⟨3, 2, .rw, .val 0⟩, ⟨1, 0, .rw, .val 0⟩]⟩
/-- R349, Table CK-4 (17_clocks.md). -/
def Reg.CLK_STAT : RegSpec := ⟨0x100088, [(6, 0x100)], [⟨31, 24, .ro, .val 0⟩, ⟨16, 16, .ro, .val 0⟩, ⟨7, 0, .ro, .val 0⟩]⟩
/-- R349, Table CK-4 (17_clocks.md). -/
def Reg.CLK_REFCNT : RegSpec := ⟨0x100090, [(6, 0x100)], [⟨63, 0, .ro, .val 0⟩]⟩
/-- R349, Table CK-4 (17_clocks.md). -/
def Reg.CLK_SSC : RegSpec := ⟨0x100098, [(6, 0x100)], [⟨13, 8, .rw, .val 32⟩, ⟨3, 0, .rw, .val 0⟩]⟩
/-- R349, Table CK-4 (17_clocks.md). -/
def Reg.CLK_REF : RegSpec := ⟨0x101000, [], [⟨0, 0, .ro, .val 1⟩]⟩
/-- R349, Table CK-4 (17_clocks.md). -/
def Reg.CLK_EVT : RegSpec := ⟨0x101008, [], [⟨1, 1, .rw1c, .val 0⟩, ⟨0, 0, .rw1c, .val 0⟩]⟩
/-- R368, Table PW-8 (18_power_and_thermal.md). -/
def Reg.PWR_CTL : RegSpec := ⟨0x200000, [], [⟨7, 0, .rw, .val 64⟩]⟩
/-- R368, Table PW-8 (18_power_and_thermal.md). -/
def Reg.PWR_PKG : RegSpec := ⟨0x200008, [], [⟨31, 16, .rw, .val 3200⟩, ⟨15, 0, .rw, .val 2400⟩]⟩
/-- R368, Table PW-8 (18_power_and_thermal.md). -/
def Reg.PWR_CAP : RegSpec := ⟨0x200010, [], [⟨15, 0, .rw, .val 0⟩]⟩
/-- R368, Table PW-8 (18_power_and_thermal.md). -/
def Reg.PWR_THERM : RegSpec := ⟨0x200018, [], [⟨15, 8, .rw, .val 100⟩, ⟨7, 0, .rw, .val 90⟩]⟩
/-- R368, Table PW-8 (18_power_and_thermal.md). -/
def Reg.PWR_GATE : RegSpec := ⟨0x200020, [], [⟨47, 24, .rw, .val 1000⟩, ⟨23, 0, .rw, .val 10⟩]⟩
/-- R368, Table PW-8 (18_power_and_thermal.md). -/
def Reg.PWR_STAT : RegSpec := ⟨0x200028, [], [⟨63, 48, .ro, .val 0⟩, ⟨47, 32, .ro, .val 0⟩, ⟨31, 16, .ro, .val 0⟩, ⟨15, 0, .ro, .val 2400⟩]⟩
/-- R368, Table PW-8 (18_power_and_thermal.md). -/
def Reg.PWR_EVT : RegSpec := ⟨0x200030, [], [⟨6, 6, .rw1c, .val 0⟩, ⟨5, 5, .rw1c, .val 0⟩, ⟨4, 4, .rw1c, .val 0⟩, ⟨3, 3, .rw1c, .val 0⟩, ⟨2, 2, .rw1c, .val 0⟩, ⟨1, 1, .rw1c, .val 0⟩, ⟨0, 0, .rw1c, .val 0⟩]⟩
/-- R368, Table PW-8 (18_power_and_thermal.md). -/
def Reg.PWR_EVT_EN : RegSpec := ⟨0x200038, [], [⟨6, 0, .rw, .val 127⟩]⟩
/-- R368, Table PW-8 (18_power_and_thermal.md). -/
def Reg.PWR_SPAN : RegSpec := ⟨0x200040, [], [⟨63, 63, .rw, .val 0⟩, ⟨47, 32, .rw, .val 1000⟩, ⟨15, 0, .rw, .val 1600⟩]⟩
/-- R368, Table PW-8 (18_power_and_thermal.md). -/
def Reg.PWR_BUDGET : RegSpec := ⟨0x200048, [], [⟨31, 0, .rw, .val 0⟩]⟩
/-- R368, Table PW-8 (18_power_and_thermal.md). -/
def Reg.PWR_CRIT : RegSpec := ⟨0x200050, [], [⟨63, 16, .ro, .val 0⟩, ⟨15, 0, .ro, .val 0⟩]⟩
/-- R368, Table PW-8 (18_power_and_thermal.md). -/
def Reg.PWR_DOM0 : RegSpec := ⟨0x200058, [], [⟨63, 0, .ro, .val 1⟩]⟩
/-- R368, Table PW-8 (18_power_and_thermal.md). -/
def Reg.PWR_DOM1 : RegSpec := ⟨0x200060, [], [⟨15, 0, .ro, .val 0⟩]⟩
/-- R368, Table PW-8 (18_power_and_thermal.md). -/
def Reg.PWR_OPTAB : RegSpec := ⟨0x200100, [(8, 0x8)], [⟨63, 63, .rw, .byIndex [1, 1, 1, 0, 0, 0, 0, 0]⟩, ⟨47, 32, .rw, .byIndex [940, 1410, 1410, 0, 0, 0, 0, 0]⟩, ⟨31, 16, .rw, .byIndex [470, 705, 940, 0, 0, 0, 0, 0]⟩, ⟨15, 0, .rw, .byIndex [620, 700, 750, 0, 0, 0, 0, 0]⟩]⟩
/-- R368, Table PW-8 (18_power_and_thermal.md). -/
def Reg.PWR_BAYOP : RegSpec := ⟨0x200200, [(64, 0x8)], [⟨63, 63, .rw, .val 0⟩, ⟨57, 54, .rw, .val 0⟩, ⟨53, 48, .rw, .val 0⟩, ⟨11, 9, .rw, .val 0⟩, ⟨8, 6, .rw, .val 1⟩, ⟨5, 3, .rw, .val 1⟩, ⟨2, 0, .rw, .val 2⟩]⟩
/-- R368, Table PW-8 (18_power_and_thermal.md). -/
def Reg.PWR_RAIL_LIM : RegSpec := ⟨0x200400, [(13, 0x10)], [⟨47, 32, .rw, .byIndex [13000, 13000, 13000, 13000, 3000, 3000, 3000, 3000, 4200, 4200, 2000, 900, 5]⟩, ⟨31, 16, .rw, .byIndex [10500, 10500, 10500, 10500, 2300, 2300, 2300, 2300, 3300, 3300, 1700, 750, 5]⟩, ⟨15, 0, .rw, .byIndex [7000, 7000, 7000, 7000, 1600, 1600, 1600, 1600, 2400, 2400, 1400, 600, 5]⟩]⟩
/-- R368, Table PW-8 (18_power_and_thermal.md). -/
def Reg.PWR_RAIL_MEAS : RegSpec := ⟨0x200408, [(13, 0x10)], [⟨47, 32, .ro, .val 0⟩, ⟨31, 16, .ro, .val 0⟩, ⟨15, 0, .ro, .val 0⟩]⟩
/-- R368, Table PW-8 (18_power_and_thermal.md). -/
def Reg.PWR_DIE_STAT : RegSpec := ⟨0x200800, [(4, 0x100)], [⟨63, 56, .ro, .val 0⟩, ⟨55, 48, .ro, .val 0⟩, ⟨47, 32, .ro, .val 0⟩, ⟨31, 16, .ro, .val 100⟩, ⟨15, 13, .ro, .val 0⟩, ⟨12, 12, .ro, .val 0⟩, ⟨11, 8, .ro, .val 15⟩, ⟨5, 0, .ro, .val 0⟩]⟩
/-- R368, Table PW-8 (18_power_and_thermal.md). -/
def Reg.PWR_DIE_THR : RegSpec := ⟨0x200840, [(4, 0x100), (9, 0x8)], [⟨63, 63, .rw1c, .val 0⟩, ⟨62, 0, .ro, .val 0⟩]⟩
/-- R368, Table PW-8 (18_power_and_thermal.md). -/
def Reg.PWR_CL : RegSpec := ⟨0x201000, [(64, 0x8)], [⟨11, 9, .ro, .val 0⟩, ⟨8, 5, .ro, .val 8⟩, ⟨4, 3, .ro, .val 0⟩, ⟨2, 2, .rw, .val 1⟩, ⟨1, 0, .rw, .val 0⟩]⟩
/-- R384, Table SE-9 (19_boot_security_debug.md). -/
def Reg.SEC_STATE : RegSpec := ⟨0x300000, [], [⟨47, 32, .ro, .val 0⟩, ⟨31, 16, .ro, .val 0⟩, ⟨15, 8, .ro, .val 0⟩, ⟨7, 7, .ro, .val 0⟩, ⟨5, 4, .ro, .val 0⟩, ⟨3, 2, .ro, .val 0⟩, ⟨1, 1, .ro, .val 0⟩, ⟨0, 0, .ro, .val 0⟩]⟩
/-- R384, Table SE-9 (19_boot_security_debug.md). -/
def Reg.SEC_START : RegSpec := ⟨0x300008, [], [⟨63, 32, .ro, .val 0⟩, ⟨31, 0, .ro, .val 0⟩]⟩
/-- R384, Table SE-9 (19_boot_security_debug.md). -/
def Reg.SEC_CMD : RegSpec := ⟨0x300010, [], [⟨3, 0, .ws, .val 0⟩]⟩
/-- R384, Table SE-9 (19_boot_security_debug.md). -/
def Reg.SEC_CMD_STAT : RegSpec := ⟨0x300018, [], [⟨15, 8, .ro, .val 0⟩, ⟨0, 0, .ro, .val 0⟩]⟩
/-- R384, Table SE-9 (19_boot_security_debug.md). -/
def Reg.SEC_TOKEN_ADDR : RegSpec := ⟨0x300020, [], [⟨51, 0, .rw, .val 0⟩]⟩
/-- R384, Table SE-9 (19_boot_security_debug.md). -/
def Reg.SEC_TOKEN_LEN : RegSpec := ⟨0x300028, [], [⟨23, 0, .rw, .val 0⟩]⟩
/-- R384, Table SE-9 (19_boot_security_debug.md). -/
def Reg.SEC_DBG_TEN : RegSpec := ⟨0x300030, [], [⟨32, 1, .rw, .val 0⟩]⟩
/-- R384, Table SE-9 (19_boot_security_debug.md). -/
def Reg.SEC_NONCE : RegSpec := ⟨0x300040, [(4, 0x8)], [⟨63, 0, .ro, .val 0⟩]⟩
/-- R384, Table SE-9 (19_boot_security_debug.md). -/
def Reg.SEC_DEVID : RegSpec := ⟨0x300060, [(2, 0x8)], [⟨63, 0, .ro, .dev 2⟩]⟩
/-- R384, Table SE-9 (19_boot_security_debug.md). -/
def Reg.SEC_CAUSE : RegSpec := ⟨0x300100, [(3, 0x40), (8, 0x8)], [⟨63, 0, .ro, .dev 3⟩]⟩
/-- R384, Table SE-9 (19_boot_security_debug.md). -/
def Reg.SEC_MEAS : RegSpec := ⟨0x300200, [(2, 0x40), (8, 0x8)], [⟨63, 0, .ro, .val 0⟩]⟩
/-- R398, Table RL-10 (20_errors_reliability_readback.md). -/
def Reg.ERR_PROD : RegSpec := ⟨0x400000, [], [⟨31, 0, .ro, .val 0⟩]⟩
/-- R398, Table RL-10 (20_errors_reliability_readback.md). -/
def Reg.ERR_CONS : RegSpec := ⟨0x400008, [], [⟨31, 0, .rw, .val 0⟩]⟩
/-- R398, Table RL-10 (20_errors_reliability_readback.md). -/
def Reg.ERR_STAT : RegSpec := ⟨0x400010, [], [⟨63, 32, .rc, .val 0⟩, ⟨2, 2, .rw1c, .val 0⟩, ⟨1, 1, .rw1c, .val 0⟩, ⟨0, 0, .rw1c, .val 0⟩]⟩
/-- R398, Table RL-10 (20_errors_reliability_readback.md). -/
def Reg.ERR_CTL : RegSpec := ⟨0x400018, [], [⟨2, 0, .rw, .val 6⟩]⟩
/-- R398, Table RL-10 (20_errors_reliability_readback.md). -/
def Reg.ERR_THR : RegSpec := ⟨0x400020, [], [⟨23, 16, .rw, .val 2⟩, ⟨15, 8, .rw, .val 2⟩, ⟨7, 0, .rw, .val 8⟩]⟩
/-- R398, Table RL-10 (20_errors_reliability_readback.md). -/
def Reg.ERR_CNT : RegSpec := ⟨0x400028, [], [⟨63, 63, .rw1c, .val 0⟩, ⟨62, 42, .rc, .val 0⟩, ⟨41, 21, .rc, .val 0⟩, ⟨20, 0, .rc, .val 0⟩]⟩
/-- R398, Table RL-10 (20_errors_reliability_readback.md). -/
def Reg.ERR_DEL : RegSpec := ⟨0x400030, [], [⟨47, 32, .ro, .val 0⟩, ⟨31, 16, .ro, .val 0⟩, ⟨15, 0, .ro, .val 0⟩]⟩
/-- R398, Table RL-10 (20_errors_reliability_readback.md). -/
def Reg.ERR_FATAL : RegSpec := ⟨0x400040, [(8, 0x8)], [⟨63, 0, .ro, .val 0⟩]⟩
/-- R398, Table RL-10 (20_errors_reliability_readback.md). -/
def Reg.ERR_REC : RegSpec := ⟨0x410000, [(1024, 0x40), (8, 0x8)], [⟨63, 0, .ro, .val 0⟩]⟩
/-- R406, Table EP-5 (21_electrical_and_package.md). -/
def Reg.DEV_STRAP : RegSpec := ⟨0x20, [], [⟨7, 6, .ro, .val 0⟩, ⟨5, 5, .ro, .val 0⟩, ⟨4, 4, .ro, .val 0⟩, ⟨3, 0, .ro, .val 0⟩]⟩

/-! ### Fields by name -/

def F.DEV_ID_PKG_REV : Fld := ⟨39, 32⟩
def F.DEV_ID_PART : Fld := ⟨31, 16⟩
def F.DEV_ID_FAMILY : Fld := ⟨15, 0⟩
def F.DEV_FEATURE_EFFECTIVE : Fld := ⟨55, 48⟩
def F.DEV_FEATURE_LEVEL_IOS : Fld := ⟨47, 40⟩
def F.DEV_FEATURE_LEVEL_ION : Fld := ⟨39, 32⟩
def F.DEV_FEATURE_LEVEL_C3 : Fld := ⟨31, 24⟩
def F.DEV_FEATURE_LEVEL_C2 : Fld := ⟨23, 16⟩
def F.DEV_FEATURE_LEVEL_C1 : Fld := ⟨15, 8⟩
def F.DEV_FEATURE_LEVEL_C0 : Fld := ⟨7, 0⟩
def F.DEV_INV_DIE_CELLAR_PKG : Fld := ⟨23, 16⟩
def F.DEV_INV_DIE_IOS : Fld := ⟨9, 9⟩
def F.DEV_INV_DIE_ION : Fld := ⟨8, 8⟩
def F.DEV_INV_DIE_UNDERCROFT : Fld := ⟨7, 4⟩
def F.DEV_INV_DIE_COMPUTE : Fld := ⟨3, 0⟩
def F.DEV_INV_CLUSTER_USABLE : Fld := ⟨63, 0⟩
def F.DEV_INV_ENGINE_USABLE : Fld := ⟨63, 0⟩
def F.CST_ARITH_CNT_VEC_REPLAY : Fld := ⟨59, 48⟩
def F.CST_ARITH_CNT_ENG3_REPLAY : Fld := ⟨47, 36⟩
def F.CST_ARITH_CNT_ENG2_REPLAY : Fld := ⟨35, 24⟩
def F.CST_ARITH_CNT_ENG1_REPLAY : Fld := ⟨23, 12⟩
def F.CST_ARITH_CNT_ENG0_REPLAY : Fld := ⟨11, 0⟩
def F.CST_STEP_STAT_LAST_SEQ : Fld := ⟨63, 32⟩
def F.CST_STEP_STAT_LAST_END : Fld := ⟨11, 10⟩
def F.CST_STEP_STAT_LAST_POISON : Fld := ⟨9, 9⟩
def F.CST_STEP_STAT_ACTIVE : Fld := ⟨8, 8⟩
def F.CST_STEP_STAT_ENG_KEPT : Fld := ⟨7, 4⟩
def F.CST_STEP_STAT_ENG_BUSY : Fld := ⟨3, 0⟩
def F.CST_STEP_INFO_CUR_SEQ : Fld := ⟨63, 32⟩
def F.CST_STEP_INFO_FAULT_CODE : Fld := ⟨7, 0⟩
def F.CST_ENG_PROG_ENG3_DONE : Fld := ⟨59, 48⟩
def F.CST_ENG_PROG_ENG2_DONE : Fld := ⟨43, 32⟩
def F.CST_ENG_PROG_ENG1_DONE : Fld := ⟨27, 16⟩
def F.CST_ENG_PROG_ENG0_DONE : Fld := ⟨11, 0⟩
def F.CST_SEQ_STAT_HALT_CODE : Fld := ⟨63, 48⟩
def F.CST_SEQ_STAT_BANK : Fld := ⟨44, 42⟩
def F.CST_SEQ_STAT_CALL_DEPTH : Fld := ⟨41, 38⟩
def F.CST_SEQ_STAT_LOOP_DEPTH : Fld := ⟨37, 34⟩
def F.CST_SEQ_STAT_STATE : Fld := ⟨33, 30⟩
def F.CST_SEQ_STAT_FAULT : Fld := ⟨29, 22⟩
def F.CST_SEQ_STAT_PC : Fld := ⟨17, 0⟩
def F.CST_SEQ_WAIT_TALLY : Fld := ⟨63, 52⟩
def F.CST_SEQ_WAIT_EXP : Fld := ⟨51, 48⟩
def F.CST_SEQ_WAIT_TARGET : Fld := ⟨31, 0⟩
def F.CST_SEQ_LOOP_INDEX : Fld := ⟨63, 48⟩
def F.CST_SEQ_LOOP_COUNT_M1 : Fld := ⟨47, 32⟩
def F.CST_SEQ_LOOP_START : Fld := ⟨17, 0⟩
def F.CST_SEQ_LSTR_SSTRIDE : Fld := ⟨31, 0⟩
def F.CST_SEQ_CALL_RET : Fld := ⟨17, 0⟩
def F.CST_SEQ_EXP_VALUE : Fld := ⟨31, 0⟩
def F.CST_SEQ_RA_PF_OUT : Fld := ⟨39, 36⟩
def F.CST_SEQ_RA_AHEAD : Fld := ⟨35, 33⟩
def F.CST_SEQ_RA_SCAN_STOP : Fld := ⟨32, 30⟩
def F.CST_SEQ_RA_SCAN_PC : Fld := ⟨17, 0⟩
def F.CST_SEQ_CHEAP_MAX_GAP : Fld := ⟨63, 32⟩
def F.CST_SEQ_CHEAP_GAP : Fld := ⟨31, 0⟩
def F.CST_SEQ_CHAIN_CHAIN_PC : Fld := ⟨17, 0⟩
def F.BAY_IMG_ADDR_ADDR : Fld := ⟨51, 0⟩
def F.BAY_IMG_LEN_LEN : Fld := ⟨39, 0⟩
def F.BAY_IMG_CMD_CMD : Fld := ⟨3, 0⟩
def F.BAY_IMG_STAT_HALTED : Fld := ⟨47, 32⟩
def F.BAY_IMG_STAT_REFUSE : Fld := ⟨23, 16⟩
def F.BAY_IMG_STAT_JPROF : Fld := ⟨11, 8⟩
def F.BAY_IMG_STAT_STATE : Fld := ⟨3, 0⟩
def F.BAY_IMG_MEAS_MEAS : Fld := ⟨63, 0⟩
def F.CST_GRP_STAT_TRAP_CODE : Fld := ⟨63, 48⟩
def F.CST_GRP_STAT_FAULT : Fld := ⟨47, 40⟩
def F.CST_GRP_STAT_DEPTH : Fld := ⟨37, 33⟩
def F.CST_GRP_STAT_STATE : Fld := ⟨32, 30⟩
def F.CST_GRP_STAT_GNUM : Fld := ⟨29, 27⟩
def F.CST_GRP_STAT_PC : Fld := ⟨17, 0⟩
def F.CST_GRP_FADDR_ADDR : Fld := ⟨63, 0⟩
def F.CST_GRP_FMASK_FMASK : Fld := ⟨63, 0⟩
def F.CST_GRP_LIVE_LIVE : Fld := ⟨63, 0⟩
def F.CST_GRP_ACT_ACTIVE : Fld := ⟨63, 0⟩
def F.CST_GRP_SPIN_COUNT : Fld := ⟨43, 32⟩
def F.CST_GRP_SPIN_SIGNATURE : Fld := ⟨31, 0⟩
def F.CST_GRP_CTL_CMD : Fld := ⟨1, 0⟩
def F.CST_VEC_CNT_BANK_REPLAY : Fld := ⟨61, 32⟩
def F.CST_VEC_CNT_ATOM_COMB : Fld := ⟨31, 8⟩
def F.CST_VEC_CNT_PARKS : Fld := ⟨7, 0⟩
def F.LRD_ILV_CFG_CMP_EN : Fld := ⟨8, 8⟩
def F.LRD_ILV_CFG_NEXT : Fld := ⟨1, 1⟩
def F.LRD_ILV_CFG_MODE : Fld := ⟨0, 0⟩
def F.LRD_QMAP_CMD_DIE : Fld := ⟨10, 9⟩
def F.LRD_QMAP_CMD_GRANULE : Fld := ⟨8, 0⟩
def F.LRD_MH_STAT_PIN_OVF : Fld := ⟨63, 32⟩
def F.LRD_MH_STAT_UNITS : Fld := ⟨20, 16⟩
def F.LRD_MH_STAT_REFUSE : Fld := ⟨10, 8⟩
def F.LRD_MH_STAT_QMAP_BUSY : Fld := ⟨1, 1⟩
def F.LRD_MH_STAT_PIN_BUSY : Fld := ⟨0, 0⟩
def F.LRD_QMAP_DIE : Fld := ⟨63, 0⟩
def F.LRD_PIN_CMD_OP : Fld := ⟨13, 12⟩
def F.LRD_PIN_CMD_WAY : Fld := ⟨11, 8⟩
def F.LRD_PIN_CMD_INSTANCE : Fld := ⟨5, 0⟩
def F.LRD_PIN_CFG_SHARED : Fld := ⟨32, 32⟩
def F.LRD_PIN_CFG_LOCKER : Fld := ⟨31, 16⟩
def F.LRD_PIN_CFG_WAYS : Fld := ⟨15, 0⟩
def F.LRD_LOCKER_MAP_WAY : Fld := ⟨63, 0⟩
def F.LRD_MMU_ROOT_BASE : Fld := ⟨51, 12⟩
def F.LRD_MMU_ROOT_EN : Fld := ⟨0, 0⟩
def F.LRD_TLB_INV_INSTANCE : Fld := ⟨61, 56⟩
def F.LRD_TLB_INV_SIZE : Fld := ⟨55, 54⟩
def F.LRD_TLB_INV_VPN : Fld := ⟨35, 0⟩
def F.LRD_TLB_STAT_BUSY : Fld := ⟨0, 0⟩
def F.LRD_RNG_ADDR_VA : Fld := ⟨47, 0⟩
def F.LRD_RNG_LEN_LEN : Fld := ⟨39, 0⟩
def F.LRD_RNG_CMD_OP : Fld := ⟨2, 0⟩
def F.LRD_RNG_STAT_SEQ : Fld := ⟨63, 32⟩
def F.LRD_RNG_STAT_ERR : Fld := ⟨23, 16⟩
def F.LRD_RNG_STAT_BUSY : Fld := ⟨0, 0⟩
def F.LRD_RNG_FAIL_VA : Fld := ⟨47, 0⟩
def F.LRD_COH_CMD_OP : Fld := ⟨1, 0⟩
def F.LRD_COH_STAT_LOST : Fld := ⟨11, 8⟩
def F.LRD_COH_STAT_REASON : Fld := ⟨5, 4⟩
def F.LRD_COH_STAT_ORDER : Fld := ⟨1, 0⟩
def F.LRD_RED_CFG_BIND_MAX : Fld := ⟨6, 0⟩
def F.LRD_SL_CNT_HOT : Fld := ⟨63, 32⟩
def F.LRD_SL_CNT_FWD : Fld := ⟨31, 0⟩
def F.LRD_SL_STAT_UNITS : Fld := ⟨39, 32⟩
def F.LRD_SL_STAT_FWD_OUT : Fld := ⟨25, 20⟩
def F.LRD_SL_STAT_QUEUE : Fld := ⟨8, 0⟩
def F.CST_MM_CFG_MODE : Fld := ⟨8, 8⟩
def F.CST_MM_CFG_AUDIT : Fld := ⟨0, 0⟩
def F.CST_MM_AUDIT_PAIRS : Fld := ⟨63, 32⟩
def F.CST_MM_AUDIT_REL_SCOPE : Fld := ⟨31, 29⟩
def F.CST_MM_AUDIT_ACQ_SCOPE : Fld := ⟨28, 26⟩
def F.CST_MM_AUDIT_TALLY : Fld := ⟨11, 0⟩
def F.CST_TALLY_LSCOPE : Fld := ⟨63, 61⟩
def F.CST_TALLY_LKIND : Fld := ⟨55, 53⟩
def F.CST_TALLY_LREMOTE : Fld := ⟨52, 52⟩
def F.CST_TALLY_LDEV : Fld := ⟨51, 41⟩
def F.CST_TALLY_LCORE : Fld := ⟨40, 32⟩
def F.CST_TALLY_VALUE : Fld := ⟨31, 0⟩
def F.CST_TALLY_ADD_AMOUNT : Fld := ⟨31, 0⟩
def F.CST_PTR_STAT_CAUSE : Fld := ⟨15, 8⟩
def F.CST_PTR_STAT_STATE : Fld := ⟨1, 0⟩
def F.PTR_CL_STAT_CAUSE : Fld := ⟨15, 8⟩
def F.PTR_CL_STAT_STATE : Fld := ⟨1, 0⟩
def F.PTR_SK_STAT_CAUSE : Fld := ⟨15, 8⟩
def F.PTR_SK_STAT_STATE : Fld := ⟨1, 0⟩
def F.CST_PTR_ERRADDR_ADDR : Fld := ⟨51, 0⟩
def F.PTR_CL_ERRADDR_ADDR : Fld := ⟨51, 0⟩
def F.PTR_SK_ERRADDR_ADDR : Fld := ⟨51, 0⟩
def F.CST_PTR_CTL_CHAN : Fld := ⟨7, 4⟩
def F.CST_PTR_CTL_CMD : Fld := ⟨3, 0⟩
def F.PTR_CL_CTL_CHAN : Fld := ⟨7, 4⟩
def F.PTR_CL_CTL_CMD : Fld := ⟨3, 0⟩
def F.PTR_SK_CTL_CHAN : Fld := ⟨7, 4⟩
def F.PTR_SK_CTL_CMD : Fld := ⟨3, 0⟩
def F.CST_PTR_CNT_SAT : Fld := ⟨63, 63⟩
def F.CST_PTR_CNT_BYTES : Fld := ⟨62, 0⟩
def F.PTR_CL_CNT_SAT : Fld := ⟨63, 63⟩
def F.PTR_CL_CNT_BYTES : Fld := ⟨62, 0⟩
def F.PTR_SK_CNT_SAT : Fld := ⟨63, 63⟩
def F.PTR_SK_CNT_BYTES : Fld := ⟨62, 0⟩
def F.CST_PTR_CH_STAT_ERR : Fld := ⟨31, 24⟩
def F.CST_PTR_CH_STAT_QUEUED : Fld := ⟨20, 16⟩
def F.CST_PTR_CH_STAT_PARTIAL : Fld := ⟨4, 4⟩
def F.CST_PTR_CH_STAT_POISON : Fld := ⟨3, 3⟩
def F.CST_PTR_CH_STAT_STATE : Fld := ⟨2, 0⟩
def F.PTR_CL_CH_STAT_ERR : Fld := ⟨31, 24⟩
def F.PTR_CL_CH_STAT_QUEUED : Fld := ⟨20, 16⟩
def F.PTR_CL_CH_STAT_PARTIAL : Fld := ⟨4, 4⟩
def F.PTR_CL_CH_STAT_POISON : Fld := ⟨3, 3⟩
def F.PTR_CL_CH_STAT_STATE : Fld := ⟨2, 0⟩
def F.PTR_SK_CH_STAT_ERR : Fld := ⟨31, 24⟩
def F.PTR_SK_CH_STAT_QUEUED : Fld := ⟨20, 16⟩
def F.PTR_SK_CH_STAT_PARTIAL : Fld := ⟨4, 4⟩
def F.PTR_SK_CH_STAT_POISON : Fld := ⟨3, 3⟩
def F.PTR_SK_CH_STAT_STATE : Fld := ⟨2, 0⟩
def F.CST_PTR_CH_PROG_ROWS : Fld := ⟨39, 0⟩
def F.PTR_CL_CH_PROG_ROWS : Fld := ⟨39, 0⟩
def F.PTR_SK_CH_PROG_ROWS : Fld := ⟨39, 0⟩
def F.CST_PTR_CH_TAG_TAG : Fld := ⟨63, 0⟩
def F.PTR_CL_CH_TAG_TAG : Fld := ⟨63, 0⟩
def F.PTR_SK_CH_TAG_TAG : Fld := ⟨63, 0⟩
def F.CST_PTR_CH_DONE_COUNT : Fld := ⟨31, 0⟩
def F.PTR_CL_CH_DONE_COUNT : Fld := ⟨31, 0⟩
def F.PTR_SK_CH_DONE_COUNT : Fld := ⟨31, 0⟩
def F.PTR_CL_CH0_DESC_ADDR : Fld := ⟨51, 7⟩
def F.PTR_CL_CH0_POST_POST : Fld := ⟨0, 0⟩
def F.BAY_CLUSTERS_MASK : Fld := ⟨63, 0⟩
def F.BAY_CFG_INSTANCE : Fld := ⟨13, 8⟩
def F.BAY_CFG_ORDERED : Fld := ⟨1, 1⟩
def F.BAY_CFG_EN : Fld := ⟨0, 0⟩
def F.BAY_SLICE_BE_SLICE : Fld := ⟨47, 24⟩
def F.BAY_SLICE_LC_SLICE : Fld := ⟨23, 0⟩
def F.BAY_SHARE_CHU : Fld := ⟨23, 16⟩
def F.BAY_SHARE_XFR : Fld := ⟨15, 8⟩
def F.BAY_SHARE_LRD : Fld := ⟨7, 0⟩
def F.BAY_SCHED_READY : Fld := ⟨39, 36⟩
def F.BAY_SCHED_CLASS : Fld := ⟨35, 32⟩
def F.BAY_SCHED_SWITCH : Fld := ⟨11, 10⟩
def F.BAY_SCHED_TARGET : Fld := ⟨9, 8⟩
def F.BAY_SCHED_LOST : Fld := ⟨4, 4⟩
def F.BAY_SCHED_ON : Fld := ⟨3, 3⟩
def F.BAY_SCHED_CUR : Fld := ⟨1, 0⟩
def F.BAY_EVT_SAT : Fld := ⟨7, 7⟩
def F.BAY_EVT_LOST : Fld := ⟨6, 6⟩
def F.BAY_EVT_SPILL_ERR : Fld := ⟨5, 5⟩
def F.BAY_EVT_SLOW : Fld := ⟨4, 4⟩
def F.BAY_EVT_OVERRUN : Fld := ⟨3, 3⟩
def F.BAY_EVT_FAULT : Fld := ⟨2, 2⟩
def F.BAY_EVT_PARK : Fld := ⟨1, 1⟩
def F.BAY_EVT_HALT : Fld := ⟨0, 0⟩
def F.BAY_EVT_EN_EN : Fld := ⟨7, 0⟩
def F.BAY_SLOW_LIMIT : Fld := ⟨63, 48⟩
def F.BAY_SLOW_SLOW : Fld := ⟨15, 0⟩
def F.BAY_SPILL_ADDR : Fld := ⟨51, 16⟩
def F.BAY_WAKE_MASK : Fld := ⟨15, 0⟩
def F.BAY_CLAIM_RANGES : Fld := ⟨39, 0⟩
def F.BAY_OVR_MAX : Fld := ⟨63, 32⟩
def F.BAY_OVR_LAST : Fld := ⟨31, 0⟩
def F.BAY_CTLW_WORD : Fld := ⟨63, 0⟩
def F.BAY_ENG_SAT : Fld := ⟨63, 63⟩
def F.BAY_ENG_COUNT : Fld := ⟨62, 0⟩
def F.BAY_LRD_SAT : Fld := ⟨63, 63⟩
def F.BAY_LRD_COUNT : Fld := ⟨62, 0⟩
def F.BAY_XFR_SAT : Fld := ⟨63, 63⟩
def F.BAY_XFR_COUNT : Fld := ⟨62, 0⟩
def F.BAY_CHU_SAT : Fld := ⟨63, 63⟩
def F.BAY_CHU_COUNT : Fld := ⟨62, 0⟩
def F.BAY_INTF_SAT : Fld := ⟨63, 63⟩
def F.BAY_INTF_COUNT : Fld := ⟨62, 0⟩
def F.BAY_INST_ENG_SAT : Fld := ⟨63, 63⟩
def F.BAY_INST_ENG_COUNT : Fld := ⟨62, 0⟩
def F.BAY_INST_LRD_SAT : Fld := ⟨63, 63⟩
def F.BAY_INST_LRD_COUNT : Fld := ⟨62, 0⟩
def F.BAY_INST_XFR_SAT : Fld := ⟨63, 63⟩
def F.BAY_INST_XFR_COUNT : Fld := ⟨62, 0⟩
def F.BAY_INST_CHU_SAT : Fld := ⟨63, 63⟩
def F.BAY_INST_CHU_COUNT : Fld := ⟨62, 0⟩
def F.HAT_TSTAGE_DATA : Fld := ⟨63, 0⟩
def F.HAT_TPOST_POST : Fld := ⟨0, 0⟩
def F.HAT_MSTAGE_DATA : Fld := ⟨63, 0⟩
def F.HAT_MPOST_POST : Fld := ⟨0, 0⟩
def F.HAT_T2M_IDX_CONS : Fld := ⟨63, 32⟩
def F.HAT_T2M_IDX_PROD : Fld := ⟨31, 0⟩
def F.HAT_M2T_IDX_CONS : Fld := ⟨63, 32⟩
def F.HAT_M2T_IDX_PROD : Fld := ⟨31, 0⟩
def F.HAT_STAT_EVT_PEND : Fld := ⟨23, 16⟩
def F.HAT_STAT_EVT_LOST : Fld := ⟨15, 15⟩
def F.HAT_STAT_MCAUSE : Fld := ⟨14, 13⟩
def F.HAT_STAT_MREFUSED : Fld := ⟨12, 12⟩
def F.HAT_STAT_TCAUSE : Fld := ⟨11, 10⟩
def F.HAT_STAT_TREFUSED : Fld := ⟨9, 9⟩
def F.HAT_STAT_STATE : Fld := ⟨3, 0⟩
def F.HAT_IRQ_M2T_EN : Fld := ⟨1, 1⟩
def F.HAT_IRQ_T2M_EN : Fld := ⟨0, 0⟩
def F.HAT_INST_CMD_CMD : Fld := ⟨3, 0⟩
def F.HAT_INST_STAT_DROPPED : Fld := ⟨63, 32⟩
def F.HAT_INST_STAT_REFUSED : Fld := ⟨31, 16⟩
def F.HAT_INST_STAT_REASON : Fld := ⟨15, 8⟩
def F.HAT_INST_STAT_BUSY : Fld := ⟨4, 4⟩
def F.HAT_INST_STAT_STATE : Fld := ⟨3, 0⟩
def F.HAT_INST_SAVE_ADDR : Fld := ⟨51, 0⟩
def F.HAT_INST_SLEN_USED : Fld := ⟨63, 40⟩
def F.HAT_INST_SLEN_LIMIT : Fld := ⟨39, 0⟩
def F.HAT_INST_QCFG_FORCE_US : Fld := ⟨23, 0⟩
def F.HAT_INST_RMAP_UNIT : Fld := ⟨63, 0⟩
def F.HAT_SHR_BASE_BASE : Fld := ⟨51, 7⟩
def F.HAT_SHR_BASE_EN : Fld := ⟨0, 0⟩
def F.HAT_SHR_LEN_LEN : Fld := ⟨39, 0⟩
def F.HAT_SHR_BACK_BACK : Fld := ⟨51, 7⟩
def F.HAT_SHR_BACK_BACK_SELF : Fld := ⟨0, 0⟩
def F.HAT_SHR_SHARE_SHARERS : Fld := ⟨32, 1⟩
def F.HAT_SHR_CNT_REFETCH : Fld := ⟨63, 0⟩
def F.HAT_SAVE_FMT_MAJOR : Fld := ⟨31, 16⟩
def F.HAT_SAVE_FMT_MINOR : Fld := ⟨15, 0⟩
def F.JST_LINK_STAT_LEVEL : Fld := ⟨63, 56⟩
def F.JST_LINK_STAT_WIDTH : Fld := ⟨52, 48⟩
def F.JST_LINK_STAT_STATE : Fld := ⟨47, 44⟩
def F.JST_LINK_STAT_REPAIRED : Fld := ⟨39, 32⟩
def F.JST_LINK_STAT_MODULES : Fld := ⟨23, 0⟩
def F.JST_LINK_CNT_REPLAY : Fld := ⟨63, 32⟩
def F.JST_LINK_CNT_CRC_ERR : Fld := ⟨31, 0⟩
def F.JST_LINK_CFG_THRESH : Fld := ⟨15, 0⟩
def F.JST_ROUTE_ROUTE : Fld := ⟨23, 0⟩
def F.JST_DIE_STAT_CAUSE : Fld := ⟨47, 24⟩
def F.JST_DIE_STAT_STATE : Fld := ⟨23, 0⟩
def F.JST_DIE_CMD_DIE : Fld := ⟨6, 4⟩
def F.JST_DIE_CMD_CMD : Fld := ⟨3, 0⟩
def F.JST_EVT_DROPPED : Fld := ⟨63, 32⟩
def F.JST_EVT_LOST : Fld := ⟨2, 2⟩
def F.JST_EVT_FAILED : Fld := ⟨1, 1⟩
def F.JST_EVT_NARROW : Fld := ⟨0, 0⟩
def F.CHU_SPAN_CEPOCH : Fld := ⟨63, 32⟩
def F.CHU_SPAN_EN : Fld := ⟨31, 31⟩
def F.CHU_SPAN_MASTER : Fld := ⟨26, 16⟩
def F.CHU_SPAN_ID : Fld := ⟨10, 0⟩
def F.CHU_CFG_TIMEOUT_US : Fld := ⟨15, 0⟩
def F.CHU_CMD_PORT : Fld := ⟨7, 4⟩
def F.CHU_CMD_CMD : Fld := ⟨3, 0⟩
def F.CHU_XADDR_ADDR : Fld := ⟨51, 6⟩
def F.CHU_RSTAT_FAILED : Fld := ⟨15, 8⟩
def F.CHU_RSTAT_ALT : Fld := ⟨3, 0⟩
def F.CHU_DROP_STALE : Fld := ⟨63, 32⟩
def F.CHU_DROP_LATE : Fld := ⟨31, 0⟩
def F.CHU_EVT_CEPOCH : Fld := ⟨1, 1⟩
def F.CHU_EVT_LINK : Fld := ⟨0, 0⟩
def F.CHU_PORT_STAT_PEER : Fld := ⟨60, 50⟩
def F.CHU_PORT_STAT_LEVEL : Fld := ⟨47, 40⟩
def F.CHU_PORT_STAT_STATE : Fld := ⟨39, 36⟩
def F.CHU_PORT_STAT_LANES : Fld := ⟨23, 12⟩
def F.CHU_PORT_CNT_REPLAY : Fld := ⟨63, 32⟩
def F.CHU_PORT_CNT_UNCORR : Fld := ⟨31, 0⟩
def F.CHU_PORT_FEC_CORR : Fld := ⟨63, 0⟩
def F.CHU_PORT_CFG_RATE : Fld := ⟨1, 1⟩
def F.CHU_PORT_CFG_EN : Fld := ⟨0, 0⟩
def F.CHU_EPOCH_EPOCH : Fld := ⟨15, 0⟩
def F.CHU_INWIN_BASE_BASE : Fld := ⟨51, 12⟩
def F.CHU_INWIN_BASE_EN : Fld := ⟨11, 11⟩
def F.CHU_INWIN_BASE_W : Fld := ⟨10, 10⟩
def F.CHU_INWIN_BASE_R : Fld := ⟨9, 9⟩
def F.CHU_INWIN_BASE_INSTANCE : Fld := ⟨5, 0⟩
def F.CHU_INWIN_LIM_SIZE : Fld := ⟨36, 0⟩
def F.HST_LINK_STAT_UP : Fld := ⟨15, 15⟩
def F.HST_LINK_STAT_FLIT : Fld := ⟨14, 14⟩
def F.HST_LINK_STAT_WIDTH : Fld := ⟨13, 8⟩
def F.HST_LINK_STAT_SPEED : Fld := ⟨2, 0⟩
def F.HST_LINK_CFG_MAX_SPEED : Fld := ⟨2, 0⟩
def F.HST_F0_WIN_BASE : Fld := ⟨51, 30⟩
def F.HST_ERR_CTO : Fld := ⟨63, 48⟩
def F.HST_ERR_LATE : Fld := ⟨47, 32⟩
def F.HST_ERR_UR : Fld := ⟨31, 16⟩
def F.HST_ERR_IDE_REJ : Fld := ⟨15, 0⟩
def F.HST_VF_WIN_BASE : Fld := ⟨15, 0⟩
def F.HST_TDI_STAT_STATE : Fld := ⟨1, 0⟩
def F.CEL_CAP_FOLD_PKG : Fld := ⟨59, 57⟩
def F.CEL_CAP_FOLDED : Fld := ⟨56, 56⟩
def F.CEL_CAP_PKG_GIB : Fld := ⟨55, 48⟩
def F.CEL_CAP_RATE : Fld := ⟨47, 32⟩
def F.CEL_CAP_CAP_MIB : Fld := ⟨31, 0⟩
def F.CEL_CFG_RETRAIN_MS : Fld := ⟨31, 16⟩
def F.CEL_CFG_NEXT_RATE : Fld := ⟨7, 5⟩
def F.CEL_CFG_LINK_ECC : Fld := ⟨0, 0⟩
def F.CEL_CMD_CH : Fld := ⟨15, 11⟩
def F.CEL_CMD_PKG : Fld := ⟨10, 8⟩
def F.CEL_CMD_CMD : Fld := ⟨3, 0⟩
def F.CEL_KEY_CMD_OP : Fld := ⟨39, 38⟩
def F.CEL_KEY_CMD_INSTANCE : Fld := ⟨37, 32⟩
def F.CEL_KEY_CMD_BLOCK : Fld := ⟨17, 0⟩
def F.CEL_STAT_REFUSE : Fld := ⟨39, 32⟩
def F.CEL_STAT_STATE : Fld := ⟨26, 24⟩
def F.CEL_STAT_RETRAIN_CH : Fld := ⟨20, 16⟩
def F.CEL_STAT_RETRAINING : Fld := ⟨15, 15⟩
def F.CEL_STAT_BUSY : Fld := ⟨0, 0⟩
def F.CEL_EVT_KMISMATCH : Fld := ⟨3, 3⟩
def F.CEL_EVT_PKG_FAIL : Fld := ⟨2, 2⟩
def F.CEL_EVT_UNCORR : Fld := ⟨1, 1⟩
def F.CEL_EVT_RETRY : Fld := ⟨0, 0⟩
def F.CEL_KMISM_COUNT : Fld := ⟨63, 0⟩
def F.CEL_CH_CNT_UNCORR : Fld := ⟨63, 48⟩
def F.CEL_CH_CNT_RETRY : Fld := ⟨47, 32⟩
def F.CEL_CH_CNT_CORR : Fld := ⟨31, 0⟩
def F.CEL_CH_STAT_TEMP : Fld := ⟨15, 8⟩
def F.CEL_CH_STAT_STATE : Fld := ⟨2, 0⟩
def F.CLK_PLL_FRAC : Fld := ⟨63, 48⟩
def F.CLK_PLL_POSTDIV : Fld := ⟨37, 32⟩
def F.CLK_PLL_FBDIV : Fld := ⟨26, 16⟩
def F.CLK_PLL_READY : Fld := ⟨1, 1⟩
def F.CLK_PLL_EN : Fld := ⟨0, 0⟩
def F.CLK_SEL_SCLK_SRC : Fld := ⟨7, 6⟩
def F.CLK_SEL_MCLK_SRC : Fld := ⟨5, 4⟩
def F.CLK_SEL_FCLK_SRC : Fld := ⟨3, 2⟩
def F.CLK_SEL_ACLK_SRC : Fld := ⟨1, 0⟩
def F.CLK_STAT_REFUSE : Fld := ⟨31, 24⟩
def F.CLK_STAT_SWITCHING : Fld := ⟨16, 16⟩
def F.CLK_STAT_READY : Fld := ⟨7, 0⟩
def F.CLK_REFCNT_COUNT : Fld := ⟨63, 0⟩
def F.CLK_SSC_RATE : Fld := ⟨13, 8⟩
def F.CLK_SSC_DEPTH : Fld := ⟨3, 0⟩
def F.CLK_REF_REF_OK : Fld := ⟨0, 0⟩
def F.CLK_EVT_REF_BAD : Fld := ⟨1, 1⟩
def F.CLK_EVT_REFUSED : Fld := ⟨0, 0⟩
def F.PWR_CTL_GAIN : Fld := ⟨7, 0⟩
def F.PWR_PKG_PEAK_W : Fld := ⟨31, 16⟩
def F.PWR_PKG_SUST_W : Fld := ⟨15, 0⟩
def F.PWR_CAP_CAP_W : Fld := ⟨15, 0⟩
def F.PWR_THERM_CD_START : Fld := ⟨15, 8⟩
def F.PWR_THERM_UC_START : Fld := ⟨7, 0⟩
def F.PWR_GATE_PG_DELAY_US : Fld := ⟨47, 24⟩
def F.PWR_GATE_CG_DELAY_US : Fld := ⟨23, 0⟩
def F.PWR_STAT_SPAN_CAP : Fld := ⟨63, 48⟩
def F.PWR_STAT_P_10US : Fld := ⟨47, 32⟩
def F.PWR_STAT_P_1MS : Fld := ⟨31, 16⟩
def F.PWR_STAT_LIMIT : Fld := ⟨15, 0⟩
def F.PWR_EVT_SAT : Fld := ⟨6, 6⟩
def F.PWR_EVT_SPAN_LOST : Fld := ⟨5, 5⟩
def F.PWR_EVT_RAIL_PIL : Fld := ⟨4, 4⟩
def F.PWR_EVT_TRIP : Fld := ⟨3, 3⟩
def F.PWR_EVT_HARD : Fld := ⟨2, 2⟩
def F.PWR_EVT_THROTTLE : Fld := ⟨1, 1⟩
def F.PWR_EVT_VREG : Fld := ⟨0, 0⟩
def F.PWR_EVT_EN_EN : Fld := ⟨6, 0⟩
def F.PWR_SPAN_EN : Fld := ⟨63, 63⟩
def F.PWR_SPAN_PERIOD_US : Fld := ⟨47, 32⟩
def F.PWR_SPAN_FLOOR_W : Fld := ⟨15, 0⟩
def F.PWR_BUDGET_BUDGET_W : Fld := ⟨31, 0⟩
def F.PWR_CRIT_R_KCYC : Fld := ⟨63, 16⟩
def F.PWR_CRIT_WEIGHT : Fld := ⟨15, 0⟩
def F.PWR_DOM0_ON : Fld := ⟨63, 0⟩
def F.PWR_DOM1_ON : Fld := ⟨15, 0⟩
def F.PWR_OPTAB_VALID : Fld := ⟨63, 63⟩
def F.PWR_OPTAB_FCLK_MHZ : Fld := ⟨47, 32⟩
def F.PWR_OPTAB_ACLK_MHZ : Fld := ⟨31, 16⟩
def F.PWR_OPTAB_VDD_MV : Fld := ⟨15, 0⟩
def F.PWR_BAYOP_PH_EN : Fld := ⟨63, 63⟩
def F.PWR_BAYOP_PH_WORD : Fld := ⟨57, 54⟩
def F.PWR_BAYOP_PH_LO : Fld := ⟨53, 48⟩
def F.PWR_BAYOP_IDLE : Fld := ⟨11, 9⟩
def F.PWR_BAYOP_COLL : Fld := ⟨8, 6⟩
def F.PWR_BAYOP_DECODE : Fld := ⟨5, 3⟩
def F.PWR_BAYOP_PREFILL : Fld := ⟨2, 0⟩
def F.PWR_RAIL_LIM_L1US : Fld := ⟨47, 32⟩
def F.PWR_RAIL_LIM_L20US : Fld := ⟨31, 16⟩
def F.PWR_RAIL_LIM_L1MS : Fld := ⟨15, 0⟩
def F.PWR_RAIL_MEAS_L1US : Fld := ⟨47, 32⟩
def F.PWR_RAIL_MEAS_L20US : Fld := ⟨31, 16⟩
def F.PWR_RAIL_MEAS_L1MS : Fld := ⟨15, 0⟩
def F.PWR_DIE_STAT_TC : Fld := ⟨63, 56⟩
def F.PWR_DIE_STAT_TU : Fld := ⟨55, 48⟩
def F.PWR_DIE_STAT_VDD_MV : Fld := ⟨47, 32⟩
def F.PWR_DIE_STAT_ACLK_MHZ : Fld := ⟨31, 16⟩
def F.PWR_DIE_STAT_OP : Fld := ⟨15, 13⟩
def F.PWR_DIE_STAT_HARD : Fld := ⟨12, 12⟩
def F.PWR_DIE_STAT_REASON : Fld := ⟨11, 8⟩
def F.PWR_DIE_STAT_LEVEL : Fld := ⟨5, 0⟩
def F.PWR_DIE_THR_SAT : Fld := ⟨63, 63⟩
def F.PWR_DIE_THR_COUNT : Fld := ⟨62, 0⟩
def F.PWR_CL_VOTE : Fld := ⟨11, 9⟩
def F.PWR_CL_DIV : Fld := ⟨8, 5⟩
def F.PWR_CL_STATE : Fld := ⟨4, 3⟩
def F.PWR_CL_RETAIN : Fld := ⟨2, 2⟩
def F.PWR_CL_MODE : Fld := ⟨1, 0⟩
def F.SEC_STATE_SVN : Fld := ⟨47, 32⟩
def F.SEC_STATE_SVN_MIN : Fld := ⟨31, 16⟩
def F.SEC_STATE_FAILS : Fld := ⟨15, 8⟩
def F.SEC_STATE_BOXROOM : Fld := ⟨7, 7⟩
def F.SEC_STATE_DEBUG : Fld := ⟨5, 4⟩
def F.SEC_STATE_LC : Fld := ⟨3, 2⟩
def F.SEC_STATE_OWNER_SET : Fld := ⟨1, 1⟩
def F.SEC_STATE_SLOT : Fld := ⟨0, 0⟩
def F.SEC_START_GOOD : Fld := ⟨63, 32⟩
def F.SEC_START_NUM : Fld := ⟨31, 0⟩
def F.SEC_CMD_CMD : Fld := ⟨3, 0⟩
def F.SEC_CMD_STAT_RESULT : Fld := ⟨15, 8⟩
def F.SEC_CMD_STAT_BUSY : Fld := ⟨0, 0⟩
def F.SEC_TOKEN_ADDR_ADDR : Fld := ⟨51, 0⟩
def F.SEC_TOKEN_LEN_LEN : Fld := ⟨23, 0⟩
def F.SEC_DBG_TEN_MASK : Fld := ⟨32, 1⟩
def F.SEC_NONCE_NONCE : Fld := ⟨63, 0⟩
def F.SEC_DEVID_DEVID : Fld := ⟨63, 0⟩
def F.SEC_CAUSE_REC : Fld := ⟨63, 0⟩
def F.SEC_MEAS_MEAS : Fld := ⟨63, 0⟩
def F.ERR_PROD_PROD : Fld := ⟨31, 0⟩
def F.ERR_CONS_CONS : Fld := ⟨31, 0⟩
def F.ERR_STAT_LOST : Fld := ⟨63, 32⟩
def F.ERR_STAT_RING_ERR : Fld := ⟨2, 2⟩
def F.ERR_STAT_FATAL : Fld := ⟨1, 1⟩
def F.ERR_STAT_OVF : Fld := ⟨0, 0⟩
def F.ERR_CTL_IRQ : Fld := ⟨2, 0⟩
def F.ERR_THR_CUPBOARD : Fld := ⟨23, 16⟩
def F.ERR_THR_LARDER : Fld := ⟨15, 8⟩
def F.ERR_THR_ENGINE : Fld := ⟨7, 0⟩
def F.ERR_CNT_SAT : Fld := ⟨63, 63⟩
def F.ERR_CNT_FATAL : Fld := ⟨62, 42⟩
def F.ERR_CNT_CONTAINED : Fld := ⟨41, 21⟩
def F.ERR_CNT_CORRECTED : Fld := ⟨20, 0⟩
def F.ERR_DEL_FLASH_USED : Fld := ⟨47, 32⟩
def F.ERR_DEL_CUP_WAYS : Fld := ⟨31, 16⟩
def F.ERR_DEL_LRD_WAYS : Fld := ⟨15, 0⟩
def F.ERR_FATAL_REC : Fld := ⟨63, 0⟩
def F.ERR_REC_REC : Fld := ⟨63, 0⟩
def F.DEV_STRAP_RSV_IN : Fld := ⟨7, 6⟩
def F.DEV_STRAP_FLASH_1S : Fld := ⟨5, 5⟩
def F.DEV_STRAP_NO_CELLAR : Fld := ⟨4, 4⟩
def F.DEV_STRAP_BOARD_POS : Fld := ⟨3, 0⟩

/-! ### The whole table -/

def regTable0 : List RegSpec := [Reg.DEV_ID, Reg.DEV_FEATURE, Reg.DEV_INV_DIE, Reg.DEV_INV_CLUSTER, Reg.DEV_INV_ENGINE, Reg.CST_ARITH_CNT, Reg.CST_STEP_STAT, Reg.CST_STEP_INFO, Reg.CST_ENG_PROG, Reg.CST_SEQ_STAT, Reg.CST_SEQ_WAIT, Reg.CST_SEQ_LOOP, Reg.CST_SEQ_LSTR, Reg.CST_SEQ_CALL, Reg.CST_SEQ_EXP, Reg.CST_SEQ_RA, Reg.CST_SEQ_CHEAP, Reg.CST_SEQ_CHAIN, Reg.BAY_IMG_ADDR, Reg.BAY_IMG_LEN, Reg.BAY_IMG_CMD, Reg.BAY_IMG_STAT, Reg.BAY_IMG_MEAS, Reg.CST_GRP_STAT, Reg.CST_GRP_FADDR, Reg.CST_GRP_FMASK, Reg.CST_GRP_LIVE, Reg.CST_GRP_ACT, Reg.CST_GRP_SPIN, Reg.CST_GRP_CTL]
def regTable1 : List RegSpec := [Reg.CST_VEC_CNT, Reg.LRD_ILV_CFG, Reg.LRD_QMAP_CMD, Reg.LRD_MH_STAT, Reg.LRD_QMAP, Reg.LRD_PIN_CMD, Reg.LRD_PIN_CFG, Reg.LRD_LOCKER_MAP, Reg.LRD_MMU_ROOT, Reg.LRD_TLB_INV, Reg.LRD_TLB_STAT, Reg.LRD_RNG_ADDR, Reg.LRD_RNG_LEN, Reg.LRD_RNG_CMD, Reg.LRD_RNG_STAT, Reg.LRD_RNG_FAIL, Reg.LRD_COH_CMD, Reg.LRD_COH_STAT, Reg.LRD_RED_CFG, Reg.LRD_SL_CNT, Reg.LRD_SL_STAT, Reg.CST_MM_CFG, Reg.CST_MM_AUDIT, Reg.CST_TALLY, Reg.CST_TALLY_ADD, Reg.CST_PTR_STAT, Reg.PTR_CL_STAT, Reg.PTR_SK_STAT, Reg.CST_PTR_ERRADDR, Reg.PTR_CL_ERRADDR]
def regTable2 : List RegSpec := [Reg.PTR_SK_ERRADDR, Reg.CST_PTR_CTL, Reg.PTR_CL_CTL, Reg.PTR_SK_CTL, Reg.CST_PTR_CNT, Reg.PTR_CL_CNT, Reg.PTR_SK_CNT, Reg.CST_PTR_CH_STAT, Reg.PTR_CL_CH_STAT, Reg.PTR_SK_CH_STAT, Reg.CST_PTR_CH_PROG, Reg.PTR_CL_CH_PROG, Reg.PTR_SK_CH_PROG, Reg.CST_PTR_CH_TAG, Reg.PTR_CL_CH_TAG, Reg.PTR_SK_CH_TAG, Reg.CST_PTR_CH_DONE, Reg.PTR_CL_CH_DONE, Reg.PTR_SK_CH_DONE, Reg.PTR_CL_CH0_DESC, Reg.PTR_CL_CH0_POST, Reg.BAY_CLUSTERS, Reg.BAY_CFG, Reg.BAY_SLICE, Reg.BAY_SHARE, Reg.BAY_SCHED, Reg.BAY_EVT, Reg.BAY_EVT_EN, Reg.BAY_SLOW, Reg.BAY_SPILL]
def regTable3 : List RegSpec := [Reg.BAY_WAKE, Reg.BAY_CLAIM, Reg.BAY_OVR, Reg.BAY_CTLW, Reg.BAY_ENG, Reg.BAY_LRD, Reg.BAY_XFR, Reg.BAY_CHU, Reg.BAY_INTF, Reg.BAY_INST_ENG, Reg.BAY_INST_LRD, Reg.BAY_INST_XFR, Reg.BAY_INST_CHU, Reg.HAT_TSTAGE, Reg.HAT_TPOST, Reg.HAT_MSTAGE, Reg.HAT_MPOST, Reg.HAT_T2M_IDX, Reg.HAT_M2T_IDX, Reg.HAT_STAT, Reg.HAT_IRQ, Reg.HAT_INST_CMD, Reg.HAT_INST_STAT, Reg.HAT_INST_SAVE, Reg.HAT_INST_SLEN, Reg.HAT_INST_QCFG, Reg.HAT_INST_RMAP, Reg.HAT_SHR_BASE, Reg.HAT_SHR_LEN, Reg.HAT_SHR_BACK]
def regTable4 : List RegSpec := [Reg.HAT_SHR_SHARE, Reg.HAT_SHR_CNT, Reg.HAT_SAVE_FMT, Reg.JST_LINK_STAT, Reg.JST_LINK_CNT, Reg.JST_LINK_CFG, Reg.JST_ROUTE, Reg.JST_DIE_STAT, Reg.JST_DIE_CMD, Reg.JST_EVT, Reg.CHU_SPAN, Reg.CHU_CFG, Reg.CHU_CMD, Reg.CHU_XADDR, Reg.CHU_RSTAT, Reg.CHU_DROP, Reg.CHU_EVT, Reg.CHU_PORT_STAT, Reg.CHU_PORT_CNT, Reg.CHU_PORT_FEC, Reg.CHU_PORT_CFG, Reg.CHU_EPOCH, Reg.CHU_INWIN_BASE, Reg.CHU_INWIN_LIM, Reg.HST_LINK_STAT, Reg.HST_LINK_CFG, Reg.HST_F0_WIN, Reg.HST_ERR, Reg.HST_VF_WIN, Reg.HST_TDI_STAT]
def regTable5 : List RegSpec := [Reg.CEL_CAP, Reg.CEL_CFG, Reg.CEL_CMD, Reg.CEL_KEY_CMD, Reg.CEL_STAT, Reg.CEL_EVT, Reg.CEL_KMISM, Reg.CEL_CH_CNT, Reg.CEL_CH_STAT, Reg.CLK_PLL, Reg.CLK_SEL, Reg.CLK_STAT, Reg.CLK_REFCNT, Reg.CLK_SSC, Reg.CLK_REF, Reg.CLK_EVT, Reg.PWR_CTL, Reg.PWR_PKG, Reg.PWR_CAP, Reg.PWR_THERM, Reg.PWR_GATE, Reg.PWR_STAT, Reg.PWR_EVT, Reg.PWR_EVT_EN, Reg.PWR_SPAN, Reg.PWR_BUDGET, Reg.PWR_CRIT, Reg.PWR_DOM0, Reg.PWR_DOM1, Reg.PWR_OPTAB]
def regTable6 : List RegSpec := [Reg.PWR_BAYOP, Reg.PWR_RAIL_LIM, Reg.PWR_RAIL_MEAS, Reg.PWR_DIE_STAT, Reg.PWR_DIE_THR, Reg.PWR_CL, Reg.SEC_STATE, Reg.SEC_START, Reg.SEC_CMD, Reg.SEC_CMD_STAT, Reg.SEC_TOKEN_ADDR, Reg.SEC_TOKEN_LEN, Reg.SEC_DBG_TEN, Reg.SEC_NONCE, Reg.SEC_DEVID, Reg.SEC_CAUSE, Reg.SEC_MEAS, Reg.ERR_PROD, Reg.ERR_CONS, Reg.ERR_STAT, Reg.ERR_CTL, Reg.ERR_THR, Reg.ERR_CNT, Reg.ERR_DEL, Reg.ERR_FATAL, Reg.ERR_REC, Reg.DEV_STRAP]

/-- Every register of the device. -/
def regTable : List RegSpec := regTable0 ++ regTable1 ++ regTable2 ++ regTable3 ++ regTable4 ++ regTable5 ++ regTable6

end Sys2Proof.Machine
end

