-- ==== Sys2Proof/Machine/Units.lean ====
section
/-! DEFINITION. The records of the units of a core and of a Bay, as plain data. Default values are the values after reset. -/
namespace Sys2Proof.Machine

/-- Numbered things: number and value, rising, with no entry equal to the table's default value. -/
abbrev Tbl (α : Type) := List (Nat × α)

/-! ### Sequencer (04) -/

/-- A loop frame (R56, R66). -/
structure LoopFrame where
  start : BitVec 18
  countM1 : Nat
  index : Nat
  sstride : Word
  deriving DecidableEq, Repr

/-- CST_SEQ_STAT.STATE (Table SQ-9). -/
inductive SeqStatus where
  | idle | running | inWait | stallStep | stallChan | stopped | halted | faulted | aborted
  deriving DecidableEq, Repr

/-- What the instruction at PC, already reached, waits for (R58, R63-R65, R69, R70). -/
inductive SeqHold where
  | free | step | move | launch | wait | sig | fence | cheap | yielding | halt
  deriving DecidableEq, Repr

/-- The run-ahead scan (R72): instructions it has walked since START, its copies of the stacks and expectations. -/
structure Scan where
  count : Nat := 0
  pc : BitVec 18 := 0
  loops : List LoopFrame := []
  calls : List (BitVec 18) := []
  exps : List Word := []
  steps : Nat := 0
  stop : Nat := 0
  deriving DecidableEq, Repr

/-- A STEP to issue again after a retirement (R77): its PC, the seq it presents, its ordinal. -/
structure Reissue where
  pc : BitVec 18
  seq : Word
  ord : Nat
  chainPc : BitVec 18
  chainLoops : List LoopFrame
  deriving DecidableEq, Repr

/-- A core's sequencer (Table SQ-1). Lists are innermost first. `reached`, `stepsIssued` and `stepsDone` count the stream's
instructions and STEPs; `since` is the reference cycle at which a WAIT began; `started` holds the instruction numbers of prefetch MOVEs that the scan has started. -/
structure Seq where
  status : SeqStatus := .idle
  hold : SeqHold := .free
  stream : Option (Nat × Nat) := none
  pc : BitVec 18 := 0
  loops : List LoopFrame := []
  calls : List (BitVec 18) := []
  exps : List Word := List.replicate 16 0
  bank : Nat := 0
  chainPc : BitVec 18 := 0
  chainLoops : List LoopFrame := []
  waitTally : Nat := 0
  waitExp : Nat := 0
  waitTarget : Word := 0
  fault : Nat := 0
  haltCode : BitVec 16 := 0
  gap : Nat := 0
  maxGap : Nat := 0
  live : BitVec 40 := 0
  since : Nat := 0
  reached : Nat := 0
  stepsIssued : Nat := 0
  stepsDone : Nat := 0
  started : List Nat := []
  scan : Scan := {}
  reissue : List Reissue := []
  deriving DecidableEq, Repr

/-! ### Step unit and engines (03) -/

/-- An issued Step: descriptor, presented seq, PC of its STEP, ordinal, fault found in its issue cycles (0 none; R51), PC and loop state
of the Step that begins its chain (R77). -/
structure StepIssue where
  desc : BitVec 256
  seq : Word
  pc : BitVec 18
  ord : Nat
  fault : Nat := 0
  chainPc : BitVec 18 := 0
  chainLoops : List LoopFrame := []
  deriving DecidableEq, Repr

/-- A tile at work in an engine (R33): accumulator half, next row to enter, next output row, replay and poison marks,
whether its output-stage checks have passed (R31), and the kept sums it began from (R45). -/
structure Tile where
  entry : BitVec 128
  half : Nat := 0
  pass : Nat := 0
  row : Nat := 0
  outSlab : Nat := 0
  outRow : Nat := 0
  replay : Bool := false
  poison : Bool := false
  checked : Bool := false
  acc0 : Tbl Word := []
  deriving DecidableEq, Repr

/-- An engine: accumulator SRAM (entry 64·row + column), next list entry, entries completed or skipped, the tile whose rows
enter and the tile that drains (R36), ROWS of a kept tile (R45), stopped after a fault (R53). -/
structure Engine where
  acc : Tbl Word := []
  entry : Nat := 0
  done : Nat := 0
  half : Nat := 0
  enter : Option Tile := none
  drain : Option Tile := none
  kept : Option Nat := none
  stopped : Bool := false
  deriving DecidableEq, Repr

/-- A core's Step unit (R51, R55). -/
structure StepUnit where
  running : Option StepIssue := none
  queued : Option StepIssue := none
  lastSeq : Word := 0
  lastEnd : Nat := 0
  lastPoison : Bool := false
  curSeq : Word := 0
  faultCode : Nat := 0
  poison : Bool := false
  failing : Nat := 0
  engines : Tbl Engine := []
  deriving DecidableEq, Repr

/-! ### Thread groups (05) -/

inductive MaskKind where
  | split | loop
  deriving DecidableEq, Repr

/-- A mask-stack entry (R95, R96). -/
structure MaskEntry where
  kind : MaskKind
  saved : DWord
  pend : DWord
  ppc : BitVec 18
  rpc : BitVec 18
  deriving DecidableEq, Repr

/-- A group slot's condition (Table TG-7 STATE; waits by kind). -/
inductive GrpStatus where
  | free | ready
  | waitTally (tally : Nat) (target : Word) (scope : Nat)
  | waitBar (id : Nat)
  | parked
  deriving DecidableEq, Repr

/-- One executing thread's part of a load (the uniform address of LDS or UNIF is one part): address as the program sees it, global
address or Pantry offset, the data once it has come with its poison mark, whether it comes from outside the device, the inst. its fill pins for,
the fault code of its answer when that is an error. -/
structure LoadPart where
  thread : Nat
  va : Nat
  pa : Nat
  got : Option (Nat × Bool) := none
  ext : Bool := false
  pin : Option Nat := none
  bad : Option Nat := none
  deriving DecidableEq, Repr

/-- A load, or an atomic performed at homes, whose data has not all come; the group stays at its instruction word. -/
structure MemWait where
  word : BitVec 64
  uniform : Bool := false
  parts : List LoadPart := []
  left : Nat := 0
  poison : Bool := false
  vals : List (Nat × Word) := []
  deriving DecidableEq, Repr

/-- A write, or the zero-length read of a release, that waits for its answer from outside the device: global address, address as the program
sees it, executing threads. -/
structure Sent where
  pa : Nat
  va : Nat
  mask : DWord
  deriving DecidableEq, Repr

/-- A thread group (R88). `stack` is top first; vector register r of thread t is entry 64·r + t of `v`.
`looped`: an iteration has completed, and `signature` is its signature (R115). `sent` holds the writes that wait for an answer from outside the device, and `failing` the code, address and threads of those that failed
before the group parks; `storing`: the group stands at the store that sent them; `hostWrote` marks host writes that no zero-length read has followed. -/
structure Group where
  status : GrpStatus := .free
  gnum : Nat := 0
  kernel : Nat := 0
  pc : BitVec 18 := 0
  v : Tbl Word := []
  s : Tbl DWord := []
  p : Tbl DWord := []
  live : DWord := 0
  active : DWord := 0
  stack : List MaskEntry := []
  spin : Nat := 0
  signature : Word := 0
  sigNow : Word := 0
  wrote : Bool := false
  looped : Bool := false
  fault : Nat := 0
  trapCode : BitVec 16 := 0
  faddr : DWord := 0
  fmask : DWord := 0
  load : Option MemWait := none
  atom : Option MemWait := none
  sent : List Sent := []
  failing : List (Nat × Nat × DWord) := []
  storing : Bool := false
  hostWrote : Bool := false
  deriving DecidableEq, Repr

/-- A kernel running on a core (R62): its number, groups not yet ended, completion Tally. -/
structure Kernel where
  num : Nat
  left : Nat
  tallyEn : Bool
  tally : Nat
  deriving DecidableEq, Repr

/-- The kernels of a core, and a LAUNCH that waits for slots. -/
structure Kernels where
  next : Nat := 0
  running : List Kernel := []
  deriving DecidableEq, Repr

/-! ### Tallies (08) -/

/-- An increment on its way to a Tally (R176, Table MM-9): LKIND, LSCOPE, LCORE, and the span device of a remote source. -/
structure Incr where
  amount : Nat
  kind : Nat
  scope : Nat
  core : Nat := 0
  dev : Option Nat := none
  deriving DecidableEq, Repr

/-- An increment that waits for its cluster's wake (R181). -/
structure HeldAdd where
  core : Nat
  tally : Nat
  incr : Incr
  deriving DecidableEq, Repr

/-! ### Porters (09) -/

/-- A queued descriptor (R190): its 1,024 bits, the core whose MOVE posted it, the ordinal of the Step a prefetch belongs to. -/
structure PDesc where
  raw : Line
  core : Option Nat := none
  step : Option Nat := none
  poisoned : Bool := false
  deriving DecidableEq, Repr

/-- An access of a destination stream that waits for a response: the tag or address it is known by, stream position, length; `failed` when
its response was an error. -/
structure OutAccess where
  tag : Nat
  pos : Nat
  len : Nat
  failed : Bool := false
  deriving DecidableEq, Repr

/-- Source bytes of the next access, which wait for answers from outside the device: what has come by source position with its poison, what has
not, by global address, position and length. -/
structure Gathered where
  got : List (Nat × BitVec 8 × Bool) := []
  missing : List (Nat × Nat × Nat) := []
  deriving DecidableEq, Repr

/-- The descriptor a channel works on: next byte of the destination stream, its source bytes, accesses waiting, rows whose increment has
applied, total of increments held (R73), whether its messages carry the increments to a span device (R290),
whether the zero-length read of SYS has been issued. -/
structure Active where
  desc : PDesc
  pos : Nat := 0
  src : Option Gathered := none
  out : List OutAccess := []
  counted : Nat := 0
  held : Nat := 0
  remote : Bool := false
  flushed : Bool := false
  deriving DecidableEq, Repr

/-- A channel's STATE (Table PT-6). -/
inductive ChanStatus where
  | idle | active | stopped | error | holding
  deriving DecidableEq, Repr

structure Chan where
  status : ChanStatus := .idle
  queue : List PDesc := []
  act : Option Active := none
  holds : List Active := []
  err : Nat := 0
  partials : Bool := false
  poison : Bool := false
  prog : Nat := 0
  tag : DWord := 0
  done : Word := 0
  deriving DecidableEq, Repr

/-- A Porter (R187). `errors` holds error responses on their way to it: cause and address. -/
structure Porter where
  status : Nat := 0
  cause : Nat := 0
  errAddr : Nat := 0
  errors : List (Nat × Nat) := []
  chans : Tbl Chan := []
  deriving DecidableEq, Repr

/-! ### Bays (11) -/

/-- Image slot states (Table SQ-10). -/
inductive SlotStatus where
  | empty | loading | loaded | running | stopping | stopped | halted | refused | faulted | aborted
  deriving DecidableEq, Repr

/-- A placed code region: Bay-relative core, Pantry byte base, length, and its core header (R56, Table SQ-6). -/
structure Region where
  core : Nat
  base : Nat
  len : Nat
  entry : Nat
  banks : List Nat
  raBase : Nat
  raUnits : Nat
  exps : List Word
  deriving DecidableEq, Repr

/-- A routing table of an image (R295): its index (0 primary, 1-8 alternates) and its bytes. -/
structure RouteTable where
  index : Nat
  bytes : List Byte
  deriving DecidableEq, Repr

/-- An image slot (R82). `failAt` is the image byte at which the read of a LOAD in progress fails, if any. `later` is a STOP (3) or
ABORT (4) that waits for the cores of a switch to resume (R83). `served` are the SERVING sections: INDEX, PLACE, LENGTH. `fresh`: the next start begins at ENTRY. -/
structure ImgSlot where
  status : SlotStatus := .empty
  failAt : Option Nat := none
  refuse : Nat := 0
  jprof : Nat := 0
  lc : Bool := false
  ordered : Bool := false
  cheapBound : Nat := 0
  overrunBound : Nat := 0
  spillBytes : Nat := 0
  regions : List Region := []
  routes : List RouteTable := []
  fresh : Bool := true
  dormant : Bool := false
  haltedCores : List Nat := []
  debit : Nat := 0
  meas : BitVec 512 := 0
  later : Nat := 0
  served : List (Nat × Nat × Nat) := []
  feature : Nat := 0
  deriving DecidableEq, Repr

/-- Holders of the 40 ranges of a core (none: no slot), and per slot the ranges saved, live at its stop (R232, R233). -/
structure CoreRanges where
  holders : Tbl (Option Nat) := []
  saved : Tbl (BitVec 40) := []
  live : Tbl (BitVec 40) := []
  deriving DecidableEq, Repr

/-- A Bay's scheduler (R230, R231, R236, R240). `stopped` are the cores of the outgoing stream that have stopped,
`resuming` those that still have to resume the incoming one; `sliceOver` the reference cycle at which the slice ended, `sliceLen`
the present slice in reference cycles; `outgoing` the stream that the switch took off the cores; `winA` A of R240. -/
structure Bay where
  on : Bool := false
  cur : Nat := 0
  switch : Nat := 0
  target : Option Nat := none
  yielding : Bool := false
  lost : Bool := false
  stopped : List Nat := []
  resuming : List Nat := []
  sliceOver : Option Nat := none
  sliceLen : Nat := 0
  winA : Nat := 0
  outgoing : Option Nat := none
  deriving DecidableEq, Repr

/-! ### Serving (10) -/

/-- A request taken from the ring (R206): its entry, its tokens after any BOS, the status that ends it before it is admitted (0 none),
its number in the order of taking, whether it is cancelled. -/
structure Request where
  raw : BitVec 512
  ids : List Nat := []
  status : Nat := 0
  ticket : Nat := 0
  cancelled : Bool := false
  deriving DecidableEq, Repr

/-- A proposed token, and the ids that the draft's logits keep, with their probabilities (R217, R220). -/
structure Draft where
  token : Nat
  probs : List (Nat × Word)
  deriving DecidableEq, Repr

/-- What the serving program holds of a batch slot's sequence beside its record (Table SV-6): request, admission number, page table
(RES and page number), bytes of text held back (R211), rows in the open round, whether a round is open, its drafts. -/
structure Sequence where
  req : Request
  order : Nat
  pages : List (Nat × Nat) := []
  tail : List Byte := []
  rows : Nat := 0
  inRound : Bool := false
  drafts : List Draft := []
  deriving DecidableEq, Repr

/-- A completion that is due (Table SV-4): ring, slot of its sequence, request number, entry, whether it raises the vector. -/
structure Post where
  ring : Nat
  slot : Option Nat
  ticket : Nat
  irq : Bool
  entry : BitVec 512
  deriving DecidableEq, Repr

/-- A Bay's serving program (R202): image slot, configuration block as read at START from LOADED (R203), whether its checks have run,
requests taken so far, intake queue, sequences by batch slot, completions due. -/
structure Serving where
  img : Option Nat := none
  cfg : List Byte := []
  begun : Bool := false
  tickets : Nat := 0
  intake : List Request := []
  seqs : Tbl (Option Sequence) := []
  due : List Post := []
  deriving DecidableEq, Repr

/-! ### Hatches (12) -/

/-- A device message (Table TN-5): TYPE and payload, a little-endian number from byte 16. -/
structure HatMsg where
  type : Nat
  payload : Nat
  deriving DecidableEq, Repr

end Sys2Proof.Machine
end

