-- ==== Sys2Proof/Machine/LinkUnits.lean ====
section
/-! DEFINITION. The records of the Pilot, the links, the host port, the Cellar controllers, the clocks, the power control and the
security responder, as plain data. Default values are the values after reset (log 4 where the spec gives none). -/
namespace Sys2Proof.Machine

/-- The Pilot and what the boot flash and its RPMC counters hold (R369-R383, R402, R403). `phase`: 0 held, 1 a start is due,
2 bring-up done and the start not yet succeeded, 3 started. `slotA`, `slotB`: SVN and M0 of the image of a slot (M0 none: the flash as it was
delivered). `enables` and `pg` are the pins of R402, high after a package reset. `enabling`: the group whose pwr_pg a start waits for; `dropping`: the group whose fall the entry to Off waits for. -/
structure Pilot where
  rpmc0 : Nat := 0
  svnMin : Nat := 0
  lifeCycle : Nat := 0
  ownerEpoch : Nat := 0
  good : Nat := 0
  fails : Nat := 0
  slotA : Option (Nat × Option (BitVec 512)) := some (0, none)
  slotB : Option (Nat × Option (BitVec 512)) := none
  active : Nat := 0
  lastTried : Nat := 0
  owner : Option (BitVec 512) := none
  causes : List (BitVec 512) := []
  deletions : List (Nat × Nat × Nat) := []
  phase : Nat := 1
  warm : Bool := false
  uncounted : Bool := false
  n : Nat := 0
  stage : Nat := 1
  restarts : Nat := 0
  pwrok : Bool := true
  perst : Bool := false
  extest : Bool := false
  enables : BitVec 5 := 0x1F
  pg : BitVec 5 := 0x1F
  enabling : Option Nat := none
  dropping : Option Nat := none
  wakePin : Bool := false
  thermTrip : Bool := false
  deriving DecidableEq, Repr

/-- One direction of a Joist link or of a Chute port: transmitter (LSEQ of its next DATA flit, replay buffer with LSEQ and flit oldest first, slots of credit
used by channel), receiver (last DATA flit in order, whether a NAK is out, slots of an unfinished message, DATA flits not
acknowledged, credits to return by channel). -/
structure Wire where
  lseq : Nat := 0
  buf : List (Nat × BitVec 2048) := []
  used : Tbl Nat := []
  rx : Option Nat := none
  naking : Bool := false
  partials : List (BitVec 128) := []
  unacked : Nat := 0
  returns : Tbl Nat := []
  deriving DecidableEq, Repr

/-- What a Joist link counts by module (R272): CRC errors of the window, modules over THRESH that wait, the module that
retrains; dies of whose flits the link reports silence (R275). -/
structure JoistLink where
  crc : Tbl Nat := []
  waiting : List Nat := []
  retraining : Option Nat := none
  silent : List Nat := []
  deriving DecidableEq, Repr

/-- A Chute message that waits to be sent: who issued it (`chute p`: port p brought it), the port it is queued for. -/
structure ChuteItem where
  msg : ChuteMsg
  who : Agent
  port : Option Nat := none
  deriving DecidableEq, Repr

/-- A request through the host port that has not completed (R317); `peer`: from another device on the host bus. -/
structure HostIn where
  fn : Nat
  bar : Nat
  addr : Nat
  len : Nat
  write : Option (List Byte) := none
  poison : Bool := false
  peer : Bool := false
  deriving DecidableEq, Repr

/-- An answer that leaves the device: to a function, the TAP or a firmware channel. STATUS 0 success, 1 Unsupported Request, 2 Completer Abort, 3 Request
Retry Status; `tag` names a message where it is not a memory read (an SPDM response code, a readiness message). -/
structure Reply where
  who : Writer
  status : Nat := 0
  tag : Nat := 0
  len : Nat := 0
  data : Nat := 0
  poison : Bool := false
  deriving DecidableEq, Repr

/-- Retraining of the Cellar channels (R331, R332) and a fold that runs: the next channel in turn, requests, failed trainings in a row, the
package being folded out, packages whose unread lines a fold moved as poison, whether a package failed after a fold. -/
structure CellarCtl where
  turn : Nat := 0
  asked : List Nat := []
  fails : Tbl Nat := []
  fold : Option Nat := none
  lost : List Nat := []
  dead : Bool := false
  deriving DecidableEq, Repr

/-- CLK_REFCNT of its unit when a PLL was started (key 8·unit + PLL), and the spread profile in force by unit. -/
structure ClockCtl where
  started : Tbl (Option Nat) := []
  spread : Tbl DWord := []
  deriving DecidableEq, Repr

/-- A change of a die's operating point (R361): the point, the one before, whether it is a raise that waits for the regulator. -/
structure PointChange where
  point : Nat
  old : Nat
  raising : Bool
  deriving DecidableEq, Repr

/-- A span member's last report (R364, R365): PERIOD, P, LIMIT, weight, cap in force, and the master's periods since it came. -/
structure SpanReport where
  p : Nat
  limit : Nat
  w : Nat
  cap : Nat := 0
  age : Nat := 0
  deriving DecidableEq, Repr

/-- Power control (18): accumulators of R353 (key 4·(3·reason + window) + die), current samples by rail and of package power, newest first,
rail voltages in mV where telemetry has read one, levels for the next frame, hard-throttle causes by die (1 compute, 2 Undercroft), samples in a row
that call for a trip (compute dies; `ioHot` the I/O dies), I/O-die temperatures by die, changes of operating points, the power state (0 D0, 1 Standby, 2 Off), reports to the span
master, periods counted, periods since a cap came. -/
structure PowerCtl where
  acc : Tbl Rat := []
  amps : Tbl (List Nat) := []
  watts : List Nat := []
  volts : Tbl (Option Nat) := []
  level : Tbl Nat := []
  hard : Tbl Nat := []
  hot : Tbl Nat := []
  ioTemp : Tbl Nat := []
  ioHot : Tbl Nat := []
  change : Tbl (Option PointChange) := []
  mode : Nat := 0
  d3hot : Bool := false
  reports : Tbl (Option SpanReport) := []
  periods : Nat := 0
  capAge : Nat := 0
  deriving DecidableEq, Repr

/-- SPDM of one function (R377): requests of the negotiation answered (1 version, 2 capabilities, 3 algorithms), session (0 none, 1 key exchange
done, 2 established) and its number, key updates, chunks of a request taken. -/
structure Spdm where
  stage : Nat := 0
  session : Nat := 0
  number : Nat := 0
  updates : Nat := 0
  chunks : List (List Byte) := []
  deriving DecidableEq, Repr

end Sys2Proof.Machine
end

