-- ==== Sys2Proof/Machine/MemUnits.lean ====
section
/-! DEFINITION. The records of the caches, homes, reduction units, TLBs and the Cellar, as plain data. -/
namespace Sys2Proof.Machine

/-- Cupboard states (Table CO-1); a line in I is not listed. -/
inductive CupState where
  | m | o | e | s
  deriving DecidableEq, Repr

/-- A Cupboard line; `poison` marks its 16 words. -/
structure CupLine where
  st : CupState
  data : Line
  poison : BitVec 16 := 0
  deriving DecidableEq, Repr

/-- A Larder line (Table CO-2). `st` is 1 for V, 2 for D. `pinned` marks a PIN or Locker line, `chk` a line discarded through a
CHK page, `marked` a line filled from the discard marker (R139), `refetch` a shared line that reads its backing (R259). -/
structure LarderLine where
  st : Nat := 1
  enc : Nat := 1
  pres : Nat := 0
  ownV : Bool := false
  ownD : Nat := 0
  red : Bool := false
  dead : Bool := false
  poison : Bool := false
  data : Line := 0
  way : Nat := 0
  pinned : Bool := false
  chk : Bool := false
  marked : Bool := false
  refetch : Bool := false
  deriving DecidableEq, Repr

/-- A Shelf line: its global line number, data, poisoned words. Newest use first in the list. -/
structure ShelfLine where
  line : Nat
  data : Line
  poison : BitVec 16
  deriving DecidableEq, Repr

/-- A core's Shelf (R125, R126): lines, and fills in flight with whether an invalidation has met them. -/
structure Shelf where
  lines : List ShelfLine := []
  fills : List (Nat × Bool) := []
  deriving DecidableEq, Repr

/-- What the Cellar keeps of a line beside its bytes: FLAGS (R327), the key it was written under (R334),
and whether it was written since the fold (R333). -/
structure CellarLine where
  mark : Bool := false
  poison : Bool := false
  key : Option (Nat × Nat) := none
  fresh : Bool := false
  deriving DecidableEq, Repr

/-- A TLB entry (R137): inst., size (0 4 KiB, 1 2 MiB, 2 1 GiB), virtual page base, leaf entry. -/
structure TlbEntry where
  inst : Nat
  size : Nat
  va : Nat
  leaf : DWord
  deriving DecidableEq, Repr

/-- A request of the device to host memory or a peer (R312): tag, issuing agent, function, global address, bytes of a write, length of
a read, and whether it waits for a translation (R314). -/
structure HostReq where
  tag : Nat
  who : Agent
  fn : Nat
  addr : Nat
  len : Nat
  write : Option (List Byte) := none
  waits : Bool := false
  deriving DecidableEq, Repr

inductive ReqKind where
  | rds | rdu | upg | wru | rdn | wrn | red | atm
  deriving DecidableEq, Repr

/-- A request to a home (Table CO-3). -/
structure CohReq where
  kind : ReqKind
  who : Agent
  line : Nat
  tag : Nat := 0
  data : Line := 0
  mask : BitVec 128 := 0
  poison : Bool := false
  red : Option RedOp := none
  atm : Option AtomOp := none
  deriving DecidableEq, Repr

inductive SnoopKind where
  | snpS | snpC | snpI
  deriving DecidableEq, Repr

/-- Messages in flight (Table CO-3). -/
inductive CohMsg where
  | snoop (k : SnoopKind) (g line : Nat)
  | rsp (die line : Nat)
  | dat (who : Agent) (line : Nat) (data : Line) (poison : BitVec 16) (st : CupState)
  | gntM (who : Agent) (line : Nat)
  | cmp (who : Agent) (line tag : Nat) (data : Line) (poison : Bool) (vals : List (Nat × Word))
  | ack (who : Agent) (line : Nat)
  | fwd (r : CohReq)
  | mred (r : CohReq)
  | mack (who : Agent) (line tag : Nat) (poison : Bool) (vals : List (Nat × Word))
  deriving DecidableEq, Repr

/-- A transaction of a home (R150): its request, the dies whose combined response is missing, whether it waits for its fill,
whether it waits for its Ack, whether an owner has sent the data. -/
structure Txn where
  req : CohReq
  dies : List Nat := []
  filling : Bool := false
  acking : Bool := false
  served : Bool := false
  deriving DecidableEq, Repr

/-- A line's transactions: those running and those that wait, oldest first. -/
structure HomeLine where
  running : List Txn := []
  waiting : List CohReq := []
  deriving DecidableEq, Repr

/-- A Larder slice (R158-R161): the reduction queue, requests that wait for admission, units off line, lines bound by unit,
forward table (outstanding forwards by line), last source admitted. -/
structure Slice where
  queue : List CohReq := []
  waiting : List CohReq := []
  offline : BitVec 8 := 0
  units : Tbl (Option Nat) := []
  fwd : Tbl Nat := []
  lastSource : Nat := 0
  deriving DecidableEq, Repr

/-- A range operation of an inst. (R138): what it does, the next line's VA, bytes left. -/
structure RangeOp where
  op : Nat
  va : Nat
  left : Nat
  deriving DecidableEq, Repr

/-- The pin command in progress (R140). -/
structure PinCmd where
  op : Nat
  way : Nat
  inst : Nat
  deriving DecidableEq, Repr

/-- State of the Larder block as a whole: QMAP change in progress (granule, die), pin command, deleted ways by set (key 49152·slice + set, of a
Cupboard 2048·cluster + set; value a way mask), deletions that run or wait, oldest first: unit (slice, or 64 + cluster), set, way (R393). -/
structure LarderCtl where
  qmap : Option (Nat × Nat) := none
  pin : Option PinCmd := none
  deletedWays : Tbl (BitVec 16) := []
  deleting : List (Nat × Nat × Nat) := []
  cupDeleted : Tbl (BitVec 16) := []
  deriving DecidableEq, Repr

end Sys2Proof.Machine
end

