-- ==== Sys2Proof/Machine/State.lean ====
section
/-! DEFINITION. The state of the OV4 as plain data, why a step can stop, and the state after reset. -/
namespace Sys2Proof.Machine

/-- Why the machine stops. -/
inductive Fault where
  /-- Raised by VENDORSCAN while a chain is shifted: the spec does not say what an internal chain holds or changes. Safe: the run ends. -/
  | internalChain
  deriving DecidableEq, Repr

/-- Why a command has no meaning here. -/
inductive Refusal where
  /-- Raised by exec's arm of a command that is not modelled, and by nothing else. Safe: the run ends. -/
  | notModelled (mnemonic : String)
  deriving DecidableEq, Repr

/-- The state. A table lists only what differs from the value after reset of the thing it holds. -/
structure State where
  /-- Commands that wait, first in, first out. -/
  pending : List Instr := []
  /-- Free values drawn so far (the model's own; log 2). -/
  free : Nat := 0
  /-- Registers by BAR0 offset whose value differs from reset (R4). -/
  regs : Tbl DWord := []
  /-- Bytes of the Cellar's copy, the Pantries and host memory by global address (R10); an unlisted byte is 0. -/
  mem : List Host.Cell := []
  /-- Poisoned 8-byte words of the Pantries and poisoned host data, by global address / 8 (R390). -/
  poison : Tbl Bool := []
  /-- Masked MSI-X vectors differ from reset, key 2048·function + vector; reset masked (log 5). -/
  msixOpen : Tbl Bool := []
  /-- Pending bits of MSI-X vectors. -/
  msixPend : Tbl Bool := []
  /-- Interrupt messages sent, newest first: function and vector. -/
  msixSent : List (Nat × Nat) := []
  seqs : Tbl Seq := []
  steps : Tbl StepUnit := []
  /-- Thread-group slots, key 8·core + slot. -/
  groups : Tbl Group := []
  kernels : Tbl Kernels := []
  /-- Porters: core n at n, cluster g at 512 + g, Storekeeper at 1,023. -/
  porters : Tbl Porter := []
  bays : Tbl Bay := []
  /-- Image slots, key 4·Bay + slot. -/
  imgs : Tbl ImgSlot := []
  /-- Serving programs by Bay (R202). -/
  serving : Tbl Serving := []
  /-- Pantry ranges by core (R232). -/
  ranges : Tbl CoreRanges := []
  /-- Larder lines by global line number (address / 128); a backed Locker line that is not listed is V and zero. -/
  larder : Tbl (Option LarderLine) := []
  /-- Cupboard lines, by cluster and global line number. -/
  cups : Tbl (Tbl (Option CupLine)) := []
  shelves : Tbl Shelf := []
  /-- FLAGS and keys of Cellar lines by line number. -/
  cellar : Tbl CellarLine := []
  /-- Owner of each 2 MiB Cellar block (R335). -/
  keyOwner : Tbl (Option Nat) := []
  /-- Key generations by inst. (R334). -/
  keyGen : Tbl Nat := []
  /-- Home transactions by line. -/
  homes : Tbl HomeLine := []
  /-- Coherence messages in flight, oldest first. -/
  net : List CohMsg := []
  slices : Tbl Slice := []
  tlbs : Tbl (List TlbEntry) := []
  /-- Range operations by inst. -/
  rangeOps : Tbl (Option RangeOp) := []
  larderCtl : LarderCtl := {}
  /-- Tile replays of the present retirement window by global engine (R392). -/
  replays : Tbl Nat := []
  /-- Tallies set since their last increment, key 4096·core + Tally (R182). -/
  tallySet : Tbl Bool := []
  /-- Increments that wait for a wake, oldest first (R181). -/
  heldAdds : List HeldAdd := []
  /-- Core state window writes that wait for a wake, oldest first (R358). -/
  heldWrites : List (Writer × Nat × DWord) := []
  /-- Clusters asked to wake (R358). -/
  wakeReq : BitVec 64 := 0
  /-- R of the present power period, in reference cycles (R363). -/
  critR : Nat := 0
  /-- A of the present power period, in reference cycles (R363). -/
  critA : Nat := 0
  /-- Device messages by inst. that no DEVICE_MESSAGE has taken yet, oldest first. -/
  hatOut : Tbl (List HatMsg) := []
  /-- Device messages the Hatch engine has queued, at most 16 (R249). -/
  hatQueue : Tbl (List HatMsg) := []
  /-- Device messages lost since the last OVERFLOW message (R249). -/
  hatLost : Tbl Nat := []
  /-- Chute messages that wait for a tag and credits, oldest first. -/
  chuteOut : List ChuteItem := []
  /-- Chute messages sent that wait for their completion, with their ports (R291). -/
  chuteLive : List (Nat × ChuteMsg × Agent) := []
  /-- Messages a Chute port has delivered that nothing has taken, with the port, oldest first. -/
  chuteIn : List (Nat × ChuteMsg) := []
  /-- Reductions of Chute messages at their homes, by tag (R290). -/
  chuteReds : List (Nat × ChuteItem) := []
  /-- Requests forwarded and not completed: egress port, ingress port, message (R298, R299). -/
  chuteFwd : List (Nat × Nat × ChuteMsg) := []
  /-- Chute ports by direction, key 2·port, the receiving end 2·port + 1. -/
  ports : Tbl Wire := []
  /-- Origin route tables by Bay (R297), and the transit route tables. -/
  origins : Tbl (List RouteTable) := []
  transit : List RouteTable := []
  /-- Joist links by direction, key 2·link (from the first end of Table JT-1), 2·link + 1 the other way. -/
  joists : Tbl Wire := []
  joistLinks : Tbl JoistLink := []
  /-- Locker quarters that a die loss destroyed and no RESET has zeroed, key 4·unit + die: their lines that are not listed are poisoned (R394). -/
  lockerLost : Tbl Bool := []
  /-- Joist messages delivered at their die, and messages of a die's agents or in transit that wait to be sent; with the die. -/
  joistIn : List (Nat × JoistMsg) := []
  joistOut : List (Nat × JoistMsg) := []
  /-- Requests on the Joist that wait for their completion, with the agent that made each. -/
  joistLive : List (JoistMsg × Agent) := []
  pilot : Pilot := {}
  cellarCtl : CellarCtl := {}
  clocks : ClockCtl := {}
  power : PowerCtl := {}
  /-- SPDM by function, functions whose IDE stream has keys. -/
  spdm : Tbl Spdm := []
  ide : Tbl Bool := []
  /-- Inbound requests of the host port that have not completed (R317). -/
  hostIn : List HostIn := []
  /-- Answers sent, newest first. -/
  replies : List Reply := []
  /-- HST_VF_APSELa.CORE, key 3·function + a (Table HP-6). -/
  apsel : Tbl Nat := []
  /-- Address and data of MSI-X table entries (R313). -/
  msixTable : Tbl (BitVec 96) := []
  /-- BAR2 sizes above the smallest, as a power of two (R308, R309). -/
  bar2 : Tbl Nat := []
  /-- Requests of the device to host memory that are not complete (R312-R316). -/
  hostOut : List HostReq := []
  /-- ATS Enable by function (R314). -/
  atsOn : Tbl Bool := []
  /-- The address translation cache: function, log2 of the page size, page number. -/
  atc : List (Nat × Nat × Nat) := []
  /-- Invalidate Requests whose users have not all completed: function, tags of those accesses (R314). -/
  atsInval : List (Nat × List Nat) := []
  /-- Inst.s that have had a write discarded since their last change of state (R252). -/
  dropTold : Tbl Bool := []
  /-- Migration secrets S by inst. (R379). -/
  migSecret : Tbl (BitVec 256) := []
  /-- A function-level reset of the inst.'s virtual function runs (1; R254), or a STOP_INTERFACE (2; R321). -/
  flr : Tbl Nat := []
  /-- SEC_NONCE holds a nonce that no token has used (R383). -/
  nonceLive : Bool := false
  /-- VF Enable of function 0's SR-IOV capability, and its virtual functions ready (R318, R319). -/
  vfOn : Bool := false
  vfReady : Bool := false
  /-- Measurement logs: L_i and the count of extensions by inst. (R376). -/
  measLog : Tbl (BitVec 512 × Nat) := []
  deriving DecidableEq, Repr

/-- The machine right after reset: every unit at its reset value, no command waiting. -/
def State.reset : State := {}

end Sys2Proof.Machine
end

