-- ==== Sys2Proof/Machine/Ops.lean ====
section
/-! DEFINITION. The named operations over tables, registers, memory, interrupts and error records that every family uses. -/
namespace Sys2Proof.Machine

/-! ### Tables -/

/-- Value of number `k`, `d` where the table does not list it. -/
def Tbl.get {α : Type} (t : Tbl α) (d : α) (k : Nat) : α :=
  match t with
  | [] => d
  | (j, v) :: r => if j = k then v else Tbl.get r d k

/-- `(k, v)` put in its place among rising numbers. -/
def Tbl.ins {α : Type} (k : Nat) (v : α) : Tbl α → Tbl α
  | [] => [(k, v)]
  | (j, w) :: r => if k < j then (k, v) :: (j, w) :: r else (j, w) :: Tbl.ins k v r

/-- The table with number `k` at `v`; an entry at the default value is not listed. -/
def Tbl.set {α : Type} [DecidableEq α] (t : Tbl α) (d : α) (k : Nat) (v : α) : Tbl α :=
  let r := t.filter (fun e => decide (e.1 ≠ k))
  if v = d then r else Tbl.ins k v r

/-- Canonical form: numbers strictly rising, no entry at the default value. -/
def Tbl.wf {α : Type} [DecidableEq α] (d : α) : Tbl α → Bool
  | [] => true
  | [e] => decide (e.2 ≠ d)
  | e :: f :: r => decide (e.2 ≠ d) && decide (e.1 < f.1) && Tbl.wf d (f :: r)

/-! ### Registers -/

/-- The number that a reset value stands for in register `i` of an array. -/
def Rst.at (i hi lo : Nat) : Rst → Nat
  | .val v => v
  | .byIndex vs => vs.getD i 0
  | .dev k => fieldOf (Config.deviceValue k i) hi lo
  | .least k => ((List.range 6).map (fun d => fieldOf (Config.deviceValue k i) (8 * d + 7) (8 * d))).foldl min 255

/-- The reset value of a register from its fields. -/
def resetOf (fs : List RegField) (i : Nat) : DWord :=
  BitVec.ofNat 64 (fs.foldl (fun n f => n + (f.rst.at i f.hi f.lo % 2 ^ (f.hi + 1 - f.lo)) * 2 ^ f.lo) 0)

/-- Offset of the register at the given indexes. -/
def addrOf (base : Nat) : List (Nat × Nat) → List Nat → Nat
  | (_, st) :: ds, i :: is => addrOf (base + i * st) ds is
  | _, _ => base

def RegSpec.addr (r : RegSpec) (is : List Nat) : Nat := addrOf r.base r.dims is

/-- The value a register holds. -/
def State.reg (s : State) (r : RegSpec) (is : List Nat) : DWord := s.regs.get (resetOf r.fields (is.getLastD 0)) (r.addr is)

/-- The state with a register at a value. -/
def State.setReg (s : State) (r : RegSpec) (is : List Nat) (v : DWord) : State :=
  { s with regs := s.regs.set (resetOf r.fields (is.getLastD 0)) (r.addr is) v }

/-- A field of a register. -/
def State.fld (s : State) (r : RegSpec) (is : List Nat) (f : Fld) : Nat := fieldOf (s.reg r is) f.hi f.lo

def State.setFld (s : State) (r : RegSpec) (is : List Nat) (f : Fld) (v : Nat) : State :=
  s.setReg r is (withField (s.reg r is) f.hi f.lo v)

/-- A one-bit field. -/
def State.bit (s : State) (r : RegSpec) (is : List Nat) (f : Fld) : Bool := s.fld r is f == 1

/-- A write to a WS register that is carried out; the register reads as the value last written (R5). -/
def State.wrote (s : State) (r : RegSpec) (is : List Nat) (v : Nat) : State := s.setReg r is (BitVec.ofNat 64 v)

/-- A counter field raised by `n`, stopping at its largest value (R395). -/
def State.bump (s : State) (r : RegSpec) (is : List Nat) (f : Fld) (n : Nat) : State :=
  s.setFld r is f (satAdd (2 ^ (f.hi + 1 - f.lo) - 1) (s.fld r is f) n)

/-- A counter field raised by `n`, wrapping. -/
def State.wrapAdd (s : State) (r : RegSpec) (is : List Nat) (f : Fld) (n : Nat) : State :=
  s.setFld r is f (s.fld r is f + n)

/-- How far a command reaches that is none of the Pilot's: `t` with the Pilot (its flash, counters, pins and starts: R369-R375, R402, R403) and the
queue as they are in `s`. -/
def State.keepPilot (s t : State) : State := { t with pilot := s.pilot, pending := s.pending }

def State.setPilot (s : State) (f : Pilot → Pilot) : State := { s with pilot := f s.pilot }

/-! ### Free values -/

/-- The next free value's number, and the state that has drawn it. -/
def State.draw (s : State) : Nat × State := (s.free, { s with free := s.free + 1 })

/-! ### Memory behind the caches -/

/-- What an unlisted byte reads as (log 6). -/
def memDefault : Byte := 0

def State.byte (s : State) (a : Nat) : Byte := Tbl.get s.mem memDefault a

def State.setByte (s : State) (a : Nat) (b : Byte) : State := { s with mem := Tbl.set s.mem memDefault a b }

/-- The memory's canonical form. -/
def Memory.wf (m : List Host.Cell) : Bool := Tbl.wf memDefault m

/-- `n` bytes from an address. -/
def State.bytes (s : State) (a : Nat) : Nat → List Byte
  | 0 => []
  | n + 1 => s.byte a :: s.bytes (a + 1) n

def State.setBytes (s : State) (a : Nat) : List Byte → State
  | [] => s
  | b :: bs => (s.setByte a b).setBytes (a + 1) bs

/-- Whether any 8-byte word that `[a, a + n)` touches is poisoned. -/
def State.poisoned (s : State) (a n : Nat) : Bool :=
  n != 0 && s.poison.any (fun e => e.2 && decide (a / 8 ≤ e.1) && decide (e.1 ≤ (a + n - 1) / 8))

def State.markWord (s : State) (w : Nat) (p : Bool) : State := { s with poison := s.poison.set false w p }

/-- Poison marks of the words that a write of `[a, a + n)` touches: a word written whole takes the data's mark, a word written
in part keeps its own and takes the data's (R390). -/
def State.markWrite (s : State) (a n : Nat) (p : Bool) : State :=
  if n = 0 then s else
  (List.range ((a + n - 1) / 8 + 1 - a / 8)).foldl (fun s i =>
    let w := a / 8 + i
    if a ≤ 8 * w ∧ 8 * w + 8 ≤ a + n then s.markWord w p
    else if p then s.markWord w true else s) s

/-! ### Pantries -/

/-- Size of a Pantry (R127). -/
def pantrySize : Nat := 2621440

/-- Global address of byte `off` of core `n`'s Pantry (Table AR-2). -/
def pantryAddr (n off : Nat) : Nat := 0x020000000000 + n * 0x400000 + off

def State.pantry (s : State) (n off len : Nat) : List Byte := s.bytes (pantryAddr n off) len

def State.pantryPoison (s : State) (n off len : Nat) : Bool := s.poisoned (pantryAddr n off) len

/-- A write to a Pantry, its words marked when the data is poisoned. -/
def State.setPantry (s : State) (n off : Nat) (bs : List Byte) (poison : Bool) : State :=
  (s.setBytes (pantryAddr n off) bs).markWrite (pantryAddr n off) bs.length poison

/-- A little-endian number in a Pantry. -/
def State.pantryNat (s : State) (n off len : Nat) : Nat := ofLeBytes (s.pantry n off len)

/-! ### Interrupts (R313) -/

/-- Key of vector `v` of function `f`. -/
def vecKey (f v : Nat) : Nat := 2048 * f + v

/-- The host link is up (R320). -/
def State.hostUp (s : State) : Bool := s.bit Reg.HST_LINK_STAT [] F.HST_LINK_STAT_UP

/-- An event raises a vector: an open vector sends a message while the host link is up; else its pending bit is set (R313, Table HP-5). -/
def State.raise (s : State) (f v : Nat) : State :=
  if s.msixOpen.get false (vecKey f v) ∧ s.hostUp then { s with msixSent := (f, v) :: s.msixSent }
  else { s with msixPend := s.msixPend.set false (vecKey f v) true }

/-- Some condition holds: apply the update. -/
def State.when (s : State) (c : Bool) (f : State → State) : State := if c then f s else s

/-! ### Error records (R386-R388) -/

inductive ErrClass where
  | corrected | contained | fatal
  deriving DecidableEq, Repr

def ErrClass.code : ErrClass → Nat
  | .corrected => 0
  | .contained => 1
  | .fatal => 2

/-- An error record before it is numbered (Table RL-1). -/
structure ErrRec where
  kind : Nat
  index : Nat
  cls : ErrClass
  poisoned : Bool := false
  retired : Bool := false
  dual : Bool := false
  address : Nat := 0
  syndrome : Nat := 0
  bay : Nat := 0xFF
  inst : Nat := 0xFF
  sub : Nat := 0
  aux : Nat := 0
  deriving DecidableEq, Repr

/-- The eight 64-bit words of a record with its SEQ and TIME. -/
def ErrRec.words (r : ErrRec) (seq time : Nat) : List Nat :=
  let source := (r.kind % 32) * 2 ^ 11 + r.index % 2 ^ 11
  let flags := (if r.poisoned then 1 else 0) + (if r.retired then 2 else 0) + (if r.dual then 4 else 0)
  [seq % 2 ^ 32 + source * 2 ^ 32 + r.cls.code * 2 ^ 48 + flags * 2 ^ 56, r.address % 2 ^ 64, r.syndrome % 2 ^ 64,
   r.bay % 256 + (r.inst % 256) * 2 ^ 8 + (r.sub % 65536) * 2 ^ 16, time % 2 ^ 64, r.aux % 2 ^ 64, 0, 0]

/-- The words put into eight registers. -/
def State.setWords (s : State) (r : RegSpec) (pre : List Nat) : Nat → List Nat → State
  | _, [] => s
  | w, v :: vs => (s.setReg r (pre ++ [w]) (BitVec.ofNat 64 v)).setWords r pre (w + 1) vs

/-- A count of ERR_CNT raised; when it stops, SAT is set and vector 96 raised (R388, R395). -/
def State.countRecord (s : State) (f : Fld) : State :=
  let top := 2 ^ (f.hi + 1 - f.lo) - 1
  let n := satAdd top (s.fld Reg.ERR_CNT [] f) 1
  let s1 := s.setFld Reg.ERR_CNT [] f n
  if n = top ∧ ¬ s.bit Reg.ERR_CNT [] F.ERR_CNT_SAT then (s1.setFld Reg.ERR_CNT [] F.ERR_CNT_SAT 1).raise 0 96 else s1

/-- The OV4 writes an error record (R386-R388): numbered, put in the ring over the oldest unread record when the ring is full,
copied to ERR_FATAL when device-fatal, counted, and vector 96 raised when its class is enabled. -/
def State.log (s : State) (r : ErrRec) : State :=
  let seq := s.fld Reg.ERR_PROD [] F.ERR_PROD_PROD
  let ws := r.words seq (s.reg Reg.CLK_REFCNT [5]).toNat
  let full := decide (1024 ≤ (seq + 2 ^ 32 - s.fld Reg.ERR_CONS [] F.ERR_CONS_CONS) % 2 ^ 32)
  let s := s.when full (fun s => (s.bump Reg.ERR_STAT [] F.ERR_STAT_LOST 1).setFld Reg.ERR_STAT [] F.ERR_STAT_OVF 1)
  let s := s.setWords Reg.ERR_REC [seq % 1024] 0 ws
  let s := s.setFld Reg.ERR_PROD [] F.ERR_PROD_PROD (seq + 1)
  let s := s.when (r.cls == .fatal) (fun s => (s.setWords Reg.ERR_FATAL [] 0 ws).setFld Reg.ERR_STAT [] F.ERR_STAT_FATAL 1)
  let s := s.countRecord (match r.cls with
    | .corrected => F.ERR_CNT_CORRECTED
    | .contained => F.ERR_CNT_CONTAINED
    | .fatal => F.ERR_CNT_FATAL)
  s.when ((s.fld Reg.ERR_CTL [] F.ERR_CTL_IRQ).testBit r.cls.code) (fun s => s.raise 0 96)

/-! ### Discarded register writes (R413) -/

/-- SUB of Table SC-7. -/
def writerSub : Writer → Nat
  | .fn f => f.val
  | _ => 0

/-- INSTANCE of Table SC-7. -/
def writerInst : Writer → Nat
  | .fn f => f.val
  | .storekeeper => 0xFF
  | _ => 0

/-- Causes of Table SC-8. -/
def causeReserved : Nat := 1
def causeNoReg : Nat := 2
def causeNarrow : Nat := 3
def causeBusy : Nat := 4
def causeState : Nat := 5
def causeActor : Nat := 6
def causeValue : Nat := 7

/-- Offset in BAR0 of the writer's function of the register at a function-0 offset (Table HP-2); a core state window keeps its function-0 offset. -/
def ownOffset (w : Writer) (off : Nat) : Nat :=
  match w with
  | .fn f =>
    if f.val = 0 then off
    else if 0x2000000 ≤ off ∧ off < 0x3000000 then off % 0x10000
    else if Reg.LRD_RNG_ADDR.addr [f.val] ≤ off ∧ off < Reg.LRD_RNG_ADDR.addr [f.val] + 0x28 then 0x10000 + (off - Reg.LRD_RNG_ADDR.addr [f.val])
    else if 0x1000000 ≤ off ∧ off < 0x2000000 then 0x20000 + 0x80 * ((off - 0x1000000) / 0x40000) + off % 0x80
    else off
  | _ => off

/-- The record of a register write that is discarded (Table SC-7); `own` is its offset in the writer's BAR0. -/
def State.refuseAt (s : State) (w : Writer) (own cause : Nat) (reason : Nat := 0) : State :=
  s.log { kind := 0x11, index := own / 2 ^ 20, cls := .contained, address := own, syndrome := cause + 256 * reason, sub := writerSub w, inst := writerInst w }

def State.refuse (s : State) (w : Writer) (off cause : Nat) (reason : Nat := 0) : State := s.refuseAt w (ownOffset w off) cause reason

/-- The data path of a tenant's function is closed: its inst. is not ACTIVE (R246, Table TN-6). -/
def State.closedFor (s : State) (w : Writer) : Bool :=
  match w with
  | .fn f => f.val != 0 && s.fld Reg.HAT_INST_STAT [f.val] F.HAT_INST_STAT_STATE != 1
  | _ => false

/-- A write discarded because the data path is closed: counted, and the first since the last change of state leaves a record (R252). -/
def State.dropWrite (s : State) (f own : Nat) : State :=
  let s := s.bump Reg.HAT_INST_STAT [f] F.HAT_INST_STAT_DROPPED 1
  if s.dropTold.get false f then s
  else { s with dropTold := s.dropTold.set false f true }.log { kind := 0x10, index := f, cls := .contained, address := own, sub := f, inst := f }

/-- A write that the tenant's data path carries, at a function-0 offset. -/
def State.tenantWrite (s : State) (w : Writer) (off : Nat) (f : State → State) : State :=
  if s.closedFor w then s.dropWrite (writerSub w) (ownOffset w off) else f s

/-! ### Units -/

def State.seq (s : State) (n : Nat) : Seq := s.seqs.get {} n
def State.setSeq (s : State) (n : Nat) (q : Seq) : State := { s with seqs := s.seqs.set {} n q }
def State.stepUnit (s : State) (n : Nat) : StepUnit := s.steps.get {} n
def State.setStep (s : State) (n : Nat) (u : StepUnit) : State := { s with steps := s.steps.set {} n u }
def StepUnit.engine (u : StepUnit) (e : Nat) : Engine := u.engines.get {} e
def StepUnit.setEngine (u : StepUnit) (e : Nat) (x : Engine) : StepUnit := { u with engines := u.engines.set {} e x }
def State.engine (s : State) (n e : Nat) : Engine := (s.stepUnit n).engine e
def State.setEngine (s : State) (n e : Nat) (x : Engine) : State := s.setStep n ((s.stepUnit n).setEngine e x)
def State.group (s : State) (n g : Nat) : Group := s.groups.get {} (8 * n + g)
def State.setGroup (s : State) (n g : Nat) (x : Group) : State := { s with groups := s.groups.set {} (8 * n + g) x }
def State.kern (s : State) (n : Nat) : Kernels := s.kernels.get {} n
def State.setKern (s : State) (n : Nat) (k : Kernels) : State := { s with kernels := s.kernels.set {} n k }
def State.porter (s : State) (p : Nat) : Porter := s.porters.get {} p
def State.setPorter (s : State) (p : Nat) (x : Porter) : State := { s with porters := s.porters.set {} p x }
def Porter.chan (p : Porter) (c : Nat) : Chan := p.chans.get {} c
def Porter.setChan (p : Porter) (c : Nat) (x : Chan) : Porter := { p with chans := p.chans.set {} c x }
def State.chan (s : State) (p c : Nat) : Chan := (s.porter p).chan c
def State.setChan (s : State) (p c : Nat) (x : Chan) : State := s.setPorter p ((s.porter p).setChan c x)
def State.bay (s : State) (b : Nat) : Bay := s.bays.get {} b
def State.setBay (s : State) (b : Nat) (x : Bay) : State := { s with bays := s.bays.set {} b x }
def State.img (s : State) (b j : Nat) : ImgSlot := s.imgs.get {} (4 * b + j)
def State.setImg (s : State) (b j : Nat) (x : ImgSlot) : State := { s with imgs := s.imgs.set {} (4 * b + j) x }
def State.range (s : State) (n : Nat) : CoreRanges := s.ranges.get {} n
def State.setRange (s : State) (n : Nat) (x : CoreRanges) : State := { s with ranges := s.ranges.set {} n x }

/-! ### Indexes (Table AR-2, R8) -/

def clusterOf (n : Nat) : Nat := n / 8
def dieOfCore (n : Nat) : Nat := n / 128
def dieOfCluster (g : Nat) : Nat := g / 16

/-- Whether engine `e` of core `n` is usable (R9). -/
def State.engineUsable (s : State) (n e : Nat) : Bool := (s.reg Reg.DEV_INV_ENGINE [(4 * n + e) / 64]).getLsbD ((4 * n + e) % 64)

/-- An engine leaves service: its inventory bit goes to 0 (R9). -/
def State.retireEngine (s : State) (n e : Nat) : State :=
  s.setReg Reg.DEV_INV_ENGINE [(4 * n + e) / 64] (withField (s.reg Reg.DEV_INV_ENGINE [(4 * n + e) / 64]) ((4 * n + e) % 64) ((4 * n + e) % 64) 0)

/-- The formed Bay that owns cluster `g` (R226). -/
def State.bayOfCluster (s : State) (g : Nat) : Option Nat :=
  (List.range 64).find? (fun b => s.bit Reg.BAY_CFG [b] F.BAY_CFG_EN && (s.reg Reg.BAY_CLUSTERS [b]).getLsbD g)

def State.bayOfCore (s : State) (n : Nat) : Option Nat := s.bayOfCluster (clusterOf n)

/-- Clusters of a Bay, rising. -/
def State.clustersOf (s : State) (b : Nat) : List Nat := onesOf 64 (s.reg Reg.BAY_CLUSTERS [b]).toNat

/-- Cores of a Bay in Bay-relative order (Table SQ-7). -/
def State.coresOf (s : State) (b : Nat) : List Nat := (s.clustersOf b).flatMap (fun g => (List.range 8).map (fun c => 8 * g + c))

/-- The inst. number of a Bay. -/
def State.instOfBay (s : State) (b : Nat) : Nat := s.fld Reg.BAY_CFG [b] F.BAY_CFG_INSTANCE

/-- BAY and INSTANCE of an error record of a core (Table RL-1). -/
def State.owner (s : State) (n : Nat) : Nat × Nat :=
  match s.bayOfCore n with
  | some b => (b, s.instOfBay b)
  | none => (0xFF, 0xFF)

/-- A record whose source lies in core `n`. -/
def State.logCore (s : State) (n : Nat) (r : ErrRec) : State := s.log { r with bay := (s.owner n).1, inst := (s.owner n).2 }

/-! ### Event flags (R243, R368) -/

/-- Event bits set in a register of an event block; a bit newly set and enabled raises the vector (R243, R368). -/
def State.events (s : State) (r : RegSpec) (is : List Nat) (enabled : Nat) (bits vec : Nat) : State :=
  let old := (s.reg r is).toNat
  let new := bits &&& (0xFFFF ^^^ (old % 65536))
  (s.setReg r is (BitVec.ofNat 64 (old ||| bits))).when (new &&& enabled != 0) (fun s => s.raise 0 vec)

/-- BAY_EVT bits of Bay `b` (R243). -/
def State.bayEvent (s : State) (b bits : Nat) : State := s.events Reg.BAY_EVT [b] (s.fld Reg.BAY_EVT_EN [b] F.BAY_EVT_EN_EN) bits b

/-- A device message for inst. `i`, which DEVICE_MESSAGE takes (R249). Inst. 0 has no Hatch. -/
def State.hatPush (s : State) (i : Nat) (m : HatMsg) : State :=
  if i = 0 ∨ 32 < i then s else { s with hatOut := s.hatOut.set [] i (s.hatOut.get [] i ++ [m]) }

/-- A Chute message joins those that wait to be sent. -/
def State.chutePush (s : State) (m : ChuteMsg) (who : Agent) (port : Option Nat) : State := { s with chuteOut := s.chuteOut ++ [⟨m, who, port⟩] }

/-! ### Accounting (R239, R395) -/

/-- A 63-bit count raised; when it stops at its largest value SAT is set, and BAY_EVT.SAT of Bay `b`. -/
def State.satCount (s : State) (r : RegSpec) (is : List Nat) (b n : Nat) : State :=
  let top := 2 ^ 63 - 1
  let old := (s.reg r is).toNat
  let c := satAdd top (old % 2 ^ 63) n
  let s := s.setReg r is (BitVec.ofNat 64 (c + (if c = top then 2 ^ 63 else old / 2 ^ 63 * 2 ^ 63)))
  if c = top ∧ old / 2 ^ 63 = 0 then s.bayEvent b 0x80 else s

/-- A Bay's use, counted for the Bay and for its inst.; agents of no Bay count nothing. -/
def State.account (s : State) (b : Option Nat) (r ri : RegSpec) (n : Nat) : State :=
  match b with
  | some b => if n = 0 then s else (s.satCount r [b] b n).satCount ri [s.instOfBay b] b n
  | none => s

/-- Bytes of Larder requests. -/
def State.countLrd (s : State) (b : Option Nat) (n : Nat) : State := s.account b Reg.BAY_LRD Reg.BAY_INST_LRD n

end Sys2Proof.Machine
end

