-- ==== Sys2Proof/Machine/Mem.lean ====
section
/-! DEFINITION. Where data lies: regions and backing (R10), homes (R129), the Cellar's lines (R326-R335), Larder lines with their ways
and encodings (R133, R134, R154), Cupboards (R151) and the accesses of coherent and non-caching agents (R152), Shelves (R126), the
device MMU (R135-R137). An access that has to wait at its home gives `none`. -/
namespace Sys2Proof.Machine

/-! ### Regions -/

/-- Regions of Table AR-10, with the offset in the region. -/
inductive Region10 where
  | cellar (o : Nat)
  | locker (o : Nat)
  | pantry (n off : Nat)
  | span (dev off : Nat)
  | host
  | regs (off : Nat)
  | hole
  deriving DecidableEq, Repr

def regionOf (a : Nat) : Region10 :=
  if a ≤ 0x007FFFFFFFFF then .cellar a
  else if 0x010000000000 ≤ a ∧ a ≤ 0x01017FFFFFFF then .locker (a - 0x010000000000)
  else if 0x020000000000 ≤ a ∧ a ≤ 0x02007FFFFFFF then .pantry ((a - 0x020000000000) / 0x400000) ((a - 0x020000000000) % 0x400000)
  else if 0x4000000000000 ≤ a ∧ a ≤ 0x7FFFFFFFFFFFF then .span ((a - 0x4000000000000) / 0x8000000000) ((a - 0x4000000000000) % 0x8000000000)
  else if 0x8000000000000 ≤ a ∧ a ≤ 0xEFFFFFFFFFFFF then .host
  else if 0xF000000000000 ≤ a ∧ a ≤ 0xF00001FFFFFFF then .regs (a - 0xF000000000000)
  else .hole

/-- Usable capacity of the Cellar in bytes (R325). -/
def State.cellarSize (s : State) : Nat := s.fld Reg.CEL_CAP [] F.CEL_CAP_CAP_MIB * 1048576

/-- Locker units backed (R141). -/
def State.units (s : State) : Nat := s.fld Reg.LRD_MH_STAT [] F.LRD_MH_STAT_UNITS

def lockerUnit : Nat := 402653184

/-- Cluster usable (R9) and powered (R358). -/
def State.clusterUp (s : State) (g : Nat) : Bool :=
  (s.reg Reg.DEV_INV_CLUSTER []).getLsbD g && decide (s.fld Reg.PWR_CL [g] F.PWR_CL_STATE < 2)

/-- R10: whether an address is backed on this device. -/
def State.backed (s : State) (a : Nat) : Bool :=
  match regionOf a with
  | .cellar o => decide (o < s.cellarSize)
  | .locker o => decide (o < s.units * lockerUnit)
  | .pantry n off => decide (off < pantrySize) && s.clusterUp (clusterOf n)
  | .host => true
  | .regs _ => true
  | .span _ _ => true
  | .hole => false

/-- Lines that have a home (R145). -/
def hasHome (a : Nat) : Bool :=
  match regionOf a with
  | .cellar _ => true
  | .locker _ => true
  | _ => false

def isLocker (l : Nat) : Bool :=
  match regionOf (128 * l) with
  | .locker _ => true
  | _ => false

/-! ### Homes (R129) -/

/-- Exclusive or of the `w`-bit chunks of a line number below 2^45. -/
def foldBits (w : Nat) : Nat → Nat → Nat
  | 0, _ => 0
  | n + 1, x => (x % 2 ^ w) ^^^ foldBits w n (x / 2 ^ w)

def State.quadrant (s : State) : Bool := s.bit Reg.LRD_ILV_CFG [] F.LRD_ILV_CFG_MODE

/-- Die of a Cellar granule (R130). -/
def State.qmapDie (s : State) (granule : Nat) : Nat :=
  fieldOf (s.reg Reg.LRD_QMAP [granule / 32]) (2 * (granule % 32) + 1) (2 * (granule % 32))

/-- Home slice and set of a line (R129). -/
def State.home (s : State) (l : Nat) : Nat × Nat :=
  let (o, lock) := match regionOf (128 * l) with
    | .locker o => (o, true)
    | _ => (128 * l, false)
  if s.quadrant then
    let q := o % lockerUnit
    let (d, x) := if lock then (q / 100663296, ((o / lockerUnit) * 100663296 + q % 100663296) / 128)
      else (s.qmapDie (o / 2 ^ 30), o / 128)
    (16 * d + foldBits 4 12 x, (x / 16) % 49152)
  else (foldBits 6 8 (o / 128), (o / 128 / 64) % 49152)

/-! ### The Cellar's lines -/

def pow28 (folded : Nat) : List Nat := (List.range 32).filter (fun c => c / 4 ≠ folded)

/-- Channel of a Cellar line (R326). -/
def State.channelOf (s : State) (l : Nat) : Nat :=
  if s.bit Reg.CEL_CAP [] F.CEL_CAP_FOLDED then
    (pow28 (s.fld Reg.CEL_CAP [] F.CEL_CAP_FOLD_PKG)).getD ((l % 28 + l / 28) % 28) 0
  else (l % 32) ^^^ ((l / 32) % 32) ^^^ ((l / 1024) % 32)

/-- A line of a failed package that a fold moved as poison and nothing has written since (R333). -/
def State.foldLost (s : State) (l : Nat) (c : CellarLine) : Bool :=
  s.cellarCtl.lost.contains (((l % 32) ^^^ ((l / 32) % 32) ^^^ ((l / 1024) % 32)) / 4) && !c.fresh

/-- A package fails when one of its channels fails (R332). -/
def State.packageFailed (s : State) (p : Nat) : Bool :=
  (List.range 4).any (fun i => s.fld Reg.CEL_CH_STAT [4 * p + i] F.CEL_CH_STAT_STATE == 4)

/-- The key in force for a line's block (R334, R335). -/
def State.keyOf (s : State) (l : Nat) : Option (Nat × Nat) :=
  (s.keyOwner.get none (128 * l / 2097152)).map (fun i => (i, s.keyGen.get 0 i))

def lineOfBytes (bs : List Byte) : Line := BitVec.ofNat 1024 (ofLeBytes bs)

/-- Data, mark and poison that the Cellar returns for a line (R328, R329, R332, R335). -/
def State.cellarGet (s : State) (l : Nat) : Line × Bool × Bool :=
  let c := s.cellar.get {} l
  let d := lineOfBytes (s.bytes (128 * l) 128)
  let d := if c.key = s.keyOf l then d else Config.otherKey c.key (s.keyOf l) l d
  if s.packageFailed (s.channelOf l / 4) then (d, false, true) else (if c.mark then 0 else d, c.mark, c.poison || s.foldLost l c)

/-- Requests to a line's channel wait: a retraining window is open there, or a fold runs (R331, R333). -/
def State.cellarWaits (s : State) (l : Nat) : Bool :=
  hasHome (128 * l) && (!match regionOf (128 * l) with | .locker _ => true | _ => false) &&
  (s.cellarCtl.fold.isSome || (s.bit Reg.CEL_STAT [] F.CEL_STAT_RETRAINING && s.fld Reg.CEL_STAT [] F.CEL_STAT_RETRAIN_CH == s.channelOf l))

/-- A write of a whole line to the Cellar (R329, R334); dropped with a record on a failed package (R332). A write that meets a fold waits for it and goes
to the line's new place. -/
def State.cellarPut (s : State) (l : Nat) (d : Line) (mark poison : Bool) : State :=
  if s.cellarCtl.fold.isNone ∧ s.packageFailed (s.channelOf l / 4) then
    s.log { kind := 0x0E, index := s.channelOf l, cls := .contained, poisoned := poison, address := 128 * l }
  else
    let s := s.setBytes (128 * l) (leBytes 128 (if mark then 0 else d.toNat))
    { s with cellar := s.cellar.set {} l { mark := mark, poison := poison && !mark, key := s.keyOf l, fresh := !s.cellarCtl.lost.isEmpty || s.cellarCtl.fold.isSome } }

/-! ### Larder lines -/

/-- Way backing a Locker line (R141). -/
def State.lockerWay (s : State) (l : Nat) : Nat :=
  let u := (128 * l - 0x010000000000) / lockerUnit
  fieldOf (s.reg Reg.LRD_LOCKER_MAP []) (4 * u + 3) (4 * u)

/-- The quarter of a Locker unit that a line belongs to, as lockerLost numbers it. -/
def State.quarter (s : State) (l : Nat) : Nat := 4 * ((128 * l - 0x010000000000) / lockerUnit) + (s.home l).1 / 16

/-- A resident Larder line; a line of a backed Locker unit is always resident (R152). -/
def State.larderLine (s : State) (l : Nat) : Option LarderLine :=
  match s.larder.get none l with
  | some x => some x
  | none => if isLocker l && s.backed (128 * l) then some { way := s.lockerWay l, pinned := true, poison := s.lockerLost.get false (s.quarter l) } else none

/-- First encoding of Table MH-5 that fits; a pinned way uses ZERO and NONE only (R134). -/
def encodingOf (d : Line) (pinned on : Bool) : Nat :=
  let n := d.toNat
  let words := (List.range 32).map (fun i => (n >>> (32 * i)) % 2 ^ 32)
  let halves := (List.range 64).map (fun i => ((n >>> (16 * i)) % 2 ^ 16) / 128 % 256)
  let mids := (List.range 128).map (fun i => ((n >>> (8 * i)) % 256) / 8 % 16)
  let same (xs : List Nat) := xs.all (· == xs.headD 0)
  if ¬ on then 0
  else if n = 0 then 1
  else if pinned then 0
  else if same words then 2
  else if same halves then 3
  else if same mids then 4
  else 0

def State.compress (s : State) : Bool := s.bit Reg.LRD_ILV_CFG [] F.LRD_ILV_CFG_CMP_EN

/-- Resident lines of a set. -/
def State.setLines (s : State) (sl st : Nat) : List (Nat × LarderLine) :=
  s.larder.filterMap (fun e => match e.2 with
    | some x => if s.home e.1 = (sl, st) then some (e.1, x) else none
    | none => none)

/-- Ways reserved by pin grants or by a pin command that runs (R140). -/
def State.pinnedWays (s : State) : Nat :=
  ((List.range 33).foldl (fun m i => m ||| s.fld Reg.LRD_PIN_CFG [i] F.LRD_PIN_CFG_WAYS) 0) |||
    (match s.larderCtl.pin with | some p => 2 ^ p.way | none => 0)

/-- Clusters whose Cupboard holds a line. -/
def State.holders (s : State) (l : Nat) : List Nat :=
  (s.cups.filter (fun e => (Tbl.get e.2 none l).isSome)).map (·.1)

def State.cupLine (s : State) (g l : Nat) : Option CupLine := (s.cups.get [] g).get none l

def State.setCup (s : State) (g l : Nat) (c : Option CupLine) : State :=
  { s with cups := s.cups.set [] g ((s.cups.get [] g).set none l c) }

/-- The cluster that answers for dirty or exclusive data of a line. -/
def State.ownerOf (s : State) (l : Nat) : Option Nat :=
  (s.holders l).find? (fun g => match s.cupLine g l with
    | some c => c.st != .s
    | none => false)

/-- A Cupboard holds newer data than the Larder: the line has been written since (R139). -/
def State.dirtyCopy (s : State) (l : Nat) : Bool :=
  (s.holders l).any (fun g => match s.cupLine g l with
    | some c => c.st == .m || c.st == .o
    | none => false)

/-- PRES and OWN as the filters' tags show them (R147, R148), for home ordering. -/
def State.setPres (s : State) (l : Nat) : State :=
  match s.larderLine l with
  | none => s
  | some x =>
    let ds := (s.holders l).map dieOfCluster
    let own := s.ownerOf l
    { s with larder := s.larder.set none l (some { x with
        pres := maskOf ds.eraseDups, ownV := own.isSome, ownD := (own.map dieOfCluster).getD 0 }) }

/-- Dirty data of a Cupboard taken into the home's line: ST becomes D but for a Locker line, DEAD clears (R152). -/
def State.takeDirty (s : State) (l : Nat) (c : CupLine) : State :=
  match s.larderLine l with
  | none => s
  | some x => { s with larder := s.larder.set none l (some { x with
      data := c.data, poison := c.poison != 0, st := if isLocker l then 1 else 2, enc := encodingOf c.data x.pinned s.compress, dead := false, marked := false, chk := false }) }

/-- One Cupboard answers a snoop (Table CO-4); dirty data goes into the home's line on SnpC and SnpI. -/
def State.snoopCup (s : State) (k : SnoopKind) (g l : Nat) : State :=
  match s.cupLine g l with
  | none => s
  | some c =>
    let dirty := c.st == .m || c.st == .o
    match k with
    | .snpI => ((s.when dirty (fun s => s.takeDirty l c)).setCup g l none)
    | .snpC => (s.when dirty (fun s => s.takeDirty l c)).setCup g l (some { c with st := match c.st with
        | .m => .e
        | .o => .s
        | x => x })
    | .snpS => s.setCup g l (some { c with st := match c.st with
        | .m => .o
        | .e => .s
        | x => x })

/-- SnpI to every holder but one. -/
def State.snoopAll (s : State) (l : Nat) (but : Option Nat) : State :=
  ((s.holders l).filter (fun g => some g ≠ but)).foldl (fun s g => s.snoopCup .snpI g l) s

/-- Removal of a resident line: every copy invalidated, dirty data written back, a discarded line of a CHK page marked (R139, R154). -/
def State.evict (s : State) (l : Nat) : State :=
  let s := s.snoopAll l none
  match s.larderLine l with
  | none => s
  | some x =>
    let s := if x.dead then (if x.chk then s.cellarPut l 0 true false else s)
      else if x.st = 2 ∧ ¬ isLocker l then s.cellarPut l x.data false x.poison else s
    { s with larder := s.larder.set none l none }

/-- ORDER of LRD_COH_STAT (R156). -/
def State.order (s : State) : Nat := s.fld Reg.LRD_COH_STAT [] F.LRD_COH_STAT_ORDER

/-- A resident line that may be a victim: neither pinned nor in RED (R154), with no transaction of its home running and no refetch. -/
def State.mayLeaveWay (s : State) (l : Nat) (x : LarderLine) : Bool :=
  !x.red && !x.pinned && !x.refetch && (s.homes.get {} l).running.isEmpty

/-- The way a line of a set takes (R154), the state with that way made free, and `none` when no way qualifies. `pair`: the line
may share a way under a second tag (R134). -/
def State.takeWay (s : State) (sl st : Nat) (pair : Bool) : Option (Nat × State) :=
  let ls := s.setLines sl st
  let on (w : Nat) := ls.filter (fun e => e.2.way == w)
  let del := s.larderCtl.deletedWays.get 0 (49152 * sl + st)
  let ws := (List.range 16).filter (fun w => !(s.pinnedWays).testBit w && !del.getLsbD w && (on w).all (fun e => s.mayLeaveWay e.1 e.2))
  match ws.find? (fun w => (on w).isEmpty) with
  | some w => some (w, s)
  | none =>
    match ws.find? (fun w => pair && s.compress && (on w).length == 1 && (on w).all (fun e => e.2.enc != 0)) with
    | some w => some (w, s)
    | none =>
      if s.order ≠ 0 then none else
      let free (w : Nat) (s : State) := (on w).foldl (fun s e => s.evict e.1) s
      match ws.find? (fun w => (on w).any (fun e => e.2.dead)) with
      | some w => some (w, free w s)
      | none =>
        match ws.find? (fun w => (on w).all (fun e => e.2.pres == 0)) with
        | some w => some (w, free w s)
        | none =>
          if ws.isEmpty then none else
          let (k, s) := s.draw
          let w := ws.getD (Config.pick k % ws.length) 0
          some (w, free w s)

/-- A free PIN way of inst. `i` in a set (R140): neither deleted there nor being revoked. -/
def State.freePinWay (s : State) (i sl st : Nat) : Option Nat :=
  let ls := s.setLines sl st
  let del := s.larderCtl.deletedWays.get 0 (49152 * sl + st)
  (List.range 16).find? (fun w => (s.fld Reg.LRD_PIN_CFG [i] F.LRD_PIN_CFG_WAYS).testBit w &&
    !(s.fld Reg.LRD_PIN_CFG [i] F.LRD_PIN_CFG_LOCKER).testBit w && !del.getLsbD w && s.larderCtl.pin.all (fun p => p.way != w) && ls.all (fun e => e.2.way != w))

/-- A home fills an absent line from the Cellar (R152, R154); `pin` is the inst. whose PIN page caused the fill. -/
def State.fill (s : State) (l : Nat) (pin : Option Nat) : Option State :=
  let (sl, st) := s.home l
  let (d, mark, poison) := s.cellarGet l
  let put (s : State) (w : Nat) (pinned : Bool) : State := { s with larder := s.larder.set none l (some {
    data := d, marked := mark, poison := poison, way := w, pinned := pinned, enc := encodingOf d pinned s.compress }) }
  if s.cellarWaits l then none else
  match pin.bind (fun i => s.freePinWay i sl st) with
  | some w => some (put s w true)
  | none =>
    let s := s.when pin.isSome (fun s => s.bump Reg.LRD_MH_STAT [] F.LRD_MH_STAT_PIN_OVF 1)
    (s.takeWay sl st (encodingOf d false s.compress != 0)).map (fun (w, s) => put s w false)

/-- The line resident at its home, filled if absent. -/
def State.resident (s : State) (l : Nat) (pin : Option Nat) : Option State :=
  if (s.larderLine l).isSome then some s else s.fill l pin

/-- A home writes a line: new data, encoding, ST; a shared way whose line becomes NONE sends its other line to another way (R134). -/
def State.larderPut (s : State) (l : Nat) (x : LarderLine) : Option State :=
  let enc := encodingOf x.data x.pinned s.compress
  let x' := { x with enc := enc, st := if isLocker l then 1 else 2, dead := false, marked := false, chk := false }
  let (sl, st) := s.home l
  let mates := (s.setLines sl st).filter (fun e => e.1 != l && e.2.way == x.way && !x.pinned)
  let s' := { s with larder := s.larder.set none l (some x') }
  if enc ≠ 0 then some s' else
  match mates with
  | [] => some s'
  | (m, y) :: _ =>
    let held : State := { s' with larder := (s'.larder.set none m none).set none l (some { x' with red := true }) }
    (held.takeWay sl st true).map (fun (w, t) =>
      { t with larder := (t.larder.set none m (some { y with way := w })).set none l (some x') })

/-! ### Requests of agents, each performed as one transaction (log 8) -/

/-- A deletion of a way of the set runs (R393). -/
def State.setDeleting (s : State) (u st : Nat) : Bool := s.larderCtl.deleting.any (fun e => e.1 == u && e.2.1 == st)

/-- A request to the line has to wait: a transaction runs, the line is in RED, refetches or has a forwarded reduction, its granule
moves, a way of its set is being deleted, or the ordering mode changes (R131, R150, R156, R158, R160, R259, R393). -/
def State.lineBusy (s : State) (l : Nat) : Bool :=
  let h := s.homes.get {} l
  !h.running.isEmpty || !h.waiting.isEmpty ||
  (match s.larderLine l with | some x => x.red || x.refetch | none => false) ||
  decide ((s.slices.get {} (s.home l).1).fwd.get 0 l ≠ 0) ||
  (match s.larderCtl.qmap, regionOf (128 * l) with | some (g, _), .cellar o => o / 2 ^ 30 == g | _, _ => false) ||
  s.setDeleting (s.home l).1 (s.home l).2 || decide (2 ≤ s.order)

/-- The value of a line: its owner's copy, else the Larder's. -/
def State.lineValue (s : State) (l : Nat) : Line × BitVec 16 :=
  match (s.ownerOf l).bind (fun g => s.cupLine g l) with
  | some c => (c.data, c.poison)
  | none => match s.larderLine l with
    | some x => (x.data, if x.poison then 0xFFFF else 0)
    | none => let (d, _, p) := s.cellarGet l; (d, if p then 0xFFFF else 0)

/-- A Cupboard gives up a line: WbD for M and O, EvC for E and S (R151). -/
def State.cupEvict (s : State) (g l : Nat) : State :=
  match s.cupLine g l with
  | none => s
  | some c => (((s.when (c.st == .m || c.st == .o) (fun s => s.takeDirty l c)).setCup g l none).setPres l).countLrd (s.bayOfCluster g) 128

/-- A line enters a Cupboard; a full set gives up a line chosen by pseudo-LRU, which the spec does not fix. -/
def State.cupInstall (s : State) (g l : Nat) (c : CupLine) : State :=
  let mates := (s.cups.get [] g).filter (fun e => e.1 % 2048 == l % 2048 && e.1 != l)
  let room := 16 - popCount 16 (s.larderCtl.cupDeleted.get 0 (2048 * g + l % 2048)).toNat
  let s := if mates.length < room then s else
    let (k, s) := s.draw
    s.cupEvict g (mates.getD (Config.pick k % mates.length) (0, none)).1
  (s.setCup g l (some c)).setPres l

/-- A read through cluster `g`'s Cupboard (Table CO-4, Table CO-5 RdS). -/
def State.cupRead (s : State) (g l : Nat) (pin : Option Nat) : Option (State × CupLine) :=
  match s.cupLine g l with
  | some c => some (s, c)
  | none =>
    if s.lineBusy l then none else
    (s.resident l pin).map (fun s =>
      let (d, p) := s.lineValue l
      match s.ownerOf l with
      | some o =>
        let c : CupLine := ⟨.s, d, p⟩
        ((s.snoopCup .snpS o l).cupInstall g l c, c)
      | none =>
        let c : CupLine := ⟨if (s.holders l).isEmpty then .e else .s, d, p⟩
        (s.cupInstall g l c, c))

/-- A write through cluster `g`'s Cupboard: ownership by Upg, RdU or WrU, then the line in M with the bytes of `mask` (R151, R152). A word
written whole takes the data's poison mark, a word written in part keeps its own (R390). -/
def State.cupWrite (s : State) (g l : Nat) (pin : Option Nat) (d : Line) (mask : BitVec 128) (poison : Bool) : Option State :=
  let apply (c : CupLine) : CupLine := ⟨.m, mergeLine c.data d mask,
    BitVec.ofNat 16 (maskOf ((List.range 16).filter (fun w =>
      let part := bitsOf mask.toNat (8 * w + 7) (8 * w)
      if part = 255 then poison else c.poison.getLsbD w || (poison && part != 0))))⟩
  match s.cupLine g l with
  | some c =>
    if c.st = .m ∨ c.st = .e then some (s.setCup g l (some (apply c))) else
    if s.lineBusy l then none else
    some (((s.snoopAll l (some g)).setCup g l (some (apply c))).setPres l)
  | none =>
    if s.lineBusy l then none else
    (s.resident l pin).map (fun s =>
      let (v, p) := s.lineValue l
      let s := s.snoopAll l none
      s.cupInstall g l (apply ⟨.m, v, p⟩))

/-- The enabled shared range of a line, the lowest (R259). -/
def State.sharedRange (s : State) (l : Nat) : Option Nat :=
  (List.range 16).find? (fun k => s.bit Reg.HAT_SHR_BASE [k] F.HAT_SHR_BASE_EN &&
    decide (s.fld Reg.HAT_SHR_BASE [k] F.HAT_SHR_BASE_BASE ≤ l) &&
    decide (128 * l < 128 * s.fld Reg.HAT_SHR_BASE [k] F.HAT_SHR_BASE_BASE + s.fld Reg.HAT_SHR_LEN [k] F.HAT_SHR_LEN_LEN))

/-- A message of TYPE SHARED_POISON or SHARED_CLEARED to every sharer of range `k` (R260). -/
def State.tellSharers (s : State) (k type l : Nat) : State :=
  ((List.range 32).filter (fun i => (s.fld Reg.HAT_SHR_SHARE [k] F.HAT_SHR_SHARE_SHARERS).testBit i)).foldl
    (fun s i => s.hatPush (i + 1) ⟨type, k + 128 * l * 2 ^ 64⟩) s

/-- A write of all 128 bytes of a poisoned line of a shared range tells its sharers (R260). -/
def State.toldCleared (s : State) (l : Nat) (was full poison : Bool) : State :=
  match was && full && !poison, s.sharedRange l with
  | true, some k => s.tellSharers k 5 l
  | _, _ => s

/-- A non-caching read at the home (RdN of Table CO-5). -/
def State.ncRead (s : State) (l : Nat) (pin : Option Nat) : Option (State × Line × Bool) :=
  if s.lineBusy l then none else
  (s.resident l pin).map (fun s =>
    let (d, p) := s.lineValue l
    match s.ownerOf l with
    | some o => ((s.snoopCup .snpC o l).setPres l, d, p != 0)
    | none => (s, d, p != 0))

/-- A non-caching write at the home (WrN of Table CO-5); poison clears only when all 128 bytes are written (R390). -/
def State.ncWrite (s : State) (l : Nat) (pin : Option Nat) (d : Line) (mask : BitVec 128) (poison : Bool) : Option State :=
  if s.lineBusy l then none else
  (s.resident l pin).bind (fun s =>
    let s := (s.snoopAll l none).setPres l
    match s.larderLine l with
    | none => none
    | some x =>
      let q := if mask = BitVec.allOnes 128 then poison else x.poison || poison
      (s.larderPut l { x with data := mergeLine x.data d mask, poison := q }).map (fun s => s.toldCleared l x.poison (mask == BitVec.allOnes 128) poison))

/-! ### Byte accesses by path -/

/-- How an access reaches global memory. -/
inductive Path where
  | cupboard (g : Nat)
  | home
  deriving DecidableEq, Repr

/-- An access of cluster `g` sends a request to the line's home: its Bay is charged for the line (R239). -/
def State.countMiss (s : State) (g l : Nat) (write : Bool) : State :=
  match s.cupLine g l with
  | some c => if write ∧ (c.st = .o ∨ c.st = .s) then s.countLrd (s.bayOfCluster g) 128 else s
  | none => s.countLrd (s.bayOfCluster g) 128

/-- Reads `n` bytes inside one line that has a home. -/
def State.readLineBytes (s : State) (p : Path) (pin : Option Nat) (a n : Nat) : Option (State × List Byte × Bool) :=
  let l := a / 128
  let off := a % 128
  match p with
  | .cupboard g => ((s.countMiss g l false).cupRead g l pin).map (fun (s, c) =>
      (s, leBytes n (lineField c.data off n), decide (bitsOf c.poison.toNat ((off + n - 1) / 8) (off / 8) ≠ 0)))
  | .home => (s.ncRead l pin).map (fun (s, d, q) => (s, leBytes n (lineField d off n), q))

/-- The line and byte mask of a write of bytes at an address inside one line. -/
def spread (a : Nat) (bs : List Byte) : Line × BitVec 128 :=
  (BitVec.ofNat 1024 (ofLeBytes bs * 2 ^ (8 * (a % 128))), BitVec.ofNat 128 ((2 ^ bs.length - 1) * 2 ^ (a % 128)))

def State.writeLineBytes (s : State) (p : Path) (pin : Option Nat) (a : Nat) (bs : List Byte) (poison : Bool) : Option State :=
  let (d, m) := spread a bs
  match p with
  | .cupboard g => (s.countMiss g (a / 128) true).cupWrite g (a / 128) pin d m poison
  | .home => s.ncWrite (a / 128) pin d m poison

/-- What a local access answers: done, an unbacked address, a place outside the device, or not yet. -/
inductive MemRes (α : Type) where
  | done (s : State) (v : α)
  | unbacked
  | outside
  | waits

/-- A read of bytes inside one line by global address. -/
def State.readGlobal (s : State) (p : Path) (pin : Option Nat) (a n : Nat) : MemRes (List Byte × Bool) :=
  if ¬ s.backed a then .unbacked else
  match regionOf a with
  | .cellar _ | .locker _ => match s.readLineBytes p pin a n with
    | some (s, bs, q) => .done s (bs, q)
    | none => .waits
  | .pantry m off => .done s (s.pantry m off n, s.pantryPoison m off n)
  | _ => .outside

/-- A write of bytes inside one line by global address. -/
def State.writeGlobal (s : State) (p : Path) (pin : Option Nat) (a : Nat) (bs : List Byte) (poison : Bool) : MemRes Unit :=
  if ¬ s.backed a then .unbacked else
  match regionOf a with
  | .cellar _ | .locker _ => match s.writeLineBytes p pin a bs poison with
    | some s => .done s ()
    | none => .waits
  | .pantry m off => .done (s.setPantry m off bs poison) ()
  | _ => .outside

/-- A little-endian word read at its home (table walks, descriptors, images). -/
def State.readNat (s : State) (p : Path) (a n : Nat) : MemRes (Nat × Bool) :=
  match s.readGlobal p none a n with
  | .done s (bs, q) => .done s (ofLeBytes bs, q)
  | .unbacked => .unbacked
  | .outside => .outside
  | .waits => .waits

/-! ### Shelves (R125, R126) -/

def State.shelf (s : State) (n : Nat) : Shelf := s.shelves.get {} n
def State.setShelf (s : State) (n : Nat) (x : Shelf) : State := { s with shelves := s.shelves.set {} n x }

/-- Every line of the Shelf goes, and fills in flight will not be installed (R126). -/
def State.clearShelf (s : State) (n : Nat) : State :=
  s.setShelf n { lines := [], fills := (s.shelf n).fills.map (fun f => (f.1, true)) }

/-- A line put in the Shelf over the least recently used of its set's four ways. -/
def shelfInstall (ls : List ShelfLine) (x : ShelfLine) : List ShelfLine :=
  let mates := ls.filter (fun y => y.line % 256 == x.line % 256 && y.line != x.line)
  let keep := (mates.take 3).map (·.line)
  x :: ls.filter (fun y => y.line != x.line && (y.line % 256 != x.line % 256 || keep.contains y.line))

/-- A hit makes the line the most recently used. -/
def State.shelfHit (s : State) (n l : Nat) : Option (State × ShelfLine) :=
  ((s.shelf n).lines.find? (fun y => y.line == l)).map (fun y =>
    (s.setShelf n { (s.shelf n) with lines := y :: (s.shelf n).lines.filter (fun z => z.line != l) }, y))

def State.shelfDrop (s : State) (n l : Nat) : State :=
  s.setShelf n { (s.shelf n) with lines := (s.shelf n).lines.filter (fun z => z.line != l) }

/-! ### The device MMU (R135-R137) -/

/-- What an access needs of a leaf. -/
inductive Need where
  | read | write | both
  deriving DecidableEq, Repr

/-- A translation: the global address and leaf; a fault, refused by the leaf or not (R138); a wait at the home of an entry. -/
inductive TrRes where
  | ok (s : State) (pa : Nat) (leaf : DWord)
  | fault (s : State) (refused : Bool)
  | waits

def leafNC (e : DWord) : Bool := bitAt e 6
def leafCHK (e : DWord) : Bool := bitAt e 4
def leafENC (e : DWord) : Bool := bitAt e 7
/-- The inst. a fill through this leaf pins for (R140). -/
def leafPin (e : DWord) (i : Nat) : Option Nat := if bitAt e 5 then some i else none

def pageBits (size : Nat) : Nat := 12 + 9 * size

/-- R141: inst. `j` may reach Locker unit `u`. -/
def State.lockerAllows (s : State) (j a : Nat) : Bool :=
  match regionOf a with
  | .locker o =>
    let way := fieldOf (s.reg Reg.LRD_LOCKER_MAP []) (4 * (o / lockerUnit) + 3) (4 * (o / lockerUnit))
    j == 0 || (List.range 33).any (fun i => (s.fld Reg.LRD_PIN_CFG [i] F.LRD_PIN_CFG_LOCKER).testBit way &&
      (i == j || s.bit Reg.LRD_PIN_CFG [i] F.LRD_PIN_CFG_SHARED))
  | _ => true

/-- A leaf lets inst. `i` make the access at `va` (R12, R136, R141). -/
def State.leafAllows (s : State) (i : Nat) (need : Need) (e : DWord) (pa : Nat) : Bool :=
  (match need with
    | .read => bitAt e 2
    | .write => bitAt e 3
    | .both => bitAt e 2 && bitAt e 3) &&
  decide (pa < 0xF000000000000) && s.lockerAllows i pa

def leafAddr (e : DWord) (size va : Nat) : Nat := (fieldOf e 51 12 * 4096) + va % 2 ^ pageBits size

/-- A walk from a table at level `3 − k` (R135, R136): the leaf and its size. -/
def State.walkFrom (s : State) (va : Nat) : Nat → Nat → TrRes × Nat
  | 0, _ => (.fault s false, 0)
  | k + 1, base =>
    let idx := (va >>> (12 + 9 * k)) % 512
    if ¬ s.backed base then (.fault s false, 0) else
    match s.readNat .home (base + 8 * idx) 8 with
    | .waits => (.waits, 0)
    | .unbacked | .outside => (.fault s false, 0)
    | .done s (v, poison) =>
      let e := BitVec.ofNat 64 v
      if poison ∨ ¬ bitAt e 0 ∨ fieldOf e 63 52 ≠ 0 ∨ fieldOf e 11 8 ≠ 0 then (.fault s false, 0) else
      if bitAt e 1 then
        if k = 3 ∨ fieldOf e 51 12 % 2 ^ (9 * k) ≠ 0 then (.fault s false, 0) else (.ok s 0 e, k)
      else if k = 0 ∨ fieldOf e 7 2 ≠ 0 then (.fault s false, 0)
      else State.walkFrom s va k (fieldOf e 51 12 * 4096)

/-- A walk for an access of inst. `i` (R136); the TLB is not touched. -/
def State.walk (s : State) (i va : Nat) (need : Need) : TrRes × Nat :=
  if ¬ s.bit Reg.LRD_MMU_ROOT [i] F.LRD_MMU_ROOT_EN then (.fault s false, 0) else
  match s.walkFrom va 4 (s.fld Reg.LRD_MMU_ROOT [i] F.LRD_MMU_ROOT_BASE * 4096) with
  | (.ok s _ e, k) => if s.leafAllows i need e (leafAddr e k va) then (.ok s (leafAddr e k va) e, k) else (.fault s true, k)
  | r => r

/-- Entries of each page size that a cluster's TLB holds (R137). -/
def tlbRoom (size : Nat) : Nat := if size = 0 then 2048 else if size = 1 then 512 else 64

def tlbMatches (i va : Nat) (t : TlbEntry) : Bool := t.inst == i && t.va == va / 2 ^ pageBits t.size

/-- An entry put in a TLB; the entry that a full TLB gives up is not fixed by the spec. -/
def State.tlbPut (s : State) (g : Nat) (t : TlbEntry) : State :=
  let ts := s.tlbs.get [] g
  let same := ts.filter (fun u => u.size == t.size)
  if same.length < tlbRoom t.size then { s with tlbs := s.tlbs.set [] g (t :: ts) } else
  let (k, s) := s.draw
  let out := same.getD (Config.pick k % same.length) t
  { s with tlbs := s.tlbs.set [] g (t :: ts.erase out) }

/-- ENC bit of the leaf against the key map (R335). -/
def State.keyCheck (s : State) (i pa : Nat) (e : DWord) : State :=
  match regionOf pa with
  | .cellar o =>
    let owner := s.keyOwner.get none (o / 2097152)
    if (leafENC e && owner != some i) || (!leafENC e && owner.isSome) then
      (s.bump Reg.CEL_KMISM [] F.CEL_KMISM_COUNT 1).setFld Reg.CEL_EVT [] F.CEL_EVT_KMISMATCH 1
    else s
  | _ => s

/-- A translation for an access of cluster `g` (R136, R137): a cached entry that allows it, else a walk whose result is cached. -/
def State.translate (s : State) (g i va : Nat) (need : Need) : TrRes :=
  let walked (s : State) : TrRes :=
    match s.walk i va need with
    | (.ok s pa e, k) => .ok ((s.keyCheck i pa e).tlbPut g ⟨i, k, va / 2 ^ pageBits k, e⟩) pa e
    | (r, _) => r
  match (s.tlbs.get [] g).find? (tlbMatches i va) with
  | some t =>
    let pa := leafAddr t.leaf t.size va
    if s.leafAllows i need t.leaf pa then .ok (s.keyCheck i pa t.leaf) pa t.leaf
    else walked { s with tlbs := s.tlbs.set [] g ((s.tlbs.get [] g).erase t) }
  | none => walked s

/-- A read of a discarded or marked line through a CHK page is a translation fault (R139). -/
def State.discardCheck (s : State) (l : Nat) (e : DWord) : Bool :=
  leafCHK e && (match s.larderLine l with
    | some x => (x.dead || x.marked) && !s.dirtyCopy l
    | none => hasHome (128 * l) && (s.cellarGet l).2.1)

/-! ### Deletion of ways (R392, R393) -/

/-- Ways deleted of a set, by unit. -/
def State.deletedOf (s : State) (u st : Nat) : BitVec 16 :=
  if u < 64 then s.larderCtl.deletedWays.get 0 (49152 * u + st) else s.larderCtl.cupDeleted.get 0 (2048 * (u - 64) + st)

/-- Deletions that a unit keeps. -/
def State.deletionsOf (s : State) (u : Nat) : Nat :=
  let t := if u < 64 then s.larderCtl.deletedWays.filter (fun e => e.1 / 49152 == u) else s.larderCtl.cupDeleted.filter (fun e => e.1 / 2048 == u - 64)
  t.foldl (fun n e => n + popCount 16 e.2.toNat) 0

/-- The deletion of a way of one set begins, within the limits of R393, with its record; a second one of the set waits for the first (R397). -/
def State.beginDelete (s : State) (u st way : Nat) : State :=
  let runs := s.larderCtl.deleting.filter (fun e => e.1 == u)
  let here := runs.filter (fun e => e.2.1 == st)
  let (perSet, perUnit) := if u < 64 then (4, 1024) else (2, 128)
  if (s.deletedOf u st).getLsbD way ∨ here.any (fun e => e.2.2 == way) ∨ perSet ≤ popCount 16 (s.deletedOf u st).toNat + here.length ∨
     perUnit ≤ s.deletionsOf u + runs.length then s
  else
    let s := { s with larderCtl := { s.larderCtl with deleting := s.larderCtl.deleting ++ [(u, st, way)] } }
    s.log { kind := if u < 64 then 0x08 else 0x07, index := u % 64, cls := .contained, retired := true, sub := way, aux := st }

end Sys2Proof.Machine
end

