-- ==== Sys2Proof/Machine/Num.lean ====
section
/-! DEFINITION. Number formats and exact arithmetic (02_number_formats_and_arithmetic.md, R13-R31).
Every value is held exactly as an integer times a power of two; a rounding happens in `roundTo` alone. -/
namespace Sys2Proof.Machine

/-- A decoded value: `fin neg m e` is (−1)^neg · m · 2^e, so a zero keeps its sign. -/
inductive FVal where
  | nan
  | inf (neg : Bool)
  | fin (neg : Bool) (m : Nat) (e : Int)
  deriving DecidableEq, Repr

/-- Which codes of a format are not finite (Table NM-1). -/
inductive Specials where
  | ieee      -- exponent all ones: infinity with mantissa 0, NaN otherwise
  | nanOnly   -- all exponent and mantissa bits ones is NaN
  | finite    -- every code is finite
  deriving DecidableEq, Repr

/-- A binary format of Table NM-1: exponent bits, mantissa bits, bias, special codes. -/
structure Fmt where
  eb : Nat
  mb : Nat
  bias : Nat
  specials : Specials
  deriving DecidableEq, Repr

def fp32 : Fmt := ⟨8, 23, 127, .ieee⟩
def bf16 : Fmt := ⟨8, 7, 127, .ieee⟩
def e4m3 : Fmt := ⟨4, 3, 7, .nanOnly⟩
def e5m2 : Fmt := ⟨5, 2, 15, .ieee⟩
def e3m2 : Fmt := ⟨3, 2, 3, .finite⟩
def e2m3 : Fmt := ⟨2, 3, 1, .finite⟩
def e2m1 : Fmt := ⟨2, 1, 1, .finite⟩

/-- The exponent of the least bit of a format's subnormals (R15: the unit is 2^(1 − B − M)). -/
def unitExp (f : Fmt) : Int := 1 - (f.bias : Int) - (f.mb : Int)

/-- Decoding a code (R13). -/
def decodeF (f : Fmt) (x : Nat) : FVal :=
  let neg := x.testBit (f.eb + f.mb)
  let e := bitsOf x (f.eb + f.mb - 1) f.mb
  let m := x % 2 ^ f.mb
  let top := 2 ^ f.eb - 1
  let fin := if e = 0 then FVal.fin neg m (unitExp f) else .fin neg (2 ^ f.mb + m) (unitExp f + (e - 1 : Nat))
  match f.specials with
  | .ieee => if e = top then (if m = 0 then .inf neg else .nan) else fin
  | .nanOnly => if e = top ∧ m = 2 ^ f.mb - 1 then .nan else fin
  | .finite => fin

/-- `m · 2^e` rounded to nearest, ties to even, on the grid of `mb + 1` significant bits whose least exponent is `emin` (R21). -/
def roundGrid (mb : Nat) (emin : Int) (m : Nat) (e : Int) : Nat × Int :=
  if m = 0 then (0, emin) else
  let q := max (e + (m.log2 : Int) - (mb : Int)) emin
  if q ≤ e then (m <<< (e - q).toNat, q) else
  let d := (q - e).toNat
  let k := m >>> d
  let r := m % 2 ^ d
  let half := 2 ^ (d - 1)
  (if r > half ∨ (r = half ∧ k % 2 = 1) then k + 1 else k, q)

/-- `m · 2^e` cut toward zero on the same grid, and whether nothing was cut. -/
def floorGrid (mb : Nat) (emin : Int) (m : Nat) (e : Int) : (Nat × Int) × Bool :=
  if m = 0 then ((0, emin), true) else
  let q := max (e + (m.log2 : Int) - (mb : Int)) emin
  if q ≤ e then ((m <<< (e - q).toNat, q), true) else
  let d := (q - e).toNat
  ((m >>> d, q), m % 2 ^ d == 0)

/-- Exponent and mantissa bits of a grid value; a value past the format's exponents gives the code after its last. -/
def packGrid (f : Fmt) (k : Nat) (q : Int) : Nat :=
  let (k, q) := if k = 2 ^ (f.mb + 1) then (2 ^ f.mb, q + 1) else (k, q)
  if k < 2 ^ f.mb then k
  else min (((q - unitExp f).toNat + 1) * 2 ^ f.mb + (k - 2 ^ f.mb)) ((2 ^ f.eb - 1) * 2 ^ f.mb)

/-- The canonical NaN of an IEEE format (Table NM-5: 0x7FC0_0000, 0x7FC0). -/
def nanCode (f : Fmt) : Nat := (2 ^ f.eb - 1) * 2 ^ f.mb + 2 ^ (f.mb - 1)

def signBit (f : Fmt) (neg : Bool) : Nat := if neg then 2 ^ (f.eb + f.mb) else 0

/-- One rounding of an exact value to an IEEE format (R21): overflow gives infinity, zero keeps the value's sign. -/
def roundTo (f : Fmt) : FVal → Nat
  | .nan => nanCode f
  | .inf neg => signBit f neg + (2 ^ f.eb - 1) * 2 ^ f.mb
  | .fin neg m e => let (k, q) := roundGrid f.mb (unitExp f) m e; signBit f neg + packGrid f k q

def negV : FVal → FVal
  | .nan => .nan
  | .inf s => .inf (!s)
  | .fin s m e => .fin (!s) m e

/-- The signed integer of a finite value at exponent `e0 ≤ e`. -/
def atExp (neg : Bool) (m : Nat) (e e0 : Int) : Int :=
  let v := ((m <<< (e - e0).toNat : Nat) : Int); if neg then -v else v

/-- Exact sum; two zeros of one sign give that zero, an exact zero otherwise is +0 (R20); inf − inf is NaN. -/
def addV : FVal → FVal → FVal
  | .nan, _ => .nan
  | _, .nan => .nan
  | .inf a, .inf b => if a = b then .inf a else .nan
  | .inf a, _ => .inf a
  | _, .inf b => .inf b
  | .fin a m e, .fin b n d =>
    if m = 0 ∧ n = 0 then .fin (a && b) 0 (min e d) else
    let e0 := min e d
    let t := atExp a m e e0 + atExp b n d e0
    .fin (t < 0) t.natAbs e0

/-- Exact product; zero times infinity is NaN. -/
def mulV : FVal → FVal → FVal
  | .nan, _ => .nan
  | _, .nan => .nan
  | .inf a, .inf b => .inf (xor a b)
  | .inf a, .fin b n _ => if n = 0 then .nan else .inf (xor a b)
  | .fin a m _, .inf b => if m = 0 then .nan else .inf (xor a b)
  | .fin a m e, .fin b n d => .fin (xor a b) (m * n) (e + d)

def isNanV : FVal → Bool
  | .nan => true
  | _ => false

/-- Strictly less, both finite or infinite (NaN compares false). -/
def ltV : FVal → FVal → Bool
  | .nan, _ => false
  | _, .nan => false
  | .inf a, .inf b => a && !b
  | .inf a, _ => a
  | _, .inf b => !b
  | .fin a m e, .fin b n d => let e0 := min e d; decide (atExp a m e e0 < atExp b n d e0)

def eqV : FVal → FVal → Bool
  | .nan, _ => false
  | _, .nan => false
  | .inf a, .inf b => a == b
  | .inf _, _ => false
  | _, .inf _ => false
  | .fin a m e, .fin b n d => let e0 := min e d; decide (atExp a m e e0 = atExp b n d e0)

def f32 (w : Word) : FVal := decodeF fp32 w.toNat
def toF32 (v : FVal) : Word := BitVec.ofNat 32 (roundTo fp32 v)

def f32Add (a b : Word) : Word := toF32 (addV (f32 a) (f32 b))
def f32Sub (a b : Word) : Word := toF32 (addV (f32 a) (negV (f32 b)))
def f32Mul (a b : Word) : Word := toF32 (mulV (f32 a) (f32 b))
/-- `a · b + c`, one rounding. -/
def f32Fma (a b c : Word) : Word := toF32 (addV (mulV (f32 a) (f32 b)) (f32 c))
def f32Nan : Word := 0x7FC00000#32

/-- The larger: NaN when either is NaN, MAX(+0, −0) = +0 (R93, Table CO-6). -/
def f32Max (a b : Word) : Word :=
  if isNanV (f32 a) || isNanV (f32 b) then f32Nan
  else if ltV (f32 a) (f32 b) then b else if ltV (f32 b) (f32 a) then a
  else if bitAt a 31 then b else a

/-- The smaller: NaN when either is NaN, MIN(+0, −0) = −0. -/
def f32Min (a b : Word) : Word :=
  if isNanV (f32 a) || isNanV (f32 b) then f32Nan
  else if ltV (f32 a) (f32 b) then a else if ltV (f32 b) (f32 a) then b
  else if bitAt a 31 then a else b

/-- A BF16 code as FP32 (exact), NaN made canonical. -/
def bf16ToF32 (x : Nat) : Word := toF32 (decodeF bf16 x)
def f32ToBf16 (w : Word) : Nat := roundTo bf16 (f32 w)

/-- INT32 to FP32, rounded to nearest even. -/
def i32ToF32 (w : Word) : Word := let i := w.toInt; toF32 (.fin (i < 0) i.natAbs 0)

/-- An integer nearest an exact value, ties to even. -/
def nearestInt (neg : Bool) (m : Nat) (e : Int) : Int :=
  let (k, q) := roundGrid (m.log2 + e.toNat + 1) 0 m e
  let v := ((k <<< q.toNat : Nat) : Int)
  if neg then -v else v

/-- FP32 to INT32 (Table NM-8): nearest even, saturating, NaN gives 0. -/
def f32ToI32 (w : Word) : Word :=
  match f32 w with
  | .nan => 0
  | .inf neg => if neg then 0x80000000#32 else 0x7FFFFFFF#32
  | .fin neg m e =>
    if 40 < e + (m.log2 : Int) ∧ m ≠ 0 then (if neg then 0x80000000#32 else 0x7FFFFFFF#32) else
    let v := nearestInt neg m e
    if v < -2147483648 then 0x80000000#32 else if 2147483647 < v then 0x7FFFFFFF#32 else BitVec.ofInt 32 v

/-! ### Elements and block sums -/

/-- Operand formats of an engine Step (Table NM-4); the codebook formats are weights of E4M3 entries. -/
inductive ElemFmt where
  | e4m3 | e5m2 | e3m2 | e2m3 | e2m1 | mxint8 | bf16 | cb2 | cb3 | cb4
  deriving DecidableEq, Repr

/-- Bits of one stored element or index. -/
def elemBits : ElemFmt → Nat
  | .e4m3 | .e5m2 | .mxint8 => 8
  | .e3m2 | .e2m3 => 6
  | .e2m1 => 4
  | .bf16 => 16
  | .cb2 => 2
  | .cb3 => 3
  | .cb4 => 4

def isCodebook : ElemFmt → Bool
  | .cb2 | .cb3 | .cb4 => true
  | _ => false

/-- The binary format an element code has; a codebook entry is E4M3 (R16). -/
def elemFormat : ElemFmt → Fmt
  | .e5m2 => Sys2Proof.Machine.e5m2
  | .e3m2 => Sys2Proof.Machine.e3m2
  | .e2m3 => Sys2Proof.Machine.e2m3
  | .e2m1 => Sys2Proof.Machine.e2m1
  | .bf16 => Sys2Proof.Machine.bf16
  | _ => Sys2Proof.Machine.e4m3

/-- Unit exponent of Table NM-2. -/
def elemUnit (k : ElemFmt) : Int := if k = .mxint8 then -6 else unitExp (elemFormat k)

/-- An element as the array reads it (R15). -/
inductive EVal where
  | nan
  | inf (neg : Bool)
  | int (i : Int)
  deriving DecidableEq, Repr

/-- An element code as an integer in the format's unit (R15). -/
def elemVal (k : ElemFmt) (code : Nat) : EVal :=
  if k = .mxint8 then .int (signExt 8 code) else
  match decodeF (elemFormat k) code with
  | .nan => .nan
  | .inf neg => .inf neg
  | .fin neg m e => .int (atExp neg m e (unitExp (elemFormat k)))

/-- The special value a block has met so far (R19). -/
inductive Special where
  | none | nan | inf (neg : Bool)
  deriving DecidableEq, Repr

/-- NaN wins; opposite infinities give NaN (R19). -/
def mergeSpecial : Special → Special → Special
  | .none, b => b
  | a, .none => a
  | .inf a, .inf b => if a = b then .inf a else .nan
  | _, _ => .nan

/-- The exact integer and the special that one pair of elements adds to a block (R19). -/
def pairTerm : EVal → EVal → Int × Special
  | .nan, _ => (0, .nan)
  | _, .nan => (0, .nan)
  | .inf a, .inf b => (0, .inf (xor a b))
  | .inf a, .int i => (0, if i = 0 then .nan else .inf (xor a (i < 0)))
  | .int i, .inf b => (0, if i = 0 then .nan else .inf (xor (i < 0) b))
  | .int i, .int j => (i * j, .none)

/-- Exact block sum and special over the pairs of a block (R19). -/
def blockSum : List (EVal × EVal) → Int × Special
  | [] => (0, .none)
  | (a, b) :: t =>
    let (s, sp) := blockSum t
    let (p, q) := pairTerm a b
    (s + p, mergeSpecial q sp)

/-- Residue modulo 7 of an element; NaN and infinity carry 0 (R29). -/
def residue7 : EVal → Int
  | .int i => i % 7
  | _ => 0

/-- The sum of residue products of a block, modulo 7 (R29). -/
def residueProducts : List (EVal × EVal) → Int
  | [] => 0
  | (a, b) :: t => (residue7 a * residue7 b + residueProducts t) % 7

/-- Block result of R19 from an exact sum: the sum in its units, scaled by both E8M0 codes. -/
def blockResult (s : Int) (sp : Special) (ua ub : Int) (sa sb : Nat) : FVal :=
  if sa = 255 ∨ sb = 255 then .nan else
  match sp with
  | .nan => .nan
  | .inf neg => .inf neg
  | .none => .fin (s < 0) s.natAbs (ua + ub + (sa : Int) - 127 + (sb : Int) - 127)

/-- acc + block result, one rounding (R19, R21, Table NM-5). -/
def accumulate (acc : Word) (r : FVal) : Word := toF32 (addV (f32 acc) r)

/-- Exact product of two BF16 codes. -/
def bfProduct (a b : Nat) : FVal := mulV (decodeF bf16 a) (decodeF bf16 b)

/-- Leading-bit exponent of a non-zero finite value. -/
def leadExp : FVal → Option Int
  | .fin _ m e => if m = 0 then none else some (e + (m.log2 : Int))
  | _ => none

/-- The largest leading-bit exponent of a list of products. -/
def maxLead : List FVal → Option Int
  | [] => none
  | v :: t => match leadExp v, maxLead t with
    | some a, some b => some (max a b)
    | some a, none => some a
    | none, r => r

/-- floor(p / u) with u = 2^q, and whether bits were discarded (R22 step 1). -/
def floorTo (q : Int) : FVal → Int × Bool
  | .fin neg m e =>
    if q ≤ e then (atExp neg m e q, false) else
    let d := 2 ^ (q - e).toNat
    let i : Int := if neg then -(m : Int) else m
    (i / (d : Int), m % d != 0)
  | _ => (0, false)

/-- The special of a list of exact products. -/
def specialOf : List FVal → Special
  | [] => .none
  | v :: t => mergeSpecial (match v with | .nan => .nan | .inf n => .inf n | _ => .none) (specialOf t)

/-- acc after one BF16 block of products (R22): 48 kept bits below the largest product and a sticky bit that breaks ties upward. -/
def accumulateBf16 (acc : Word) (ps : List FVal) : Word :=
  match specialOf ps with
  | .nan => f32Nan
  | .inf neg => toF32 (addV (f32 acc) (.inf neg))
  | .none =>
    match maxLead ps with
    | none => toF32 (addV (f32 acc) (.fin false 0 0))
    | some l =>
      let q := l - 48
      let ts := ps.map (floorTo q)
      let k := (ts.map (·.1)).foldl (· + ·) 0
      let sticky := ts.any (·.2)
      match addV (f32 acc) (.fin (k < 0) k.natAbs q) with
      | .fin neg m e =>
        if ¬ sticky then toF32 (.fin neg m e)
        else if m = 0 then 0
        else toF32 (addV (.fin neg m e) (.fin false 1 (min e (-149) - 2)))
      | v => toF32 v

/-- The operand pairs an engine Step may name (R18, Table NM-4). -/
def pairAllowed (a b : ElemFmt) : Bool :=
  match a, b with
  | .mxint8, .mxint8 => true
  | .mxint8, _ => false
  | _, .mxint8 => false
  | .bf16, .bf16 => true
  | .bf16, _ => false
  | _, .bf16 => false
  | .cb2, _ | .cb3, _ | .cb4, _ => false
  | .e2m1, .e2m3 | .e2m1, .e3m2 => false
  | _, _ => true

/-! ### Shadow check -/

/-- key(v) of R30: biased exponent and mantissa bits [22:11]. -/
def shadowKey (w : Word) : Nat := fieldOf w 30 11

/-- R30: main and shadow agree; with cancellation only the signs are compared. -/
def shadowPass (main shadow : Word) (cancelled : Bool) : Bool :=
  match f32 main, f32 shadow with
  | .nan, .nan => true
  | .inf a, .inf b => a == b
  | .fin a _ _, .fin b _ _ =>
    a == b && (cancelled || decide (max (shadowKey main) (shadowKey shadow) - min (shadowKey main) (shadowKey shadow) ≤ 1))
  | _, _ => false

/-- Cancellation of R30: the result's exponent lies more than 3 below the larger operand's. -/
def cancels (a b r : Word) : Bool := decide (fieldOf r 30 23 + 3 < max (fieldOf a 30 23) (fieldOf b 30 23))

/-! ### Output stage -/

/-- FP32 value at a byte offset of an activation table. -/
def f32At (tab : List Byte) (off : Nat) : Word := BitVec.ofNat 32 (ofLeBytes ((tab.drop off).take 4))

def byteAt (tab : List Byte) (off : Nat) : Nat := (tab.getD off 0).toNat

/-- A table header with no reserved encoding (R25, Table NM-6). -/
def actHeaderOk (tab : List Byte) : Bool :=
  let mode := byteAt tab 0
  let zeros (lo n : Nat) := ((tab.drop lo).take n).all (· == 0)
  let e0 := signExt 8 (byteAt tab 16)
  (mode == 0 || mode == 1) && zeros 1 3 && zeros 17 15 && zeros 56 8 &&
    (mode == 0 || (decide (-126 ≤ e0) && decide (e0 ≤ 95)))

/-- tail(a, b, x) of R25. -/
def actTail (a b x : Word) : Word := if eqV (f32 b) (.fin false 0 0) then a else f32Fma b x a

/-- Segment i evaluated at t (R25). -/
def actSegment (tab : List Byte) (i : Nat) (t : Word) : Word :=
  let o := 64 + 12 * i
  f32Fma t (f32Fma t (f32At tab (o + 8)) (f32At tab (o + 4))) (f32At tab o)

/-- R25. An index that is NaN or negative, for which the rule states no segment, gives a free value. -/
def activation (tab : List Byte) (x : Word) : Word :=
  if isNanV (f32 x) then f32Nan else
  if byteAt tab 0 = 0 then
    if ltV (f32 x) (f32 (f32At tab 4)) then actTail (f32At tab 32) (f32At tab 36) x
    else if !ltV (f32 x) (f32 (f32At tab 12)) && !isNanV (f32 (f32At tab 12)) then actTail (f32At tab 40) (f32At tab 44) x
    else
      let u := f32Mul (f32Sub x (f32At tab 4)) (f32At tab 8)
      match f32 u with
      | .nan => Config.actIndex x u
      | .inf neg => if neg then Config.actIndex x u else actSegment tab 1023 u
      | .fin neg m e =>
        if neg ∧ m ≠ 0 then Config.actIndex x u else
        let i := min (if 0 ≤ e then m <<< e.toNat else m >>> (-e).toNat) 1023
        actSegment tab i (toF32 (addV (.fin neg m e) (.fin true i 0)))
  else
    let e0 := signExt 8 (byteAt tab 16)
    let mag := fun (n : Bool) (k : Int) => FVal.fin n 1 k
    let ax := BitVec.ofNat 32 (x.toNat % 2 ^ 31)
    if ltV (f32 ax) (mag false e0) then actTail (f32At tab 32) (f32At tab 36) x
    else if !ltV (f32 x) (mag false (e0 + 32)) then actTail (f32At tab 40) (f32At tab 44) x
    else if !ltV (mag true (e0 + 32)) (f32 x) then actTail (f32At tab 48) (f32At tab 52) x
    else
      let e := (fieldOf x 30 23 : Int) - 127
      let i := (if bitAt x 31 then 512 else 0) + ((e - e0) * 16).toNat + fieldOf x 22 19
      actSegment tab i (toF32 (.fin false (fieldOf x 18 0) (-19)))

/-- MX block outputs (R26). -/
inductive MxOut where
  | e4m3 | e5m2 | e2m1
  deriving DecidableEq, Repr

def mxFormat : MxOut → Fmt
  | .e4m3 => Sys2Proof.Machine.e4m3
  | .e5m2 => Sys2Proof.Machine.e5m2
  | .e2m1 => Sys2Proof.Machine.e2m1

def mxEmax : MxOut → Int
  | .e4m3 => 8
  | .e5m2 => 15
  | .e2m1 => 2

/-- The code of the largest finite element. -/
def mxMaxCode : MxOut → Nat
  | .e4m3 => 0x7E
  | .e5m2 => 0x7B
  | .e2m1 => 7

/-- The exponent of the scale of a block (R26 steps 1-3). -/
def mxScaleExp (k : MxOut) (vs : List Word) : Int :=
  let mags := vs.filterMap (fun w => match f32 w with | .fin _ m e => if m = 0 then none else some (e + (m.log2 : Int)) | _ => none)
  match mags with
  | [] => -127
  | l :: t => max (t.foldl max l - mxEmax k) (-127)

/-- One element of a block (R26 step 4, Table NM-7). -/
def mxElem (k : MxOut) (nosat : Bool) (x : Int) (w : Word) : Nat :=
  let f := mxFormat k
  let s := signBit f (bitAt w 31)
  match f32 w with
  | .nan => match k with
    | .e4m3 => s + 0x7F
    | .e5m2 => s + 0x7E
    | .e2m1 => 0
  | .inf _ =>
    if ¬ nosat then s + mxMaxCode k else
    match k with
    | .e4m3 => s + 0x7F
    | .e5m2 => s + 0x7C
    | .e2m1 => 0
  | .fin _ m e => let (g, q) := roundGrid f.mb (unitExp f) m (e - x); s + min (packGrid { f with specials := .finite, eb := f.eb + 1 } g q) (mxMaxCode k)

/-- Whether an E2M1 block is replaced by scale 0xFF and zero elements (Table NM-7). -/
def mxVoid (k : MxOut) (nosat : Bool) (vs : List Word) : Bool :=
  k == .e2m1 && vs.any (fun w => match f32 w with | .nan => true | .inf _ => nosat | _ => false)

/-- Scale code and element codes of an output block (R26, R27). -/
def requantise (k : MxOut) (nosat : Bool) (vs : List Word) : Nat × List Nat :=
  if mxVoid k nosat vs then (255, vs.map (fun _ => 0)) else
  let x := mxScaleExp k vs
  ((x + 127).toNat, vs.map (mxElem k nosat x))

/-- An element times its E8M0 scale, as FP32 (R24 residual, UNPK). -/
def mxToF32 (k : ElemFmt) (code scale : Nat) : Word :=
  if scale = 255 then f32Nan else
  match decodeF (elemFormat k) code with
  | .fin neg m e => toF32 (.fin neg m (e + (scale : Int) - 127))
  | v => toF32 v

/-! ### Special functions (Table NM-8) -/

/-- Integer square root, bit by bit from `2^i`. -/
def isqrt (n : Nat) : Nat → Nat → Nat
  | 0, r => r
  | i + 1, r => let r' := r + 2 ^ i; isqrt n i (if r' * r' ≤ n then r' else r)

/-- FP32 code of a positive value cut toward zero, and whether the value lies on the grid. -/
def floorCode (m : Nat) (e : Int) : Nat × Bool :=
  let ((k, q), ex) := floorGrid 23 (-149) m e
  (packGrid fp32 k q, ex)

/-- One of the codes within `n` ulp of a positive value whose floor code is `lo` (2 n of them, 2 n + 1 when it lies on the grid). -/
def ulpPick (n : Nat) (pick : Nat) (lo : Nat) (exact : Bool) (cap : Nat) : Nat :=
  let i := pick % (if exact then 2 * n + 1 else 2 * n)
  let base := if exact then lo + i - n else lo + i + 1 - n
  min base cap

/-- 2^(f / 2^64) in units of 2^−96, by the binary digits of f and repeated square roots of 2. -/
def exp2Frac (f : Nat) : Nat → Nat → Nat → Nat
  | 0, _, acc => acc
  | i + 1, c, acc =>
    let c' := isqrt (c * 2 ^ 96) 98 0
    exp2Frac f i c' (if f.testBit i then acc * c' / 2 ^ 96 else acc)

def exp2F (w : Word) : Word :=
  match f32 w with
  | .nan => f32Nan
  | .inf neg => if neg then 0 else 0x7F800000#32
  | .fin neg m e =>
    if ltV (f32 w) (.fin true 150 0) then 0 else
    if !ltV (f32 w) (.fin false 128 0) then 0x7F800000#32 else
    let x : Int := if neg then -(m : Int) else m
    let (fx, whole) := if -64 ≤ e then (x * ((2 ^ (e + 64).toNat : Nat) : Int), true)
      else (x / ((2 ^ (-64 - e).toNat : Nat) : Int), x == 0)
    let i := fx / ((2 ^ 64 : Nat) : Int)
    let f := (fx % ((2 ^ 64 : Nat) : Int)).toNat
    let (lo, ex) := floorCode (exp2Frac f 64 (2 ^ 97) (2 ^ 96)) (i - 96)
    BitVec.ofNat 32 (ulpPick 2 (Config.ulpExp2 w) lo (ex && whole && f == 0) 0x7F7FFFFF)

/-- Binary digits of log2 of `y / 2^128`, 1 ≤ y / 2^128 < 2. -/
def log2Frac : Nat → Nat → Nat → Nat
  | 0, _, acc => acc
  | i + 1, y, acc =>
    let z := y * y / 2 ^ 128
    if 2 ^ 129 ≤ z then log2Frac i (z / 2) (2 * acc + 1) else log2Frac i z (2 * acc)

def log2F (w : Word) : Word :=
  match f32 w with
  | .nan => f32Nan
  | .inf neg => if neg then f32Nan else 0x7F800000#32
  | .fin neg m e =>
    if m = 0 then 0xFF800000#32 else if neg then f32Nan else
    let l := m.log2
    let frac := log2Frac 64 (m <<< (128 - l)) 0
    let v : Int := (e + (l : Int)) * ((2 ^ 64 : Nat) : Int) + frac
    let (lo, ex) := floorCode v.natAbs (-64)
    BitVec.ofNat 32 (signBit fp32 (v < 0) + ulpPick 2 (Config.ulpLog2 w) lo (ex && m == 2 ^ l) 0x7F7FFFFF)

def rcpF (w : Word) : Word :=
  match f32 w with
  | .nan => f32Nan
  | .inf neg => BitVec.ofNat 32 (signBit fp32 neg)
  | .fin neg m e =>
    if m = 0 then BitVec.ofNat 32 (signBit fp32 neg + 0x7F800000) else
    let q := 2 ^ 96 / m
    let (lo, ex) := floorCode q (-96 - e)
    BitVec.ofNat 32 (signBit fp32 neg + ulpPick 1 (Config.ulpRcp w) lo (ex && q * m == 2 ^ 96) 0x7F800000)

def rsqF (w : Word) : Word :=
  match f32 w with
  | .nan => f32Nan
  | .inf neg => if neg then f32Nan else 0
  | .fin neg m e =>
    if m = 0 then BitVec.ofNat 32 (signBit fp32 neg + 0x7F800000) else if neg then f32Nan else
    let (m, e) := if e % 2 = 0 then (m, e) else (2 * m, e - 1)
    let r := isqrt (2 ^ 192 / m) 97 0
    let (lo, ex) := floorCode r (-96 - e / 2)
    BitVec.ofNat 32 (ulpPick 1 (Config.ulpRsq w) lo (ex && r * r * m == 2 ^ 192) 0x7F800000)

/-! ### Packed elements in memory -/

/-- Element `i` of a packed row of `bits`-wide elements (R14: the row is one little-endian number). -/
def packedElem (bits : Nat) (row : List Byte) (i : Nat) : Nat :=
  let lo := bits * i
  ((ofLeBytes ((row.drop (lo / 8)).take 3)) >>> (lo % 8)) % 2 ^ bits

/-- Bytes of packed element codes, low element first (R14). -/
def packElems (bits : Nat) (codes : List Nat) : List Byte :=
  leBytes (ceilDiv (bits * codes.length) 8) (codes.foldr (fun c acc => c % 2 ^ bits + acc * 2 ^ bits) 0)

end Sys2Proof.Machine
end

