-- ==== Sys2Proof/Machine/Coherence.lean ====
section
/-! DEFINITION. Larder coherence and in-cache reductions, one receiver's reaction per command
(07_larder_coherence_and_reductions.md, R145-R164). -/
namespace Sys2Proof.Machine

/-! ### Shared steps of a home -/

def State.homeLine (s : State) (l : Nat) : HomeLine := s.homes.get {} l
def State.setHome (s : State) (l : Nat) (h : HomeLine) : State := { s with homes := s.homes.set {} l h }
def State.send (s : State) (m : CohMsg) : State := { s with net := s.net ++ [m] }
def State.sends (s : State) (ms : List CohMsg) : State := { s with net := s.net ++ ms }
def State.slice (s : State) (i : Nat) : Slice := s.slices.get {} i
def State.setSlice (s : State) (i : Nat) (x : Slice) : State := { s with slices := s.slices.set {} i x }

/-- Takes a message out of flight; `none` when it is not there. -/
def State.receive (s : State) (m : CohMsg) : Option State :=
  if s.net.contains m then some { s with net := s.net.erase m } else none

/-- Messages in flight for a line: data for a requester, a forwarded request, a reduction for the memory side and its answer. -/
def CohMsg.isDat (who : Agent) (l : Nat) : CohMsg → Bool
  | .dat w k _ _ _ => w == who && k == l
  | _ => false

def CohMsg.isFwd (l : Nat) : CohMsg → Bool
  | .fwd r => r.line == l
  | _ => false

def CohMsg.isMred (l : Nat) : CohMsg → Bool
  | .mred r => r.line == l
  | _ => false

def CohMsg.isMack (l : Nat) : CohMsg → Bool
  | .mack _ k _ _ _ => k == l
  | _ => false

def ReqKind.isRead : ReqKind → Bool
  | .rds | .rdn => true
  | _ => false

def ReqKind.reduces : ReqKind → Bool
  | .red | .atm => true
  | _ => false

/-- Two requests to one line conflict unless both are RdS or RdN (R150). -/
def conflict (a b : ReqKind) : Bool := !(a.isRead && b.isRead)

def requesterCluster : Agent → Option Nat
  | .cluster g => some g
  | _ => none

/-- The snoops a request needs (Table CO-5). -/
def State.snoopsOf (s : State) (r : CohReq) : List (SnoopKind × Nat) :=
  let hs := s.holders r.line
  match r.kind with
  | .rds => match s.ownerOf r.line with
    | some o => [(.snpS, o)]
    | none => []
  | .rdn => match s.ownerOf r.line with
    | some o => [(.snpC, o)]
    | none => []
  | .upg => (hs.filter (fun g => some g ≠ requesterCluster r.who)).map (fun g => (.snpI, g))
  | _ => hs.map (fun g => (.snpI, g))

/-- A set with every unpinned way in RED, where the line is not resident: the request goes to the memory side (R160). -/
def State.forwards (s : State) (r : CohReq) : Bool :=
  let (sl, st) := s.home r.line
  let x := s.slice sl
  r.kind.reduces && !isLocker r.line && s.cellarSize != 0 &&
  (decide (x.fwd.get 0 r.line ≠ 0) ||
    ((s.larderLine r.line).isNone &&
      (List.range 16).all (fun w => (s.pinnedWays).testBit w || (s.larderCtl.deletedWays.get 0 (49152 * sl + st)).getLsbD w ||
        (s.setLines sl st).any (fun e => e.2.way == w && (e.2.red || e.2.pinned)))))

/-- The home's grant once every copy that has to go is gone (Table CO-5); a Red or Atm enters the reduction queue (R158). -/
def State.grant (s : State) (t : Txn) : Option State :=
  let r := t.req
  let l := r.line
  let h := s.homeLine l
  let drop (s : State) : State := s.setHome l { s.homeLine l with running := (s.homeLine l).running.erase t }
  let ack (s : State) : State := s.setHome l { h with running := (h.running.erase t) ++ [{ t with acking := true, dies := [] }] }
  let (d, p) := s.lineValue l
  match r.kind with
  | .rds => some (if t.served then ack s
      else (ack s).send (.dat r.who l d p (if (s.holders l).isEmpty then .e else .s)))
  | .rdu => some ((ack s).send (.dat r.who l d p .m))
  | .upg => some (match (requesterCluster r.who).bind (fun g => s.cupLine g l) with
      | some _ => (ack s).send (.gntM r.who l)
      | none => (ack s).send (.dat r.who l d p .m))
  | .wru => some ((ack s).send (.gntM r.who l))
  | .rdn => some ((drop s).send (.cmp r.who l r.tag d (p != 0) []))
  | .wrn => match s.larderLine l with
    | none => none
    | some x =>
      let q := if r.mask = BitVec.allOnes 128 then r.poison else x.poison || r.poison
      (s.larderPut l { x with data := mergeLine x.data r.data r.mask, poison := q }).map
        (fun s => ((drop s).toldCleared l x.poison (r.mask == BitVec.allOnes 128) r.poison).send (.cmp r.who l r.tag 0 false []))
  | .red | .atm => match s.larderLine l with
    | none => none
    | some x =>
      let sl := (s.home l).1
      let s := { s with larder := s.larder.set none l (some { x with red := true, dead := false }) }
      some ((drop s).setSlice sl { s.slice sl with queue := (s.slice sl).queue ++ [r] })

/-- The home goes on with a transaction whose line is resident: it snoops, or grants at once. -/
def State.proceed (s : State) (t : Txn) : Option State :=
  let sn := s.snoopsOf t.req
  let h := s.homeLine t.req.line
  match sn with
  | [] => s.grant t
  | _ => some ((s.setHome t.req.line { h with running := (h.running.erase t) ++ [{ t with filling := false, dies := (sn.map (fun k => dieOfCluster k.2)).eraseDups }] }).sends
      (sn.map (fun k => .snoop k.1 k.2 t.req.line)))

/-- A Red or Atm that finds the slice's reduction queue full waits for admission and counts as a hot-home event (R161). -/
def State.queueFull (s : State) (r : CohReq) : Bool := r.kind.reduces && decide (256 ≤ (s.slice (s.home r.line).1).queue.length)

/-- A home starts a request: forwarded to every filter in owner ordering (R155), to the memory side under R160, left to wait for its
fill when the line is absent, else carried on. -/
def State.startReq (s : State) (r : CohReq) : Option State :=
  let l := r.line
  let h := s.homeLine l
  let t : Txn := { req := r }
  let opened := s.setHome l { h with running := h.running ++ [t] }
  if s.order = 1 then some ((s.setHome l { h with running := h.running ++ [{ t with acking := true }] }).send (.fwd r))
  else if s.forwards r then
    let sl := (s.home l).1
    let x := s.slice sl
    some ((s.setSlice sl { x with fwd := x.fwd.set 0 l (x.fwd.get 0 l + 1) }).bump Reg.LRD_SL_CNT [sl] F.LRD_SL_CNT_FWD 1 |>.send (.mred r))
  else
    let later := s.setHome l { h with running := h.running ++ [{ t with filling := true }] }
    some (if (s.larderLine l).isSome then (opened.proceed t).getD later else later)

/-- Requests that do not conflict run together once no snoop and no fill of the line is under way and no exclusive copy is on its way (log 38). -/
def State.together (s : State) (r : CohReq) : Bool :=
  let h := s.homeLine r.line
  h.running.all (fun t => !conflict t.req.kind r.kind && t.dies.isEmpty && !t.filling) && (h.running.isEmpty || !(s.holders r.line).isEmpty)

/-- Whether the home may start a request now (R150, R155, R156, R158, R160). -/
def State.mayStart (s : State) (r : CohReq) : Bool :=
  let h := s.homeLine r.line
  let x := s.larderLine r.line
  let red := match x with | some x => x.red | none => false
  let refetch := match x with | some x => x.refetch | none => false
  let sl := s.slice (s.home r.line).1
  let moving := match s.larderCtl.qmap, regionOf (128 * r.line) with | some (g, _), .cellar o => o / 2 ^ 30 == g | _, _ => false
  h.waiting.isEmpty && s.together r && !refetch && !moving && !s.setDeleting (s.home r.line).1 (s.home r.line).2 &&
  decide (s.order ≠ 2) && decide (s.order ≠ 3) && (s.order != 1 || !r.kind.reduces) &&
  (r.kind.reduces || (!red && decide (sl.fwd.get 0 r.line = 0))) &&
  (!s.forwards r || decide (sl.fwd.get 0 r.line ≠ 0) || decide (sl.fwd.length < 32)) && !s.queueFull r

/-- The Bay of a request's sender. -/
def State.bayOfAgent (s : State) : Agent → Option Nat
  | .cluster g => s.bayOfCluster g
  | .porter p _ => if p < 512 then s.bayOfCore p else if p < 576 then s.bayOfCluster (p - 512) else none
  | .group n _ => s.bayOfCore n
  | .sequencer n => s.bayOfCore n
  | _ => none

/-- Bytes that a request counts in BAY_LRD: operand bytes of a Red or Atm, else 128 (R239). -/
def CohReq.charge (r : CohReq) : Nat :=
  match r.red, r.atm with
  | some o, _ => 32 * popCount 4 o.sectors.toNat * (if o.wide then 2 else 1)
  | none, some a => a.parts.length * (if a.code = .cas then 8 else 4)
  | none, none => 128

/-- A request arrives at its home (R150): started, or put behind the line's other requests. -/
def State.arrive (s : State) (r : CohReq) : State :=
  let s := s.countLrd (s.bayOfAgent r.who) r.charge
  let h := s.homeLine r.line
  let hold := s.setHome r.line { h with waiting := h.waiting ++ [r] }
  let sl := (s.home r.line).1
  if s.queueFull r then
    (s.setSlice sl { s.slice sl with waiting := (s.slice sl).waiting ++ [r] }).bump Reg.LRD_SL_CNT [sl] F.LRD_SL_CNT_HOT 1
  else if s.mayStart r then (s.startReq r).getD hold else hold

/-- The oldest waiting requests of a line start as far as they may. -/
def State.wakeLine (s : State) (l : Nat) : Nat → State
  | 0 => s
  | k + 1 =>
    let h := s.homeLine l
    match h.waiting with
    | [] => s
    | r :: rs =>
      let s' := s.setHome l { h with waiting := [] }
      if s'.mayStart r then
        match s'.startReq r with
        | some t => (t.setHome l { t.homeLine l with waiting := rs }).wakeLine l k
        | none => s
      else s

def State.wake (s : State) (l : Nat) : State := s.wakeLine l (s.homeLine l).waiting.length

/-- A snoop answered: when no snoop of the line is left on that die, the filter's combined response leaves (R148). -/
def State.answered (s : State) (g l : Nat) : State :=
  let left := s.net.any (fun m => match m with
    | .snoop _ h k => k == l && dieOfCluster h == dieOfCluster g
    | _ => false)
  if left then s else s.send (.rsp (dieOfCluster g) l)

/-- The request whose snoops run for a line. -/
def State.snooping (s : State) (l : Nat) : Option Txn := (s.homeLine l).running.find? (fun t => !t.dies.isEmpty)

/-! ### Reduction arithmetic -/

def redWords (n count : Nat) : List Word := (List.range count).map (fun i => BitVec.ofNat 32 (n >>> (32 * i)))
def redHalves (n count : Nat) : List Nat := (List.range count).map (fun i => (n >>> (16 * i)) % 65536)

/-- One element (Table CO-6). -/
def redElem (op : RedCode) (ty : RedTy) (old x : Word) : Word :=
  match ty, op with
  | .int32, .add => old + x
  | .int32, .max => if old.toInt < x.toInt then x else old
  | .int32, .min => if x.toInt < old.toInt then x else old
  | _, .add => f32Add old x
  | _, .max => f32Max old x
  | _, .min => f32Min old x

/-- A line as a unit holds it during a binding: FP32 accumulators for BF16, the words themselves otherwise (R157). -/
def redOpen (ty : RedTy) (d : Line) : List Word :=
  match ty with
  | .bf16 => (redHalves d.toNat 64).map bf16ToF32
  | _ => redWords d.toNat 32

def redClose (ty : RedTy) (ws : List Word) : Line :=
  match ty with
  | .bf16 => BitVec.ofNat 1024 (ws.foldr (fun w n => f32ToBf16 w + 65536 * n) 0)
  | _ => BitVec.ofNat 1024 (ws.foldr (fun w n => w.toNat + 2 ^ 32 * n) 0)

/-- One request applied to the open accumulators; sectors outside the mask keep their elements. -/
def redApply (o : RedOp) (acc : List Word) : List Word :=
  let xs := match o.ty with
    | .bf16 => if o.wide then redWords o.operand.toNat 64 else (redHalves o.operand.toNat 64).map bf16ToF32
    | _ => redWords o.operand.toNat 32
  let per := acc.length / 4
  (List.range acc.length).map (fun i =>
    let old := acc.getD i 0
    if o.sectors.getLsbD (i / per) then redElem o.op o.ty old (xs.getD i 0) else old)

/-- One update of an atomic (R107). -/
def atomValue (code : AtomCode) (ty : Nat) (old vb vc : Word) : Word :=
  match code with
  | .add => if ty = 0 then f32Add old vb else old + vb
  | .min => if ty = 0 then f32Min old vb else if ty = 2 then (if vb.toInt < old.toInt then vb else old) else (if vb < old then vb else old)
  | .max => if ty = 0 then f32Max old vb else if ty = 2 then (if old.toInt < vb.toInt then vb else old) else (if old < vb then vb else old)
  | .and => old &&& vb
  | .or => old ||| vb
  | .xor => old ^^^ vb
  | .xchg => vb
  | .cas => if old = vc then vb else old

/-- The updates of an atomic in thread order, with the values returned (R107). -/
def atomApply (o : AtomOp) : List AtomPart → Line → Line × List (Nat × Word)
  | [], d => (d, [])
  | p :: ps, d =>
    let old := BitVec.ofNat 32 (lineField d p.off 4)
    let d' := withField d (8 * p.off + 31) (8 * p.off) (atomValue o.code o.ty old p.vb p.vc).toNat
    let (e, vs) := atomApply o ps d'
    (e, (p.thread, old) :: vs)

/-- A run of reductions of one OP and TYPE on a line, rounded once at its end (R158). -/
def redRun (ty : RedTy) (ops : List RedOp) (d : Line) : Line := redClose ty (ops.foldl (fun a o => redApply o a) (redOpen ty d))

/-- The requests one binding performs (R158): those of the line, in order, until OP, TYPE or kind differs, at most BIND_MAX. -/
def bindTake (l cap : Nat) (q : List CohReq) : List CohReq :=
  let mine := q.filter (fun r => r.line == l)
  match mine with
  | [] => []
  | f :: _ => (mine.takeWhile (fun r =>
      match f.red, r.red with
      | some a, some b => a.op == b.op && a.ty == b.ty
      | none, none => (f.atm.map (fun a => (a.code, a.ty))) == (r.atm.map (fun a => (a.code, a.ty)))
      | _, _ => false)).take cap

/-- The line after a binding, and each request's returned values. -/
def bindRun (rs : List CohReq) (d : Line) : Line × List (List (Nat × Word)) :=
  match rs with
  | [] => (d, [])
  | f :: _ => match f.red with
    | some o => (redRun o.ty (rs.filterMap (·.red)) d, rs.map (fun _ => []))
    | none => rs.foldl (fun (acc : Line × List (List (Nat × Word))) r => match r.atm with
        | some o => let (e, vs) := atomApply o o.parts acc.1; (e, acc.2 ++ [vs])
        | none => (acc.1, acc.2 ++ [[]])) (d, [])

/-! ### Commands: requests at their home -/

def execRds (g : ClusterId) (line : Nat) (s : State) : Host.Outcome State Fault Refusal :=
  .next (s.keepPilot (s.arrive { kind := .rds, who := .cluster g, line := line }))
def execRdu (g : ClusterId) (line : Nat) (s : State) : Host.Outcome State Fault Refusal :=
  .next (s.keepPilot (s.arrive { kind := .rdu, who := .cluster g, line := line }))
def execUpg (g : ClusterId) (line : Nat) (s : State) : Host.Outcome State Fault Refusal :=
  .next (s.keepPilot (s.arrive { kind := .upg, who := .cluster g, line := line }))
def execWru (g : ClusterId) (line : Nat) (data : Line) (s : State) : Host.Outcome State Fault Refusal :=
  .next (s.keepPilot (s.arrive { kind := .wru, who := .cluster g, line := line, data := data }))

/-- A Cupboard in M or O evicts with data (Table CO-4, Table CO-5). -/
def execWbd (g : ClusterId) (line : Nat) (s : State) : Host.Outcome State Fault Refusal :=
  .next (s.keepPilot (match s.cupLine g line with
    | some c => if c.st = CupState.m ∨ c.st = CupState.o then (s.cupEvict g line).wake line else s
    | none => s))

/-- A Cupboard in E or S evicts without data. -/
def execEvc (g : ClusterId) (line : Nat) (s : State) : Host.Outcome State Fault Refusal :=
  .next (s.keepPilot (match s.cupLine g line with
    | some c => if c.st = CupState.e ∨ c.st = CupState.s then (s.cupEvict g line).wake line else s
    | none => s))

def execRdn (who : Agent) (line tag : Nat) (s : State) : Host.Outcome State Fault Refusal :=
  .next (s.keepPilot (s.arrive { kind := .rdn, who := who, line := line, tag := tag }))
def execWrn (who : Agent) (line tag : Nat) (data : Line) (mask : BitVec 128) (poison : Bool) (s : State) : Host.Outcome State Fault Refusal :=
  .next (s.keepPilot (s.arrive { kind := .wrn, who := who, line := line, tag := tag, data := data, mask := mask, poison := poison }))
def execRed (who : Agent) (line tag : Nat) (op : RedOp) (s : State) : Host.Outcome State Fault Refusal :=
  .next (s.keepPilot (s.arrive { kind := .red, who := who, line := line, tag := tag, red := some op }))
def execAtm (who : Agent) (line tag : Nat) (op : AtomOp) (s : State) : Host.Outcome State Fault Refusal :=
  .next (s.keepPilot (s.arrive { kind := .atm, who := who, line := line, tag := tag, atm := some op }))

/-! ### Commands: snoops and responses -/

/-- A Cupboard takes SnpS (Table CO-4): an owner sends the data to the requester. -/
def State.takeSnpS (s : State) (g l : Nat) : State :=
  match s.receive (.snoop .snpS g l) with
  | none => s
  | some s =>
    let s := match s.cupLine g l, s.snooping l with
      | some c, some t =>
        if c.st = CupState.s then s else
        let h := s.homeLine l
        ((s.snoopCup .snpS g l).send (.dat t.req.who l c.data c.poison .s)).setHome l
          { h with running := h.running.map (fun u => if u = t then { u with served := true } else u) }
      | _, _ => s
    s.answered g l

/-- A Cupboard takes SnpC or SnpI; dirty data reaches the home with the response. -/
def State.takeSnoop (s : State) (k : SnoopKind) (g l : Nat) : State :=
  match s.receive (.snoop k g l) with
  | none => s
  | some s => (s.snoopCup k g l).answered g l

def execSnps (g : ClusterId) (line : Nat) (s : State) : Host.Outcome State Fault Refusal := .next (s.keepPilot (s.takeSnpS g line))
def execSnpc (g : ClusterId) (line : Nat) (s : State) : Host.Outcome State Fault Refusal := .next (s.keepPilot (s.takeSnoop .snpC g line))
def execSnpi (g : ClusterId) (line : Nat) (s : State) : Host.Outcome State Fault Refusal := .next (s.keepPilot (s.takeSnoop .snpI g line))

/-- A home takes a combined response; at the last one it grants (R153, Table CO-5). -/
def State.takeRsp (s : State) (d l : Nat) : State :=
  match s.receive (.rsp d l), s.snooping l with
  | some s, some t =>
    let h := s.homeLine l
    let t' := { t with dies := t.dies.erase d }
    let s := (s.setHome l { h with running := h.running.map (fun u => if u = t then t' else u) }).setPres l
    if t'.dies.isEmpty then ((s.grant t').getD (s.setHome l { h with running := h.running.map (fun u => if u = t then { t' with filling := true } else u) })).wake l else s
  | _, _ => s

def execRsp (die : DieId) (line : Nat) (s : State) : Host.Outcome State Fault Refusal := .next (s.keepPilot (s.takeRsp die line))

/-- In owner ordering a forwarded request is served by the Cupboard in X or O, or by the home slice when none claims the line (R155). -/
def State.takeFwd (s : State) (l : Nat) : State :=
  match s.net.find? (CohMsg.isFwd l) with
  | some (.fwd r) =>
    let s1 := { s with net := s.net.erase (.fwd r) }
    match s1.resident l none with
    | none => s
    | some s2 =>
      let (d, p) := s2.lineValue l
      let t : Txn := { req := r, acking := true }
      let kept (s : State) : State := s.setHome l { s.homeLine l with running := (s.homeLine l).running.erase t }
      match r.kind with
      | .rds => (match s2.ownerOf l with
          | some o => s2.snoopCup .snpS o l
          | none => s2).send (.dat r.who l d p (if (s2.holders l).isEmpty then .e else .s))
      | .rdu => (s2.snoopAll l none).send (.dat r.who l d p .m)
      | .upg => match (requesterCluster r.who).bind (fun g => s2.cupLine g l) with
        | some _ => (s2.snoopAll l (requesterCluster r.who)).send (.gntM r.who l)
        | none => (s2.snoopAll l none).send (.dat r.who l d p .m)
      | .wru => (s2.snoopAll l none).send (.gntM r.who l)
      | .rdn => (kept (match s2.ownerOf l with
          | some o => s2.snoopCup .snpC o l
          | none => s2)).send (.cmp r.who l r.tag d (p != 0) [])
      | .wrn =>
        let s3 := s2.snoopAll l none
        match s3.larderLine l with
        | none => s
        | some x =>
          let q := if r.mask = BitVec.allOnes 128 then r.poison else x.poison || r.poison
          match s3.larderPut l { x with data := mergeLine x.data r.data r.mask, poison := q } with
          | some s4 => (kept s4).send (.cmp r.who l r.tag 0 false [])
          | none => s
      | .red | .atm => s
  | _ => s

def execFwd (line : Nat) (s : State) : Host.Outcome State Fault Refusal := .next (s.keepPilot (s.takeFwd line))

/-- A requester takes data with its grant, installs the line and answers Ack (R151). -/
def State.takeDat (s : State) (who : Agent) (l : Nat) : State :=
  match s.net.find? (CohMsg.isDat who l) with
  | some (.dat w k d p st) =>
    let s := { s with net := s.net.erase (.dat w k d p st) }
    (match who with
      | .cluster g => s.cupInstall g l ⟨st, d, p⟩
      | _ => s).send (.ack who l)
  | _ => s

def execDat (who : Agent) (line : Nat) (s : State) : Host.Outcome State Fault Refusal := .next (s.keepPilot (s.takeDat who line))

/-- A requester takes ownership: a full-line writer installs its data, an upgrader keeps its copy (R151, R152). -/
def State.takeGntM (s : State) (who : Agent) (l : Nat) : State :=
  match s.receive (.gntM who l), who with
  | some s, .cluster g =>
    let d := ((s.homeLine l).running.find? (fun t => t.req.who == who && t.req.kind == .wru)).map (·.req.data)
    (match d, s.cupLine g l with
      | some d, _ => s.cupInstall g l ⟨.m, d, 0⟩
      | none, some c => (s.setCup g l (some { c with st := .m })).setPres l
      | none, none => s).send (.ack who l)
  | some s, _ => s.send (.ack who l)
  | none, _ => s

def execGntm (who : Agent) (line : Nat) (s : State) : Host.Outcome State Fault Refusal := .next (s.keepPilot (s.takeGntM who line))

/-- A home takes Ack: the transaction ends and the next conflicting one starts (R150). -/
def State.takeAck (s : State) (who : Agent) (l : Nat) : State :=
  match s.receive (.ack who l) with
  | none => s
  | some s =>
    let h := s.homeLine l
    ((s.setHome l { h with running := dropFirst (fun t => t.acking && t.req.who == who) h.running }).setPres l).wake l

def execAck (who : Agent) (line : Nat) (s : State) : Host.Outcome State Fault Refusal := .next (s.keepPilot (s.takeAck who line))

/-- A home fills an absent line that a transaction waits for; no eligible way: it waits (R154). -/
def execLarderFill (line : Nat) (s : State) : Host.Outcome State Fault Refusal :=
  .next (s.keepPilot (match (s.homeLine line).running.find? (·.filling) with
    | none => s
    | some t => match (s.resident line none).bind (fun s => s.proceed t) with
      | some s => s
      | none => s))

/-! ### Commands: reduction units (R158-R160) -/

/-- A free usable unit binds to the first queued line that no unit has. -/
def State.redBind (s : State) (sl u : Nat) : State :=
  let x := s.slice sl
  let bound := x.units.filterMap (·.2)
  if x.offline.getLsbD u || (x.units.get none u).isSome then s else
  match x.queue.find? (fun r => !bound.contains r.line) with
  | some r => s.setSlice sl { x with units := x.units.set none u (some r.line) }
  | none => s

def execRedBind (sl : SliceId) (unit : SlotId) (s : State) : Host.Outcome State Fault Refusal := .next (s.keepPilot (s.redBind sl unit))

/-- One waiting request is admitted from the next source in round-robin order (R161). -/
def sourceOf : Agent → Nat
  | .cluster g => g
  | .porter p _ => if p < 512 then p / 8 else if p < 1023 then p - 512 else 65
  | .group n _ => n / 8
  | .host => 64
  | .chute p => if p < 4 then 64 else 65
  | _ => 65

def State.admitNext (s : State) (sl : Nat) : State :=
  let x := s.slice sl
  if x.waiting.isEmpty || decide (256 ≤ x.queue.length) then s else
  match ((List.range 66).map (fun i => (x.lastSource + 1 + i) % 66)).find? (fun i => x.waiting.any (fun r => sourceOf r.who == i)) with
  | none => s
  | some i => match x.waiting.find? (fun r => sourceOf r.who == i) with
    | none => s
    | some r =>
      let s := s.setSlice sl { x with waiting := x.waiting.erase r, lastSource := i }
      if s.mayStart r then (s.startReq r).getD (s.setHome r.line { s.homeLine r.line with waiting := (s.homeLine r.line).waiting ++ [r] })
      else s.setHome r.line { s.homeLine r.line with waiting := (s.homeLine r.line).waiting ++ [r] }

def State.admitMany (s : State) (sl : Nat) : Nat → State
  | 0 => s
  | k + 1 => (s.admitNext sl).admitMany sl k

/-- A unit ends its binding (R158): the line is written back, each request completes, RED clears when none remains. -/
def State.redUnbind (s : State) (sl u : Nat) : State :=
  let x := s.slice sl
  match x.units.get none u with
  | none => s
  | some l => match s.larderLine l with
    | none => s
    | some y =>
      let rs := bindTake l (s.fld Reg.LRD_RED_CFG [] F.LRD_RED_CFG_BIND_MAX) x.queue
      let (d, vals) := bindRun rs y.data
      let left := rs.foldl List.erase x.queue
      let more := left.any (fun r => r.line == l)
      match s.larderPut l { y with data := d, red := more } with
      | none => s
      | some s =>
        let requeued := left.filter (fun r => r.line != l) ++ left.filter (fun r => r.line == l)
        let s := s.setSlice sl { s.slice sl with queue := requeued, units := (s.slice sl).units.set none u none }
        let s := s.sends ((rs.zip vals).map (fun e => .cmp e.1.who l e.1.tag 0 y.poison e.2))
        (s.admitMany sl rs.length).wake l

/-- R159: a first mismatch reruns the binding (corrected); one on the rerun puts the unit off line, the last one is device-fatal. -/
def execRedUnbind (sl : SliceId) (unit : SlotId) (mism : Fin 3) (s : State) : Host.Outcome State Fault Refusal :=
  .next (s.keepPilot (if ((s.slice sl).units.get none unit).isNone then s else
    let rec1 (c : ErrClass) (r : Bool) : ErrRec := { kind := 0x09, index := 8 * sl + unit, cls := c, retired := r }
    match mism.val with
    | 0 => s.redUnbind sl unit
    | 1 => (s.redUnbind sl unit).log (rec1 .corrected false)
    | _ =>
      let x := s.slice sl
      let off := x.offline ||| BitVec.ofNat 8 (2 ^ unit.val)
      if off = 0xFF then s.log (rec1 .fatal false)
      else (s.setSlice sl { x with offline := off, units := x.units.set none unit none }).log (rec1 .contained true)))

/-- A Cellar controller performs the oldest forwarded reduction of a line (R160). -/
def State.takeMred (s : State) (l : Nat) : State :=
  match s.net.find? (CohMsg.isMred l) with
  | some (.mred r) =>
    if s.cellarWaits l then s else
    let (d, _, p) := s.cellarGet l
    let (e, vals) := bindRun [r] d
    let s := { s with net := s.net.erase (.mred r) }
    (s.cellarPut l e false p).send (.mack r.who l r.tag p (vals.headD []))
  | _ => s

def execMred (line : Nat) (s : State) : Host.Outcome State Fault Refusal := .next (s.keepPilot (s.takeMred line))

/-- A home takes MAck: Cmp to the sender, and the entry clears at the last one. -/
def State.takeMack (s : State) (l : Nat) : State :=
  match s.net.find? (CohMsg.isMack l) with
  | some (.mack w k t p vs) =>
    let s := { s with net := s.net.erase (.mack w k t p vs) }
    let sl := (s.home l).1
    let x := s.slice sl
    ((s.setSlice sl { x with fwd := x.fwd.set 0 l (x.fwd.get 0 l - 1) }).send (.cmp w l t 0 p vs)).wake l
  | _ => s

def execMack (line : Nat) (s : State) : Host.Outcome State Fault Refusal := .next (s.keepPilot (s.takeMack line))

/-! ### Commands: ordering modes (R156) -/

/-- A write of LRD_COH_CMD that is discarded leaves a contained record (R156, R413). -/
def State.cohRefused (s : State) (w : Writer) : State :=
  s.refuse w Reg.LRD_COH_CMD.base (if w = .storekeeper then causeState else causeActor)

def State.enterOwner (s : State) (w : Writer) (reason : Nat) : State :=
  if w = .storekeeper ∧ s.order = 0 then
    ((s.wrote Reg.LRD_COH_CMD [] 1).setFld Reg.LRD_COH_STAT [] F.LRD_COH_STAT_ORDER 2).setFld Reg.LRD_COH_STAT [] F.LRD_COH_STAT_REASON reason
  else s.cohRefused w
def execEnterOwner (w : Writer) (reason : Fin 4) (s : State) : Host.Outcome State Fault Refusal := .next (s.keepPilot (s.enterOwner w reason))

def State.exitOwner (s : State) (w : Writer) : State :=
  if w = .storekeeper ∧ s.order = 1 then (s.wrote Reg.LRD_COH_CMD [] 2).setFld Reg.LRD_COH_STAT [] F.LRD_COH_STAT_ORDER 3 else s.cohRefused w
def execExitOwner (w : Writer) (s : State) : Host.Outcome State Fault Refusal := .next (s.keepPilot (s.exitOwner w))

/-- Every transaction in progress and every accepted Red and Atm is done. -/
def State.drained (s : State) : Bool :=
  s.homes.all (fun e => e.2.running.isEmpty) &&
  s.slices.all (fun e => e.2.queue.isEmpty && e.2.waiting.isEmpty && e.2.fwd.isEmpty && e.2.units.isEmpty)

def execOwnerOrderEntered (s : State) : Host.Outcome State Fault Refusal :=
  .next (s.keepPilot (if s.order = 2 ∧ s.drained then s.setFld Reg.LRD_COH_STAT [] F.LRD_COH_STAT_ORDER 1 else s))

/-- PRES and OWN of every line rebuilt from the filters; the held requests start in arrival order. -/
def State.homeOrder (s : State) : State :=
  let s := (s.larder.map (·.1)).foldl (fun s l => s.setPres l) s
  let s := (s.setFld Reg.LRD_COH_STAT [] F.LRD_COH_STAT_ORDER 0).setFld Reg.LRD_COH_STAT [] F.LRD_COH_STAT_REASON 0
  (s.homes.map (·.1)).foldl (fun s l => s.wake l) s

def execHomeOrderResumed (s : State) : Host.Outcome State Fault Refusal :=
  .next (s.keepPilot (if s.order = 3 then s.homeOrder else s))

end Sys2Proof.Machine
end

