-- ==== Sys2Proof/Machine/Keccak.lean ====
section
/-! DEFINITION. SHAKE256 (R79, R257) and the CRC-64 of the link layers (R265, R284). PRESUMED: the manual names SHAKE256 without defining it;
the permutation is that of FIPS 202 (log 23). -/
namespace Sys2Proof.Machine

/-- The first twelve round constants. -/
def roundConstsA : List (BitVec 64) :=
  [0x0000000000000001, 0x0000000000008082, 0x800000000000808A, 0x8000000080008000, 0x000000000000808B, 0x0000000080000001,
   0x8000000080008081, 0x8000000000008009, 0x000000000000008A, 0x0000000000000088, 0x0000000080008009, 0x000000008000000A]

/-- The last twelve round constants. -/
def roundConstsB : List (BitVec 64) :=
  [0x000000008000808B, 0x800000000000008B, 0x8000000000008089, 0x8000000000008003, 0x8000000000008002, 0x8000000000000080,
   0x000000000000800A, 0x800000008000000A, 0x8000000080008081, 0x8000000000008080, 0x0000000080000001, 0x8000000080008008]

/-- Rotation of lane x + 5y. -/
def rotations : List Nat :=
  [0, 1, 62, 28, 27, 36, 44, 6, 55, 20, 3, 10, 43, 25, 39, 41, 45, 15, 21, 8, 18, 2, 61, 56, 14]

def lane (a : List (BitVec 64)) (x y : Nat) : BitVec 64 := a.getD (x % 5 + 5 * (y % 5)) 0

/-- One round on 25 lanes. -/
def keccakRound (a : List (BitVec 64)) (rc : BitVec 64) : List (BitVec 64) :=
  let c := (List.range 5).map (fun x => (List.range 5).foldl (fun v y => v ^^^ lane a x y) 0)
  let d := (List.range 5).map (fun x => c.getD ((x + 4) % 5) 0 ^^^ (c.getD ((x + 1) % 5) 0).rotateLeft 1)
  let th := (List.range 25).map (fun i => a.getD i 0 ^^^ d.getD (i % 5) 0)
  let rot := (List.range 25).map (fun i => (th.getD i 0).rotateLeft (rotations.getD i 0))
  -- lane (x, y) of the permuted state is lane (x + 3y, x) before it
  let pi := (List.range 25).map (fun i => rot.getD ((i % 5 + 3 * (i / 5)) % 5 + 5 * (i % 5)) 0)
  let chi := (List.range 25).map (fun i => lane pi (i % 5) (i / 5) ^^^ (~~~ (lane pi (i % 5 + 1) (i / 5)) &&& lane pi (i % 5 + 2) (i / 5)))
  setAt chi 0 (chi.getD 0 0 ^^^ rc)

def keccakF (a : List (BitVec 64)) : List (BitVec 64) := (roundConstsA ++ roundConstsB).foldl keccakRound a

/-- A rate block exclusive-ored into the state. -/
def absorb (a : List (BitVec 64)) (block : List Byte) : List (BitVec 64) :=
  (List.range 25).map (fun i => a.getD i 0 ^^^ (if i < 17 then BitVec.ofNat 64 (ofLeBytes ((block.drop (8 * i)).take 8)) else 0))

def absorbAll : Nat → List Byte → List (BitVec 64) → List (BitVec 64)
  | 0, _, a => a
  | k + 1, bs, a => absorbAll k (bs.drop 136) (keccakF (absorb a (bs.take 136)))

/-- SHAKE256 with `n` output bytes, at most 136. -/
def shake256 (bs : List Byte) (n : Nat) : List Byte :=
  let pad := 136 - bs.length % 136
  let tail : List Byte := if pad = 1 then [0x9F] else [0x1F] ++ List.replicate (pad - 2) 0 ++ [0x80]
  let all := bs ++ tail
  let st := absorbAll (all.length / 136) all (List.replicate 25 0)
  (st.flatMap (fun w => leBytes 8 w.toNat)).take n

/-- One byte through the CRC-64 with polynomial 0x42F0_E1EB_A9EA_3693, most significant bit first. -/
def crcByte (c : BitVec 64) (b : Byte) : BitVec 64 :=
  (List.range 8).foldl (fun (c : BitVec 64) _ => if c.msb then (c <<< 1) ^^^ 0x42F0E1EBA9EA3693 else c <<< 1) (c ^^^ (b.zeroExtend 64 <<< 56))

/-- CRC-64, initial value all ones, result inverted (R265). -/
def crc64 (bs : List Byte) : BitVec 64 := ~~~ (bs.foldl crcByte (BitVec.allOnes 64))

end Sys2Proof.Machine
end

