-- ==== Sys2Proof/Machine/Desc.lean ====
section
/-! DEFINITION. Fields of the Step descriptor and tile entry (Table EN-5, Table EN-7) and of the Porter descriptor (Table PT-2). -/
namespace Sys2Proof.Machine

/-! ### Step descriptor -/

def StepIssue.field (d : StepIssue) (hi lo : Nat) : Nat := fieldOf d.desc hi lo

/-- Format code of Table EN-5a as an element format; FP32 and reserved codes have none. -/
def elemOfCode : Nat → Option ElemFmt
  | 0 => some .e4m3
  | 1 => some .e5m2
  | 2 => some .e3m2
  | 3 => some .e2m3
  | 4 => some .e2m1
  | 5 => some .mxint8
  | 6 => some .bf16
  | 8 => some .cb2
  | 9 => some .cb3
  | 10 => some .cb4
  | _ => none

/-- Row bytes of 64 elements (Table EN-4). -/
def rowBytes : Nat → Nat
  | 0 | 1 | 5 => 64
  | 2 | 3 => 48
  | 4 => 32
  | 6 => 128
  | 7 => 256
  | _ => 0

/-- Scale bytes per row (Table EN-4). -/
def scaleBytes (f : Nat) : Nat := if f ≤ 5 then 2 else 0

/-- Slab size S of R38. -/
def slabBytes (f rows : Nat) : Nat := ceilDiv (rows * rowBytes f + rows * scaleBytes f) 64 * 64

/-! ### Porter descriptor -/

/-- Bits `hi:lo` of word `w`. -/
def PDesc.field (d : PDesc) (w hi lo : Nat) : Nat := fieldOf d.raw (64 * w + hi) (64 * w + lo)

def PDesc.kind (d : PDesc) : Nat := d.field 0 3 0
def PDesc.xform (d : PDesc) : Nat := d.field 0 7 4
def PDesc.sspace (d : PDesc) : Nat := d.field 0 9 8
def PDesc.dspace (d : PDesc) : Nat := d.field 0 11 10
def PDesc.gather (d : PDesc) : Bool := d.field 0 12 12 == 1
def PDesc.order (d : PDesc) : Bool := d.field 0 13 13 == 1
def PDesc.sys (d : PDesc) : Bool := d.field 0 14 14 == 1
def PDesc.tmode (d : PDesc) : Nat := d.field 0 17 16
def PDesc.tremote (d : PDesc) : Bool := d.field 0 18 18 == 1
def PDesc.tdev (d : PDesc) : Nat := d.field 0 29 19
def PDesc.tcore (d : PDesc) : Nat := d.field 0 38 30
def PDesc.tally (d : PDesc) : Nat := d.field 0 50 39
def PDesc.score (d : PDesc) : Nat := d.field 0 53 51
def PDesc.dcore (d : PDesc) : Nat := d.field 0 56 54
def PDesc.src (d : PDesc) : Nat := d.field 1 63 0
def PDesc.dst (d : PDesc) : Nat := d.field 2 63 0
def PDesc.srow (d : PDesc) : Nat := d.field 3 23 0
def PDesc.sc1 (d : PDesc) : Nat := d.field 3 47 24 + 1
def PDesc.sc2 (d : PDesc) : Nat := d.field 3 63 48 + 1
def PDesc.sstr1 (d : PDesc) : Int := signExt 64 (d.field 4 63 0)
def PDesc.sstr2 (d : PDesc) : Int := signExt 64 (d.field 5 63 0)
def PDesc.dstr1 (d : PDesc) : Int := signExt 64 (d.field 6 63 0)
def PDesc.dstr2 (d : PDesc) : Int := signExt 64 (d.field 7 63 0)
def PDesc.idx (d : PDesc) : Nat := d.field 8 63 0
def PDesc.ispace (d : PDesc) : Nat := d.field 9 25 24
def PDesc.idx16 (d : PDesc) : Bool := d.field 9 23 23 == 1
def PDesc.skip (d : PDesc) : Nat := d.field 9 22 15
def PDesc.xb (d : PDesc) : Nat := d.field 9 14 12
def PDesc.ways (d : PDesc) : Nat := d.field 9 11 6 + 1
def PDesc.unit (d : PDesc) : Nat := 2 ^ d.field 9 5 3
def PDesc.rangeOp (d : PDesc) : Nat := d.field 10 11 9
def PDesc.rfmt (d : PDesc) : Bool := d.field 10 8 8 == 1
def PDesc.rtype (d : PDesc) : Nat := d.field 10 7 6
def PDesc.rop (d : PDesc) : Nat := d.field 10 5 4
def PDesc.pattern (d : PDesc) : Nat := d.field 11 63 0
def PDesc.drow (d : PDesc) : Nat := d.field 12 23 0
def PDesc.dc1 (d : PDesc) : Nat := d.field 12 47 24 + 1
def PDesc.tag (d : PDesc) : DWord := BitVec.ofNat 64 (d.field 15 63 0)

/-- Source rows. -/
def PDesc.srows (d : PDesc) : Nat := d.sc1 * d.sc2

/-- Input and output group of a transform (Table PT-3); 0 for a stream that is no whole number of groups. -/
def PDesc.groups (d : PDesc) : Nat × Nat :=
  let s := d.skip
  match d.xform with
  | 1 | 2 => (d.ways * d.srow, d.ways * d.srow)
  | 3 => (s + 128, s + 16 * d.xb)
  | 4 => (s + 16 * d.xb, s + 128)
  | 5 | 6 => (s + 16 * d.xb, s + 16 * d.xb)
  | _ => (1, 1)

/-- Length of the source stream in bytes. -/
def PDesc.slen (d : PDesc) : Nat := d.srow * d.srows

/-- FP32 operands on BF16 lines: each destination byte takes two source bytes (R191). -/
def PDesc.wide (d : PDesc) : Bool := d.kind == 3 && d.rfmt && d.rtype == 1

/-- Length of the destination stream in bytes (R191). -/
def PDesc.dlen (d : PDesc) : Nat :=
  if d.kind = 3 then (if d.wide then d.slen / 2 else d.slen)
  else if d.kind = 1 then let (i, o) := d.groups; d.slen / max 1 i * o
  else d.slen

/-- Destination rows. -/
def PDesc.drows (d : PDesc) : Nat := if d.kind = 4 then 1 else d.dlen / max 1 d.drow

/-- Start of destination row `r`, modulo 2^64 (R191). -/
def PDesc.dstRow (d : PDesc) (r : Nat) : Nat :=
  ((d.dst + (r / d.dc1 : Nat) * d.dstr2 + (r % d.dc1 : Nat) * d.dstr1) % 2 ^ 64).toNat

/-- Rows whose starts bound every destination row's start. -/
def PDesc.corners (d : PDesc) : List Nat :=
  let r := d.drows
  if r = 0 then [] else
  let p := (r - 1) / d.dc1
  [0, min d.dc1 r - 1, p * d.dc1, r - 1] ++ (if p = 0 then [] else [(p - 1) * d.dc1, p * d.dc1 - 1])

/-- Every destination row lies in `[lo, hi)` of space 0. -/
def PDesc.within (d : PDesc) (lo hi : Nat) : Bool :=
  d.kind != 4 && d.dspace == 0 && d.corners.all (fun r => decide (lo ≤ d.dstRow r) && decide (d.dstRow r + d.drow ≤ hi))

end Sys2Proof.Machine
end

