-- ==== Sys2Proof/Machine/Tally.lean ====
section
/-! DEFINITION. Tallies, scopes and the scope audit (08_memory_model.md, R166, R167, R176-R182), and requests to wake a cluster (R358). -/
namespace Sys2Proof.Machine

/-- A cluster is power-gated or waking (R358). -/
def State.gated (s : State) (g : Nat) : Bool := decide (2 ≤ s.fld Reg.PWR_CL [g] F.PWR_CL_STATE)

/-- A wake trigger (R358): kept until CLUSTER_WAKE takes it. A clock-gated cluster restarts its clock at once (R357). -/
def State.wantWake (s : State) (g : Nat) : State :=
  match s.fld Reg.PWR_CL [g] F.PWR_CL_STATE with
  | 0 => s
  | 1 => s.setFld Reg.PWR_CL [g] F.PWR_CL_STATE 0
  | 2 => { s with wakeReq := s.wakeReq ||| BitVec.ofNat 64 (2 ^ g) }
  | _ => s

/-- A die that is fenced or absent (R275, R276). -/
def State.dieDown (s : State) (d : Nat) : Bool := fieldOf (s.reg Reg.JST_DIE_STAT []) (4 * d + 3) (4 * d) == 3

/-- CST_TALLYi after an increment (R176, Table MM-9): LCORE is 0 for kinds 6 and 7. -/
def Incr.apply (x : Incr) (old : DWord) : DWord :=
  BitVec.ofNat 64 ((fieldOf old 31 0 + x.amount) % 2 ^ 32 + (if x.kind = 6 ∨ x.kind = 7 then 0 else x.core % 512) * 2 ^ 32 +
    (x.dev.getD 0 % 2048) * 2 ^ 41 + (if x.dev.isSome then 2 ^ 52 else 0) + (x.kind % 8) * 2 ^ 53 + (x.scope % 8) * 2 ^ 61)

/-- An increment applies (R176). -/
def State.applyTally (s : State) (n i : Nat) (x : Incr) : State :=
  let s := s.setReg Reg.CST_TALLY [n, i] (x.apply (s.reg Reg.CST_TALLY [n, i]))
  { s with tallySet := s.tallySet.set false (4096 * n + i) false }

/-- The Bay of core `n` belongs to an inst. that is FROZEN, SAVING or RESTORING (R257). -/
def State.frozenCore (s : State) (n : Nat) : Option Nat :=
  match s.bayOfCore n with
  | some b =>
    let i := s.instOfBay b
    if i ≠ 0 ∧ 4 ≤ s.fld Reg.HAT_INST_STAT [i] F.HAT_INST_STAT_STATE ∧ s.fld Reg.HAT_INST_STAT [i] F.HAT_INST_STAT_STATE ≤ 6 then some i else none
  | none => none

/-- Traffic aimed at a FROZEN inst. is refused and counted (R257). -/
def State.refuseFrozen (s : State) (i : Nat) : State := s.bump Reg.HAT_INST_STAT [i] F.HAT_INST_STAT_REFUSED 1

/-- An increment reaches a core: refused when its inst. is FROZEN (R257), dropped and counted when its die is fenced (R276), held for the wake when its cluster is
power-gated or waking (R181). -/
def State.addTally (s : State) (n i : Nat) (x : Incr) : State :=
  match s.frozenCore n with
  | some j => s.refuseFrozen j
  | none =>
  if s.dieDown (dieOfCore n) then s.bump Reg.JST_EVT [] F.JST_EVT_DROPPED 1
  else if s.gated (clusterOf n) then { s.wantWake (clusterOf n) with heldAdds := s.heldAdds ++ [⟨n, i, x⟩] }
  else s.applyTally n i x

/-- VALUE of a Tally. -/
def State.tally (s : State) (n i : Nat) : Word := BitVec.ofNat 32 (s.reg Reg.CST_TALLY [n, i]).toNat

/-- A write of CST_TALLYi changes VALUE only (R186). -/
def State.setTally (s : State) (n i v : Nat) : State :=
  let s := s.setReg Reg.CST_TALLY [n, i] (withField (s.reg Reg.CST_TALLY [n, i]) 31 0 v)
  { s with tallySet := s.tallySet.set false (4096 * n + i) true }

/-! ### Scopes -/

/-- MODE of a core: its Bay runs in Ordered mode (R167). -/
def State.orderedCore (s : State) (n : Nat) : Bool :=
  match s.bayOfCore n with
  | some b => s.bit Reg.BAY_CFG [b] F.BAY_CFG_ORDERED
  | none => false

/-- The scope in force (R167). -/
def State.widen (s : State) (n scope : Nat) : Nat := if s.orderedCore n ∧ scope < 5 then 5 else scope

/-- An acquire of core `n` completes: cluster scope or wider empties the Shelf (Table MM-4, R126). -/
def State.acquire (s : State) (n scope : Nat) : State := s.when (decide (3 ≤ s.widen n scope)) (fun s => s.clearShelf n)

/-- Agent of core `b` lies within `scope` of an agent of core `a` of the same device (Table MM-2); thread and group count as core (R182). -/
def covers (scope a b : Nat) : Bool :=
  if scope ≤ 2 then a == b else if scope = 3 then clusterOf a == clusterOf b else if scope = 4 then dieOfCore a == dieOfCore b else true

/-- The pair of an increment and an acquire passes the audit (R174, R182). -/
def auditPass (rel kind lcore : Nat) (remote : Bool) (acq n : Nat) : Bool :=
  if kind = 4 ∨ kind = 7 ∨ (kind = 5 ∧ rel = 5) then true
  else if kind = 6 then acq == 7
  else if remote then decide (6 ≤ rel) && decide (6 ≤ acq)
  else covers rel lcore n && covers acq n lcore

/-- The scope audit of a WAIT or WTALLY that completes (R182). -/
def State.audit (s : State) (n i scope : Nat) : State :=
  let t := s.reg Reg.CST_TALLY [n, i]
  let kind := fieldOf t 55 53
  let rel := fieldOf t 63 61
  if ¬ s.bit Reg.CST_MM_CFG [n] F.CST_MM_CFG_AUDIT ∨ kind = 0 ∨ s.tallySet.get false (4096 * n + i) then s
  else if auditPass rel kind (fieldOf t 40 32) (bitAt t 52) scope n then s
  else (((s.bump Reg.CST_MM_AUDIT [n] F.CST_MM_AUDIT_PAIRS 1).setFld Reg.CST_MM_AUDIT [n] F.CST_MM_AUDIT_REL_SCOPE rel).setFld
    Reg.CST_MM_AUDIT [n] F.CST_MM_AUDIT_ACQ_SCOPE scope).setFld Reg.CST_MM_AUDIT [n] F.CST_MM_AUDIT_TALLY i

/-! ### Commands -/

/-- Who reaches the state window of core `n`: the tenant of its Bay, and everyone on the manager's side (R186). -/
def State.mayCore (s : State) (w : Writer) (n : Nat) : Bool :=
  match w with
  | .fn f => f.val == 0 || (match s.bayOfCore n with
      | some b => s.instOfBay b == f.val
      | none => false)
  | _ => true

/-- A write to a core state window: refused to a stranger, held while the cluster wakes (R358), else performed. -/
def State.coreWrite (s : State) (w : Writer) (n off : Nat) (v : DWord) (f : State → State) : State :=
  s.tenantWrite w off (fun s =>
    if ¬ s.mayCore w n then s.refuse w off causeActor
    else if s.gated (clusterOf n) then { s.wantWake (clusterOf n) with heldWrites := s.heldWrites ++ [(w, off, v)] }
    else f (s.wantWake (clusterOf n)))

/-- CST_TALLYi (R181, R186). -/
def execCstTallyWrite (w : Writer) (n : CoreId) (i : Fin 4096) (v : DWord) (s : State) : Host.Outcome State Fault Refusal :=
  .next (s.keepPilot (s.coreWrite w n (Reg.CST_TALLY.addr [n, i]) v (fun s => s.setTally n i (fieldOf v 31 0))))

/-- CST_TALLY_ADDi (Table MM-5): a host release at system scope; AMOUNT 0 leaves a contained record of the host port (Table MM-8). -/
def State.tallyAddWrite (s : State) (w : Writer) (n i : Nat) (v : DWord) : State :=
  let s := s.setReg Reg.CST_TALLY_ADD [n, i] (BitVec.ofNat 64 (fieldOf v 31 0))
  if fieldOf v 31 0 = 0 then
    s.log { kind := 0x10, index := writerSub w, cls := .contained, address := Reg.CST_TALLY_ADD.addr [n, i], sub := writerSub w, inst := writerInst w }
  else s.applyTally n i { amount := fieldOf v 31 0, kind := 6, scope := 7 }

def execCstTallyAdd (w : Writer) (n : CoreId) (i : Fin 4096) (v : DWord) (s : State) : Host.Outcome State Fault Refusal :=
  .next (s.keepPilot (s.coreWrite w n (Reg.CST_TALLY_ADD.addr [n, i]) v (fun s => s.tallyAddWrite w n i v)))

end Sys2Proof.Machine
end

