-- ==== Sys2Proof/Machine/Flags.lean ====
section
/-! DEFINITION. Event flags of the blocks, the vectors they raise (Table HP-3), and messages to a tenant's Hatch (R243, R249, R368). -/
namespace Sys2Proof.Machine

/-- SEQ of the last record written. -/
def State.lastRecord (s : State) : Nat := (s.fld Reg.ERR_PROD [] F.ERR_PROD_PROD + 2 ^ 32 - 1) % 2 ^ 32

/-- BAY_EVENT of Table TN-5, naming the last record. -/
def State.tellBay (s : State) (b bits slot : Nat) : State :=
  s.hatPush (s.instOfBay b) ⟨1, b + bits * 2 ^ 8 + slot * 2 ^ 16 + s.lastRecord * 2 ^ 32⟩

/-- A Bay event that the tenant is told of (Table BY-4). -/
def State.bayEventTold (s : State) (b bits slot : Nat) : State :=
  let new := bits &&& (0xFF ^^^ ((s.reg Reg.BAY_EVT [b]).toNat % 256))
  (s.bayEvent b bits).tellBay b new slot

/-- PWR_EVT bits (R368). -/
def State.pwrEvent (s : State) (bits : Nat) : State := s.events Reg.PWR_EVT [] (s.fld Reg.PWR_EVT_EN [] F.PWR_EVT_EN_EN) bits 97

/-- JST_EVT bits (Table HP-3). -/
def State.jstEvent (s : State) (bits : Nat) : State := s.events Reg.JST_EVT [] 0xFF bits 99

/-- CHU_EVT bits (Table HP-3). -/
def State.chuEvent (s : State) (bits : Nat) : State := s.events Reg.CHU_EVT [] 0xFFFF bits 98

/-- Reference cycles counted by unit 5, which stamps records (R341, Table RL-1). -/
def State.now (s : State) : Nat := (s.reg Reg.CLK_REFCNT [5]).toNat

end Sys2Proof.Machine
end

