-- ==== Sys2Proof/Machine/Span.lean ====
section
/-! DEFINITION. Chute route lookups and the span-management messages that failures send (R297, R299, R303). -/
namespace Sys2Proof.Machine

/-- MASK of a device in a set of route tables (Table CH-7), by the table in use: the other failed ports are cleared (R299). -/
def State.routeMask (s : State) (ts : List RouteTable) (alt dev : Nat) : Nat :=
  let failed := s.fld Reg.CHU_RSTAT [] F.CHU_RSTAT_FAILED
  let own := if alt = 0 then 0 else 2 ^ (alt - 1)
  match ts.find? (fun t => t.index == alt) with
  | some t => (t.bytes.getD (2 * dev) 0).toNat &&& (0xFF ^^^ (failed &&& (0xFF ^^^ own)))
  | none => 0

/-- The set bit of rank SCORE mod m of a MASK with m set bits (R297). -/
def portOf (mask score : Nat) : Option Nat := (onesOf 8 mask)[score % popCount 8 mask]?

def State.spanId (s : State) : Nat := s.fld Reg.CHU_SPAN [] F.CHU_SPAN_ID

/-- A span-management message of this device joins the queue: EPOCH 0, SCORE 0. -/
def State.spnSend (s : State) (dev type len data : Nat) : State :=
  s.chutePush { type := type, sdev := s.spanId, ddev := dev, len := len - 1, data := data } .storekeeper none

/-- Span devices that the transit table in use reaches. -/
def State.members (s : State) : List Nat :=
  let alt := s.fld Reg.CHU_RSTAT [] F.CHU_RSTAT_ALT
  (List.range 2048).filter (fun d => d != s.spanId && s.routeMask s.transit alt d != 0)

/-- The master raises CEPOCH and sends it to every member it can reach (R303). -/
def State.raiseEpoch (s : State) : State :=
  let s := (s.wrapAdd Reg.CHU_SPAN [] F.CHU_SPAN_CEPOCH 1).chuEvent 2
  s.members.foldl (fun s d => s.spnSend d 0x19 16 (s.fld Reg.CHU_SPAN [] F.CHU_SPAN_CEPOCH)) s

/-- A failure that the span hears of: SPN_FAIL to the master, or its own count (R303). -/
def State.spnEvent (s : State) : State :=
  if ¬ s.bit Reg.CHU_SPAN [] F.CHU_SPAN_EN then s
  else if s.fld Reg.CHU_SPAN [] F.CHU_SPAN_MASTER = s.spanId then s.raiseEpoch
  else s.spnSend (s.fld Reg.CHU_SPAN [] F.CHU_SPAN_MASTER) 0x1A 16 0

/-- A slot of a Bay with a non-zero epoch has entered FAULTED or ABORTED (R303). -/
def State.spnSlot (s : State) (b : Nat) : State := if s.fld Reg.CHU_EPOCH [b] F.CHU_EPOCH_EPOCH = 0 then s else s.spnEvent

end Sys2Proof.Machine
end

