-- ==== Sys2Proof/Machine/Sched.lean ====
section
/-! DEFINITION. Stopping a stream on its cores, containment of faults, and a Bay's choice and switch of streams
(R71, R74, R82, R83, R119, R229-R236, R241). -/
namespace Sys2Proof.Machine

/-! ### Work of a core that is not done -/

/-- The Porters that a core posts to (R187). -/
def portersOf (n : Nat) : List Nat := [n, 512 + clusterOf n]

/-- Every channel of a Porter rewritten. -/
def State.mapChans (s : State) (p : Nat) (f : Chan → Chan) : State :=
  (s.porter p).chans.foldl (fun s e => s.setChan p e.1 (f e.2)) s

/-- Descriptors of a channel that are not completed. -/
def Chan.descs (c : Chan) : List PDesc := c.queue ++ (c.act.map (·.desc)).toList

/-- Descriptors that MOVEs of core `n` posted and that are not completed; held ones too. -/
def State.coreDescs (s : State) (n : Nat) : List PDesc :=
  ((portersOf n).flatMap (fun p => (s.porter p).chans.flatMap (fun e => e.2.descs ++ e.2.holds.map (·.desc)))).filter (fun d => d.core == some n)

/-- Prefetch MOVEs outstanding, PF_OUT (R72). -/
def State.prefetchOut (s : State) (n : Nat) : Nat := ((s.coreDescs n).filter (fun d => d.step.isSome)).length

/-- The wait of SIG: every earlier STEP committed, every earlier MOVE with PF = 0 and every earlier kernel complete (R64). -/
def State.workDone (s : State) (n : Nat) : Bool :=
  let u := s.stepUnit n
  u.running.isNone && u.queued.isNone && (s.seq n).reissue.isEmpty && (s.coreDescs n).all (fun d => d.step.isSome) && (s.kern n).running.isEmpty

/-! ### Undoing work -/

/-- A channel without the descriptors that `gone` names (Table PT-5). -/
def Chan.cancel (c : Chan) (gone : PDesc → Bool) : Chan :=
  let hit := match c.act with | some a => gone a.desc | none => false
  { c with queue := c.queue.filter (fun d => !gone d), holds := c.holds.filter (fun a => !gone a.desc),
           act := if hit then none else c.act,
           status := if hit && (c.status == .active || c.status == .holding) then .idle else c.status }

/-- A MOVE of core `n` that is not a prefetch whose Step has committed. -/
def PDesc.uncommitted (q : Seq) (n : Nat) (d : PDesc) : Bool :=
  d.core == some n && (match d.step with | some k => decide (q.stepsDone < k) | none => false)

/-- A prefetch whose Step has committed belongs to no later Step any more. -/
def PDesc.settle (n : Nat) (d : PDesc) : PDesc := if d.core = some n ∧ d.step.isSome then { d with step := some 0 } else d

def Chan.settle (n : Nat) (c : Chan) : Chan :=
  { c with queue := c.queue.map (PDesc.settle n), act := c.act.map (fun a => { a with desc := a.desc.settle n }),
           holds := c.holds.map (fun a => { a with desc := a.desc.settle n }) }

/-- Run-ahead undone (R74): prefetch MOVEs of uncommitted Steps go, the others run to completion. -/
def State.undoRunAhead (s : State) (n : Nat) : State :=
  let q := s.seq n
  let s := (portersOf n).foldl (fun s p => s.mapChans p (fun c => (c.cancel (PDesc.uncommitted q n)).settle n)) s
  s.setSeq n { (s.seq n) with scan := {}, started := [], reissue := [] }

/-- MOVEs of an aborted stream are dropped and stopped (Table PT-5); what a bus error or a channel error has stopped stays for R199. -/
def State.abortMoves (s : State) (n : Nat) : State :=
  (portersOf n).foldl (fun s p =>
    if (s.porter p).status ≠ 0 then s
    else s.mapChans p (fun c => if c.status = .error then c else c.cancel (fun d => d.core == some n && d.step.isNone))) s

/-- Engines after an ended Step: nothing runs, no kept tile; the counts of entries stand (R45, Table EN-9). -/
def StepUnit.clearEngines (u : StepUnit) : StepUnit :=
  (List.range 4).foldl (fun u e => u.setEngine e { done := (u.engine e).done }) u

/-- The running Step ends without a commit, and the queued one is dropped (Table EN-9). -/
def State.abortStep (s : State) (n ended : Nat) : State :=
  let u := s.stepUnit n
  let v : StepUnit := match u.running with
    | some r => { u with lastSeq := r.seq, lastEnd := ended }
    | none => u
  s.setStep n ({ v with running := none, queued := none, poison := false, failing := 0 }).clearEngines

/-- Every group of a core ends at once; no Tally of its kernels moves (R119). -/
def State.endGroups (s : State) (n : Nat) : State :=
  let s := (List.range 8).foldl (fun s g =>
    let x := s.group n g
    if x.status = .free then s else s.setGroup n g { x with status := .free, load := none, atom := none, sent := [], failing := [], storing := false }) s
  s.setKern n { (s.kern n) with running := [] }

/-- A core of a stream stops at once: fault of its Bay, abort or loss (R71, R74, R82, R119). MOVEs under way go on (R197). -/
def State.stopCore (s : State) (n : Nat) (st : SeqStatus) : State :=
  let s := ((s.undoRunAhead n).abortStep n 2).endGroups n
  let q := s.seq n
  s.setSeq n { q with status := if q.status = .halted then .halted else st, hold := .free }

/-! ### Ranges (R232) -/

/-- Every range that a slot holds or has saved is released (R83, R241). -/
def State.releaseRanges (s : State) (b j : Nat) : State :=
  (s.coresOf b).foldl (fun s n =>
    let x := s.range n
    s.setRange n { holders := x.holders.filter (fun e => e.2 != some j), saved := x.saved.set 0 j 0, live := x.live.set 0 j 0 }) s

/-- Bay-relative index of core `n`. -/
def State.relCore (s : State) (b n : Nat) : Nat := (s.coresOf b).idxOf n

/-- Units of 64 KiB in a core's share of a spill area (R233). -/
def State.shareUnits (s : State) (b j : Nat) : Nat := (s.img b j).spillBytes / max 1 (s.coresOf b).length

/-- Start of a core's share of slot `j`'s spill area. -/
def State.shareAddr (s : State) (b j n : Nat) : Nat :=
  (s.reg Reg.BAY_SPILL [b, j]).toNat + s.relCore b n * s.shareUnits b j * 65536

/-- Unit in which range `r` is saved: one more than its rank among the live ranges (R233). -/
def unitOf (live : BitVec 40) (r : Nat) : Nat := popCount r live.toNat + 1

/-- Bytes of a core's Pantry that no spill or restore moves: code regions of loaded images, the run-ahead area of the outgoing stream, the control
words (R232). -/
def State.unmoved (s : State) (b n off : Nat) : Bool :=
  let i := s.relCore b n
  (List.range 4).any (fun j => (s.img b j).regions.any (fun r => r.core == i &&
    ((decide (r.base ≤ off) && decide (off < r.base + r.len)) ||
      ((s.bay b).outgoing == some j && decide (64 * r.raBase ≤ off) && decide (off < 64 * (r.raBase + r.raUnits)))))) ||
  (i == 0 && decide (0x27FF80 ≤ off))

/-- What a move between a Pantry and a spill area does. -/
inductive Moved where
  | ok (s : State)
  | failed
  | waits

/-- `k` lines from Pantry offset `off` to address `a`, but for the bytes that stay. -/
def State.spillLines (s : State) (b n : Nat) : Nat → Nat → Nat → Moved
  | 0, _, _ => .ok s
  | k + 1, off, a =>
    let keep := (List.range 128).filter (fun i => !s.unmoved b n (off + i))
    if keep.isEmpty then s.spillLines b n k (off + 128) (a + 128) else
    if ¬ (s.backed a && hasHome a) then .failed else
    match s.cupWrite (clusterOf n) (a / 128) none (lineOfBytes (s.pantry n off 128)) (BitVec.ofNat 128 (maskOf keep)) (s.pantryPoison n off 128) with
    | some s => s.spillLines b n k (off + 128) (a + 128)
    | none => .waits

/-- `k` lines from address `a` to Pantry offset `off`, but for the bytes that stay; poison comes with the data (R241). -/
def State.restoreLines (s : State) (b n : Nat) : Nat → Nat → Nat → Moved
  | 0, _, _ => .ok s
  | k + 1, off, a =>
    if ¬ (s.backed a && hasHome a) then .failed else
    match s.cupRead (clusterOf n) (a / 128) none with
    | none => .waits
    | some (s, c) =>
      let s := ((List.range 128).filter (fun i => !s.unmoved b n (off + i))).foldl (fun s i =>
        s.setPantry n (off + i) [BitVec.ofNat 8 (lineField c.data i 1)] (c.poison.getLsbD (i / 8))) s
      s.restoreLines b n k (off + 128) (a + 128)

/-! ### Sequencer registers as words (Table SQ-9) -/

def SeqStatus.code : SeqStatus → Nat
  | .idle => 0
  | .running => 1
  | .inWait => 2
  | .stallStep => 3
  | .stallChan => 4
  | .stopped => 5
  | .halted => 6
  | .faulted => 7
  | .aborted => 8

/-- CST_SEQ_STAT. -/
def Seq.statWord (q : Seq) : Nat :=
  q.pc.toNat + q.fault * 2 ^ 22 + q.status.code * 2 ^ 30 + q.loops.length * 2 ^ 34 + q.calls.length * 2 ^ 38 + q.bank * 2 ^ 42 + q.haltCode.toNat * 2 ^ 48

/-- CST_SEQ_WAIT. -/
def Seq.waitWord (q : Seq) : Nat := q.waitTarget.toNat + q.waitExp * 2 ^ 48 + q.waitTally * 2 ^ 52

/-- CST_SEQ_LOOPi, frame 0 the outermost. -/
def Seq.loopWord (q : Seq) (i : Nat) : Nat :=
  match q.loops.reverse[i]? with
  | some f => f.start.toNat + f.countM1 * 2 ^ 32 + f.index * 2 ^ 48
  | none => 0

def Seq.strideWord (q : Seq) (i : Nat) : Nat :=
  match q.loops.reverse[i]? with
  | some f => f.sstride.toNat
  | none => 0

def Seq.callWord (q : Seq) (i : Nat) : Nat :=
  match q.calls.reverse[i]? with
  | some p => p.toNat
  | none => 0

def Seq.expWord (q : Seq) (i : Nat) : Nat := (q.exps.getD i 0).toNat

/-- The context record's words up to LIVE (Table BY-2). -/
def Seq.record (q : Seq) (live saved : BitVec 40) : List Nat :=
  [q.statWord, q.waitWord] ++ (List.range 8).map q.loopWord ++ (List.range 8).map q.strideWord ++ (List.range 8).map q.callWord ++
  (List.range 16).map q.expWord ++ [q.chainPc.toNat, live.toNat, saved.toNat]

/-- A context record written to unit 0 of the core's share, with its reserved bytes zero (R232 step 1). -/
def State.saveContext (s : State) (b j n : Nat) : Moved :=
  let x := s.range n
  let bs := ((s.seq n).record (x.live.get 0 j) (x.saved.get 0 j)).flatMap (fun w => leBytes 8 w)
  let all := bs ++ List.replicate (1024 - bs.length) 0
  let a := s.shareAddr b j n
  (List.range 8).foldl (fun (m : Moved) i => match m with
    | .ok s =>
      if ¬ (s.backed (a + 128 * i) && hasHome a) then .failed else
      match s.cupWrite (clusterOf n) (a / 128 + i) none (lineOfBytes ((all.drop (128 * i)).take 128)) (BitVec.allOnes 128) false with
      | some s => .ok s
      | none => .waits
    | m => m) (.ok s)

/-- The sequencer state that a context record holds (R232 step 4). -/
def Seq.ofRecord (q : Seq) (w : Nat → Nat) : Seq :=
  let st := w 0
  let nl := bitsOf st 37 34
  let nc := bitsOf st 41 38
  let frame (i : Nat) : LoopFrame := ⟨BitVec.ofNat 18 (w (2 + i)), bitsOf (w (2 + i)) 47 32, bitsOf (w (2 + i)) 63 48, BitVec.ofNat 32 (w (10 + i))⟩
  { q with
    pc := BitVec.ofNat 18 st, fault := bitsOf st 29 22, bank := bitsOf st 44 42, haltCode := BitVec.ofNat 16 (bitsOf st 63 48),
    status := if bitsOf st 33 30 = 6 then .halted else .running, hold := .free,
    loops := ((List.range nl).map frame).reverse, calls := ((List.range nc).map (fun i => BitVec.ofNat 18 (w (18 + i)))).reverse,
    exps := (List.range 16).map (fun i => BitVec.ofNat 32 (w (26 + i))),
    waitTally := bitsOf (w 1) 63 52, waitExp := bitsOf (w 1) 51 48, waitTarget := BitVec.ofNat 32 (w 1),
    chainPc := BitVec.ofNat 18 (w 42), chainLoops := ((List.range nl).map frame).reverse,
    reached := 0, stepsIssued := 0, stepsDone := 0, started := [], scan := {}, reissue := [] }

/-- Words of a context record read back; `none` when a line has to wait or cannot be read. -/
def State.loadRecord (s : State) (b j n : Nat) : Option (State × List Nat) :=
  let a := s.shareAddr b j n
  (List.range 3).foldl (fun m i => match m with
    | none => none
    | some (s, ws) =>
      if ¬ (s.backed (a + 128 * i) && hasHome a) then none
      else (s.cupRead (clusterOf n) (a / 128 + i) none).map (fun (s, c) => (s, ws ++ (List.range 16).map (fun k => lineField c.data (8 * k) 8)))) (some (s, []))

/-! ### Choosing the next stream (R229, R230) -/

/-- A slot's stream is latency-critical. -/
def State.critical (s : State) (b j : Nat) : Bool := (s.img b j).lc

/-- Whether slot `j` is on the cores, or the cores stop or resume for it. -/
def State.onCores (s : State) (b j : Nat) : Bool := (s.bay b).cur == j && ((s.bay b).on || (s.bay b).switch != 0)

/-- A RUNNING slot off the cores that is not dormant (R229). -/
def State.isReady (s : State) (b j : Nat) : Bool := (s.img b j).status == .running && !(s.img b j).dormant && !s.onCores b j

/-- Slots in ascending order after the one that last ran. -/
def slotOrder (cur : Nat) : List Nat := [(cur + 1) % 4, (cur + 2) % 4, (cur + 3) % 4, cur % 4]

/-- R230's choice. -/
def State.chooseNext (s : State) (b : Nat) : Option Nat :=
  let rs := (slotOrder (s.bay b).cur).filter (fun j => s.isReady b j)
  match rs.find? (fun j => s.critical b j) with
  | some j => some j
  | none => rs.head?

/-- The cores are free: the target of a pending switch, or the next ready slot, takes them (Table BY-1). -/
def State.nextTurn (s : State) (b : Nat) : State :=
  let t0 := (s.bay b).target
  let out := if (s.bay b).on ∨ (s.bay b).switch ≠ 0 then some (s.bay b).cur else none
  let s := s.setBay b { (s.bay b) with on := false, switch := 0, target := none, yielding := false, stopped := [], resuming := [] }
  let t := match t0 with
    | some t => if s.isReady b t then some t else s.chooseNext b
    | none => s.chooseNext b
  match t with
  | none => s
  | some t =>
    let s := s.setBay b { (s.bay b) with switch := 2, target := some t, cur := t, resuming := s.coresOf b, outgoing := out }
    (s.clustersOf b).foldl (fun s g => s.wantWake g) s

/-- A slot became ready (Table BY-1, Table BY-5a). -/
def State.becameReady (s : State) (b j : Nat) : State :=
  let y := s.bay b
  if ¬ s.isReady b j then s
  else if ¬ y.on ∧ y.switch = 0 then s.nextTurn b
  else if ¬ s.critical b j then s
  else if y.switch = 0 ∧ ¬ s.critical b y.cur then s.setBay b { y with switch := 1, target := s.chooseNext b }
  else if y.switch = 1 ∧ y.stopped.isEmpty then
    match y.target with
    | some t => if s.critical b t then s else s.setBay b { y with target := some j }
    | none => s.setBay b { y with target := some j }
  else s

/-- A write of control word `i` wakes the dormant slots that name it (R228). -/
def State.wakeSlots (s : State) (b i : Nat) : State :=
  (List.range 4).foldl (fun s j =>
    if (s.img b j).dormant && (s.reg Reg.BAY_WAKE [b, j]).getLsbD i then
      (s.setImg b j { (s.img b j) with dormant := false }).becameReady b j
    else s) s

/-- Control words that a write of `len` bytes from an address touches: Bay and word (R227). -/
def State.wordsAt (s : State) (a len : Nat) : List (Nat × Nat) :=
  match regionOf a with
  | .pantry n off =>
    match s.bayOfCore n with
    | some b =>
      if s.relCore b n ≠ 0 then []
      else ((List.range 16).filter (fun i => decide (off < 0x27FF80 + 8 * i + 8) && decide (0x27FF80 + 8 * i < off + len))).map (fun i => (b, i))
    | none => []
  | _ => []

/-- A store of any writer to a control word wakes the slots that name it (R228). -/
def State.stored (s : State) (a len : Nat) : State := (s.wordsAt a len).foldl (fun s e => s.wakeSlots e.1 e.2) s

/-! ### Ends of a stream's turn -/

/-- A stop or a switch is pending for the stream of core `n` (R69). -/
def State.stopPending (s : State) (n : Nat) : Bool :=
  match (s.seq n).stream with
  | some (b, j) => (s.img b j).status == .stopping || ((s.bay b).switch == 1 && (s.bay b).cur == j)
  | none => false

/-- The overrun of a stream whose slice had ended, once its last core has stopped (R236). -/
def State.overrun (s : State) (b j : Nat) : State :=
  match (s.bay b).sliceOver with
  | none => s
  | some t =>
    let o := s.now - t
    let x := s.img b j
    let s := s.setBay b { (s.bay b) with sliceOver := none }
    let s := s.setImg b j { x with debit := o }
    let m := max (s.fld Reg.BAY_OVR [b, j] F.BAY_OVR_MAX) (min o 0xFFFFFFFF)
    let s := (s.setFld Reg.BAY_OVR [b, j] F.BAY_OVR_LAST (min o 0xFFFFFFFF)).setFld Reg.BAY_OVR [b, j] F.BAY_OVR_MAX m
    s.when (decide (x.cheapBound + x.overrunBound < 10 * o)) (fun s => s.bayEvent b 8)

/-- A slot enters FAULTED (Table BY-4): its cores stop at once, its ranges go, the tenant is told, the next slot takes the cores. -/
def State.slotFault (s : State) (b j bits : Nat) : State :=
  let on := s.onCores b j
  let s := if on then (s.coresOf b).foldl (fun s n =>
    if (s.seq n).stream = some (b, j) ∧ (s.seq n).status ≠ .faulted then s.stopCore n .aborted else s) s else s
  let s := (s.setImg b j { (s.img b j) with status := .faulted, later := 0 }).releaseRanges b j
  let s := (s.bayEventTold b (bits ||| 4) j).spnSlot b
  if on then (s.overrun b j).nextTurn b else s

/-- A record of a core or its sequencer, and the fault of its stream (R71). -/
def State.seqFault (s : State) (n code : Nat) : State :=
  let s := ((s.undoRunAhead n).abortStep n 2).endGroups n
  let q := s.seq n
  let s := s.setSeq n { q with status := .faulted, hold := .free, fault := code % 256 }
  let s := s.logCore n { kind := 0x03, index := n, cls := .contained, address := q.pc.toNat, syndrome := code }
  match q.stream with
  | some (b, j) => s.slotFault b j 0
  | none => s

/-- Every core of the stream has stopped or halted: the slot enters STOPPED or HALTED, or goes off the cores (R82, R232, Table BY-1). -/
def State.allStopped (s : State) (b : Nat) : State :=
  let j := (s.bay b).cur
  let x := s.img b j
  let halted := (s.coresOf b).all (fun n => x.haltedCores.contains n)
  let s := s.overrun b j
  if halted then ((s.setImg b j { (s.img b j) with status := .halted }).bayEvent b 1).nextTurn b
  else if x.status = .stopping then ((s.setImg b j { (s.img b j) with status := .stopped }).bayEvent b 1).nextTurn b
  else s.nextTurn b

/-- Whether every core of the stream on the cores has stopped or halted. -/
def State.allDone (s : State) (b : Nat) : Bool :=
  (s.coresOf b).all (fun n => (s.bay b).stopped.contains n || (s.img b (s.bay b).cur).haltedCores.contains n)

/-- Step 1 of R232 on one core: the live ranges become the slot's, its others are released, the context record is written. -/
def State.recordStop (s : State) (b j n : Nat) (live : BitVec 40) : Moved :=
  let x := s.range n
  let u := s.shareUnits b j
  let kept := (onesOf 40 live.toNat).filter (fun r => decide (unitOf live r < u))
  let holders := kept.foldl (fun h r => Tbl.set h none r (some j)) (x.holders.filter (fun e => e.2 != some j))
  (s.setRange n { x with holders := holders, live := x.live.set 0 j live }).saveContext b j n

/-- A spill area failed: its slot faults (Table BY-4). -/
def State.spillFault (s : State) (b j n : Nat) : State :=
  (s.log { kind := 0x12, index := b, cls := .contained, address := s.shareAddr b j n, bay := b, inst := s.instOfBay b }).slotFault b j 0x20

/-- A core stops at its CHEAP or YIELD (R69, R70): run-ahead undone, context and live ranges recorded, and at the last core the
slot moves on. `none`: the record's line has to wait. -/
def State.stopHere (s : State) (n : Nat) (live : BitVec 40) : Option State :=
  match (s.seq n).stream with
  | none => none
  | some (b, j) =>
    let s := s.undoRunAhead n
    let s := s.setSeq n { (s.seq n) with status := .stopped, hold := .free, live := live }
    match s.recordStop b j n live with
    | .waits => none
    | .failed => some (s.spillFault b j n)
    | .ok s =>
      let y := s.bay b
      let s := s.setBay b { y with stopped := if y.stopped.contains n then y.stopped else n :: y.stopped }
      some (if s.allDone b then s.allStopped b else s)

/-- A core halts (R70). -/
def State.haltHere (s : State) (n : Nat) (code : BitVec 16) : Option State :=
  match (s.seq n).stream with
  | none => none
  | some (b, j) =>
    let s := s.undoRunAhead n
    let s := s.setSeq n { (s.seq n) with status := .halted, hold := .free, haltCode := code }
    match s.recordStop b j n 0 with
    | .waits => none
    | .failed => some (s.spillFault b j n)
    | .ok s =>
      let x := s.img b j
      let s := s.setImg b j { x with haltedCores := if x.haltedCores.contains n then x.haltedCores else n :: x.haltedCores }
      some (if s.allDone b then s.allStopped b else s)

/-- ABORT of a slot on or off the cores (R82, R83). -/
def State.abortSlot (s : State) (b j : Nat) : State :=
  let on := s.onCores b j
  let s := if on then (s.coresOf b).foldl (fun s n => if (s.seq n).stream = some (b, j) then (s.stopCore n .aborted).abortMoves n else s) s else s
  let s := (s.setImg b j { (s.img b j) with status := .aborted, later := 0, dormant := false }).releaseRanges b j
  let s := s.spnSlot b
  if on then (s.overrun b j).nextTurn b else s

/-- STOP of a RUNNING slot: at once off the cores, else at each core's next CHEAP or YIELD (R82, R83). -/
def State.stopSlot (s : State) (b j : Nat) : State :=
  if s.onCores b j then s.setImg b j { (s.img b j) with status := .stopping }
  else (s.setImg b j { (s.img b j) with status := .stopped, dormant := false }).bayEvent b 1

/-- A slot that is the target of a switch whose cores have not all resumed (R83). -/
def State.resuming (s : State) (b j : Nat) : Bool := (s.bay b).switch == 2 && (s.bay b).cur == j

end Sys2Proof.Machine
end

