-- ==== Sys2Proof/Machine/Steps.lean ====
section
/-! DEFINITION. A Step's issue, start, fault and retirement (R41-R45, R51, R53, R59, R77), and the increments of a descriptor (R73, R196). -/
namespace Sys2Proof.Machine

/-! ### Increments of a Porter descriptor -/

/-- The core that a descriptor acts for (LCORE of Table MM-9): the posting core, or the first of the cluster for channel 0. -/
def actingCore (p : Nat) (d : PDesc) : Nat := d.core.getD (if 512 ≤ p then (p - 512) * 8 else p)

/-- A remote increment as RTINC messages of at most 65,535 (Table CH-4, R293). -/
def State.rtinc (s : State) (who : Agent) (n dev core tally : Nat) : Nat → Nat → State
  | 0, _ => s
  | k + 1, amount =>
    if amount = 0 then s else
    let epoch := match s.bayOfCore n with
      | some b => s.fld Reg.CHU_EPOCH [b] F.CHU_EPOCH_EPOCH
      | none => 0
    let m : ChuteMsg := { type := 7, sdev := s.fld Reg.CHU_SPAN [] F.CHU_SPAN_ID, ddev := dev, score := n, dcore := core, epoch := epoch,
                          tally := tally, addr := min amount 65535 }
    (s.chutePush m who none).rtinc who n dev core tally k (amount - 65535)

/-- An increment of a descriptor of channel `c` of Porter `p` (Table MM-5, R196). -/
def State.porterTally (s : State) (p c : Nat) (d : PDesc) (amount : Nat) : State :=
  let n := actingCore p d
  if amount = 0 then s
  else if d.tremote then s.rtinc (.porter p c) n d.tdev d.tcore d.tally (amount / 65535 + 1) amount
  else s.addTally d.tcore d.tally { amount := amount, kind := if p = 1023 then 7 else 4, scope := 5, core := n }

/-- Held increments of prefetch MOVEs whose Steps have committed apply (R73). -/
def State.releaseChan (s : State) (n p c : Nat) : State :=
  let x := s.chan p c
  let ok (a : Active) : Bool := a.desc.core == some n && (match a.desc.step with | some k => decide (k ≤ (s.seq n).stepsDone) | none => false)
  let due := x.holds.filter ok
  let s := due.foldl (fun s a => s.porterTally p c a.desc a.held) s
  let y := s.chan p c
  let left := y.holds.filter (fun a => !ok a)
  let s := s.setChan p c { y with holds := left, status := if y.status = .holding ∧ left.isEmpty then .idle else y.status }
  match (s.chan p c).act with
  | some a => if ok a then (s.porterTally p c a.desc a.held).setChan p c { (s.chan p c) with act := some { a with held := 0 } } else s
  | none => s

def State.releaseHeld (s : State) (n : Nat) : State :=
  (portersOf n).foldl (fun s p => ((s.porter p).chans.map (·.1)).foldl (fun s c => s.releaseChan n p c) s) s

/-! ### Descriptor banks (R56, R59) -/

/-- The code region of core `n` for the stream on it (Table SQ-6). -/
def State.region (s : State) (n : Nat) : Option Region :=
  match (s.seq n).stream with
  | some (b, j) => (s.img b j).regions.find? (fun r => r.core == s.relCore b n)
  | none => none

/-- Byte range of bank `k` in the region: up to the next higher base, or the region's end. -/
def Region.bank (r : Region) (k : Nat) : Nat × Nat :=
  let lo := 32 * r.banks.getD k 0
  let ups := (r.banks.map (32 * ·)).filter (fun x => decide (lo < x))
  (lo, min r.len (ups.foldl min r.len))

/-- Engines of a core that are not usable. -/
def State.retired (s : State) (n : Nat) : List Nat := (List.range 4).filter (fun e => !s.engineUsable n e)

/-- BANK under R59; `none` when two or more engines are retired. -/
def State.bankOf (s : State) (n : Nat) : Option Nat :=
  match s.retired n with
  | [] => some 0
  | [e] => some (e + 1)
  | _ => none

/-! ### Checks at issue (Table EN-8) -/

/-- Operand classes of Table EN-6. -/
def opKnown (o : Nat) : Bool := [0x01, 0x02, 0x03, 0x10, 0x11, 0x20, 0x21].contains o
def opMul (o : Nat) : Bool := o == 1 || o == 2 || o == 3
def opCopy (o : Nat) : Bool := o == 0x20 || o == 0x21

/-- Code 0x02: reserved bits, fields that the opcode never uses, epilogue bits that it does not allow. -/
def StepIssue.unusedBits (d : StepIssue) : Bool :=
  let o := d.field 7 0
  let nz (hi lo : Nat) : Bool := d.field hi lo != 0
  nz 31 31 ||
  (o != 2 && nz 255 240) ||
  (o != 2 && o != 3 && nz 239 232) ||
  (o != 3 && nz 231 225) ||
  (!opMul o && (nz 95 80 || nz 15 12)) ||
  (o == 2 && (nz 30 24 || nz 23 20 || nz 127 112 || nz 159 144)) ||
  (opCopy o && nz 30 29)

/-- Code 0x03: pair and formats. -/
def StepIssue.badFormats (d : StepIssue) : Bool :=
  let o := d.field 7 0
  let a := d.field 11 8
  let b := d.field 15 12
  let out := d.field 19 16
  let res := d.field 23 20
  let outOk := if o = 2 then out == 6 || out == 7 else [0, 1, 4, 6, 7].contains out
  let resOk := d.field 27 27 == 0 || [0, 1, 6, 7].contains res
  let pairOk := if opMul o then
      (match elemOfCode a, elemOfCode b with
        | some x, some y => !isCodebook x && pairAllowed x y && (o == 1 || b == 0 || b == 1)
        | _, _ => false)
    else decide (a ≤ 7)
  !(outOk && resOk && pairOk)

/-- Code 0x06 for what the descriptor alone shows. -/
def StepIssue.badKeep (d : StepIssue) : Bool :=
  let cnt := d.field 63 53
  (d.field 30 30 == 1 && (cnt != 0 || d.field 24 24 == 1 || d.field 26 26 == 1 || d.field 27 27 == 1)) ||
  (d.field 29 29 == 1 && cnt != 0) ||
  (d.field 7 0 == 0x21 && d.field 40 32 != 63)

def StepIssue.maskBits (d : StepIssue) : Nat := d.field 179 176
def StepIssue.takes (d : StepIssue) (e : Nat) : Bool := d.maskBits.testBit e
def StepIssue.accIn (d : StepIssue) : Bool := d.field 29 29 == 1
def StepIssue.accOut (d : StepIssue) : Bool := d.field 30 30 == 1

/-- End of the last tile list that the Step reads (R44). -/
def StepIssue.listEnd (d : StepIssue) : Nat :=
  64 * d.field 175 160 + 16 * (d.field 63 53 + 1) * (d.maskBits.log2 + 1)

/-- The checks of Table EN-8 made at issue, lowest code first (R51); 0 when the Step is well formed. -/
def State.issueFault (s : State) (n : Nat) (d : StepIssue) (poisoned : Bool) : Nat :=
  let o := d.field 7 0
  let tab := 64 * d.field 159 144
  let act := d.field 26 26 == 1
  if poisoned then 0x0A
  else if ¬ opKnown o ∨ 0xB ≤ d.field 11 8 ∨ 0xB ≤ d.field 15 12 ∨ 0xB ≤ d.field 19 16 ∨ (d.field 27 27 = 1 ∧ 0xB ≤ d.field 23 20) then 0x01
  else if d.unusedBits then 0x02
  else if d.badFormats then 0x03
  else if 8 ≤ d.field 15 12 ∧ d.field 52 41 % 2 = 0 then 0x04
  else if d.maskBits = 0 ∨ (o = 3 ∧ d.field 231 225 = 0) then 0x05
  else if d.badKeep then 0x06
  else if act ∧ tab + 12352 ≤ pantrySize ∧ ¬ actHeaderOk (s.pantry n tab 64) then 0x07
  else if pantrySize < d.listEnd ∨ (act ∧ pantrySize < tab + 12352) then 0x09
  else if act ∧ s.pantryPoison n tab 12352 then 0x0A
  else 0

/-! ### Start and faults of a Step -/

/-- A Step fault (R53): record, LAST_END 1, and the sequencer stops with code 0x0A at the STEP. -/
def State.stepFault (s : State) (n code : Nat) (src : ErrRec) : State :=
  let u := s.stepUnit n
  let (sq, pc) := match u.running with
    | some r => (r.seq, r.pc)
    | none => (u.lastSeq, (s.seq n).pc)
  let s := s.setStep n ({ u with running := none, queued := none, lastSeq := sq, lastEnd := 1, faultCode := code, poison := false,
                                 failing := 0 }).clearEngines
  let s := s.logCore n { src with cls := .contained, address := sq.toNat, syndrome := code }
  let s := s.setSeq n { (s.seq n) with pc := pc }
  s.seqFault n 0x0A

/-- The record of a Step fault found at issue: the Pantry for code 0x0A, else the core. -/
def issueSource (n code : Nat) : ErrRec := { kind := if code = 0x0A then 0x05 else 0x03, index := n, cls := .contained }

/-- Tile entry `k` of engine `e`'s list (R44). -/
def State.tileEntry (s : State) (n : Nat) (d : StepIssue) (e k : Nat) : BitVec 128 × Bool :=
  let a := 64 * d.field 175 160 + 16 * ((d.field 63 53 + 1) * e + k)
  (BitVec.ofNat 128 (s.pantryNat n a 16), s.pantryPoison n a 16)

def entryRows (x : BitVec 128) : Nat := fieldOf x 72 64
def entryValid (x : BitVec 128) : Bool := bitAt x 73

/-- The kept-tile checks of code 0x06 (R45, R51). -/
def State.keptOk (s : State) (n : Nat) (d : StepIssue) : Bool :=
  !d.accIn || ((List.range 4).filter d.takes).all (fun e => (s.engine n e).kept == some (entryRows (s.tileEntry n d e 0).1))

/-- An issued Step becomes the running one: its issue faults are raised, kept tiles that it does not continue are discarded, and its engines
begin their lists (R44, R45, R51). -/
def State.startStep (s : State) (n : Nat) (d : StepIssue) : State :=
  let u := s.stepUnit n
  let s := s.setStep n { u with running := some d, curSeq := d.seq, poison := false, failing := 0 }
  let code := if d.fault ≠ 0 then d.fault else if s.keptOk n d then 0 else 0x06
  if code ≠ 0 then s.stepFault n code (issueSource n code) else
  let u := s.stepUnit n
  s.setStep n ((List.range 4).foldl (fun u e =>
    let x := u.engine e
    let keep := d.accIn && d.takes e
    u.setEngine e { acc := if keep then x.acc else [], kept := if keep then x.kept else none }) u)

/-- A Step enters a free place (R58). -/
def State.issueStep (s : State) (n : Nat) (d : StepIssue) : State :=
  let u := s.stepUnit n
  match u.running with
  | none => s.startStep n d
  | some _ => s.setStep n { u with queued := some d }

/-- A place is free for a Step (R58). -/
def State.stepRoom (s : State) (n : Nat) : Bool := (s.stepUnit n).running.isNone || (s.stepUnit n).queued.isNone

/-- The Step that a STEP at `pc` with SLOT `slot` names, under the present bank: a sequencer fault code, or the issue (R59, R60). -/
def State.readStep (s : State) (n : Nat) (pc : BitVec 18) (slot : Nat) (loops : List LoopFrame) (ord : Nat) : Sum Nat (Nat × StepIssue) :=
  match s.bankOf n, s.region n with
  | some k, some r =>
    let (lo, hi) := r.bank k
    let a := lo + 32 * slot
    if hi < a + 32 then .inl 0x03 else
    let raw := BitVec.ofNat 256 (s.pantryNat n (r.base + a) 32)
    let poisoned := s.pantryPoison n (r.base + a) 32
    let seq := loops.foldl (fun q f => q + BitVec.ofNat 32 f.index * f.sstride) (BitVec.ofNat 32 (fieldOf raw 223 192))
    let d : StepIssue := { desc := raw, seq := seq, pc := pc, ord := ord }
    let d := { d with chainPc := if d.accIn then (s.seq n).chainPc else pc, chainLoops := if d.accIn then (s.seq n).chainLoops else loops }
    if (s.retired n).any d.takes then .inl 0x0C else .inr (k, { d with fault := s.issueFault n d poisoned })
  | none, _ => .inl 0x0C
  | _, none => .inl 0x02

/-! ### Retirement of an engine (R31, R77) -/

/-- An issued Step that is issued again. -/
def StepIssue.again (d : StepIssue) : Reissue := ⟨d.pc, d.seq, d.ord, d.chainPc, d.chainLoops⟩

/-- STEPs of the accumulator chain of `d` from its chain PC through it, with their seqs and ordinals, that R77 issues again. -/
def chainSteps (d : StepIssue) (seqOf : Nat → Word) : List Reissue :=
  let lo := d.chainPc.toNat
  let hi := d.pc.toNat
  (List.range (hi + 1 - lo)).map (fun i => { d.again with pc := BitVec.ofNat 18 (lo + i), seq := seqOf (lo + i), ord := d.ord - (hi - lo - i) })

/-- The seq that the STEP at `pc` presented: its descriptor's SEQ in the present bank, with the chain's loop state (R60, R77). -/
def State.seqAt (s : State) (n : Nat) (loops : List LoopFrame) (pc : Nat) : Word :=
  match s.region n with
  | none => 0
  | some r =>
    let w := s.pantryNat n (r.base + 8 * pc) 8
    match s.readStep n (BitVec.ofNat 18 pc) (bitsOf w 55 40) loops 0 with
    | .inr (_, d) => d.seq
    | .inl _ => 0

/-- An engine leaves service. With a Step running, the core abandons it and issues it again on the three-engine bank, or faults when a
second engine of the core goes (Table NM-9, R77). -/
def State.loseEngine (s : State) (n e : Nat) : State :=
  let u := s.stepUnit n
  let q := s.seq n
  match u.running with
  | none => s.retireEngine n e
  | some d =>
    let chain := if d.accIn then chainSteps d (s.seqAt n d.chainLoops) else [d.again]
    let again := chain ++ (match u.queued with | some k => [k.again] | none => [])
    let s := s.retireEngine n e
    let s := s.setStep n ({ u with running := none, queued := none, lastSeq := d.seq, lastEnd := 3, poison := false, failing := 0 }).clearEngines
    match s.bankOf n with
    | some k => s.setSeq n { q with bank := k, reissue := again ++ q.reissue }
    | none =>
      let s := s.logCore n { kind := 0x03, index := n, cls := .contained, retired := true }
      s.seqFault n 0x0C

end Sys2Proof.Machine
end

