-- ==== Sys2Proof/Machine/Engines.lean ====
section
/-! DEFINITION. The matrix engines: tiles, rows, the output stage and commit (03_matrix_engines_and_steps.md R33-R53; R24-R32). -/
namespace Sys2Proof.Machine

/-! ### Operands in the Pantry -/

/-- Fields of the running Step that the engines use. -/
def StepIssue.op (d : StepIssue) : Nat := d.field 7 0
def StepIssue.fmtA (d : StepIssue) : Nat := d.field 11 8
def StepIssue.fmtB (d : StepIssue) : Nat := d.field 15 12
def StepIssue.fmtOut (d : StepIssue) : Nat := d.field 19 16
def StepIssue.fmtRes (d : StepIssue) : Nat := d.field 23 20
def StepIssue.passes (d : StepIssue) : Nat := d.field 52 41 + 1
def StepIssue.mRows (d : StepIssue) : Nat := d.field 40 32 + 1
def StepIssue.resEn (d : StepIssue) : Bool := d.field 27 27 == 1
def StepIssue.biasEn (d : StepIssue) : Bool := d.field 24 24 == 1

def aBase (d : StepIssue) (t : BitVec 128) : Nat := 64 * (d.field 79 64 + fieldOf t 15 0)
def bBase (d : StepIssue) (t : BitVec 128) : Nat := 64 * (d.field 95 80 + fieldOf t 31 16)
def outBase (d : StepIssue) (t : BitVec 128) : Nat := 64 * (d.field 111 96 + fieldOf t 47 32)
def resBase (d : StepIssue) (t : BitVec 128) : Nat := 64 * (d.field 127 112 + fieldOf t 47 32)
def biasBase (d : StepIssue) (t : BitVec 128) : Nat := 64 * (d.field 143 128 + fieldOf t 63 48)

/-- Bytes of a codebook group (Table NM-3) and index width. -/
def groupBytes : ElemFmt → Nat
  | .cb2 => 36
  | .cb3 => 56
  | .cb4 => 80
  | _ => 0

/-- Bytes of the B operand of a tile (R39, R46, R47). -/
def bBytes (d : StepIssue) : Nat :=
  match d.op with
  | 1 => match elemOfCode d.fmtB with
    | some k => if isCodebook k then 64 * groupBytes k * (d.passes / 2) else (64 * rowBytes d.fmtB + 64 * scaleBytes d.fmtB) * d.passes
    | none => 0
  | 2 => 64 * 64 * d.passes
  | 3 => 64 * d.field 231 225 * (64 * d.passes - 1) + 64
  | _ => 0

/-- Code 0x09 at tile fetch: some range of the tile ends past the Pantry. -/
def tileOutside (d : StepIssue) (t : BitVec 128) : Bool :=
  let rows := entryRows t + 1
  let slabs := if opCopy d.op then d.passes else 1
  let past (a n : Nat) : Bool := n != 0 && decide (pantrySize < a + n)
  past (aBase d t) (d.passes * slabBytes d.fmtA d.mRows) || past (bBase d t) (bBytes d) ||
  (!d.accOut && past (outBase d t) (slabs * slabBytes d.fmtOut rows)) ||
  (d.resEn && past (resBase d t) (slabs * slabBytes d.fmtRes rows)) ||
  (d.biasEn && past (biasBase d t) (if d.field 25 25 = 1 then 128 else 256)) ||
  (d.op == 2 && past (biasBase d t) (4 * rows))

/-- Bytes and poison of a Pantry range. -/
def State.take (s : State) (n a len : Nat) : List Byte × Bool := (s.pantry n a len, s.pantryPoison n a len)

/-- Row `m` of A slab `p`: element bytes, scale bytes, poison (R38). -/
def State.aRow (s : State) (n : Nat) (d : StepIssue) (t : BitVec 128) (p m : Nat) : List Byte × List Byte × Bool :=
  let slab := aBase d t + p * slabBytes d.fmtA d.mRows
  let (e, pe) := s.take n (slab + m * rowBytes d.fmtA) (rowBytes d.fmtA)
  let (c, pc) := s.take n (slab + d.mRows * rowBytes d.fmtA + 2 * m) (scaleBytes d.fmtA)
  (e, c, pe || pc)

/-- Index field `i` of a packed group (R16): index bits after the codebook entries. -/
def groupIndex (g : List Byte) (b i : Nat) : Nat := packedElem b (g.drop (2 ^ b)) i

/-- The 64 weights of column `c` in pass `p` with the two block scales, and poison (R17, R39, R46, R47). -/
def State.bColumn (s : State) (n : Nat) (d : StepIssue) (t : BitVec 128) (p c : Nat) : List Nat × Nat × Nat × Bool :=
  let base := bBase d t
  let kv := d.field 239 232
  match d.op, elemOfCode d.fmtB with
  | 1, some k =>
    if isCodebook k then
      let g := groupBytes k
      let (bs, q) := s.take n (base + (p / 2) * (64 * g) + c * g) g
      ((List.range 64).map (fun i => byteAt bs (groupIndex bs (elemBits k) (64 * (p % 2) + i))), 127, 127, q)
    else
      let rb := rowBytes d.fmtB
      let rec0 := base + p * (64 * rb + 64 * scaleBytes d.fmtB)
      let (bs, q) := s.take n (rec0 + c * rb) rb
      let (sc, q2) := s.take n (rec0 + 64 * rb + 2 * c) (scaleBytes d.fmtB)
      ((List.range 64).map (packedElem (elemBits k) bs), byteAt sc 0, byteAt sc 1, q || q2)
  | 2, _ =>
    let (bs, q) := s.take n (base + c * (64 * d.passes) + 64 * p) 64
    (bs.map (·.toNat), kv, kv, q)
  | 3, _ =>
    let cell (i : Nat) := s.take n (base + 64 * d.field 231 225 * (64 * p + i) + c) 1
    ((List.range 64).map (fun i => byteAt (cell i).1 0), kv, kv, (List.range 64).any (fun i => (cell i).2))
  | _, _ => ([], 127, 127, false)

/-- Element `i` of a row as FP32: MX elements times their scale, BF16 and FP32 as they are (R24, R48, R49). -/
def rowToF32 (f : Nat) (e c : List Byte) (i : Nat) : Word :=
  if f = 7 then f32At e (4 * i)
  else if f = 6 then bf16ToF32 (ofLeBytes ((e.drop (2 * i)).take 2))
  else match elemOfCode f with
    | some .mxint8 =>
      let v := signExt 8 (byteAt e i)
      if byteAt c (i / 32) = 255 then f32Nan else toF32 (.fin (v < 0) v.natAbs (-6 + (byteAt c (i / 32) : Int) - 127))
    | some k => mxToF32 k (packedElem (elemBits k) e i) (byteAt c (i / 32))
    | none => 0

/-! ### Row entry -/

/-- The result of one column for one row of a pass: accumulator after it, residue mismatch, shadow mismatch. -/
structure ColumnOut where
  acc : Word
  residue : Bool
  shadow : Bool

/-- One block of one column (R19, R22, R29, R30) with its injected errors. -/
def columnBlock (ka kb : ElemFmt) (as bs : List Nat) (sa sb : Nat) (acc : Word) (delta : Int) (sh : Option Word) : ColumnOut :=
  let out (main : Word) (residue : Bool) (big : Word) : ColumnOut :=
    ⟨main, residue, match sh with
      | some w => !shadowPass main w (cancels acc big main)
      | none => false⟩
  if ka = .bf16 then
    let ps := (as.zip bs).map (fun x => bfProduct x.1 x.2)
    let main := accumulateBf16 acc ps
    out main false (accumulateBf16 0 ps)
  else
    let ps := (as.zip bs).map (fun x => (elemVal ka x.1, elemVal kb x.2))
    let (sum, sp) := blockSum ps
    let r := blockResult (sum + delta) sp (elemUnit ka) (elemUnit kb) sa sb
    out (accumulate acc r) ((sum + delta) % 7 != residueProducts ps % 7) (toF32 r)

def findSum (xs : List SumError) (c b : Nat) : Int := ((xs.find? (fun x => x.col.val == c && x.blk.val == b)).map (·.delta)).getD 0
def findShadow (xs : List ShadowError) (c b : Nat) : Option Word := (xs.find? (fun x => x.col.val == c && x.blk.val == b)).map (·.shadow)

/-- Both blocks of column `c`: the lower one first (R33). -/
def columnPass (ka kb : ElemFmt) (as : List Nat) (sa : Nat × Nat) (col : List Nat × Nat × Nat × Bool) (acc : Word) (c : Nat)
    (sums : List SumError) (shadows : List ShadowError) : ColumnOut :=
  let (bs, s0, s1, _) := col
  let lo := columnBlock ka kb (as.take 32) (bs.take 32) sa.1 s0 acc (findSum sums c 0) (findShadow shadows c 0)
  let hi := columnBlock ka kb (as.drop 32) (bs.drop 32) sa.2 s1 lo.acc (findSum sums c 1) (findShadow shadows c 1)
  ⟨hi.acc, lo.residue || hi.residue, lo.shadow || hi.shadow⟩

/-- Accumulator entry of row `m`, column `c` of a tile in half `h`. -/
def accKey (h m c : Nat) : Nat := 64 * (256 * h + m) + c

/-- A row of a pass goes through the array: the engine's accumulators after it, mismatches, poison (R34, R48, R49). -/
def State.rowPass (s : State) (n : Nat) (d : StepIssue) (x : Engine) (t : Tile) (sums : List SumError) (shadows : List ShadowError) :
    Tbl Word × Bool × Bool × Bool :=
  let (e, c, pa) := s.aRow n d t.entry t.pass t.row
  let cols := List.range 64
  if opMul d.op then
    match elemOfCode d.fmtA, elemOfCode d.fmtB with
    | some ka, some kb =>
      let as := (List.range 64).map (packedElem (elemBits ka) e)
      cols.foldl (fun (r : Tbl Word × Bool × Bool × Bool) col =>
        let b := s.bColumn n d t.entry t.pass col
        let k := accKey t.half t.row col
        let o := columnPass ka kb as (byteAt c 0, byteAt c 1) b (r.1.get 0 k) col sums shadows
        (r.1.set 0 k o.acc, r.2.1 || o.residue, r.2.2.1 || o.shadow, r.2.2.2 || b.2.2.2)) (x.acc, false, false, pa)
    | _, _ => (x.acc, false, false, pa)
  else
    cols.foldl (fun (r : Tbl Word × Bool × Bool × Bool) col =>
      let v := rowToF32 d.fmtA e c col
      let k := if d.op = 0x21 then accKey t.half col t.row else accKey t.half t.row col
      let old := r.1.get 0 k
      if opCopy d.op ∨ (t.pass = 0 ∧ ¬ d.accIn) then (r.1.set 0 k v, r.2)
      else if d.op = 0x11 then (r.1.set 0 k (f32Max old v), r.2)
      else
        let w := f32Add old v
        let bad := match findShadow shadows col 0 with
          | some sh => !shadowPass w sh (cancels old v w)
          | none => false
        (r.1.set 0 k w, r.2.1, r.2.2.1 || bad, r.2.2.2)) (x.acc, false, false, pa)

/-- The kept sums a tile began from; they are restored at a replay (R19, R31, log 20). -/
def Tile.begin (t : Tile) (acc : Tbl Word) : Tbl Word :=
  let mine := (List.range 512).map (fun m => 64 * (256 * t.half + m))
  let rest := acc.filter (fun e => !(decide (mine.headD 0 ≤ e.1) && decide (e.1 < mine.headD 0 + 64 * (entryRows t.entry + 1))))
  t.acc0.foldl (fun a e => Tbl.set a 0 e.1 e.2) rest

/-- A tile starts again from its first pass (R31). -/
def Tile.again (t : Tile) : Tile := { t with pass := 0, row := 0, outSlab := 0, outRow := 0, replay := true, checked := false, poison := false }

def F.replayCount (e : Nat) : Fld := ⟨12 * e + 11, 12 * e⟩

/-- A mismatch on a tile (Table NM-9): the first replays it, one on the replay retires the engine. `inDrain`: at the output stage. -/
def State.mismatch (s : State) (n e : Nat) (t : Tile) (inDrain dual : Bool) : State :=
  let x := s.engine n e
  let src := 4 * n + e
  let seq := (s.stepUnit n).curSeq.toNat
  let rc : ErrRec := { kind := 0x01, index := src, cls := .corrected, address := seq, dual := dual, aux := if dual then 0x800 + src else 0 }
  if t.replay then
    (s.logCore n { rc with cls := .contained, retired := true }).loseEngine n e
  else
    let undo := inDrain && x.enter.isSome
    let x' := { x with half := if undo then 1 - x.half else x.half, acc := t.begin x.acc, enter := some t.again, drain := if inDrain then none else x.drain,
                         entry := if undo then x.entry - 1 else x.entry }
    let s := { s with replays := s.replays.set 0 src (s.replays.get 0 src + 1) }
    ((s.setEngine n e x').bump Reg.CST_ARITH_CNT [n] (F.replayCount e) 1).logCore n rc

/-- Rows that one pass of a tile enters. -/
def passRows (d : StepIssue) (t : Tile) : Nat := if d.op = 0x21 then 64 else entryRows t.entry + 1

/-- The tile has entered every row it can before it drains: every pass, or its slab for COPY and COPY_T. -/
def entered (d : StepIssue) (t : Tile) : Bool := if opCopy d.op then decide (t.outSlab < t.pass) || decide (d.passes ≤ t.pass) else decide (d.passes ≤ t.pass)

/-- A tile that has entered its rows moves to the output stage when that is free (R36). -/
def toDrain (d : StepIssue) (x : Engine) : Engine :=
  match x.enter, x.drain with
  | some t, none => if entered d t then { x with enter := none, drain := some t } else x
  | _, _ => x

/-- The row after this one. -/
def Tile.nextRow (d : StepIssue) (t : Tile) : Tile :=
  if t.row + 1 < passRows d t then { t with row := t.row + 1 } else { t with row := 0, pass := t.pass + 1 }

def execEngineRowEntry (n : CoreId) (e : EngineId) (sums : List SumError) (shadows : List ShadowError) (s : State) :
    Host.Outcome State Fault Refusal :=
  .next (s.keepPilot (match (s.stepUnit n).running, (s.engine n e).enter with
    | some d, some t =>
      if entered d t then s else
      let x := s.engine n e
      let (acc, residue, shadow, poison) := s.rowPass n d x t sums shadows
      if residue || shadow then s.mismatch n e t false (residue && shadow)
      else s.setEngine n e (toDrain d { x with acc := acc, enter := some { t.nextRow d with poison := t.poison || poison } })
    | _, _ => s))

/-! ### Tile fetch -/

/-- The codes of Table EN-8 found at tile fetch, lowest first; 0 for none. -/
def fetchFault (d : StepIssue) (t : BitVec 128) (poison : Bool) : Nat :=
  if poison then 0x0A
  else if d.op = 0x21 ∧ entryRows t ≠ 63 then 0x06
  else if d.mRows ≤ entryRows t then 0x08
  else if tileOutside d t then 0x09
  else 0

/-- No tile of the core's engines is at work. -/
def StepUnit.quiet (u : StepUnit) : Bool := (List.range 4).all (fun e => (u.engine e).enter.isNone && (u.engine e).drain.isNone)

/-- A fault at tile fetch takes effect once every engine has finished its tile (R53). -/
def State.endFailing (s : State) (n : Nat) : State :=
  let u := s.stepUnit n
  if u.failing ≠ 0 ∧ u.quiet then
    let e := ((List.range 4).find? (fun e => (u.engine e).stopped)).getD 0
    s.stepFault n u.failing { kind := if u.failing = 0x0A then 0x05 else 0x01, index := if u.failing = 0x0A then n else 4 * n + e, cls := .contained }
  else s

def State.tileFetch (s : State) (n e : Nat) : State :=
  let u := s.stepUnit n
  let x := u.engine e
  match u.running with
  | none => s
  | some d =>
    if ¬ d.takes e ∨ x.enter.isSome ∨ x.stopped ∨ u.failing ≠ 0 ∨ d.field 63 53 < x.entry then s else
    let (t, poison) := s.tileEntry n d e x.entry
    if ¬ poison ∧ ¬ entryValid t then s.setEngine n e { x with entry := x.entry + 1, done := x.done + 1 } else
    if x.drain.isSome ∧ (256 < d.mRows ∨ opCopy d.op ∨ fetchFault d t poison ≠ 0) then s else
    if fetchFault d t poison ≠ 0 then
      (s.setStep n ({ u with failing := fetchFault d t poison }.setEngine e { x with stopped := true })).endFailing n
    else
      let h := if 256 < d.mRows then 0 else x.half
      let tile : Tile := { entry := t, half := h, acc0 := if d.accIn then x.acc else [] }
      s.setEngine n e { x with entry := x.entry + 1, half := 1 - h, kept := none, enter := some tile, acc := tile.begin x.acc }

def execTileFetch (n : CoreId) (e : EngineId) (s : State) : Host.Outcome State Fault Refusal := .next (s.keepPilot (s.tileFetch n e))

/-! ### Output stage -/

/-- Residual value of row `m`, column `c` of slab `p` (R24, R40, R49). -/
def State.residual (s : State) (n : Nat) (d : StepIssue) (t : BitVec 128) (p m c : Nat) : Word :=
  let rows := entryRows t + 1
  let slab := resBase d t + p * slabBytes d.fmtRes rows
  rowToF32 d.fmtRes (s.pantry n (slab + m * rowBytes d.fmtRes) (rowBytes d.fmtRes))
    (s.pantry n (slab + rows * rowBytes d.fmtRes + 2 * m) (scaleBytes d.fmtRes)) c

/-- Poison of what the output stage reads beside the accumulator. -/
def State.epiloguePoison (s : State) (n : Nat) (d : StepIssue) (t : BitVec 128) : Bool :=
  let rows := entryRows t + 1
  (d.biasEn && s.pantryPoison n (biasBase d t) (if d.field 25 25 = 1 then 128 else 256)) ||
  (d.resEn && s.pantryPoison n (resBase d t) ((if opCopy d.op then d.passes else 1) * slabBytes d.fmtRes rows)) ||
  (d.op == 2 && s.pantryPoison n (biasBase d t) (4 * rows))

/-- One output value before requantisation (R24, R46). -/
def State.outValue (s : State) (n : Nat) (d : StepIssue) (t : Tile) (tab : List Byte) (c : Nat) (acc : Word) : Word :=
  let m := t.outRow
  if d.op = 2 then
    let v := f32Mul acc (bf16ToF32 (d.field 255 240))
    let limit := s.pantryNat n (biasBase d t.entry + 4 * m) 4
    if limit ≤ fieldOf t.entry 111 80 + c then 0xFF800000#32 else v
  else
    let v := if ¬ d.biasEn then acc
      else if d.field 25 25 = 1 then f32Add acc (bf16ToF32 (s.pantryNat n (biasBase d t.entry + 2 * c) 2))
      else f32Add acc (BitVec.ofNat 32 (s.pantryNat n (biasBase d t.entry + 4 * c) 4))
    let v := if d.field 26 26 = 1 then activation tab v else v
    if d.resEn then f32Add v (s.residual n d t.entry t.outSlab m c) else v

/-- FP32 NaN made canonical on the way out (Table NM-7). -/
def outF32 (v : Word) : Word := if isNanV (f32 v) then f32Nan else v

/-- Element bytes and scale bytes of an output row (R26, R27, R40). -/
def outBytes (f : Nat) (nosat : Bool) (vs : List Word) : List Byte × List Byte :=
  match f with
  | 7 => (vs.flatMap (fun v => leBytes 4 (outF32 v).toNat), [])
  | 6 => (vs.flatMap (fun v => leBytes 2 (f32ToBf16 v)), [])
  | _ =>
    let k : MxOut := if f = 1 then .e5m2 else if f = 4 then .e2m1 else .e4m3
    let (s0, e0) := requantise k nosat (vs.take 32)
    let (s1, e1) := requantise k nosat (vs.drop 32)
    (packElems (if f = 4 then 4 else 8) (e0 ++ e1), [BitVec.ofNat 8 s0, BitVec.ofNat 8 s1])

/-- Output row `outRow` of the draining tile written (R24, R40, R49). -/
def State.writeRow (s : State) (n : Nat) (d : StepIssue) (x : Engine) (t : Tile) : State :=
  let rows := entryRows t.entry + 1
  let tab := if d.field 26 26 = 1 then s.pantry n (64 * d.field 159 144) 12352 else []
  let vs := (List.range 64).map (fun c => s.outValue n d t tab c (x.acc.get 0 (accKey t.half t.outRow c)))
  let (es, sc) := outBytes d.fmtOut (d.field 28 28 == 1) vs
  let slab := outBase d t.entry + t.outSlab * slabBytes d.fmtOut rows
  (s.setPantry n (slab + t.outRow * rowBytes d.fmtOut) es t.poison).setPantry n (slab + rows * rowBytes d.fmtOut + 2 * t.outRow) sc t.poison

def State.outputRow (s : State) (n e : Nat) (shadowBad : Bool) : State :=
  let x := s.engine n e
  match (s.stepUnit n).running, x.drain with
  | some d, some t =>
    if d.accOut ∨ entryRows t.entry < t.outRow then s else
    if ¬ t.checked ∧ shadowBad then s.mismatch n e t true false else
    let t := if t.checked then t else { t with checked := true, poison := t.poison || s.epiloguePoison n d t.entry }
    (s.writeRow n d x t).setEngine n e { x with drain := some { t with outRow := t.outRow + 1 } }
  | _, _ => s

def execOutputRowWrite (n : CoreId) (e : EngineId) (shadowBad : Bool) (s : State) : Host.Outcome State Fault Refusal :=
  .next (s.keepPilot (s.outputRow n e shadowBad))

/-! ### Tile and Step completion -/

/-- The draining tile is complete: its last row is visible, or its sums are kept (R33, R45). A slab of COPY goes back for the next one. -/
def State.tileComplete (s : State) (n e : Nat) : State :=
  let u := s.stepUnit n
  let x := u.engine e
  match u.running, x.drain with
  | some d, some t =>
    if ¬ d.accOut ∧ t.outRow ≤ entryRows t.entry then s else
    if opCopy d.op ∧ t.outSlab + 1 < d.passes then
      if x.enter.isSome then s else
      s.setEngine n e { x with drain := none, enter := some { t with outSlab := t.outSlab + 1, outRow := 0, row := 0 } }
    else
      let x' := { x with drain := none, done := x.done + 1, kept := if d.accOut then some (entryRows t.entry) else x.kept }
      (s.setStep n ({ u with poison := u.poison || t.poison }.setEngine e (toDrain d x'))).endFailing n
  | _, _ => s

def execTileComplete (n : CoreId) (e : EngineId) (s : State) : Host.Outcome State Fault Refusal := .next (s.keepPilot (s.tileComplete n e))

/-- Every taking-part engine has completed or skipped its last entry (R51). -/
def StepUnit.ready (u : StepUnit) (d : StepIssue) : Bool :=
  u.failing == 0 && u.quiet && ((List.range 4).filter d.takes).all (fun e => decide (d.field 63 53 < (u.engine e).entry))

/-- Commit (R51): LAST fields, an empty Shelf (R126), the Tally, held increments of prefetches, then the queued Step starts. -/
def State.stepCommit (s : State) (n : Nat) : State :=
  let u := s.stepUnit n
  match u.running with
  | none => s
  | some d =>
    if ¬ u.ready d then s else
    let s := s.setStep n { u with running := none, queued := none, lastSeq := d.seq, lastEnd := 0, lastPoison := u.poison, poison := false }
    let s := s.clearShelf n
    let s := s.when (d.field 224 224 == 1) (fun s => s.addTally n (d.field 191 180) { amount := 1, kind := 2, scope := 2, core := n })
    let q := s.seq n
    let s := (s.setSeq n { q with stepsDone := max q.stepsDone d.ord }).releaseHeld n
    match u.queued with
    | some k => s.startStep n k
    | none => s

def execStepCommit (n : CoreId) (s : State) : Host.Outcome State Fault Refusal := .next (s.keepPilot (s.stepCommit n))

end Sys2Proof.Machine
end

