-- ==== Sys2Proof/Machine/LemgusS.lean ====
section
/-! DEFINITION. Lemgus-S instructions: the words of Table SQ-2 and Table SQ-3, decoded and encoded (R57). -/
namespace Sys2Proof.Machine

/-- A Lemgus-S instruction with the operand fields of Table SQ-3. -/
inductive SInstr where
  | step (slot : BitVec 16)
  | move (slot : BitVec 16) (pf cl : BitVec 1) (chan : BitVec 4)
  | launch (slot : BitVec 16) (groupsM1 : BitVec 4) (tallyEn : BitVec 1) (tally : BitVec 12)
  | wait (tally : BitVec 12) (exp : BitVec 4) (set : BitVec 1) (scope : BitVec 3) (imm : BitVec 32)
  | sig (scope : BitVec 3) (remote : BitVec 1) (dev : BitVec 11) (core : BitVec 9) (tally : BitVec 12) (amount : BitVec 16)
  | fence (scope : BitVec 3) (acq rel : BitVec 1)
  | loop (countM1 : BitVec 16) (sstride : BitVec 32)
  | endloop
  | call (target : BitVec 18)
  | ret
  | select (word : BitVec 4) (lo : BitVec 6) (widthM1 : BitVec 3) (table : BitVec 16)
  | cheap (live : BitVec 40)
  | yield (live : BitVec 40)
  | halt (code : BitVec 16)
  deriving DecidableEq, Repr

/-- Opcode of an instruction (Table SQ-2). -/
def SInstr.opcode : SInstr → BitVec 8
  | .step _ => 0x01
  | .move .. => 0x02
  | .launch .. => 0x03
  | .wait .. => 0x08
  | .sig .. => 0x09
  | .fence .. => 0x0A
  | .loop .. => 0x10
  | .endloop => 0x11
  | .call _ => 0x12
  | .ret => 0x13
  | .select .. => 0x14
  | .cheap _ => 0x18
  | .yield _ => 0x19
  | .halt _ => 0x1F

/-- The operand bits 55:0 of an instruction. -/
def SInstr.operands : SInstr → BitVec 56
  | .step slot => slot ++ 0#40
  | .move slot pf cl chan => slot ++ pf ++ cl ++ chan ++ 0#34
  | .launch slot groupsM1 tallyEn tally => slot ++ groupsM1 ++ tallyEn ++ tally ++ 0#23
  | .wait tally exp set scope imm => tally ++ exp ++ set ++ scope ++ 0#4 ++ imm
  | .sig scope remote dev core tally amount => scope ++ remote ++ dev ++ core ++ tally ++ amount ++ 0#4
  | .fence scope acq rel => scope ++ acq ++ rel ++ 0#51
  | .loop countM1 sstride => countM1 ++ sstride ++ 0#8
  | .endloop => 0#56
  | .call target => 0#38 ++ target
  | .ret => 0#56
  | .select word lo widthM1 table => word ++ lo ++ widthM1 ++ table ++ 0#27
  | .cheap live => live ++ 0#16
  | .yield live => live ++ 0#16
  | .halt code => 0#40 ++ code

/-- The word of an instruction (R57). -/
def encodeS (i : SInstr) : BitVec 64 := i.opcode ++ i.operands

/-- Bits `[lo + w − 1 : lo]` of an instruction word. -/
def bitsS (x : BitVec 64) (lo w : Nat) : BitVec w := x.extractLsb' lo w

/-- An instruction when its reserved bits are zero. -/
def reservedZero (b : Bool) (i : SInstr) : Option SInstr := if b then some i else none

/-- The scope codes of Table SQ-3a and GROUPS_M1 of Table SQ-3: the values that are not reserved. -/
def SInstr.legal : SInstr → Bool
  | .wait _ _ _ scope _ => decide (2 ≤ scope.toNat)
  | .sig scope _ _ _ _ _ => decide (2 ≤ scope.toNat)
  | .fence scope _ _ => decide (2 ≤ scope.toNat)
  | .launch _ groupsM1 _ _ => decide (groupsM1.toNat ≤ 7)
  | _ => true

/-- The fields of a word by its opcode; `none` for a reserved opcode or a non-zero reserved field (R57). -/
def fieldsS (x : BitVec 64) : Option SInstr :=
  match (bitsS x 56 8).toNat with
  | 0x01 => reservedZero (bitsS x 0 40 == 0) (.step (bitsS x 40 16))
  | 0x02 => reservedZero (bitsS x 0 34 == 0) (.move (bitsS x 40 16) (bitsS x 39 1) (bitsS x 38 1) (bitsS x 34 4))
  | 0x03 => reservedZero (bitsS x 0 23 == 0) (.launch (bitsS x 40 16) (bitsS x 36 4) (bitsS x 35 1) (bitsS x 23 12))
  | 0x08 => reservedZero (bitsS x 32 4 == 0) (.wait (bitsS x 44 12) (bitsS x 40 4) (bitsS x 39 1) (bitsS x 36 3) (bitsS x 0 32))
  | 0x09 => reservedZero (bitsS x 0 4 == 0)
      (.sig (bitsS x 53 3) (bitsS x 52 1) (bitsS x 41 11) (bitsS x 32 9) (bitsS x 20 12) (bitsS x 4 16))
  | 0x0A => reservedZero (bitsS x 0 51 == 0) (.fence (bitsS x 53 3) (bitsS x 52 1) (bitsS x 51 1))
  | 0x10 => reservedZero (bitsS x 0 8 == 0) (.loop (bitsS x 40 16) (bitsS x 8 32))
  | 0x11 => reservedZero (bitsS x 0 56 == 0) .endloop
  | 0x12 => reservedZero (bitsS x 18 38 == 0) (.call (bitsS x 0 18))
  | 0x13 => reservedZero (bitsS x 0 56 == 0) .ret
  | 0x14 => reservedZero (bitsS x 0 27 == 0) (.select (bitsS x 52 4) (bitsS x 46 6) (bitsS x 43 3) (bitsS x 27 16))
  | 0x18 => reservedZero (bitsS x 0 16 == 0) (.cheap (bitsS x 16 40))
  | 0x19 => reservedZero (bitsS x 0 16 == 0) (.yield (bitsS x 16 40))
  | 0x1F => reservedZero (bitsS x 16 40 == 0) (.halt (bitsS x 0 16))
  | _ => none

/-- Decoding a word (R57): rejects reserved opcodes, reserved fields and reserved codes (fault 0x01 of Table SQ-4). -/
def decodeS (x : BitVec 64) : Option SInstr := (fieldsS x).filter (·.legal)

/-- Whether an opcode byte is listed in Table SQ-2. -/
def knownS (op : Nat) : Bool := [0x01, 0x02, 0x03, 0x08, 0x09, 0x0A, 0x10, 0x11, 0x12, 0x13, 0x14, 0x18, 0x19, 0x1F].contains op

end Sys2Proof.Machine
end

