-- ==== Sys2Proof/Machine/Sequencer.lean ====
section
/-! DEFINITION. The core sequencer: one meaning per Lemgus-S instruction and per end of its wait (04_sequencer_and_schedule_images.md R56-R77). -/
namespace Sys2Proof.Machine

/-! ### Reaching an instruction -/

/-- What the sequencer finds at an index of its code region. -/
inductive FetchS where
  | ok (i : SInstr)
  | fault (code : Nat)
  | other

/-- Where a SLOT lies in the region. -/
def slotIn (r : Region) (slot len : Nat) : Bool := decide (32 * slot + len ≤ r.len)

/-- The image's primary routing table reaches a span device (R64, Table CH-7). -/
def State.reaches (s : State) (n dev : Nat) : Bool :=
  dev == s.fld Reg.CHU_SPAN [] F.CHU_SPAN_ID ||
  (match (s.seq n).stream with
    | some (b, j) => match (s.img b j).routes.find? (fun t => t.index == 0) with
      | some t => (t.bytes.getD (2 * dev) 0) != 0
      | none => false
    | none => false)

/-- The fault of Table SQ-4 that an instruction itself shows, lowest code first; 0 for none (log 21). -/
def State.staticFault (s : State) (n : Nat) (r : Region) (loops calls : Nat) : SInstr → Nat
  | .move slot _ cl chan =>
    if ¬ slotIn r slot.toNat 128 then 0x03
    else if (cl = 1 ∧ chan = 0) ∨ (cl = 0 ∧ 8 ≤ chan.toNat) ∨ slot.toNat % 4 ≠ 0 then 0x07
    else if s.pantryPoison n (r.base + 32 * slot.toNat) 128 then 0x0D else 0
  | .launch slot _ _ _ =>
    let a := r.base + 32 * slot.toNat
    if ¬ slotIn r slot.toNat 32 then 0x03
    else if s.pantryPoison n a 32 then 0x0D
    else if r.len < 8 * (s.pantryNat n a 4 % 2 ^ 18) + 8 then 0x03 else 0
  | .sig _ remote dev _ _ amount => if amount = 0 ∨ (remote = 1 ∧ ¬ s.reaches n dev.toNat) then 0x08 else 0
  | .fence _ acq rel => if acq = 0 ∧ rel = 0 then 0x09 else 0
  | .loop _ _ => if 8 ≤ loops then 0x04 else 0
  | .endloop => if loops = 0 then 0x04 else 0
  | .call _ => if 8 ≤ calls then 0x05 else 0
  | .ret => if calls = 0 then 0x05 else 0
  | .select _ _ widthM1 _ => if 6 ≤ widthM1.toNat then 0x06 else 0
  | _ => 0

/-- The instruction at an index: its faults in program order, or another opcode than `op` (any when `op` is `none`). -/
def State.fetchS (s : State) (n : Nat) (op : Option Nat) (pc : BitVec 18) (loops calls : Nat) : FetchS :=
  match s.region n with
  | none => .fault 0x02
  | some r =>
    if r.len < 8 * pc.toNat + 8 then .fault 0x02
    else if s.pantryPoison n (r.base + 8 * pc.toNat) 8 then .fault 0x0D
    else
      let w := BitVec.ofNat 64 (s.pantryNat n (r.base + 8 * pc.toNat) 8)
      let o := fieldOf w 63 56
      if knownS o && (match op with | some k => k != o | none => false) then .other else
      match decodeS w with
      | none => .fault 0x01
      | some i => match s.staticFault n r loops calls i with
        | 0 => .ok i
        | c => .fault c

/-- The sequencer may reach its next instruction (R58, R77). -/
def Seq.moving (q : Seq) : Bool := q.status == .running && q.hold == .free && q.reissue.isEmpty

/-- The instruction at PC is reached: a fault stops the sequencer; another opcode's row finds nothing to do. -/
def State.reachS (s : State) (n op : Nat) (f : Seq → SInstr → State) : State :=
  let q := s.seq n
  if ¬ q.moving then s else
  match s.fetchS n (some op) q.pc q.loops.length q.calls.length with
  | .other => s
  | .fault c => s.seqFault n c
  | .ok i => f q i

/-- The instruction is done and the sequencer goes on at `pc`. -/
def Seq.goto (q : Seq) (pc : BitVec 18) : Seq := { q with pc := pc, hold := .free, status := .running, reached := q.reached + 1 }
def Seq.advance (q : Seq) : Seq := q.goto (q.pc + 1)

/-- The sequencer waits at the instruction. -/
def State.holdS (s : State) (n : Nat) (h : SeqHold) (st : SeqStatus) : State := s.setSeq n { (s.seq n) with hold := h, status := st }

/-- Ends a wait at the instruction that the sequencer holds at, when `h` is what it waits for. -/
def State.heldS (s : State) (n : Nat) (h : SeqHold) (f : Seq → SInstr → State) : State :=
  let q := s.seq n
  if q.hold ≠ h then s else
  match s.fetchS n none q.pc (if h = .step then 1 else q.loops.length) q.calls.length with
  | .ok i => f q i
  | .fault c => s.seqFault n c
  | .other => s

/-! ### STEP (R58-R60, R77) -/

/-- Issues the STEP with SLOT `slot`; `again` is a re-issue that presents its first seq. A fault leaves PC at the STEP (R71). -/
def State.tryStep (s : State) (n : Nat) (pc : BitVec 18) (slot : Nat) (again : Option Reissue) : State :=
  let q := s.seq n
  if ¬ s.stepRoom n then (if again.isSome then s else s.holdS n .step .stallStep) else
  let ord := match again with
    | some r => r.ord
    | none => q.stepsIssued + 1
  match s.readStep n pc slot q.loops ord with
  | .inl c => (s.when again.isSome (fun s => s.setSeq n { q with pc := pc })).seqFault n c
  | .inr (bank, d) =>
    match again with
    | some r => (s.setSeq n { q with bank := bank, reissue := q.reissue.drop 1 }).issueStep n { d with seq := r.seq, chainPc := r.chainPc, chainLoops := r.chainLoops }
    | none =>
      let chain := !d.accIn
      let q := { q.advance with bank := bank, stepsIssued := ord, chainPc := if chain then pc else q.chainPc,
                                chainLoops := if chain then q.loops else q.chainLoops }
      (s.setSeq n q).issueStep n d

def State.stepS (s : State) (n : Nat) : State :=
  let q := s.seq n
  match q.reissue with
  | r :: _ => (match s.region n with
    | some g => match decodeS (BitVec.ofNat 64 (s.pantryNat n (g.base + 8 * r.pc.toNat) 8)) with
      | some (.step slot) => s.tryStep n r.pc slot.toNat (some r)
      | _ => s.setSeq n { q with reissue := q.reissue.drop 1 }
    | none => s)
  | [] =>
    if q.hold = .step then s.heldS n .step (fun q i => match i with
      | .step slot => s.tryStep n q.pc slot.toNat none
      | _ => s)
    else s.reachS n 0x01 (fun q i => match i with
      | .step slot => s.tryStep n q.pc slot.toNat none
      | _ => s)

def execStep (n : CoreId) (s : State) : Host.Outcome State Fault Refusal := .next (s.keepPilot (s.stepS n))

/-! ### MOVE (R61, R72, R188) -/

/-- Queue capacity of a channel (Table PT-1). -/
def chanCap (p c : Nat) : Nat := if p < 512 then 4 else if p < 1023 then (if c = 0 then 16 else 8) else 8

/-- The Porter and descriptor of a MOVE. -/
def movePorter (n : Nat) (cl : BitVec 1) : Nat := if cl = 1 then 512 + clusterOf n else n
def State.moveDesc (s : State) (n : Nat) (slot : Nat) : PDesc :=
  match s.region n with
  | some r => { raw := lineOfBytes (s.pantry n (r.base + 32 * slot) 128), core := some n }
  | none => { raw := 0, core := some n }

/-- The destination lies wholly in the core's run-ahead area (R72). -/
def State.inRunAhead (s : State) (n : Nat) (cl : BitVec 1) (d : PDesc) : Bool :=
  match s.region n with
  | some r => d.within (64 * r.raBase) (64 * (r.raBase + r.raUnits)) && (cl == 0 || d.dcore == n % 8)
  | none => false

/-- A descriptor enters a channel's queue (R188). -/
def State.post (s : State) (p c : Nat) (d : PDesc) : State :=
  let x := s.chan p c
  s.setChan p c { x with queue := x.queue ++ [d] }

def State.queueRoom (s : State) (p c : Nat) : Bool := decide ((s.chan p c).queue.length < chanCap p c)

/-- Issue meets a MOVE: passed when run-ahead has started it, stalled on a full queue, else posted. -/
def State.tryMove (s : State) (n : Nat) (slot : Nat) (pf cl : BitVec 1) (chan : Nat) : State :=
  let q := s.seq n
  if pf = 1 ∧ q.started.contains q.reached then s.setSeq n { q.advance with started := q.started.erase q.reached } else
  let p := movePorter n cl
  if ¬ s.queueRoom p chan then s.holdS n .move .stallChan else
  let d := s.moveDesc n slot
  let d := if pf = 1 ∧ s.inRunAhead n cl d then { d with step := some q.stepsIssued } else d
  (s.setSeq n q.advance).post p chan d

def State.moveS (s : State) (n : Nat) : State :=
  s.reachS n 0x02 (fun _ i => match i with
    | .move slot pf cl chan => s.tryMove n slot.toNat pf cl chan.toNat
    | _ => s)

def execMove (n : CoreId) (s : State) : Host.Outcome State Fault Refusal := .next (s.keepPilot (s.moveS n))

/-- A MOVE stalled on a full queue enqueues (R58). -/
def State.moveEnqueue (s : State) (n : Nat) : State :=
  s.heldS n .move (fun _ i => match i with
    | .move slot pf cl chan => s.tryMove n slot.toNat pf cl chan.toNat
    | _ => s)

def execMoveEnqueue (n : CoreId) (s : State) : Host.Outcome State Fault Refusal := .next (s.keepPilot (s.moveEnqueue n))

/-! ### LAUNCH (R62, R89) -/

/-- Free group slots of a core, lowest first. -/
def State.freeSlots (s : State) (n : Nat) : List Nat := (List.range 8).filter (fun g => (s.group n g).status == .free)

/-- A group at its start (R62, R89). -/
def Group.initial (entry : BitVec 18) (gnum kernel : Nat) (args : List Nat) : Group :=
  { status := .ready, gnum := gnum, kernel := kernel, pc := entry,
    s := ([gnum] ++ args).zipIdx.foldl (fun t e => Tbl.set t 0 e.2 (BitVec.ofNat 64 e.1)) [],
    live := BitVec.allOnes 64, active := BitVec.allOnes 64 }

/-- The kernel's groups placed in the lowest free slots; its start empties the Shelf (R126). -/
def State.tryLaunch (s : State) (n slot groups : Nat) (en : Bool) (tally : Nat) : State :=
  let q := s.seq n
  let free := s.freeSlots n
  if free.length < groups then s.holdS n .launch .stallChan else
  match s.region n with
  | none => s
  | some r =>
    let a := r.base + 32 * slot
    let entry := BitVec.ofNat 18 (s.pantryNat n a 4)
    let args := [s.pantryNat n (a + 4) 4, s.pantryNat n (a + 8) 4, s.pantryNat n (a + 12) 4]
    let k := s.kern n
    let s := s.setSeq n q.advance
    let s := s.setKern n { next := k.next + 1, running := k.running ++ [⟨k.next, groups, en, tally⟩] }
    ((free.take groups).zipIdx.foldl (fun s e => s.setGroup n e.1 (Group.initial entry e.2 k.next args)) s).clearShelf n

def State.launchS (s : State) (n : Nat) : State :=
  s.reachS n 0x03 (fun _ i => match i with
    | .launch slot g en tally => s.tryLaunch n slot.toNat (g.toNat + 1) (en == 1) tally.toNat
    | _ => s)

def execLaunch (n : CoreId) (s : State) : Host.Outcome State Fault Refusal := .next (s.keepPilot (s.launchS n))

def State.launchStart (s : State) (n : Nat) : State :=
  s.heldS n .launch (fun _ i => match i with
    | .launch slot g en tally => s.tryLaunch n slot.toNat (g.toNat + 1) (en == 1) tally.toNat
    | _ => s)

def execLaunchStart (n : CoreId) (s : State) : Host.Outcome State Fault Refusal := .next (s.keepPilot (s.launchStart n))

/-! ### WAIT (R63, R177) -/

/-- WAIT sets its expectation register and holds. -/
def State.waitS (s : State) (n : Nat) : State :=
  s.reachS n 0x08 (fun q i => match i with
    | .wait tally exp set _ imm =>
      let old := q.exps.getD exp.toNat 0
      let e := if set = 1 then imm else old + imm
      s.setSeq n { q with exps := setAt q.exps exp.toNat e, status := .inWait, hold := .wait, waitTally := tally.toNat, waitExp := exp.toNat,
                          waitTarget := e, since := s.now }
    | _ => s)

def execWait (n : CoreId) (s : State) : Host.Outcome State Fault Refusal := .next (s.keepPilot (s.waitS n))

/-- A WAIT whose Tally is reached completes as an acquire (R172, R177, R182); one ended by a remote increment counts in R (R363). -/
def State.waitReached (s : State) (n : Nat) : State :=
  s.heldS n .wait (fun q i => match i with
    | .wait tally _ _ scope _ =>
      if ¬ reached (s.tally n tally.toNat) q.waitTarget then s else
      let far := bitAt (s.reg Reg.CST_TALLY [n, tally.toNat]) 52
      let s := { s with critR := s.critR + (if far then s.now - q.since else 0) }
      ((s.audit n tally.toNat scope.toNat).acquire n scope.toNat).setSeq n q.advance
    | _ => s)

def execWaitTargetReached (n : CoreId) (s : State) : Host.Outcome State Fault Refusal := .next (s.keepPilot (s.waitReached n))

/-! ### SIG and FENCE (R64, R65) -/

def State.sigS (s : State) (n : Nat) : State := s.reachS n 0x09 (fun _ _ => s.holdS n .sig .running)
def execSig (n : CoreId) (s : State) : Host.Outcome State Fault Refusal := .next (s.keepPilot (s.sigS n))

/-- SIG increments once the earlier work is done; a remote one sends RTINC. -/
def State.sigIssue (s : State) (n : Nat) : State :=
  s.heldS n .sig (fun q i => match i with
    | .sig scope remote dev core tally amount =>
      if ¬ s.workDone n then s else
      let s := s.setSeq n q.advance
      if remote = 0 ∧ (s.frozenCore core.toNat).isSome then (s.addTally core.toNat tally.toNat { amount := amount.toNat, kind := 1, scope := scope.toNat, core := n }).seqFault n 0x0B
      else if remote = 0 then s.addTally core.toNat tally.toNat { amount := amount.toNat, kind := 1, scope := scope.toNat, core := n }
      else if ¬ s.bit Reg.CHU_SPAN [] F.CHU_SPAN_EN then s.seqFault n 0x0B
      else s.rtinc (.sequencer n) n dev.toNat core.toNat tally.toNat 1 amount.toNat
    | _ => s)

def execSigIssue (n : CoreId) (s : State) : Host.Outcome State Fault Refusal := .next (s.keepPilot (s.sigIssue n))

def State.fenceS (s : State) (n : Nat) : State := s.reachS n 0x0A (fun _ _ => s.holdS n .fence .running)
def execFence (n : CoreId) (s : State) : Host.Outcome State Fault Refusal := .next (s.keepPilot (s.fenceS n))

def State.fenceComplete (s : State) (n : Nat) : State :=
  s.heldS n .fence (fun q i => match i with
    | .fence scope acq rel =>
      if rel = 1 ∧ ¬ s.workDone n then s else
      (s.when (acq == 1) (fun s => s.acquire n scope.toNat)).setSeq n q.advance
    | _ => s)

def execFenceComplete (n : CoreId) (s : State) : Host.Outcome State Fault Refusal := .next (s.keepPilot (s.fenceComplete n))

/-! ### LOOP, ENDLOOP, CALL, RET (R66) -/

/-- LOOP and ENDLOOP on a loop stack at a PC: the stack and the next PC. -/
def loopPush (loops : List LoopFrame) (pc : BitVec 18) (countM1 : BitVec 16) (sstride : BitVec 32) : List LoopFrame :=
  ⟨pc + 1, countM1.toNat, 0, sstride⟩ :: loops

def loopEnd (loops : List LoopFrame) (pc : BitVec 18) : List LoopFrame × BitVec 18 :=
  match loops with
  | f :: fs => if f.index + 1 ≤ f.countM1 then ({ f with index := f.index + 1 } :: fs, f.start) else (fs, pc + 1)
  | [] => ([], pc + 1)

def State.loopS (s : State) (n : Nat) : State :=
  s.reachS n 0x10 (fun q i => match i with
    | .loop c st => s.setSeq n { q.advance with loops := loopPush q.loops q.pc c st }
    | _ => s)
def execLoop (n : CoreId) (s : State) : Host.Outcome State Fault Refusal := .next (s.keepPilot (s.loopS n))

def State.endloopS (s : State) (n : Nat) : State :=
  s.reachS n 0x11 (fun q _ => let (ls, pc) := loopEnd q.loops q.pc; s.setSeq n { q.goto pc with loops := ls })
def execEndloop (n : CoreId) (s : State) : Host.Outcome State Fault Refusal := .next (s.keepPilot (s.endloopS n))

def State.callS (s : State) (n : Nat) : State :=
  s.reachS n 0x12 (fun q i => match i with
    | .call t => s.setSeq n { q.goto t with calls := (q.pc + 1) :: q.calls }
    | _ => s)
def execCall (n : CoreId) (s : State) : Host.Outcome State Fault Refusal := .next (s.keepPilot (s.callS n))

def State.retS (s : State) (n : Nat) : State :=
  s.reachS n 0x13 (fun q _ => match q.calls with
    | p :: ps => s.setSeq n { q.goto p with calls := ps }
    | [] => s)
def execRet (n : CoreId) (s : State) : Host.Outcome State Fault Refusal := .next (s.keepPilot (s.retS n))

/-! ### SELECT (R67) -/

/-- Global address of control word `i` of Bay `b` (R227). -/
def State.ctlAddr (s : State) (b i : Nat) : Nat := pantryAddr ((s.coresOf b).headD 0) (0x27FF80 + 8 * i)

def State.selectS (s : State) (n : Nat) : State :=
  s.reachS n 0x14 (fun q i => match i, s.bayOfCore n, s.region n with
    | .select word lo widthM1 table, some b, some r =>
      if s.poisoned (s.ctlAddr b word.toNat) 8 then s.seqFault n 0x0D else
      let w := ofLeBytes (s.bytes (s.ctlAddr b word.toNat) 8)
      let v := bitsOf w (lo.toNat + widthM1.toNat) lo.toNat
      let a := 32 * table.toNat + 8 * v
      if r.len < a + 8 then s.seqFault n 0x06
      else if s.pantryPoison n (r.base + a) 8 then s.seqFault n 0x0D
      else
        let e := s.pantryNat n (r.base + a) 8
        if 2 ^ 18 ≤ e then s.seqFault n 0x06 else s.setSeq n (q.goto (BitVec.ofNat 18 e))
    | _, _, _ => s)
def execSelect (n : CoreId) (s : State) : Host.Outcome State Fault Refusal := .next (s.keepPilot (s.selectS n))

/-! ### CHEAP, YIELD, HALT (R69, R70) -/

/-- GAP and MAX_GAP at a CHEAP (Table SQ-9). -/
def Seq.passCheap (q : Seq) : Seq := { q with maxGap := max q.maxGap q.gap, gap := 0 }

def State.cheapS (s : State) (n : Nat) : State :=
  s.reachS n 0x18 (fun q _ =>
    if s.stopPending n then s.setSeq n { q.passCheap with hold := .cheap } else s.setSeq n q.passCheap.advance)
def execCheap (n : CoreId) (s : State) : Host.Outcome State Fault Refusal := .next (s.keepPilot (s.cheapS n))

def State.cheapStop (s : State) (n : Nat) : State :=
  s.heldS n .cheap (fun _ i => match i with
    | .cheap live => if s.workDone n then (s.stopHere n live).getD s else s
    | _ => s)
def execCheapStop (n : CoreId) (s : State) : Host.Outcome State Fault Refusal := .next (s.keepPilot (s.cheapStop n))

/-- Another slot of the same or a higher class is ready (R70). -/
def State.peerReady (s : State) (b j : Nat) : Bool := (List.range 4).any (fun k => s.isReady b k && (s.critical b k || !s.critical b j))

/-- YIELD makes a switch pending; with a wake mask the slot goes dormant at its first YIELD (R70, R230). -/
def State.yieldTurn (s : State) (b j : Nat) : State :=
  let wake := s.reg Reg.BAY_WAKE [b, j] != 0
  let y := s.bay b
  let s := if wake ∧ ¬ y.yielding then
      (s.setImg b j { (s.img b j) with dormant := true }).setBay b { y with yielding := true }
    else s
  if y.switch = 0 ∧ (s.img b j).status = .running then s.setBay b { (s.bay b) with switch := 1, target := s.chooseNext b } else s

def State.yieldS (s : State) (n : Nat) : State :=
  s.reachS n 0x19 (fun q _ => match q.stream with
    | some (b, j) =>
      if s.stopPending n ∨ s.peerReady b j ∨ s.reg Reg.BAY_WAKE [b, j] ≠ 0 then
        (s.yieldTurn b j).setSeq n { q with hold := .yielding }
      else s.setSeq n q.advance
    | none => s)
def execYield (n : CoreId) (s : State) : Host.Outcome State Fault Refusal := .next (s.keepPilot (s.yieldS n))

def State.yieldStop (s : State) (n : Nat) : State :=
  s.heldS n .yielding (fun _ i => match i with
    | .yield live => if s.workDone n then (s.stopHere n live).getD s else s
    | _ => s)
def execYieldStop (n : CoreId) (s : State) : Host.Outcome State Fault Refusal := .next (s.keepPilot (s.yieldStop n))

def State.haltS (s : State) (n : Nat) : State := s.reachS n 0x1F (fun q _ => s.setSeq n { q with hold := .halt })
def execHalt (n : CoreId) (s : State) : Host.Outcome State Fault Refusal := .next (s.keepPilot (s.haltS n))

def State.haltStop (s : State) (n : Nat) : State :=
  s.heldS n .halt (fun _ i => match i with
    | .halt code => if s.workDone n then (s.haltHere n code).getD s else s
    | _ => s)
def execHaltStop (n : CoreId) (s : State) : Host.Outcome State Fault Refusal := .next (s.keepPilot (s.haltStop n))

/-! ### The run-ahead scan (R72) -/

/-- Where the scan begins: after the last instruction reached; SCAN_STOP when that instruction holds it back. -/
def State.scanStart (s : State) (n : Nat) : Scan :=
  let q := s.seq n
  let here : Scan := { count := q.reached, pc := q.pc, loops := q.loops, calls := q.calls, exps := q.exps, steps := q.stepsIssued }
  let next : Scan := { here with count := q.reached + 1, pc := q.pc + 1 }
  match q.hold with
  | .free => here
  | .step => { next with steps := q.stepsIssued + 1 }
  | .wait => if reached (s.tally n q.waitTally) q.waitTarget then next else { here with stop := 2 }
  | .fence => match s.fetchS n none q.pc 1 1 with
    | .ok (.fence _ acq _) => if acq = 1 then { here with stop := 4 } else next
    | _ => next
  | .yielding | .halt => { here with stop := 3 }
  | _ => next

/-- A prefetch MOVE that the scan may start. -/
structure Prefetch where
  porter : Nat
  chan : Nat
  desc : PDesc
  number : Nat

/-- The scan walks the program; it ends at a stop of R72, or with a prefetch MOVE to start. -/
def State.scanWalk (s : State) (n : Nat) : Nat → Scan → Scan × Option Prefetch
  | 0, c => (c, none)
  | k + 1, c =>
    if c.stop ≠ 0 then (c, none) else
    let next : Scan := { c with count := c.count + 1, pc := c.pc + 1 }
    match s.fetchS n none c.pc c.loops.length c.calls.length with
    | .fault _ | .other => ({ c with stop := 5 }, none)
    | .ok i => match i with
      | .step _ => s.scanWalk n k { next with steps := c.steps + 1 }
      | .move slot pf cl chan =>
        let q := s.seq n
        let d := s.moveDesc n slot.toNat
        if pf = 0 ∨ q.started.contains c.count ∨ ¬ s.inRunAhead n cl d then s.scanWalk n k next
        else if q.stepsIssued + 4 < c.steps ∨ 8 ≤ s.prefetchOut n ∨ ¬ s.queueRoom (movePorter n cl) chan.toNat then ({ c with stop := 1 }, none)
        else (next, some ⟨movePorter n cl, chan.toNat, { d with step := some c.steps }, c.count⟩)
      | .wait tally exp set _ imm =>
        let e := if set = 1 then imm else c.exps.getD exp.toNat 0 + imm
        if reached (s.tally n tally.toNat) e then s.scanWalk n k { next with exps := setAt c.exps exp.toNat e } else ({ c with stop := 2 }, none)
      | .fence _ acq _ => if acq = 1 then ({ c with stop := 4 }, none) else s.scanWalk n k next
      | .loop m st => s.scanWalk n k { next with loops := loopPush c.loops c.pc m st }
      | .endloop => let (ls, pc) := loopEnd c.loops c.pc; s.scanWalk n k { next with loops := ls, pc := pc }
      | .call t => s.scanWalk n k { next with calls := (c.pc + 1) :: c.calls, pc := t }
      | .ret => match c.calls with
        | p :: ps => s.scanWalk n k { next with calls := ps, pc := p }
        | [] => ({ c with stop := 5 }, none)
      | .select .. | .yield _ | .halt _ => ({ c with stop := 3 }, none)
      | _ => s.scanWalk n k next

/-- How many instructions one PREFETCH_MOVE_START walks at most (log 22). -/
def scanFuel : Nat := 4096

/-- The scan starts its next prefetch MOVE (R72). -/
def State.prefetchStart (s : State) (n : Nat) : State :=
  let q := s.seq n
  if ¬ (q.status == .running || q.status == .inWait || q.status == .stallStep || q.status == .stallChan) then s else
  let (c, p) := s.scanWalk n scanFuel (s.scanStart n)
  let s := s.setSeq n { q with scan := c }
  match p with
  | none => s
  | some p => (s.setSeq n { (s.seq n) with started := p.number :: q.started }).post p.porter p.chan p.desc
def execPrefetchMoveStart (n : CoreId) (s : State) : Host.Outcome State Fault Refusal := .next (s.keepPilot (s.prefetchStart n))

end Sys2Proof.Machine
end

