-- ==== Sys2Proof/Machine/Images.lean ====
section
/-! DEFINITION. Image slots: LOAD with its checks and placement, START, STOP, ABORT, UNLOAD (R76, R78-R84, R233, R235). The Storekeeper's
bulk transfers read and write the lines' coherent values without passing through a home's transactions (log 24). -/
namespace Sys2Proof.Machine

/-! ### Bulk access by the Storekeeper (log 24) -/

/-- A byte as every coherent reader would see it, and its poison. -/
def State.peekByte (s : State) (a : Nat) : Byte × Bool :=
  if hasHome a then
    let (d, p) := s.lineValue (a / 128)
    (BitVec.ofNat 8 (lineField d (a % 128) 1), p.getLsbD (a % 128 / 8))
  else (s.byte a, s.poisoned a 1)

/-- A write of part of a line: every copy goes, the resident line or the Cellar takes the bytes (R390). -/
def State.pokeLine (s : State) (l : Nat) (d : Line) (mask : BitVec 128) (poison : Bool) : State :=
  let full := mask == BitVec.allOnes 128
  let s := s.snoopAll l none
  match s.larderLine l with
  | some x =>
    let v := mergeLine x.data d mask
    let s := { s with larder := s.larder.set none l (some { x with
      data := v, poison := if full then poison else x.poison || poison, enc := encodingOf v x.pinned s.compress,
      st := if isLocker l then 1 else 2, dead := false, marked := false, chk := false }) }
    (s.setPres l).toldCleared l x.poison full poison
  | none =>
    let (v, _, q) := s.cellarGet l
    s.cellarPut l (mergeLine v d mask) false (if full then poison else q || poison)

/-- Bytes written at an address of any store of the device. -/
def State.pokeBytes (s : State) (poison : Bool) : Nat → Nat → List Byte → State
  | 0, _, _ => s
  | k + 1, a, bs =>
    if bs.isEmpty then s else
    let n := 128 - a % 128
    let s := if hasHome a then (let (d, m) := spread a (bs.take n); s.pokeLine (a / 128) d m poison)
      else ((s.setBytes a (bs.take n)).markWrite a (min n bs.length) poison).stored a (min n bs.length)
    s.pokeBytes poison k (a + n) (bs.drop n)

def State.poke (s : State) (a : Nat) (bs : List Byte) (poison : Bool) : State := s.pokeBytes poison (bs.length / 128 + 2) a bs

/-! ### Reading an image -/

/-- An image as it is read: the state it is read from, its start, and the byte at which reading fails. -/
structure ImgSrc where
  s : State
  base : Nat
  len : Nat
  failAt : Option Nat

def ImgSrc.byte (x : ImgSrc) (i : Nat) : Byte := (x.s.peekByte (x.base + i)).1
def ImgSrc.bytes (x : ImgSrc) (i n : Nat) : List Byte := (List.range n).map (fun k => x.byte (i + k))
def ImgSrc.nat (x : ImgSrc) (i n : Nat) : Nat := ofLeBytes (x.bytes i n)

/-- Some byte of `[i, i + n)` cannot be read: a bus error or an uncorrectable error (reason 0x0B). -/
def ImgSrc.bad (x : ImgSrc) (i n : Nat) : Bool :=
  (match x.failAt with | some k => decide (k < i + n) | none => false) ||
  (List.range n).any (fun k => !x.s.backed (x.base + i + k) || (x.s.peekByte (x.base + i + k)).2)

/-- A section table entry (Table SQ-7). -/
structure Section7 where
  type : Nat
  index : Nat
  rsv : Nat
  offset : Nat
  length : Nat
  place : Nat

def ImgSrc.count (x : ImgSrc) : Nat := x.nat 10 2
def ImgSrc.entry (x : ImgSrc) (k : Nat) : Section7 :=
  let o := 64 + 32 * k
  ⟨x.nat o 2, x.nat (o + 2) 2, x.nat (o + 4) 4, x.nat (o + 8) 8, x.nat (o + 16) 8, x.nat (o + 24) 8⟩
def ImgSrc.entries (x : ImgSrc) : List Section7 := (List.range x.count).map x.entry

/-- Sections put in ascending OFFSET. -/
def insertSection (e : Section7) : List Section7 → List Section7
  | [] => [e]
  | f :: r => if e.offset < f.offset then e :: f :: r else f :: insertSection e r
def ImgSrc.sorted (x : ImgSrc) : List Section7 := x.entries.foldl (fun r e => insertSection e r) []

/-- Cores of the image, 8 × CLUSTERS. -/
def ImgSrc.cores (x : ImgSrc) : Nat := 8 * x.nat 8 2

/-- The first reason that a list of checks gives, in its order. -/
def firstReason : List (Bool × Nat) → Nat
  | [] => 0
  | (b, r) :: t => if b then r else firstReason t

/-! ### Checks (Table SQ-8) -/

/-- The Bay accepts no LOAD until it is formed again (R242): lost, or a cluster not usable. -/
def State.bayUnusable (s : State) (b : Nat) : Bool :=
  (s.bay b).lost || (s.clustersOf b).any (fun g => !(s.reg Reg.DEV_INV_CLUSTER []).getLsbD g) || !s.bit Reg.BAY_CFG [b] F.BAY_CFG_EN

/-- The spill area of R233: a share of a unit at least, in Locker units that the inst. may use (reason 0x07). -/
def ImgSrc.badSpill (x : ImgSrc) (b j : Nat) : Bool :=
  let units := x.nat 20 4
  let spill := (x.s.reg Reg.BAY_SPILL [b, j]).toNat
  let unit := (spill - 0x010000000000) / lockerUnit
  let last := (spill + units * 65536 - 1 - 0x010000000000) / lockerUnit
  let owned (u : Nat) : Bool := x.s.lockerAllows (x.s.instOfBay b) (0x010000000000 + u * lockerUnit) && decide (u < x.s.units)
  decide (units / max 1 x.cores = 0) || decide (spill < 0x010000000000) || !(owned unit && owned last)

/-- Checks that the header allows, in ascending reason number. -/
def ImgSrc.headerReason (x : ImgSrc) (b : Nat) : Nat :=
  let flags := x.nat 7 1
  firstReason [
    (decide (x.nat 0 4 ≠ 0x4D49564F) || decide (x.nat 4 2 ≠ 1) || decide (x.nat 24 8 ≠ x.len), 0x01),
    (decide (x.s.fld Reg.DEV_FEATURE [] F.DEV_FEATURE_EFFECTIVE < x.nat 6 1), 0x02),
    (decide (x.cores ≠ (x.s.coresOf b).length) || x.s.bayUnusable b, 0x03),
    (decide (4 ≤ flags) || decide (x.nat 32 32 ≠ 0), 0x05),
    (flags.testBit 0 && decide (50000 < x.nat 12 4), 0x09),
    (flags.testBit 1 && !x.s.bit Reg.BAY_CFG [b] F.BAY_CFG_ORDERED, 0x0A)]

/-- Sections that share a byte of the image. -/
def anyOverlap : List Section7 → Bool
  | e :: f :: r => (decide (f.offset < e.offset + e.length) && e.length != 0 && f.length != 0) || anyOverlap (f :: r)
  | _ => false

/-- A page of inst. `i` has a valid leaf with a backed target (reason 0x07). -/
def State.pageBacked (s : State) (i va : Nat) : Bool :=
  if ¬ s.bit Reg.LRD_MMU_ROOT [i] F.LRD_MMU_ROOT_EN then false else
  match s.walkFrom va 4 (s.fld Reg.LRD_MMU_ROOT [i] F.LRD_MMU_ROOT_BASE * 4096) with
  | (.ok s _ e, k) => s.backed (leafAddr e k va) && s.lockerAllows i (leafAddr e k va)
  | _ => false

/-- Global address that a page of inst. `i` maps, whatever its R and W bits (R79). -/
def State.pageTarget (s : State) (i va : Nat) : Nat :=
  match s.walkFrom va 4 (s.fld Reg.LRD_MMU_ROOT [i] F.LRD_MMU_ROOT_BASE * 4096) with
  | (.ok _ _ e, k) => leafAddr e k va
  | _ => 0

def State.rangeBacked (s : State) (i va len : Nat) : Bool :=
  len == 0 || (List.range ((va + len - 1) / 4096 + 1 - va / 4096)).all (fun k => s.pageBacked i ((va / 4096 + k) * 4096))

/-- A byte range of core `c`'s Pantry meets a code region of another image loaded in the Bay. -/
def State.meetsCode (s : State) (b j c lo len : Nat) : Bool :=
  (List.range 4).any (fun k => k != j && (s.img b k).regions.any (fun r => r.core == c && decide (lo < r.base + r.len) && decide (r.base < lo + len)))

/-- Checks that the section table allows, in ascending reason number. -/
def ImgSrc.tableReason (x : ImgSrc) (b j : Nat) : Nat :=
  let es := x.entries
  let inst := x.s.instOfBay b
  let coreKind (e : Section7) : Bool := e.type == 1 || e.type == 2
  firstReason [
    (es.any (fun e => decide (x.len < e.offset + e.length) || decide (e.offset % 64 ≠ 0) || (coreKind e && decide (x.cores ≤ e.index))) ||
     anyOverlap x.sorted || decide (x.len < 64 + 32 * x.count) ||
     (List.range x.cores).any (fun c => !es.any (fun e => e.type == 1 && e.index == c)), 0x04),
    (es.any (fun e => decide (e.rsv ≠ 0) || decide (e.type = 0) || decide (7 < e.type) || (e.type == 5 && decide (e.length ≠ 4096)) ||
       (e.type == 5 && decide (8 < e.index)) || (e.type == 6 && decide (3 < e.index))), 0x05),
    (es.any (fun e => coreKind e && (decide (pantrySize < 64 * e.place + e.length) ||
       (e.type == 1 && x.s.meetsCode b j e.index (64 * e.place) e.length))), 0x06),
    (es.any (fun e => (e.type == 3 || e.type == 4 || e.type == 7) && !x.s.rangeBacked inst e.place e.length) || x.badSpill b j, 0x07)]

/-! #### The reachable words of a program (R76) -/

/-- Word `pc` of a CODE section. -/
def ImgSrc.word (x : ImgSrc) (e : Section7) (pc : Nat) : BitVec 64 := BitVec.ofNat 64 (x.nat (e.offset + 8 * pc) 8)

/-- Indexes that a word leads to (R76): program order from every word but HALT (log 28). -/
def ImgSrc.leads (x : ImgSrc) (e : Section7) (pc : Nat) : List Nat :=
  if e.length < 8 * pc + 8 then [] else
  match decodeS (x.word e pc) with
  | some (.halt _) => []
  | some (.call t) => [t.toNat, pc + 1]
  | some (.select _ _ w table) =>
    (pc + 1) :: (List.range (if w.toNat ≤ 5 then 2 ^ (w.toNat + 1) else 0)).filterMap (fun v =>
      let o := 32 * table.toNat + 8 * v
      if e.length < o + 8 then none else some (x.nat (e.offset + o) 8 % 2 ^ 18))
  | _ => [pc + 1]

/-- Words reached from a list of indexes, by a walk of at most `k` words. -/
def ImgSrc.walk (x : ImgSrc) (e : Section7) : Nat → List Nat → List Nat → List Nat
  | 0, _, seen => seen
  | _, [], seen => seen
  | k + 1, p :: ps, seen => if seen.contains p then x.walk e k ps seen else x.walk e k (x.leads e p ++ ps) (p :: seen)

/-- ACC_OUT of a STEP's descriptor in bank `k`, and TALLY_EN beside it. -/
def ImgSrc.stepBits (x : ImgSrc) (e : Section7) (slot k : Nat) : Bool × Bool :=
  let o := e.offset + 32 * (x.nat (e.offset + 4 + 4 * k) 4 + slot)
  if e.length < 32 * (x.nat (e.offset + 4 + 4 * k) 4 + slot) + 32 then (false, false)
  else ((x.nat o 4).testBit 30, (x.nat (o + 28) 4).testBit 0)

/-- A word other than STEP stands between a STEP and the next STEP in program order, from index `p` on (R76, log 28). -/
def ImgSrc.parted (x : ImgSrc) (e : Section7) : Nat → Nat → Bool → Bool
  | 0, _, _ => false
  | k + 1, p, other =>
    if e.length < 8 * p + 8 then false else
    match decodeS (x.word e p) with
    | some (.step _) => other
    | some (.halt _) => false
    | _ => x.parted e k (p + 1) true

/-- The image breaks R76 on a core. -/
def ImgSrc.breaksChain (x : ImgSrc) (e : Section7) : Bool :=
  let seen := x.walk e (68 * (e.length / 8 + 1)) [x.nat e.offset 4 % 2 ^ 18] []
  seen.any (fun pc => match decodeS (x.word e pc) with
    | some (.step slot) =>
      (List.range 5).any (fun k =>
        let (out, tally) := x.stepBits e slot.toNat k
        out && (tally || x.parted e (e.length / 8 + 1) (pc + 1) false))
    | _ => false)

/-- Checks on a CODE section's header and program. -/
def ImgSrc.codeReason (x : ImgSrc) (b j : Nat) (e : Section7) : Nat :=
  let ra := 64 * x.nat (e.offset + 24) 4
  let rl := 64 * x.nat (e.offset + 28) 4
  firstReason [
    (decide (e.length < 128) || decide (x.nat (e.offset + 96) 32 ≠ 0) ||
      (List.range 5).any (fun k => decide (e.length ≤ 32 * x.nat (e.offset + 4 + 4 * k) 4)) || x.breaksChain e, 0x05),
    (rl != 0 && (decide (pantrySize < ra + rl) || x.s.meetsCode b j e.index ra rl), 0x06)]

/-! #### Joist profiles (R80, Table SQ-7) -/

/-- The overlay records of a profile: core, first slot, count, reserved bytes, offset of the slots in the image. -/
def ImgSrc.records (x : ImgSrc) (stop : Nat) : Nat → Nat → List (Nat × Nat × Nat × Nat × Nat)
  | 0, _ => []
  | k + 1, o =>
    if stop < o + 8 then [] else
    (x.nat o 2, x.nat (o + 2) 2, x.nat (o + 4) 2, x.nat (o + 6) 2, o + 8) :: x.records stop k (o + 8 + 32 * x.nat (o + 4) 2)

def ImgSrc.overlays (x : ImgSrc) (e : Section7) : List (Nat × Nat × Nat × Nat × Nat) :=
  x.records (e.offset + e.length) (e.length / 8 + 1) (e.offset + 8)

def ImgSrc.profileReason (x : ImgSrc) (e : Section7) : Nat :=
  let rs := x.overlays e
  let code (c : Nat) : Nat := ((x.entries.find? (fun f => f.type == 1 && f.index == c)).map (·.length)).getD 0
  firstReason [
    (decide (e.length < 8) || rs.any (fun r => decide (x.cores ≤ r.1) || decide (code r.1 < 32 * (r.2.1 + r.2.2.1)) ||
       decide (e.offset + e.length < r.2.2.2.2 + 32 * r.2.2.1)), 0x04),
    (rs.any (fun r => r.2.2.2.1 != 0), 0x05)]

/-- The present link widths meet a profile. -/
def ImgSrc.profileMet (x : ImgSrc) (e : Section7) : Bool :=
  (List.range 8).all (fun l => decide (x.nat (e.offset + l) 1 ≤ x.s.fld Reg.JST_LINK_STAT [l] F.JST_LINK_STAT_WIDTH))

/-- The first profile met, in INDEX order. -/
def ImgSrc.profile (x : ImgSrc) : Option Section7 :=
  (List.range 4).findSome? (fun i => x.entries.find? (fun e => e.type == 6 && e.index == i && x.profileMet e))

/-- The check that fails as section `e` is read, with `r` still to come; 0 for none. -/
def ImgSrc.sectionReason (x : ImgSrc) (b j : Nat) (e : Section7) (r : List Section7) : Nat :=
  if x.bad e.offset e.length then 0x0B else
  let code := if e.type = 1 then x.codeReason b j e else if e.type = 6 then x.profileReason e else 0
  if code ≠ 0 then code
  else if e.type = 6 ∧ r.all (fun f => f.type != 6) ∧ x.profile.isNone then 0x08 else 0

/-- Sections read in ascending OFFSET: the first check that fails, and the sections read by then. -/
def ImgSrc.readSections (x : ImgSrc) (b j : Nat) : List Section7 → Nat × List Section7
  | [] => (0, [])
  | e :: r => match x.sectionReason b j e r with
    | 0 => let (c, es) := x.readSections b j r; (c, e :: es)
    | c => (c, [e])

def ImgSrc.sectionsReason (x : ImgSrc) (b j : Nat) (es : List Section7) : Nat := (x.readSections b j es).1

/-- A LOAD's checks before any section is read, in reading order; 0 for none (R79). -/
def ImgSrc.early (x : ImgSrc) (b j : Nat) : Nat :=
  if x.len < 64 ∨ x.len % 64 ≠ 0 ∨ x.base % 64 ≠ 0 then 0x01
  else if x.bad 0 64 then 0x0B
  else if x.headerReason b ≠ 0 then x.headerReason b
  else if x.bad 64 (min (32 * x.count) (x.len - 64)) then 0x0B
  else x.tableReason b j

/-- The outcome of a LOAD's checks in reading order; 0 for none (R79). -/
def ImgSrc.reason (x : ImgSrc) (b j : Nat) : Nat :=
  if x.early b j ≠ 0 then x.early b j
  else if x.sectionsReason b j x.sorted ≠ 0 then x.sectionsReason b j x.sorted
  else if x.bad 0 x.len then 0x0B else 0

/-- The sections that a load has read, and begun to place, when its last check was made. -/
def ImgSrc.begun (x : ImgSrc) (b j : Nat) : List Section7 := if x.early b j ≠ 0 then [] else (x.readSections b j x.sorted).2

/-! ### Placement (R80, R81, R235) -/

/-- A CODE section placed as read. -/
def ImgSrc.region (x : ImgSrc) (e : Section7) : Region :=
  { core := e.index, base := 64 * e.place, len := e.length, entry := x.nat e.offset 4,
    banks := (List.range 5).map (fun k => x.nat (e.offset + 4 + 4 * k) 4),
    raBase := x.nat (e.offset + 24) 4, raUnits := x.nat (e.offset + 28) 4,
    exps := (List.range 16).map (fun k => BitVec.ofNat 32 (x.nat (e.offset + 32 + 4 * k) 4)) }

/-- Bytes written through an inst.'s page tables, page by page (R79). -/
def State.pokeVirtual (s : State) (i : Nat) : Nat → Nat → List Byte → State
  | 0, _, _ => s
  | k + 1, va, bs =>
    if bs.isEmpty then s else
    let n := 4096 - va % 4096
    (s.poke (s.pageTarget i va) (bs.take n) false).pokeVirtual i k (va + n) (bs.drop n)

/-- SAVED of a slot on a core, which its context record shows (Table BY-2). -/
def State.setSaved (s : State) (b j n : Nat) (v : BitVec 40) : State :=
  let x := s.range n
  (s.setRange n { x with saved := x.saved.set 0 j v }).poke (s.shareAddr b j n + 352) (leBytes 8 v.toNat) false

/-- The part of a PANTRY_DATA range that lies in range `r`: into the spill area when the stream on the cores claims it, else in place
with the slot as holder, another holder spilled first (R235). -/
def State.placeRange (s : State) (b j n r off : Nat) (bs : List Byte) : State :=
  let y := s.bay b
  let claimed := (y.on || y.switch != 0) && (s.reg Reg.BAY_CLAIM [b, y.cur]).getLsbD r
  let x := s.range n
  if claimed then
    let live := x.live.get 0 j
    let a := s.shareAddr b j n + unitOf live r * 65536 + (off - 65536 * r)
    (s.poke a bs false).setSaved b j n (x.saved.get 0 j ||| BitVec.ofNat 40 (2 ^ r))
  else
    let s := match x.holders.get none r with
      | some h =>
        if h = j then s else
        match s.spillLines b n 512 (65536 * r) (s.shareAddr b h n + unitOf (x.live.get 0 h) r * 65536) with
        | .ok s => s.setSaved b h n ((s.range n).saved.get 0 h ||| BitVec.ofNat 40 (2 ^ r))
        | _ => s
      | none => s
    let x := s.range n
    (s.setPantry n off bs false).setRange n { x with holders := x.holders.set none r (some j) }

/-- The ranges that a byte range touches, with the part in each. -/
def rangeParts (off : Nat) (bs : List Byte) : List (Nat × Nat × List Byte) :=
  (List.range ((off + bs.length + 65535) / 65536 - off / 65536)).map (fun k =>
    let r := off / 65536 + k
    let lo := max off (65536 * r)
    (r, lo, (bs.drop (lo - off)).take (65536 * (r + 1) - lo)))

/-- One section placed with the bytes `bs`. -/
def State.placeSection (s : State) (b j : Nat) (e : Section7) (bs : List Byte) : State :=
  let n := (s.coresOf b).getD e.index 0
  match e.type with
  | 1 => s.setPantry n (64 * e.place) bs false
  | 2 => (rangeParts (64 * e.place) bs).foldl (fun s p => s.placeRange b j n p.1 p.2.1 p.2.2) s
  | 3 | 4 | 7 => s.pokeVirtual (s.instOfBay b) (e.length / 4096 + 2) e.place bs
  | _ => s

/-- The ranges of core `c` that PANTRY_DATA touches: LIVE of the loading slot (R235). -/
def ImgSrc.liveOf (x : ImgSrc) (c : Nat) : BitVec 40 :=
  BitVec.ofNat 40 (maskOf (x.entries.flatMap (fun e => if e.type = 2 ∧ e.index = c ∧ e.length ≠ 0 then
    (List.range ((64 * e.place + e.length + 65535) / 65536 - 64 * e.place / 65536)).map (fun k => 64 * e.place / 65536 + k) else [])))

/-- Overlay slots written over a core's CODE section (R80). -/
def ImgSrc.applyProfile (x : ImgSrc) (s : State) (b : Nat) (p : Section7) : State :=
  (x.overlays p).foldl (fun s r =>
    match x.entries.find? (fun f => f.type == 1 && f.index == r.1) with
    | some e => s.setPantry ((s.coresOf b).getD r.1 0) (64 * e.place + 32 * r.2.1) (x.bytes r.2.2.2.2 (32 * r.2.2.1)) false
    | none => s) s

/-- A measurement extended into an inst.'s log (R81, R376). -/
def State.extendLog (s : State) (i : Nat) (m : BitVec 512) : State :=
  let (l, c) := s.measLog.get (0, 0) i
  let h := shake256 (leBytes 64 l.toNat ++ leBytes 64 m.toNat) 64
  { s with measLog := s.measLog.set (0, 0) i (BitVec.ofNat 512 (ofLeBytes h), c + 1) }

/-- What an image says of its slot (Table SQ-6, Table SQ-10). -/
def ImgSrc.slotOf (x : ImgSrc) : ImgSlot := {
    status := .loaded, jprof := ((x.profile.map (·.index)).getD 0), lc := (x.nat 7 1).testBit 0, ordered := (x.nat 7 1).testBit 1,
    cheapBound := x.nat 12 4, overrunBound := x.nat 16 4, spillBytes := x.nat 20 4,
    regions := (x.entries.filter (fun e => e.type == 1)).map x.region,
    routes := (x.entries.filter (fun e => e.type == 5)).map (fun e => ⟨e.index, x.bytes e.offset e.length⟩),
    meas := BitVec.ofNat 512 (ofLeBytes (shake256 (x.bytes 0 x.len) 64)),
    feature := x.nat 6 1, served := (x.entries.filter (fun e => e.type == 7)).map (fun e => (e.index, e.place, e.length)) }

/-- LIVE of the loading slot on every core, which its context records show (R235). -/
def State.setLive (s : State) (x : ImgSrc) (b j : Nat) : State :=
  ((s.coresOf b).zipIdx).foldl (fun s e =>
    (s.setRange e.1 { (s.range e.1) with live := (s.range e.1).live.set 0 j (x.liveOf e.2) }).poke (s.shareAddr b j e.1 + 344) (leBytes 8 (x.liveOf e.2).toNat) false) s

/-- Free bytes from draw `k` on. -/
def freeBytes (k n : Nat) : List Byte := (List.range n).map (fun o => Config.freeByte (k + o))

/-- A refused load: what the sections that it has read would fill holds unspecified data of the inst. (R79). -/
def State.loadRefused (s : State) (x : ImgSrc) (b j : Nat) : State :=
  match x.begun b j with
  | [] => s
  | es => (es.foldl (fun s e =>
      let k := s.free
      { s with free := k + e.length }.placeSection b j e (freeBytes k e.length)) (s.setLive x b j)).releaseRanges b j

/-- A checked image enters LOADED: header fields, regions, routes, LIVE, sections, profile, measurement (R79-R81). -/
def State.place (s : State) (x : ImgSrc) (b j : Nat) : State :=
  let jp := x.profile
  let slot := x.slotOf
  let s := s.setImg b j { slot with refuse := (s.img b j).refuse }
  let s := if slot.routes.isEmpty then s else { s with origins := s.origins.set [] b slot.routes }
  let s := (s.setLive x b j)
  let s := x.sorted.foldl (fun s e => s.placeSection b j e (x.bytes e.offset e.length)) s
  let s := match jp with
    | some p => x.applyProfile s b p
    | none => s
  s.extendLog (s.instOfBay b) slot.meas

/-! ### Commands -/

/-- The instance is ACTIVE, or the manager's own (R252). -/
def State.instActive (s : State) (i : Nat) : Bool := i == 0 || s.fld Reg.HAT_INST_STAT [i] F.HAT_INST_STAT_STATE == 1

/-- STATE of Table TN-5: present state and refusal reason. -/
def State.tellState (s : State) (i reason : Nat) : State :=
  s.hatPush i ⟨3, s.fld Reg.HAT_INST_STAT [i] F.HAT_INST_STAT_STATE + reason * 2 ^ 8⟩

/-- A slot command that Table SQ-11 does not allow now is discarded with a contained record (R82, R413). -/
def State.imgRefused (s : State) (b j : Nat) : State := s.refuse (.fn 0) (Reg.BAY_IMG_CMD.addr [b, j]) causeState

/-- A command to a slot: discarded while the instance is not ACTIVE, with STATE posted (R251, R252); UNLOAD stays allowed in QUIESCED. -/
def State.imgCmd (s : State) (b j cmd : Nat) (ok : SlotStatus → Bool) (f : State → State) : State :=
  let i := s.instOfBay b
  let active := s.instActive i || (cmd == 5 && s.fld Reg.HAT_INST_STAT [i] F.HAT_INST_STAT_STATE == 3)
  if ¬ active then (s.imgRefused b j).tellState i 1
  else if ¬ ok (s.img b j).status then s.imgRefused b j
  else f (s.wrote Reg.BAY_IMG_CMD [b, j] cmd)

def loadable : SlotStatus → Bool
  | .empty | .loaded | .halted | .stopped | .refused | .faulted | .aborted => true
  | _ => false

/-- LOAD: the slot enters LOADING; what it held before goes (R79, R82). -/
def State.loadStart (s : State) (b j : Nat) (failAt : Option Nat) : State :=
  (s.releaseRanges b j).setImg b j { status := .loading, failAt := failAt, refuse := (s.img b j).refuse }

def State.loadCmd (s : State) (b j : Nat) (failAt : Option Nat) : State :=
  s.imgCmd b j 1 loadable (fun s => s.loadStart b j failAt)
def execLoad (b : BayId) (j : ImgId) (failAt : Option Nat) (s : State) : Host.Outcome State Fault Refusal := .next (s.keepPilot (s.loadCmd b j failAt))

/-- The reads of a LOAD end: REFUSED with the first reason, or LOADED. Placement waits for a switch (Table BY-5a). -/
def State.loadEnd (s : State) (b j : Nat) : State :=
  let x := s.img b j
  if x.status ≠ .loading ∨ (s.bay b).switch = 2 then s else
  let src : ImgSrc := { s := s, base := (s.reg Reg.BAY_IMG_ADDR [b, j]).toNat, len := s.fld Reg.BAY_IMG_LEN [b, j] F.BAY_IMG_LEN_LEN, failAt := x.failAt }
  match src.reason b j with
  | 0 => s.place src b j
  | r => (s.loadRefused src b j).setImg b j { status := .refused, refuse := r }

def execLoadEnd (b : BayId) (j : ImgId) (s : State) : Host.Outcome State Fault Refusal := .next (s.keepPilot (s.loadEnd b j))

/-- A byte at a virtual address of inst. `i`, with its poison; `none` where no backed page lies (R202). -/
def State.virtByte (s : State) (i va : Nat) : Option (Byte × Bool) :=
  match s.walkFrom va 4 (s.fld Reg.LRD_MMU_ROOT [i] F.LRD_MMU_ROOT_BASE * 4096) with
  | (.ok _ _ e, k) => if s.bit Reg.LRD_MMU_ROOT [i] F.LRD_MMU_ROOT_EN then some (s.peekByte (leafAddr e k va)) else none
  | _ => none

def State.virtBytes (s : State) (i va n : Nat) : List Byte := (List.range n).map (fun k => ((s.virtByte i (va + k)).getD (0, false)).1)

/-- The serving program of an image reads its configuration block, once, at START from LOADED (R203). -/
def State.startServing (s : State) (b j : Nat) : State :=
  match (s.img b j).served.find? (fun e => e.1 == 0) with
  | some e => { s with serving := s.serving.set {} b { img := some j, cfg := s.virtBytes (s.instOfBay b) e.2.1 256 } }
  | none => s

/-- START: a LOADED slot begins afresh, a STOPPED one resumes; either becomes ready and not dormant (R82, R83, R230). -/
def State.startSlot (s : State) (b j : Nat) : State :=
  let x := s.img b j
  let hc := if x.status = SlotStatus.loaded then [] else x.haltedCores
  let s := s.when (x.status == SlotStatus.loaded) (fun s => s.startServing b j)
  (s.setImg b j { x with status := SlotStatus.running, dormant := false, fresh := x.status == SlotStatus.loaded, later := 0, haltedCores := hc }).becameReady b j

def State.startCmd (s : State) (b j : Nat) : State :=
  s.imgCmd b j 2 (fun t => t == .loaded || t == .stopped) (fun s => s.startSlot b j)
def execStart (b : BayId) (j : ImgId) (s : State) : Host.Outcome State Fault Refusal := .next (s.keepPilot (s.startCmd b j))

/-- STOP; for the incoming slot of a switch it waits until the cores have resumed (R83). -/
def State.stopCmd (s : State) (b j : Nat) : State :=
  if s.resuming b j then s.setImg b j { (s.img b j) with later := 3 } else s.stopSlot b j

def State.stopImg (s : State) (b j : Nat) : State :=
  s.imgCmd b j 3 (fun t => t == .running) (fun s => s.stopCmd b j)
def execStop (b : BayId) (j : ImgId) (s : State) : Host.Outcome State Fault Refusal := .next (s.keepPilot (s.stopImg b j))

def State.abortCmd (s : State) (b j : Nat) : State :=
  if s.resuming b j then s.setImg b j { (s.img b j) with later := 4 } else s.abortSlot b j

def State.abortImg (s : State) (b j : Nat) : State :=
  s.imgCmd b j 4 (fun t => t == .running || t == .stopping) (fun s => s.abortCmd b j)
def execAbort (b : BayId) (j : ImgId) (s : State) : Host.Outcome State Fault Refusal := .next (s.keepPilot (s.abortImg b j))

/-- UNLOAD: code regions freed, held ranges released without a spill (R82, Table BY-5a). -/
def State.unloadSlot (s : State) (b j : Nat) : State := (s.releaseRanges b j).setImg b j { refuse := (s.img b j).refuse }

def State.unloadImg (s : State) (b j : Nat) : State :=
  s.imgCmd b j 5 (fun t => !(t == .loading || t == .running || t == .stopping)) (fun s => s.unloadSlot b j)
def execUnload (b : BayId) (j : ImgId) (s : State) : Host.Outcome State Fault Refusal := .next (s.keepPilot (s.unloadImg b j))

end Sys2Proof.Machine
end

