-- ==== Sys2Proof/Machine/Instances.lean ====
section
/-! DEFINITION. The states of inst.s, quiesce, and the TDI states that set-up writes end (12_tenants_hatches_migration.md R251-R254; R321). -/
namespace Sys2Proof.Machine

/-- STATE of Table TN-6. -/
def State.inst (s : State) (i : Nat) : Nat := s.fld Reg.HAT_INST_STAT [i] F.HAT_INST_STAT_STATE

/-- Bays of an inst. -/
def State.baysOf (s : State) (i : Nat) : List Nat :=
  (List.range 64).filter (fun b => s.bit Reg.BAY_CFG [b] F.BAY_CFG_EN && s.instOfBay b == i)

/-- A change of state posts STATE with reason 0, and the next discarded write will be recorded (R251, R252). -/
def State.setInst (s : State) (i st : Nat) : State :=
  let s := (s.setFld Reg.HAT_INST_STAT [i] F.HAT_INST_STAT_STATE st).setFld Reg.HAT_INST_STAT [i] F.HAT_INST_STAT_BUSY (if st = 2 ∨ 5 ≤ st then 1 else 0)
  { s with dropTold := s.dropTold.set false i false }.tellState i 0

/-- A slot command that QUIESCE issues: it waits while the slot's cores resume (R83, Table TN-10). -/
def State.quiesceSlots (s : State) (i : Nat) (abort : Bool) : State :=
  (s.baysOf i).foldl (fun s b => (List.range 4).foldl (fun s j =>
    let st := (s.img b j).status
    if abort then (if st = .running ∨ st = .stopping then s.abortCmd b j else s)
    else if st = .running then s.stopCmd b j else s) s) s

/-- QUIESCE (R253): the data path closes and every RUNNING slot is stopped. -/
def State.quiesce (s : State) (i : Nat) : State := (s.setInst i 2).quiesceSlots i false

/-- QUIESCE with an immediate ABORT (R254, R319, R321). -/
def State.quiesceNow (s : State) (i : Nat) : State :=
  if s.inst i = 1 then (s.quiesce i).quiesceSlots i true else if s.inst i = 2 then s.quiesceSlots i true else s

/-- A set-up write that moves a locked TDI to ERROR (R321); a SAVE that runs stops (Table HP-5). -/
def State.tdiBreak (s : State) (i : Nat) : State :=
  let st := s.fld Reg.HST_TDI_STAT [i] F.HST_TDI_STAT_STATE
  if i ≠ 0 ∧ i ≤ 32 ∧ (st = 1 ∨ st = 2) then
    (let s := s.setFld Reg.HST_TDI_STAT [i] F.HST_TDI_STAT_STATE 3
     if s.inst i = 5 then s.setInst i 4 else s.quiesceNow i)
  else s

/-- The manager, on function 0, the debug port with its rights (R382), and channel 0 of a cluster Porter, which acts for it (R187). -/
def isManager : Writer → Bool
  | .fn f => f.val == 0
  | .storekeeper => false
  | _ => true

/-- A write that only the manager may make. -/
def State.asManager (s : State) (w : Writer) (off : Nat) (f : State → State) : State :=
  if isManager w then f s else s.refuse w off causeActor

end Sys2Proof.Machine
end

