-- ==== Sys2Proof/Machine/Larder.lean ====
section
/-! DEFINITION. Set-up of the memory hierarchy: granules, TLBs, range operations, pinned ways (06_memory_hierarchy.md R130-R142). -/
namespace Sys2Proof.Machine

/-! ### Granules (R131) -/

def State.setCtl (s : State) (f : LarderCtl → LarderCtl) : State := { s with larderCtl := f s.larderCtl }

/-- A line of granule `g`. -/
def inGranule (g l : Nat) : Bool := match regionOf (128 * l) with
  | .cellar o => o / 2 ^ 30 == g
  | _ => false

def State.qmapCmd (s : State) (w : Writer) (g d : Nat) : State :=
  let off := Reg.LRD_QMAP_CMD.base
  s.asManager w off (fun s =>
    if s.larderCtl.qmap.isSome then s.refuse w off causeBusy
    else if ¬ s.quadrant then s.refuse w off causeState
    else ((s.wrote Reg.LRD_QMAP_CMD [] (g + 512 * d)).setCtl (fun c => { c with qmap := some (g, d) })).setFld Reg.LRD_MH_STAT [] F.LRD_MH_STAT_QMAP_BUSY 1)

def execQmapCmd (w : Writer) (granule : Fin 512) (die : DieId) (s : State) : Host.Outcome State Fault Refusal := .next (s.keepPilot (s.qmapCmd w granule die))

/-- Every Shelf copy of the lines goes, and their fills in flight will not be installed. -/
def State.shelvesDrop (s : State) (p : Nat → Bool) : State :=
  (s.shelves.map (·.1)).foldl (fun s n =>
    let x := s.shelf n
    s.setShelf n { lines := x.lines.filter (fun y => !p y.line), fills := x.fills.map (fun f => (f.1, f.2 || p f.1)) }) s

/-- A line that a reduction or a refetch holds. -/
def State.heldLine (s : State) (l : Nat) : Bool :=
  match s.larderLine l with
  | some x => x.red || x.refetch
  | none => false

/-- The change of a granule's die: dirty copies written back, every copy invalidated, the new die set; the waiting accesses then start. -/
def State.qmapEnd (s : State) : State :=
  match s.larderCtl.qmap with
  | none => s
  | some (g, d) =>
    let ls := (s.larder.map (·.1)).filter (inGranule g)
    if s.order != 0 || s.homes.any (fun e => inGranule g e.1 && !e.2.running.isEmpty) ||
       ls.any s.heldLine then s else
    let s := ((ls.foldl (fun s l => s.evict l) s).shelvesDrop (inGranule g)).setFld Reg.LRD_QMAP [g / 32] ⟨2 * (g % 32) + 1, 2 * (g % 32)⟩ d
    let s := (s.setCtl (fun c => { c with qmap := none })).setFld Reg.LRD_MH_STAT [] F.LRD_MH_STAT_QMAP_BUSY 0
    ((s.homes.map (·.1)).filter (inGranule g)).foldl (fun s l => s.wake l) s

def execQmapChangeEnd (s : State) : Host.Outcome State Fault Refusal := .next (s.keepPilot s.qmapEnd)

/-! ### TLBs (R136, R137) -/

/-- A translation that the TLB of a cluster lacks is walked and cached. -/
def execTlbWalk (g : ClusterId) (i : InstId) (va : BitVec 48) (read write : Bool) (s : State) : Host.Outcome State Fault Refusal :=
  .next (s.keepPilot (match s.translate g i va.toNat (if read && write then .both else if write then .write else .read) with
    | .ok s _ _ | .fault s _ => s
    | .waits => s))

/-- A TLB entry overlaps the range that LRD_TLB_INV names. -/
def tlbHit (i size vpn : Nat) (t : TlbEntry) : Bool :=
  t.inst == i && (size == 3 ||
    (let k := pageBits (max size t.size)
     (vpn * 4096) / 2 ^ k == (t.va * 2 ^ pageBits t.size) / 2 ^ k))

def State.tlbDrop (s : State) (i size vpn : Nat) : State :=
  (s.tlbs.map (·.1)).foldl (fun s g => { s with tlbs := s.tlbs.set [] g ((s.tlbs.get [] g).filter (fun t => !tlbHit i size vpn t)) }) s

def State.tlbInv (s : State) (w : Writer) (i size vpn : Nat) : State :=
  let off := Reg.LRD_TLB_INV.base
  s.asManager w off (fun s =>
    let s := s.tdiBreak i
    if s.bit Reg.LRD_TLB_STAT [] F.LRD_TLB_STAT_BUSY then s.refuse w off causeBusy
    else if 32 < i then s.refuse w off causeValue
    else (((s.wrote Reg.LRD_TLB_INV [] (vpn + 2 ^ 54 * size + 2 ^ 56 * i)).tlbDrop i size vpn).setFld Reg.LRD_TLB_STAT [] F.LRD_TLB_STAT_BUSY 1))

def execTlbInv (w : Writer) (i : Fin 64) (size : Fin 4) (vpn : BitVec 36) (s : State) : Host.Outcome State Fault Refusal := .next (s.keepPilot (s.tlbInv w i size vpn.toNat))
def execTlbInvEnd (s : State) : Host.Outcome State Fault Refusal := .next (s.keepPilot (s.setFld Reg.LRD_TLB_STAT [] F.LRD_TLB_STAT_BUSY 0))

/-! ### Range operations (R138, R139) -/

/-- FLUSH of a line: dirty data to the Larder, then to the Cellar; copies stay, clean. -/
def State.flushLine (s : State) (l : Nat) : State :=
  if isLocker l then s else
  let s := match s.ownerOf l with
    | some g => (s.snoopCup .snpC g l).setPres l
    | none => s
  match s.larderLine l with
  | some x =>
    if x.st ≠ 2 ∨ x.dead then s
    else let s := s.cellarPut l x.data false x.poison
         { s with larder := s.larder.set none l (some { x with st := 1 }) }
  | none => s

/-- DISCARD of a line: the Larder line is dead, Cupboard copies are gone. -/
def State.discardLine (s : State) (l : Nat) (chk : Bool) : State :=
  let s := (s.snoopAll l none).setPres l
  match s.larderLine l with
  | some x => { s with larder := s.larder.set none l (some { x with dead := true, chk := chk }) }
  | none => s

/-- What a range operation does at its next line. -/
inductive RangeRes where
  | done (s : State)
  | failed (err : Nat)
  | waits

/-- One line of a range operation of inst. `i` (Table MH-7). -/
def State.rangeAct (s : State) (i op va : Nat) : RangeRes :=
  match (s.walk i va (if op = 1 then .read else .write)).1 with
  | .waits => .waits
  | .fault _ refused => .failed (if refused then 2 else 1)
  | .ok s pa leaf =>
    let l := pa / 128
    if ¬ (hasHome pa && s.backed pa) then .done s
    else if s.lineBusy l ∨ s.order ≠ 0 then .waits
    else match op with
      | 1 => match s.resident l (leafPin leaf i) with
        | some s => .done (s.keyCheck i pa leaf)
        | none => if s.cellarWaits l then .waits else .done s
      | 2 => .done (s.flushLine l)
      | 3 => .done (if isLocker l then s else s.evict l)
      | _ => .done (s.discardLine l (leafCHK leaf))

/-- The Shelves of an inst. are invalidated (R126). -/
def State.instShelves (s : State) (i : Nat) : State := ((s.baysOf i).flatMap s.coresOf).foldl (fun s n => s.clearShelf n) s

/-- A range operation of the registers ends. -/
def State.rangeOver (s : State) (i op err va : Nat) : State :=
  let s := { s with rangeOps := s.rangeOps.set none i none }
  let s := ((s.setFld Reg.LRD_RNG_STAT [i] F.LRD_RNG_STAT_BUSY 0).setFld Reg.LRD_RNG_STAT [i] F.LRD_RNG_STAT_ERR err).wrapAdd
    Reg.LRD_RNG_STAT [i] F.LRD_RNG_STAT_SEQ 1
  if err = 0 then (if op = 3 ∨ op = 4 then s.instShelves i else s)
  else if err = 3 then s
  else s.setReg Reg.LRD_RNG_FAIL [i] (BitVec.ofNat 64 va)

/-- The range registers of inst. `i` are the manager's and, while its data path is open, the tenant's (R246). -/
def mayRange (w : Writer) (i : Nat) : Bool := isManager w || (match w with
  | .fn f => f.val == i
  | _ => false)

/-- A write of LRD_RNG_CMDi (R138). -/
def State.rangeCmd (s : State) (w : Writer) (i op : Nat) : State :=
  let off := Reg.LRD_RNG_CMD.addr [i]
  s.tenantWrite w off (fun s =>
  if ¬ mayRange w i then s.refuse w off causeActor
  else if (s.rangeOps.get none i).isSome then s.refuse w off causeBusy
  else
    let s := s.wrote Reg.LRD_RNG_CMD [i] op
    let va := s.fld Reg.LRD_RNG_ADDR [i] F.LRD_RNG_ADDR_VA
    let len := s.fld Reg.LRD_RNG_LEN [i] F.LRD_RNG_LEN_LEN
    if va % 128 ≠ 0 ∨ len % 128 ≠ 0 ∨ len = 0 then s.rangeOver i op 3 va
    else { s with rangeOps := s.rangeOps.set none i (some ⟨op, va, len⟩) }.setFld Reg.LRD_RNG_STAT [i] F.LRD_RNG_STAT_BUSY 1)

def execPrefetch (w : Writer) (i : InstId) (s : State) : Host.Outcome State Fault Refusal := .next (s.keepPilot (s.rangeCmd w i 1))
def execFlush (w : Writer) (i : InstId) (s : State) : Host.Outcome State Fault Refusal := .next (s.keepPilot (s.rangeCmd w i 2))
def execInvalidate (w : Writer) (i : InstId) (s : State) : Host.Outcome State Fault Refusal := .next (s.keepPilot (s.rangeCmd w i 3))
def execRangeDiscard (w : Writer) (i : InstId) (s : State) : Host.Outcome State Fault Refusal := .next (s.keepPilot (s.rangeCmd w i 4))

/-- The next line of a range operation; `fail` is an uncorrectable error in its write-back, which ends it with ERR 4. -/
def State.rangeLine (s : State) (i : Nat) (fail : Bool) : State :=
  match s.rangeOps.get none i with
  | none => s
  | some r =>
    if fail ∧ (r.op = 2 ∨ r.op = 3) then
      (s.log { kind := 0x17, index := i, cls := .contained, address := r.va, syndrome := 4, inst := i }).rangeOver i r.op 4 r.va
    else match s.rangeAct i r.op r.va with
      | .waits => s
      | .failed e => s.rangeOver i r.op e r.va
      | .done s =>
        if r.left ≤ 128 then s.rangeOver i r.op 0 r.va
        else { s with rangeOps := s.rangeOps.set none i (some ⟨r.op, (r.va + 128) % 2 ^ 48, r.left - 128⟩) }

def execRangeLine (i : InstId) (fail : Bool) (s : State) : Host.Outcome State Fault Refusal := .next (s.keepPilot (s.rangeLine i fail))

/-! ### Pinned ways (R140, R141) -/

/-- Ways granted to any inst. -/
def State.grantedWays (s : State) : Nat := (List.range 33).foldl (fun m i => m ||| s.fld Reg.LRD_PIN_CFG [i] F.LRD_PIN_CFG_WAYS) 0

/-- The Locker unit that a way backs, if any. -/
def State.unitOfWay (s : State) (way : Nat) : Option Nat :=
  if (List.range 33).any (fun i => (s.fld Reg.LRD_PIN_CFG [i] F.LRD_PIN_CFG_LOCKER).testBit way) then
    (List.range s.units).find? (fun u => fieldOf (s.reg Reg.LRD_LOCKER_MAP []) (4 * u + 3) (4 * u) == way)
  else none

/-- The inst. that a granted way belongs to. -/
def State.wayOwner (s : State) (way : Nat) : Nat :=
  ((List.range 33).find? (fun i => (s.fld Reg.LRD_PIN_CFG [i] F.LRD_PIN_CFG_WAYS).testBit way)).getD 0

/-- The refusal of Table MH-8, lowest code first; 0 for none. -/
def State.pinRefusal (s : State) (op way i : Nat) : Nat :=
  let has := s.grantedWays.testBit way
  if 32 < i ∨ op = 0 then 3
  else if op ≠ 3 ∧ has ∨ op = 3 ∧ ¬ has then 1
  else if op ≠ 3 ∧ 12 ≤ popCount 16 s.grantedWays then 2
  else if op == 3 && (match s.unitOfWay way with | some u => u + 1 != s.units | none => false) then 4
  else if op = 2 ∧ 16 ≤ s.units then 5
  else 0

def State.setPin (s : State) (f : Fld) (way i : Nat) (on : Bool) : State := s.setFld Reg.LRD_PIN_CFG [i] ⟨f.lo + way, f.lo + way⟩ (if on then 1 else 0)

/-- A write of LRD_PIN_CMD; REVOKE takes the way from the inst. that has it, and makes the unit of a LOCKER way unbacked at once. -/
def State.pinCmd (s : State) (w : Writer) (op way i : Nat) : State :=
  let off := Reg.LRD_PIN_CMD.base
  s.asManager w off (fun s =>
    let s := s.tdiBreak i
    if s.larderCtl.pin.isSome then s.refuse w off causeBusy else
    match s.pinRefusal op way i with
    | 0 =>
      let o := if op = 3 then s.wayOwner way else i
      let s := s.wrote Reg.LRD_PIN_CMD [] (i + 256 * way + 4096 * op)
      let locker := op = 3 ∧ (s.unitOfWay way).isSome
      let s := (s.setCtl (fun c => { c with pin := some ⟨if locker then 4 else op, way, o⟩ })).setFld Reg.LRD_MH_STAT [] F.LRD_MH_STAT_PIN_BUSY 1
      if locker then
        let u := s.units - 1
        (((s.setFld Reg.LRD_MH_STAT [] F.LRD_MH_STAT_UNITS u).setFld Reg.LRD_LOCKER_MAP [] ⟨4 * u + 3, 4 * u⟩ 0).setPin
          F.LRD_PIN_CFG_WAYS way o false).setPin F.LRD_PIN_CFG_LOCKER way o false
      else s
    | r => (s.setFld Reg.LRD_MH_STAT [] F.LRD_MH_STAT_REFUSE r).refuse w off (if op = 0 then causeReserved else if r = 3 then causeValue else causeState) r)

def execGrantPin (w : Writer) (way : Fin 16) (i : Fin 64) (s : State) : Host.Outcome State Fault Refusal := .next (s.keepPilot (s.pinCmd w 1 way i))
def execGrantLocker (w : Writer) (way : Fin 16) (i : Fin 64) (s : State) : Host.Outcome State Fault Refusal := .next (s.keepPilot (s.pinCmd w 2 way i))
def execRevoke (w : Writer) (way : Fin 16) (i : Fin 64) (s : State) : Host.Outcome State Fault Refusal := .next (s.keepPilot (s.pinCmd w 3 way i))

/-- Lines of a way, in every set of every slice. -/
def State.wayLines (s : State) (way : Nat) : List (Nat × LarderLine) :=
  s.larder.filterMap (fun e => match e.2 with
    | some x => if x.way = way then some (e.1, x) else none
    | none => none)

/-- A Locker line dropped without write-back. -/
def State.dropLine (s : State) (l : Nat) : State :=
  let s := (s.holders l).foldl (fun s g => s.setCup g l none) s
  { s with larder := s.larder.set none l none }

/-- The pin command ends (R140); it waits for reductions in the way. -/
def State.pinEnd (s : State) : State :=
  match s.larderCtl.pin with
  | none => s
  | some p =>
    let ls := s.wayLines p.way
    if s.order != 0 || ls.any (fun e => e.2.red || e.2.refetch || !(s.homeLine e.1).running.isEmpty) then s else
    let s := if p.op = 4 then (ls.filter (fun e => isLocker e.1)).foldl (fun s e => s.dropLine e.1) s else ls.foldl (fun s e => s.evict e.1) s
    let s := (s.setCtl (fun c => { c with pin := none })).setFld Reg.LRD_MH_STAT [] F.LRD_MH_STAT_PIN_BUSY 0
    match p.op with
    | 1 => s.setPin F.LRD_PIN_CFG_WAYS p.way p.inst true
    | 2 =>
      let u := s.units
      let s := { s with lockerLost := s.lockerLost.filter (fun e => e.1 / 4 != u) }
      (((s.setPin F.LRD_PIN_CFG_WAYS p.way p.inst true).setPin F.LRD_PIN_CFG_LOCKER p.way p.inst true).setFld Reg.LRD_LOCKER_MAP []
        ⟨4 * u + 3, 4 * u⟩ p.way).setFld Reg.LRD_MH_STAT [] F.LRD_MH_STAT_UNITS (u + 1)
    | 3 => s.setPin F.LRD_PIN_CFG_WAYS p.way p.inst false
    | _ => s

def execPinCmdEnd (s : State) : Host.Outcome State Fault Refusal := .next (s.keepPilot s.pinEnd)

end Sys2Proof.Machine
end

