-- ==== Sys2Proof/Machine/Bays.lean ====
section
/-! DEFINITION. Forming and dissolving a Bay, control words, slices, the resume of a core and the slow-down window
(11_bays_scheduling_preemption.md). -/
namespace Sys2Proof.Machine

/-- The conditions of R226 for EN = 1. -/
def State.mayForm (s : State) (b inst : Nat) : Bool :=
  let m := s.reg Reg.BAY_CLUSTERS [b]
  m != 0 && (onesOf 64 m.toNat).all (fun g => (s.reg Reg.DEV_INV_CLUSTER []).getLsbD g && (s.bayOfCluster g).isNone) &&
  decide (inst ≤ 32) && s.bit Reg.LRD_MMU_ROOT [inst] F.LRD_MMU_ROOT_EN

/-- The control words of a Bay at zero (R227). -/
def State.clearWords (s : State) (b : Nat) : State :=
  match (s.coresOf b).head? with
  | some n => s.setPantry n 0x27FF80 (List.replicate 128 0) false
  | none => s

/-- A write of BAY_CFG with EN = 1 (R226). INSTANCE, ORDERED are taken while EN is 0; EN stays 0 where a condition fails. -/
def State.bayForm (s : State) (w : Writer) (b inst : Nat) (ordered : Bool) : State :=
  let off := Reg.BAY_CFG.addr [b]
  s.asManager w off (fun s =>
    let s := s.tdiBreak (s.instOfBay b)
    if s.bit Reg.BAY_CFG [b] F.BAY_CFG_EN then
      (if inst = s.instOfBay b ∧ ordered = s.bit Reg.BAY_CFG [b] F.BAY_CFG_ORDERED then s else s.refuse w off causeState)
    else
      let s := if inst ≤ 32 then (s.setFld Reg.BAY_CFG [b] F.BAY_CFG_INSTANCE inst).tdiBreak inst else s
      let s := s.setFld Reg.BAY_CFG [b] F.BAY_CFG_ORDERED (if ordered then 1 else 0)
      if s.mayForm b inst then ((s.setFld Reg.BAY_CFG [b] F.BAY_CFG_EN 1).setBay b {}).clearWords b else s.refuse w off causeValue)

def execBayForm (w : Writer) (b : BayId) (inst : Fin 64) (ordered : Bool) (s : State) : Host.Outcome State Fault Refusal :=
  .next (s.keepPilot (s.bayForm w b inst ordered))

/-- A write of BAY_CFG with EN = 0 while EN is 1: every image slot has to be EMPTY (R226). -/
def State.bayDissolve (s : State) (w : Writer) (b : Nat) : State :=
  let off := Reg.BAY_CFG.addr [b]
  s.asManager w off (fun s =>
    let s := s.tdiBreak (s.instOfBay b)
    if (List.range 4).all (fun j => (s.img b j).status == .empty) then
      s.setFld Reg.BAY_CFG [b] F.BAY_CFG_EN 0
    else s.refuse w off causeState)

def execBayDissolve (w : Writer) (b : BayId) (s : State) : Host.Outcome State Fault Refusal := .next (s.keepPilot (s.bayDissolve w b))

/-! ### Control words (R227, R228) -/

/-- Who writes a control word: a register writer, or a store of a core of the Bay. -/
def State.mayWord (s : State) (w : Writer) (b : Nat) : Bool :=
  match w with
  | .fn f => f.val == 0 || f.val == s.instOfBay b
  | _ => true

/-- A write of BAY_CTLWi: one 8-byte store to the Pantry of Bay-relative core 0, which wakes the slots that name the word. A write to a gated core's
window is held for its wake (R358); an unformed Bay has no core 0. -/
def State.controlWord (s : State) (w : Writer) (b i : Nat) (v : DWord) : State :=
  let off := Reg.BAY_CTLW.addr [b, i]
  s.tenantWrite w off (fun s =>
  if ¬ s.mayWord w b then s.refuse w off causeActor
  else match s.bit Reg.BAY_CFG [b] F.BAY_CFG_EN, (s.coresOf b).head? with
    | true, some n =>
      if s.gated (clusterOf n) then { s.wantWake (clusterOf n) with heldWrites := s.heldWrites ++ [(w, off, v)] }
      else ((s.wantWake (clusterOf n)).setPantry n (0x27FF80 + 8 * i) (leBytes 8 v.toNat) false).wakeSlots b i
    | _, _ => s.refuse w off causeState)

def execControlWordWrite (w : Writer) (b : BayId) (i : Fin 16) (v : DWord) (s : State) : Host.Outcome State Fault Refusal :=
  .next (s.keepPilot (s.controlWord w b i v))

/-! ### Slices (R230, R231, R236) -/

/-- Slice of slot `j` in reference cycles: 1 µs is 100. -/
def State.sliceOf (s : State) (b j : Nat) : Nat :=
  100 * (if s.critical b j then s.fld Reg.BAY_SLICE [b] F.BAY_SLICE_LC_SLICE else s.fld Reg.BAY_SLICE [b] F.BAY_SLICE_BE_SLICE)

/-- A slice ends (Table BY-1): a latency-critical stream gives way to another one, a best-effort stream to any ready slot; else a new slice begins. -/
def State.sliceEnd (s : State) (b : Nat) : State :=
  let y := s.bay b
  if ¬ y.on ∨ y.switch ≠ 0 then s
  else match s.chooseNext b with
    | some t =>
      if s.critical b y.cur ∧ ¬ s.critical b t then s.setBay b { y with sliceLen := s.sliceOf b y.cur }
      else s.setBay b { y with switch := 1, target := some t, sliceOver := some s.now }
    | none => s.setBay b { y with sliceLen := s.sliceOf b y.cur }

def execSliceEnd (b : BayId) (s : State) : Host.Outcome State Fault Refusal := .next (s.keepPilot (s.sliceEnd b))

/-! ### The resume of a core (R232) -/

/-- Step 2: ranges of the incoming claim that another slot holds go to its spill area. -/
def State.spillOthers (s : State) (b j n : Nat) : List Nat → Moved
  | [] => .ok s
  | r :: rs =>
    match (s.range n).holders.get none r with
    | none => s.spillOthers b j n rs
    | some h =>
      if h = j then s.spillOthers b j n rs
      else match s.spillLines b n 512 (65536 * r) (s.shareAddr b h n + unitOf ((s.range n).live.get 0 h) r * 65536) with
        | .waits => .waits
        | .failed => (s.spillFault b h n).spillOthers b j n rs
        | .ok s =>
          let s := s.setSaved b h n ((s.range n).saved.get 0 h ||| BitVec.ofNat 40 (2 ^ r))
          (s.setRange n { (s.range n) with holders := (s.range n).holders.set none r none }).spillOthers b j n rs

/-- Step 3: saved ranges come back; where the area cannot be read, the bytes are poisoned (Table BY-4). -/
def State.restoreOwn (s : State) (b j n : Nat) : List Nat → Moved
  | [] => .ok s
  | r :: rs =>
    let take (s : State) : State :=
      let s := s.setSaved b j n ((s.range n).saved.get 0 j &&& ~~~ BitVec.ofNat 40 (2 ^ r))
      s.setRange n { (s.range n) with holders := (s.range n).holders.set none r (some j) }
    match s.restoreLines b n 512 (65536 * r) (s.shareAddr b j n + unitOf ((s.range n).live.get 0 j) r * 65536) with
    | .waits => .waits
    | .failed => (take (s.markWrite (pantryAddr n (65536 * r)) 65536 true)).restoreOwn b j n rs
    | .ok s => (take s).restoreOwn b j n rs

/-- The code region of slot `j` on core `n`. -/
def State.regionOn (s : State) (b j n : Nat) : Option Region := (s.img b j).regions.find? (fun r => r.core == s.relCore b n)

/-- A core begins at ENTRY (R56, R81). -/
def State.freshSeq (s : State) (b j n : Nat) : Seq :=
  let r := s.regionOn b j n
  { status := .running, stream := some (b, j), pc := BitVec.ofNat 18 ((r.map (·.entry)).getD 0),
    exps := (r.map (·.exps)).getD (List.replicate 16 0), bank := (s.bankOf n).getD 0 }

/-- Opcode byte of the instruction at a PC of a region. -/
def State.opcodeAt (s : State) (n : Nat) (r : Option Region) (pc : BitVec 18) : Nat :=
  match r with
  | some r => s.pantryNat n (r.base + 8 * pc.toNat + 7) 1
  | none => 0

/-- Step 4: the sequencer state, from ENTRY or from the context record; a core stopped at a YIELD goes on behind it (R70). -/
def State.reloadSeq (s : State) (b j n : Nat) : Option State :=
  if (s.img b j).fresh then some (s.setSeq n (s.freshSeq b j n))
  else (s.loadRecord b j n).map (fun (s, ws) =>
    let q := (s.seq n).ofRecord (fun k => ws.getD k 0)
    let pc := if q.status = .running ∧ s.opcodeAt n (s.regionOn b j n) q.pc = 0x19 then q.pc + 1 else q.pc
    s.setSeq n { q with stream := some (b, j), pc := pc })

/-- The first core of a stream resumes: its slice begins, less any debit (R231, R236). -/
def State.beginSlice (s : State) (b j : Nat) : State :=
  let x := s.img b j
  (s.setBay b { (s.bay b) with on := true, sliceLen := s.sliceOf b j - x.debit }).setImg b j { x with debit := 0 }

/-- A command that waited for the resume acts (R83). -/
def State.actLater (s : State) (b j : Nat) : State :=
  let x := s.img b j
  let s := s.setImg b j { x with later := 0 }
  match x.later with
  | 3 => s.stopSlot b j
  | 4 => s.abortSlot b j
  | _ => s

/-- Every core has resumed: the switch is over. -/
def State.endSwitch (s : State) (b j : Nat) : State :=
  let s := s.setBay b { (s.bay b) with switch := 0, target := none }
  (s.setImg b j { (s.img b j) with fresh := false }).actLater b j

/-- CORE_RESUME: steps 2 to 4 of R232 on a core that the switch has still to resume. -/
def State.coreResume (s : State) (n : Nat) : State :=
  match s.bayOfCore n with
  | none => s
  | some b =>
    let y := s.bay b
    let j := y.cur
    if y.switch ≠ 2 ∨ ¬ y.resuming.contains n ∨ s.gated (clusterOf n) then s else
    match s.spillOthers b j n (onesOf 40 (s.reg Reg.BAY_CLAIM [b, j]).toNat) with
    | .ok s1 => (match s1.restoreOwn b j n (onesOf 40 ((s1.range n).saved.get 0 j).toNat) with
      | .ok s2 => (match s2.reloadSeq b j n with
        | some s =>
          let s := s.when (!(s.bay b).on) (fun s => s.beginSlice b j)
          let s := s.setBay b { (s.bay b) with resuming := (s.bay b).resuming.erase n }
          if (s.bay b).resuming.isEmpty then s.endSwitch b j else s
        | none => s)
      | _ => s)
    | _ => s

def execCoreResume (n : CoreId) (s : State) : Host.Outcome State Fault Refusal := .next (s.keepPilot (s.coreResume n))

/-! ### Slow-down (R240) -/

/-- SLOW of a window. -/
def slowOf (a i : Nat) : Nat := if a = 0 then 0x100 else min 0xFFFF (256 * a / max (a - i) 1)

/-- A window of 1 ms ends; `i` is I, the reference cycles that a request of the Bay waited behind another Bay's. -/
def State.slowWindow (s : State) (b i : Nat) : State :=
  let y := s.bay b
  let v := slowOf y.winA i
  let s := (s.setBay b { y with winA := 0 }).setFld Reg.BAY_SLOW [b] F.BAY_SLOW_SLOW v
  let s := if i = 0 then s else s.satCount Reg.BAY_INTF [b] b i
  if s.fld Reg.BAY_SLOW [b] F.BAY_SLOW_LIMIT < v then s.bayEvent b 0x10 else s

def execSlowWindowEnd (b : BayId) (i : Fin 131072) (s : State) : Host.Outcome State Fault Refusal := .next (s.keepPilot (s.slowWindow b i))

end Sys2Proof.Machine
end

