-- ==== Sys2Proof/Machine/RegFind.lean ====
section
/-! DEFINITION. The register at a BAR0 offset, and the field masks of its access types (R3-R7). -/
namespace Sys2Proof.Machine

/-- Indexes of a register of an array at a distance from its base. -/
def dimIndex : List (Nat × Nat) → Nat → Option (List Nat)
  | [], 0 => some []
  | [], _ => none
  | (n, st) :: ds, rel => let i := rel / st; if i < n then (dimIndex ds (rel % st)).map (fun is => i :: is) else none

/-- The register of a specification at an offset. -/
def RegSpec.at (r : RegSpec) (off : Nat) : Option (RegSpec × List Nat) :=
  if off < r.base then none else (dimIndex r.dims (off - r.base)).map (fun is => (r, is))

/-- Arrays whose first register is number 1: the registers of the inst.s 1-32 (Tables TN-11, HP-6). -/
def fromOne : List Nat := [Reg.HAT_INST_CMD.base, Reg.HAT_INST_STAT.base, Reg.HAT_INST_SAVE.base, Reg.HAT_INST_SLEN.base, Reg.HAT_INST_QCFG.base,
  Reg.HAT_INST_RMAP.base, Reg.HST_VF_WIN.base, Reg.HST_TDI_STAT.base]

/-- The register at an offset, with its indexes. -/
def findReg (off : Nat) : Option (RegSpec × List Nat) :=
  match regTable.findSome? (fun r => r.at off) with
  | some (r, is) => if is.headD 1 = 0 ∧ fromOne.contains r.base then none else some (r, is)
  | none => none

/-- Bits of a register's fields of some access types. -/
def RegSpec.mask (r : RegSpec) (p : Acc → Bool) : Nat :=
  (r.fields.filter (fun f => p f.acc)).foldl (fun m f => m + (2 ^ (f.hi + 1 - f.lo) - 1) * 2 ^ f.lo) 0

def RegSpec.rwMask (r : RegSpec) : Nat := r.mask (fun a => a == .rw)
def RegSpec.w1cMask (r : RegSpec) : Nat := r.mask (fun a => a == .rw1c)
def RegSpec.rcMask (r : RegSpec) : Nat := r.mask (fun a => a == .rc)
def RegSpec.wsMask (r : RegSpec) : Nat := r.mask (fun a => a == .ws)

/-- Reset value of a register of an array. -/
def RegSpec.resetAt (r : RegSpec) (is : List Nat) : DWord := resetOf r.fields (is.getLastD 0)

/-- The table of registers after a reset that keeps the bits of `keep` and the rings of the Hatch pages. -/
def keepRegs (keep : RegSpec → List Nat → Nat) (t : Tbl DWord) : Tbl DWord :=
  t.filterMap (fun e => match findReg e.1 with
    | none => if 0x2000000 ≤ e.1 ∧ e.1 < 0x3000000 then some e else none
    | some (r, is) =>
      let k := BitVec.ofNat 64 (keep r is)
      let v := (e.2 &&& k) ||| (r.resetAt is &&& ~~~ k)
      if v = r.resetAt is then none else some (e.1, v))

end Sys2Proof.Machine
end

