-- ==== Sys2Proof/Machine/Operands.lean ====
section
/-! DEFINITION. Lemgus-V words: their fields by format (Table TG-2), which words are legal (R92, R101, R106), and the operand forms of a
thread group: guards, vector, uniform scalar and predicate registers (R88, R90). -/
namespace Sys2Proof.Machine

/-- A Lemgus-V word. -/
abbrev VWord := BitVec 64

def VWord.cls (w : VWord) : Nat := fieldOf w 63 60
def VWord.op (w : VWord) : Nat := fieldOf w 59 54
def VWord.pg (w : VWord) : Nat := fieldOf w 53 51
def VWord.pn (w : VWord) : Bool := bitAt w 50
def VWord.ty (w : VWord) : Nat := fieldOf w 49 48
def VWord.vd (w : VWord) : Nat := fieldOf w 47 42
def VWord.va (w : VWord) : Nat := fieldOf w 41 36
def VWord.vb (w : VWord) : Nat := fieldOf w 35 30
def VWord.vc (w : VWord) : Nat := fieldOf w 29 24
/-- Format R. -/
def VWord.sa (w : VWord) : Bool := bitAt w 23
def VWord.sb (w : VWord) : Bool := bitAt w 22
def VWord.sc (w : VWord) : Bool := bitAt w 21
def VWord.pdR (w : VWord) : Nat := fieldOf w 20 18
def VWord.nosat (w : VWord) : Bool := bitAt w 17
/-- Formats I and S. -/
def VWord.imm (w : VWord) : Word := BitVec.ofNat 32 (fieldOf w 31 0)
def VWord.sdS (w : VWord) : Nat := fieldOf w 47 43
def VWord.saS (w : VWord) : Nat := fieldOf w 42 38
def VWord.sbS (w : VWord) : Nat := fieldOf w 37 33
def VWord.im (w : VWord) : Bool := bitAt w 32
/-- Format X. -/
def VWord.sdX (w : VWord) : Nat := fieldOf w 29 25
def VWord.laneX (w : VWord) : Nat := fieldOf w 24 19
def VWord.pdX (w : VWord) : Nat := fieldOf w 18 16
def VWord.psX (w : VWord) : Nat := fieldOf w 15 13
/-- Format M. -/
def VWord.sbM (w : VWord) : Nat := fieldOf w 29 25
def VWord.sizeM (w : VWord) : Nat := fieldOf w 24 22
def VWord.spaceM (w : VWord) : Bool := bitAt w 21
def VWord.scopeM (w : VWord) : Nat := fieldOf w 20 18
def VWord.ordM (w : VWord) : Nat := fieldOf w 17 16
def VWord.unif (w : VWord) : Bool := bitAt w 15
def VWord.offset (w : VWord) : Int := signExt 15 (fieldOf w 14 0)
/-- Format A. -/
def VWord.sbA (w : VWord) : Nat := fieldOf w 23 19
def VWord.spaceA (w : VWord) : Bool := bitAt w 18
def VWord.scopeA (w : VWord) : Nat := fieldOf w 17 15
def VWord.ordA (w : VWord) : Nat := fieldOf w 14 13
def VWord.ret (w : VWord) : Bool := bitAt w 12
/-- Format C (Table TG-4). -/
def VWord.target (w : VWord) : BitVec 18 := BitVec.ofNat 18 (fieldOf w 47 30)
def VWord.rpc (w : VWord) : BitVec 18 := BitVec.ofNat 18 (fieldOf w 29 12)
def VWord.pkC (w : VWord) : Nat := fieldOf w 11 9
def VWord.saC (w : VWord) : Nat := fieldOf w 8 4
def VWord.scopeC (w : VWord) : Nat := fieldOf w 3 1
def VWord.tallyC (w : VWord) : Nat := fieldOf w 47 36
def VWord.coreC (w : VWord) : Nat := fieldOf w 35 27
def VWord.amountC (w : VWord) : Nat := fieldOf w 26 11
def VWord.acqC (w : VWord) : Bool := bitAt w 10
def VWord.relC (w : VWord) : Bool := bitAt w 9
def VWord.idC (w : VWord) : Nat := fieldOf w 3 0
def VWord.codeC (w : VWord) : BitVec 16 := BitVec.ofNat 16 (fieldOf w 15 0)

/-! ### Legal words (fault 0x01) -/

/-- TY allowed, for the listed operations of Tables TG-3 and TG-5; `none`: the operation is reserved. -/
def tyAllowed (cls op : Nat) : Option (List Nat) :=
  match cls with
  | 0x0 => if op ≤ 0x07 then some [0, 1] else if op ≤ 0x0C then some [0] else none
  | 0x1 => if op ≤ 0x0D then some [2, 3] else if op = 0x10 then some [2] else none
  | 0x2 => if op ≤ 0x06 then some [2, 3] else if op = 0x08 ∨ op = 0x09 then some [0] else none
  | 0x3 => if op ≤ 0x03 then some [0] else none
  | 0x4 => if op ≤ 0x05 then some [0, 2, 3] else if 0x10 ≤ op ∧ op ≤ 0x15 then some [0] else none
  | 0x5 => if op ≤ 0x09 then some [0] else none
  | 0x6 => if op ≤ 0x06 ∨ (0x08 ≤ op ∧ op ≤ 0x0A) then some [0] else if 0x10 ≤ op ∧ op ≤ 0x12 then some [0, 2, 3] else none
  | 0x7 => if op ≤ 0x02 then some [0, 1, 2, 3] else none
  | 0x8 => if op ≤ 0x02 then some [0, 2, 3] else if op ≤ 0x07 then some [2, 3] else none
  | 0x9 => if op ≤ 0x10 then some [0] else none
  | 0xA => if op ≤ 0x02 ∨ (0x08 ≤ op ∧ op ≤ 0x0A) then some [0] else none
  | _ => none

/-- Bits of [47:0] that a control instruction uses (Table TG-4). -/
def controlBits (op : Nat) : List (Nat × Nat) :=
  match op with
  | 0x01 => [(47, 30)]
  | 0x02 | 0x03 => [(47, 30), (8, 4)]
  | 0x04 => [(47, 30), (29, 12), (11, 9)]
  | 0x06 => [(29, 12)]
  | 0x07 => [(11, 9)]
  | 0x08 => [(47, 30), (11, 9)]
  | 0x0B => [(47, 36), (8, 4), (3, 1)]
  | 0x0C => [(47, 36), (35, 27), (26, 11), (3, 1)]
  | 0x0D => [(10, 10), (9, 9), (3, 1)]
  | 0x0E => [(3, 0)]
  | 0x10 => [(15, 0)]
  | _ => []

/-- The word without the listed fields. -/
def strip (w : VWord) (fs : List (Nat × Nat)) : VWord := fs.foldl (fun w f => withField w f.1 f.2 0) w

/-- Reserved fields are zero (Table TG-2); a uniform operand's bit 5 is zero; PG and PN of an unguarded control instruction are zero. -/
def VWord.reservedOk (w : VWord) : Bool :=
  match w.cls with
  | 0x2 => fieldOf w 35 32 == 0
  | 0x5 => true
  | 0x6 => fieldOf w 12 0 == 0
  | 0x7 => fieldOf w 35 30 == 0
  | 0x8 => fieldOf w 11 0 == 0
  | 0x9 => fieldOf (strip w (controlBits w.op)) 47 0 == 0 && (decide (0x0F ≤ w.op) || (w.pg == 0 && !w.pn))
  | _ => fieldOf w 16 0 == 0 && (!w.sa || decide (w.va < 32)) && (!w.sb || decide (w.vb < 32)) && (!w.sc || decide (w.vc < 32))

/-- Register ranges of R92: the pair of BF2F and PK, wide loads and stores. -/
def VWord.rangeOk (w : VWord) : Bool :=
  match w.cls, w.op with
  | 0x0, 0x0B => decide (w.vd ≤ 62)
  | 0xA, o => decide (8 ≤ o) || decide (w.vd ≤ 62)
  | 0x7, 0x02 => true
  | 0x7, _ => (w.sizeM != 3 || w.vd % 2 == 0) && (w.sizeM != 4 || w.vd % 4 == 0)
  | _, _ => true

/-- What R101, R106, R110 and R112 make illegal. -/
def VWord.formOk (w : VWord) : Bool :=
  match w.cls, w.op with
  | 0x7, 0x00 => decide (w.sizeM ≤ 4) && decide (w.ordM ≤ 1)
  | 0x7, 0x01 => decide (w.sizeM ≤ 4) && (w.ordM == 0 || w.ordM == 2)
  | 0x7, 0x02 => w.sizeM == 3 && w.unif && decide (w.ordM ≤ 1)
  | 0x9, 0x0C => w.amountC != 0
  | 0x9, 0x0D => w.acqC || w.relC
  | _, _ => true

/-- A word that does not fault with code 0x01. -/
def VWord.legal (w : VWord) : Bool :=
  (match tyAllowed w.cls w.op with
    | some ts => ts.contains w.ty
    | none => false) && w.reservedOk && w.rangeOk && w.formOk

/-! ### Registers of a group -/

/-- Vector register `r` of thread `t`. -/
def Group.vreg (x : Group) (r t : Nat) : Word := Tbl.get x.v 0 (64 * r + t)
def Group.sreg (x : Group) (r : Nat) : DWord := Tbl.get x.s 0 r
/-- p0 reads all ones (R88). -/
def Group.preg (x : Group) (r : Nat) : DWord := if r = 0 then BitVec.allOnes 64 else Tbl.get x.p 0 r

/-- The guard of an instruction (R90). -/
def Group.guard (x : Group) (w : VWord) : DWord := if w.pn then ~~~ (x.preg w.pg) else x.preg w.pg
/-- The executing mask (R90). -/
def Group.exec (x : Group) (w : VWord) : DWord := x.active &&& x.guard w

def Group.setS (x : Group) (r : Nat) (v : DWord) : Group := { x with s := Tbl.set x.s 0 r v }
/-- A write to p0 is ignored (R88). -/
def Group.setP (x : Group) (r : Nat) (v : DWord) : Group := if r = 0 then x else { x with p := Tbl.set x.p 0 r v }
def Group.setV (x : Group) (r t : Nat) (v : Word) : Group := { x with v := Tbl.set x.v 0 (64 * r + t) v }

/-- Threads of a mask, rising. -/
def threads (m : DWord) : List Nat := onesOf 64 m.toNat

/-- Vector register `r` written for the threads of a mask. -/
def Group.writeV (x : Group) (m : DWord) (r : Nat) (f : Nat → Word) : Group := (threads m).foldl (fun x t => x.setV r t (f t)) x

/-- An operand of format R: a vector register, or a scalar's low word for every thread. -/
def Group.operand (x : Group) (uni : Bool) (field t : Nat) : Word := if uni then BitVec.ofNat 32 (x.sreg field).toNat else x.vreg field t

def Group.opA (x : Group) (w : VWord) (t : Nat) : Word := x.operand w.sa w.va t
def Group.opB (x : Group) (w : VWord) (t : Nat) : Word := x.operand w.sb w.vb t
def Group.opC (x : Group) (w : VWord) (t : Nat) : Word := x.operand w.sc w.vc t

end Sys2Proof.Machine
end

