-- ==== Sys2Proof/Machine/Outside.lean ====
section
/-! DEFINITION. Accesses that leave the device: requests to host memory (R312, R314, R316) and messages to span windows (R293). -/
namespace Sys2Proof.Machine

/-- A function's request needs no translation, or finds one in the cache (R314). -/
def State.atsHit (s : State) (fn a : Nat) : Bool :=
  !s.atsOn.get false fn || s.atc.any (fun e => e.1 == fn && e.2.2 == a / 2 ^ e.2.1)

/-- The lowest tag that no outstanding request has. -/
def State.hostTag (s : State) : Nat := ((List.range 1025).find? (fun k => s.hostOut.all (fun r => r.tag != k))).getD 1024

/-- A free tag below 1,024 (Table HP-1). -/
def State.hostRoom (s : State) : Bool := decide (s.hostTag < 1024)

/-- A write reaches host memory. -/
def State.hostStore (s : State) (a : Nat) (bs : List Byte) (poison : Bool) : State := (s.setBytes a bs).markWrite a bs.length poison

/-- A request to host memory: a posted write is performed at once, a read waits for its completion, and a request that misses the address
translation cache waits for its translation first. -/
def State.hostAccess (s : State) (who : Agent) (fn a len : Nat) (write : Option (List Byte)) : State :=
  let hit := s.atsHit fn a
  match write, hit with
  | some bs, true => s.hostStore a bs false
  | _, _ => { s with hostOut := s.hostOut ++ [⟨s.hostTag, who, fn, a, len, write, !hit⟩] }

/-- The function whose requester ID an agent of core `n` carries (R312). -/
def State.fnOf (s : State) (n : Nat) : Nat :=
  match s.bayOfCore n with
  | some b => s.instOfBay b
  | none => 0

/-- EPOCH of a message of core `n` (R293). -/
def State.epochOf (s : State) (n : Nat) : Nat :=
  match s.bayOfCore n with
  | some b => s.fld Reg.CHU_EPOCH [b] F.CHU_EPOCH_EPOCH
  | none => 0

def State.spanOn (s : State) : Bool := s.bit Reg.CHU_SPAN [] F.CHU_SPAN_EN

/-- A Chute message for an access of an agent of core `n` to global address `a` of a span window (R293). -/
def State.spanAccess (s : State) (who : Agent) (n type a dcore tally len data : Nat) : State :=
  let m : ChuteMsg := { type := type, sdev := s.fld Reg.CHU_SPAN [] F.CHU_SPAN_ID, ddev := (a - 0x4000000000000) / 2 ^ 39, score := n,
                        dcore := dcore, epoch := s.epochOf n, tally := tally, len := len, addr := a % 2 ^ 39, data := data }
  s.chutePush m who none

end Sys2Proof.Machine
end

