-- ==== Sys2Proof/Machine/Vector.lean ====
section
/-! DEFINITION. Thread groups: reaching an instruction, parking, and the arithmetic, predicate, scalar, cross-lane and pack instructions
(05_thread_groups.md R88-R94, R99, R116; R28, R415). -/
namespace Sys2Proof.Machine

/-! ### Parking (R116) -/

/-- A group parks: its fault is recorded, the Bay and the tenant are told (Table BY-4, Table TN-5), and nothing else of it changes. -/
def State.parkRec (s : State) (n g code addr : Nat) (fmask : DWord) (r : ErrRec) : State :=
  let x := s.group n g
  let s := s.setGroup n g { x with status := GrpStatus.parked, fault := code % 256, faddr := BitVec.ofNat 64 addr, fmask := fmask, load := none, atom := none, storing := false }
  let s := s.bump Reg.CST_VEC_CNT [n] F.CST_VEC_CNT_PARKS 1
  let s := s.logCore n { r with cls := .contained, syndrome := code, sub := g }
  match s.bayOfCore n with
  | some b => (s.bayEvent b 2).hatPush (s.instOfBay b) ⟨2, b + n * 2 ^ 16 + g * 2 ^ 32 + (code % 256) * 2 ^ 40 + x.pc.toNat * 2 ^ 64⟩
  | none => s

/-- A park whose fault has an address. -/
def State.parkAt (s : State) (n g code addr : Nat) (fmask : DWord) : State :=
  s.parkRec n g code addr fmask { kind := 0x04, index := n, cls := .contained, address := addr }

/-- A park whose fault belongs to the instruction. -/
def State.park (s : State) (n g code : Nat) (fmask : DWord) : State :=
  s.parkRec n g code 0 fmask { kind := 0x04, index := n, cls := .contained, address := (s.group n g).pc.toNat }

/-! ### Reaching an instruction (R91, R92) -/

/-- What a group finds at its PC. -/
inductive FetchV where
  | ok (w : VWord)
  | fault (code : Nat)

def State.fetchV (s : State) (n : Nat) (pc : BitVec 18) : FetchV :=
  match s.region n with
  | none => .fault 0x02
  | some r =>
    if r.len < 8 * pc.toNat + 8 then .fault 0x02
    else if s.pantryPoison n (r.base + 8 * pc.toNat) 8 then .fault 0x0A
    else .ok (BitVec.ofNat 64 (s.pantryNat n (r.base + 8 * pc.toNat) 8))

/-- The group may issue: ready, with live threads, no load, store or atomic of its own outstanding. -/
def Group.issues (x : Group) : Bool := x.status == .ready && x.live != 0 && x.load.isNone && x.atom.isNone && !x.storing

/-- The instruction at the group's PC, when it is one that `is` accepts (class and OP); a word that is no legal instruction parks the
group with code 0x01 whatever row reaches it. -/
def State.reachV (s : State) (n g : Nat) (is : Nat → Nat → Bool) (f : Group → VWord → State) : State :=
  let x := s.group n g
  if ¬ x.issues then s else
  match s.fetchV n x.pc with
  | .fault c => s.park n g c x.active
  | .ok w => if ¬ w.legal then s.park n g 0x01 (x.exec w) else if is w.cls w.op then f x w else s

def Group.next (x : Group) : Group := { x with pc := x.pc + 1 }

/-- A checked instruction under a residue mismatch (Table NM-9, R415): `mism` 1 is replayed and counted, 2 fails again on the replay
and parks the group. -/
def State.checked (s : State) (n g mism : Nat) (on : Bool) (mask : DWord) (f : State → State) : State :=
  if mism = 0 ∨ ¬ on ∨ mask = 0 then f s else
  let pc := (s.group n g).pc.toNat
  let s := (s.bump Reg.CST_ARITH_CNT [n] F.CST_ARITH_CNT_VEC_REPLAY 1).logCore n { kind := 0x02, index := n, cls := .corrected, address := pc, sub := g }
  if mism = 1 then f s else s.parkRec n g 0x09 0 mask { kind := 0x02, index := n, cls := .contained, address := pc }

/-! ### Classes 0x0 to 0x3 -/

def lowHalf (w : Word) : Nat := w.toNat % 65536
def highHalf (w : Word) : Nat := w.toNat / 65536
def pair (lo hi : Nat) : Word := BitVec.ofNat 32 (lo % 65536 + 65536 * (hi % 65536))

/-- ABS and NEG of FP32; a NaN gives the canonical NaN. -/
def f32Abs (a : Word) : Word := if isNanV (f32 a) then f32Nan else a &&& 0x7FFFFFFF#32
def f32Neg (a : Word) : Word := if isNanV (f32 a) then f32Nan else a ^^^ 0x80000000#32

/-- ADD to NEG of class 0x0 in FP32. -/
def fpOp (op : Nat) (a b c : Word) : Word :=
  match op with
  | 0x00 => f32Add a b
  | 0x01 => f32Sub a b
  | 0x02 => f32Mul a b
  | 0x03 => f32Fma a b c
  | 0x04 => f32Min a b
  | 0x05 => f32Max a b
  | 0x06 => f32Abs a
  | _ => f32Neg a

/-- The same on one BF16 half: the exact value rounded once. -/
def bfOp (op : Nat) (a b c : Nat) : Nat :=
  let v := decodeF bf16
  match op with
  | 0x00 => roundTo bf16 (addV (v a) (v b))
  | 0x01 => roundTo bf16 (addV (v a) (negV (v b)))
  | 0x02 => roundTo bf16 (mulV (v a) (v b))
  | 0x03 => roundTo bf16 (addV (mulV (v a) (v b)) (v c))
  | o => f32ToBf16 (fpOp o (bf16ToF32 a) (bf16ToF32 b) (bf16ToF32 c))

/-- One thread's result of class 0x0, VD first, then VD + 1 where BF2F writes it. -/
def fpResult (x : Group) (w : VWord) (t : Nat) : Word × Option Word :=
  let a := x.opA w t
  let b := x.opB w t
  let c := x.opC w t
  match w.op with
  | 0x08 => (f32ToI32 a, none)
  | 0x09 => (i32ToF32 a, none)
  | 0x0A => (pair (f32ToBf16 a) (f32ToBf16 b), none)
  | 0x0B => (bf16ToF32 (lowHalf a), some (bf16ToF32 (highHalf a)))
  | 0x0C => (if (x.preg w.pdR).getLsbD t then a else b, none)
  | o => (if w.ty = 1 then pair (bfOp o (lowHalf a) (lowHalf b) (lowHalf c)) (bfOp o (highHalf a) (highHalf b) (highHalf c)) else fpOp o a b c, none)

def checkedFp (op : Nat) : Bool := decide (op ≤ 3) || (decide (8 ≤ op) && decide (op ≤ 0xA))

def State.vectorFp (s : State) (n g mism : Nat) : State :=
  s.reachV n g (fun c _ => c == 0) (fun x w => s.checked n g mism (checkedFp w.op) (x.exec w) (fun s =>
    let y := x.writeV (x.exec w) w.vd (fun t => (fpResult x w t).1)
    let y := if w.op = 0x0B then y.writeV (x.exec w) (w.vd + 1) (fun t => ((fpResult x w t).2).getD 0) else y
    s.setGroup n g y.next))

def execVectorFpOp (n : CoreId) (g : SlotId) (mism : Fin 3) (s : State) : Host.Outcome State Fault Refusal := .next (s.keepPilot (s.vectorFp n g mism))

/-- Class 0x1. -/
def intOp (op : Nat) (unsigned : Bool) (t : Nat) (a b : Word) : Word :=
  let k := b.toNat % 32
  match op with
  | 0x00 => a + b
  | 0x01 => a - b
  | 0x02 => a * b
  | 0x03 => a &&& b
  | 0x04 => a ||| b
  | 0x05 => a ^^^ b
  | 0x06 => ~~~ a
  | 0x07 => a <<< k
  | 0x08 => a >>> k
  | 0x09 => a.sshiftRight k
  | 0x0A => if (if unsigned then a.ult b else a.slt b) then a else b
  | 0x0B => if (if unsigned then a.ult b else a.slt b) then b else a
  | 0x0C => BitVec.ofNat 32 (popCount 32 a.toNat)
  | 0x0D => BitVec.ofNat 32 (if a = 0 then 32 else 31 - a.toNat.log2)
  | _ => BitVec.ofNat 32 t

def State.vectorInt (s : State) (n g mism : Nat) : State :=
  s.reachV n g (fun c _ => c == 1) (fun x w => s.checked n g mism (decide (w.op ≤ 2)) (x.exec w) (fun s =>
    s.setGroup n g (x.writeV (x.exec w) w.vd (fun t => intOp w.op (w.ty == 3) t (x.opA w t) (x.opB w t))).next))

def execVectorIntOp (n : CoreId) (g : SlotId) (mism : Fin 3) (s : State) : Host.Outcome State Fault Refusal := .next (s.keepPilot (s.vectorInt n g mism))

/-- Class 0x2. -/
def immOp (op : Nat) (a i : Word) : Word :=
  match op with
  | 0x00 => i
  | 0x01 => a + i
  | 0x02 => a &&& i
  | 0x03 => a ||| i
  | 0x04 => a ^^^ i
  | 0x05 => a <<< (i.toNat % 32)
  | 0x06 => a >>> (i.toNat % 32)
  | 0x08 => f32Add a i
  | _ => f32Mul a i

def State.vectorImm (s : State) (n g mism : Nat) : State :=
  s.reachV n g (fun c _ => c == 2) (fun x w => s.checked n g mism (w.op == 1 || w.op == 8 || w.op == 9) (x.exec w) (fun s =>
    s.setGroup n g (x.writeV (x.exec w) w.vd (fun t => immOp w.op (x.vreg w.va t) w.imm)).next))

def execVectorImmOp (n : CoreId) (g : SlotId) (mism : Fin 3) (s : State) : Host.Outcome State Fault Refusal := .next (s.keepPilot (s.vectorImm n g mism))

/-- Class 0x3. -/
def specialFn (op : Nat) (a : Word) : Word :=
  match op with
  | 0x00 => exp2F a
  | 0x01 => log2F a
  | 0x02 => rcpF a
  | _ => rsqF a

def State.special (s : State) (n g mism : Nat) : State :=
  s.reachV n g (fun c _ => c == 3) (fun x w => s.checked n g mism true (x.exec w) (fun s =>
    s.setGroup n g (x.writeV (x.exec w) w.vd (fun t => specialFn w.op (x.opA w t))).next))

def execSpecialFunction (n : CoreId) (g : SlotId) (mism : Fin 3) (s : State) : Host.Outcome State Fault Refusal := .next (s.keepPilot (s.special n g mism))

/-! ### Class 0x4: compares and predicates -/

/-- One thread's compare; a NaN makes every FP compare false but NE. -/
def compareOp (op ty : Nat) (a b : Word) : Bool :=
  let lt := if ty = 0 then ltV (f32 a) (f32 b) else if ty = 2 then a.slt b else a.ult b
  let gt := if ty = 0 then ltV (f32 b) (f32 a) else if ty = 2 then b.slt a else b.ult a
  let eq := if ty = 0 then eqV (f32 a) (f32 b) else a == b
  match op with
  | 0 => eq
  | 1 => !eq
  | 2 => lt
  | 3 => lt || eq
  | 4 => gt
  | _ => gt || eq

def State.compare (s : State) (n g : Nat) : State :=
  s.reachV n g (fun c o => c == 4 && decide (o ≤ 5)) (fun x w =>
    let m := x.exec w
    let hits := BitVec.ofNat 64 (maskOf ((threads m).filter (fun t => compareOp w.op w.ty (x.opA w t) (x.opB w t))))
    s.setGroup n g (x.setP w.pdR (((x.preg w.pdR) &&& ~~~ m) ||| hits)).next)

def execVectorCompare (n : CoreId) (g : SlotId) (s : State) : Host.Outcome State Fault Refusal := .next (s.keepPilot (s.compare n g))

/-- A whole-register operation runs in full when some thread executes (R90). -/
def Group.whole (x : Group) (w : VWord) (f : Group → Group) : Group := if x.exec w = 0 then x.next else (f x).next

def predOp (op : Nat) (a b : DWord) : DWord :=
  match op with
  | 0x10 => a &&& b
  | 0x11 => a ||| b
  | 0x12 => a ^^^ b
  | _ => a &&& ~~~ b

def State.predicate (s : State) (n g : Nat) : State :=
  s.reachV n g (fun c o => c == 4 && decide (0x10 ≤ o) && decide (o ≤ 0x13)) (fun x w =>
    s.setGroup n g (x.whole w (fun x => x.setP w.pdR (predOp w.op (x.preg (w.va % 8)) (x.preg (w.vb % 8))))))

def execPredicateLogic (n : CoreId) (g : SlotId) (s : State) : Host.Outcome State Fault Refusal := .next (s.keepPilot (s.predicate n g))

def State.s2p (s : State) (n g : Nat) : State :=
  s.reachV n g (fun c o => c == 4 && o == 0x14) (fun x w => s.setGroup n g (x.whole w (fun x => x.setP w.pdR (x.sreg (w.va % 32)))))

def execS2p (n : CoreId) (g : SlotId) (s : State) : Host.Outcome State Fault Refusal := .next (s.keepPilot (s.s2p n g))

def State.p2s (s : State) (n g : Nat) : State :=
  s.reachV n g (fun c o => c == 4 && o == 0x15) (fun x w => s.setGroup n g (x.whole w (fun x => x.setS (w.vd % 32) (x.preg (w.va % 8)))))

def execP2s (n : CoreId) (g : SlotId) (s : State) : Host.Outcome State Fault Refusal := .next (s.keepPilot (s.p2s n g))

/-! ### Class 0x5: scalars -/

/-- MOV takes the second operand (DEDUCED: the only one an immediate can be; log 25). -/
def scalarValue (op : Nat) (a b : DWord) : DWord :=
  let k := b.toNat % 64
  match op with
  | 0x00 => b
  | 0x01 => a + b
  | 0x02 => a - b
  | 0x03 => a * b
  | 0x04 => a &&& b
  | 0x05 => a ||| b
  | 0x06 => a ^^^ b
  | 0x07 => a <<< k
  | 0x08 => a >>> k
  | _ => a.sshiftRight k

def State.scalar (s : State) (n g : Nat) : State :=
  s.reachV n g (fun c _ => c == 5) (fun x w =>
    let b := if w.im then BitVec.signExtend 64 w.imm else x.sreg w.sbS
    s.setGroup n g (x.whole w (fun x => x.setS w.sdS (scalarValue w.op (x.sreg w.saS) b))))

def execScalarOp (n : CoreId) (g : SlotId) (s : State) : Host.Outcome State Fault Refusal := .next (s.keepPilot (s.scalar n g))

/-! ### Class 0x6: cross-lane (R99) -/

/-- A move or shuffle: each executing thread receives a word. -/
def State.lanes (s : State) (n g op : Nat) (f : Group → VWord → Nat → Word) : State :=
  s.reachV n g (fun c o => c == 6 && o == op) (fun x w => s.setGroup n g (x.writeV (x.exec w) w.vd (f x w)).next)

def execShfl (n : CoreId) (g : SlotId) (s : State) : Host.Outcome State Fault Refusal :=
  .next (s.keepPilot (s.lanes n g 0x00 (fun x w t => x.vreg w.va ((x.vreg w.vb t).toNat % 64))))
def execShflx (n : CoreId) (g : SlotId) (s : State) : Host.Outcome State Fault Refusal :=
  .next (s.keepPilot (s.lanes n g 0x01 (fun x w t => x.vreg w.va (t ^^^ w.laneX))))
def execShflu (n : CoreId) (g : SlotId) (s : State) : Host.Outcome State Fault Refusal :=
  .next (s.keepPilot (s.lanes n g 0x02 (fun x w t => x.vreg w.va (if w.laneX ≤ t then t - w.laneX else t))))
def execShfld (n : CoreId) (g : SlotId) (s : State) : Host.Outcome State Fault Refusal :=
  .next (s.keepPilot (s.lanes n g 0x03 (fun x w t => x.vreg w.va (if t + w.laneX ≤ 63 then t + w.laneX else t))))
def execBcast (n : CoreId) (g : SlotId) (s : State) : Host.Outcome State Fault Refusal :=
  .next (s.keepPilot (s.lanes n g 0x04 (fun x w _ => x.vreg w.va w.laneX)))
def execS2v (n : CoreId) (g : SlotId) (s : State) : Host.Outcome State Fault Refusal :=
  .next (s.keepPilot (s.lanes n g 0x06 (fun x w _ => BitVec.ofNat 32 (x.sreg w.sdX).toNat)))

/-- An operation whose destination belongs to no thread, in force whatever threads execute (an empty fold or vote has its own result). -/
def State.crossed (s : State) (n g op : Nat) (f : Group → VWord → Group) : State :=
  s.reachV n g (fun c o => c == 6 && o == op) (fun x w => s.setGroup n g (f x w).next)

def execV2s (n : CoreId) (g : SlotId) (s : State) : Host.Outcome State Fault Refusal :=
  .next (s.keepPilot (s.crossed n g 0x05 (fun x w => x.setS w.sdX (BitVec.ofNat 64 (x.vreg w.va w.laneX).toNat))))
def execAny (n : CoreId) (g : SlotId) (s : State) : Host.Outcome State Fault Refusal :=
  .next (s.keepPilot (s.crossed n g 0x08 (fun x w => x.setP w.pdX (if x.exec w &&& x.preg w.psX ≠ 0 then BitVec.allOnes 64 else 0))))
def execAll (n : CoreId) (g : SlotId) (s : State) : Host.Outcome State Fault Refusal :=
  .next (s.keepPilot (s.crossed n g 0x09 (fun x w => x.setP w.pdX (if x.exec w &&& ~~~ (x.preg w.psX) = 0 then BitVec.allOnes 64 else 0))))
def execBallot (n : CoreId) (g : SlotId) (s : State) : Host.Outcome State Fault Refusal :=
  .next (s.keepPilot (s.crossed n g 0x0A (fun x w => x.setS w.sdX (x.exec w &&& x.preg w.psX))))

/-- A fold over executing threads in ascending order; an empty fold is zero. -/
def foldOf (f : Word → Word → Word) : List Word → Word
  | [] => 0
  | a :: as => as.foldl f a

def State.foldS (s : State) (n g op mism : Nat) (on : Bool) (f : VWord → Word → Word → Word) : State :=
  s.reachV n g (fun c o => c == 6 && o == op) (fun x w => s.checked n g mism on (x.exec w) (fun s =>
    let v := foldOf (f w) ((threads (x.exec w)).map (x.vreg w.va))
    let v := if w.ty = 0 then toF32 (f32 v) else v
    s.setGroup n g (x.setS w.sdX (BitVec.ofNat 64 v.toNat)).next))

/-- An element of RADD, RMIN or RMAX. -/
def foldElem (op : Nat) (w : VWord) (a b : Word) : Word :=
  match op with
  | 0x10 => if w.ty = 0 then f32Add a b else a + b
  | 0x11 => if w.ty = 0 then f32Min a b else intOp 0x0A (w.ty == 3) 0 a b
  | _ => if w.ty = 0 then f32Max a b else intOp 0x0B (w.ty == 3) 0 a b

def execRadd (n : CoreId) (g : SlotId) (mism : Fin 3) (s : State) : Host.Outcome State Fault Refusal :=
  .next (s.keepPilot (s.foldS n g 0x10 mism true (foldElem 0x10)))
def execRmin (n : CoreId) (g : SlotId) (s : State) : Host.Outcome State Fault Refusal := .next (s.keepPilot (s.foldS n g 0x11 0 false (foldElem 0x11)))
def execRmax (n : CoreId) (g : SlotId) (s : State) : Host.Outcome State Fault Refusal := .next (s.keepPilot (s.foldS n g 0x12 0 false (foldElem 0x12)))

/-! ### Class 0xA: pack (R94) -/

def packFormat (op : Nat) : MxOut × ElemFmt :=
  match op % 8 with
  | 0 => (.e4m3, .e4m3)
  | 1 => (.e5m2, .e5m2)
  | _ => (.e2m1, .e2m1)

/-- PK of one block of threads. -/
def Group.packBlock (x y : Group) (w : VWord) (m : DWord) : Group :=
  let ts := threads m
  let (sc, codes) := requantise (packFormat w.op).1 w.nosat (ts.map (x.opA w))
  (ts.zip codes).foldl (fun y e => (y.setV w.vd e.1 (BitVec.ofNat 32 e.2)).setV (w.vd + 1) e.1 (BitVec.ofNat 32 sc)) y

def State.pk (s : State) (n g mism : Nat) : State :=
  s.reachV n g (fun c o => c == 0xA && decide (o < 8)) (fun x w => s.checked n g mism true (x.exec w) (fun s =>
    let m := x.exec w
    let lo := m &&& 0xFFFFFFFF#64
    let hi := m &&& ~~~ 0xFFFFFFFF#64
    let y := if lo = 0 then x else x.packBlock x w lo
    let y := if hi = 0 then y else x.packBlock y w hi
    s.setGroup n g y.next))

def execPk (n : CoreId) (g : SlotId) (mism : Fin 3) (s : State) : Host.Outcome State Fault Refusal := .next (s.keepPilot (s.pk n g mism))

def unpkValue (op : Nat) (a b : Word) : Word :=
  let k := (packFormat op).2
  mxToF32 k (a.toNat % (if k = .e2m1 then 16 else 256)) (b.toNat % 256)

def State.unpk (s : State) (n g mism : Nat) : State :=
  s.reachV n g (fun c o => c == 0xA && decide (8 ≤ o)) (fun x w => s.checked n g mism true (x.exec w) (fun s =>
    s.setGroup n g (x.writeV (x.exec w) w.vd (fun t => unpkValue w.op (x.opA w t) (x.opB w t))).next))

def execUnpk (n : CoreId) (g : SlotId) (mism : Fin 3) (s : State) : Host.Outcome State Fault Refusal := .next (s.keepPilot (s.unpk n g mism))

end Sys2Proof.Machine
end

