-- ==== Sys2Proof/Machine/GroupMem.lean ====
section
/-! DEFINITION. Loads, stores and atomics of thread groups (05_thread_groups.md R100-R109, R125, R126, R162, R171). -/
namespace Sys2Proof.Machine

/-! ### Addresses and their checks (R100-R102) -/

/-- The address of a thread: a Pantry offset modulo 2^32, or an inst. virtual address modulo 2^64. -/
def threadAddr (space : Bool) (base : DWord) (va : Word) (off : Int) : Nat :=
  (((base.toNat : Int) + va.toNat + off) % (if space then 2 ^ 64 else 2 ^ 32)).toNat

/-- A checked address. -/
inductive AddrRes where
  | ok (s : State) (pa : Nat) (leaf : DWord)
  | fault (s : State) (code : Nat)
  | waits

/-- Code 0x05 with a syndrome that names the discard check (R139; the spec gives no number for it, log 26). -/
def discardCode : Nat := 0x105

/-- The checks of one address, in R102's order, and what it translates to. -/
def State.groupAddr (s : State) (n : Nat) (space : Bool) (a size : Nat) (need : Need) (atomic : Bool) : AddrRes :=
  if ¬ space then
    if pantrySize ≤ a then .fault s 0x03 else if a % size ≠ 0 then .fault s 0x04 else .ok s (pantryAddr n a) 0
  else if 2 ^ 48 ≤ a then .fault s 0x05
  else if a % size ≠ 0 then .fault s 0x04
  else match s.translate (clusterOf n) (s.fnOf n) a need with
    | .waits => .waits
    | .fault s _ => .fault s 0x05
    | .ok s pa leaf =>
      if ¬ s.backed pa then .fault s 0x05
      else if need ≠ .write ∧ s.discardCheck (pa / 128) leaf then .fault s discardCode
      else match regionOf pa with
        | .span _ _ => if atomic then .fault s 0x0E else if s.spanOn then .ok s pa leaf else .fault s 0x05
        | .host => if atomic then .fault s 0x0E else if s.hostUp then .ok s pa leaf else .fault s 0x0C
        | _ => .ok s pa leaf

/-- A thread's checked access: thread, address, global address, leaf. -/
structure Access where
  thread : Nat
  va : Nat
  pa : Nat
  leaf : DWord

/-- Every address checked before any access is made (R102): the accesses, and the faults as thread, code and address. -/
def State.checkAddrs (s : State) (n : Nat) (space : Bool) (size : Nat) (need : Need) (atomic : Bool) :
    List (Nat × Nat) → Option (State × List Access × List (Nat × Nat × Nat))
  | [] => some (s, [], [])
  | (t, a) :: r =>
    match s.groupAddr n space a size need atomic with
    | .waits => none
    | .fault s c => (s.checkAddrs n space size need atomic r).map (fun (s, xs, fs) => (s, xs, (t, c, a) :: fs))
    | .ok s pa leaf => (s.checkAddrs n space size need atomic r).map (fun (s, xs, fs) => (s, ⟨t, a, pa, leaf⟩ :: xs, fs))

/-- The park for faults found (R116): the lowest thread's code and address, every faulting thread in FMASK. -/
def State.parkFaults (s : State) (n g : Nat) (uniform : Bool) (mask : DWord) (fs : List (Nat × Nat × Nat)) : State :=
  match fs with
  | [] => s
  | (_, c, a) :: _ => s.parkAt n g c a (if uniform then mask else BitVec.ofNat 64 (maskOf (fs.map (·.1))))

/-! ### Releases and acquires of a group (Table MM-4) -/

/-- Core `m` belongs to the Bay of core `n`. -/
def State.sameBay (s : State) (n m : Nat) : Bool :=
  match s.bayOfCore n with
  | some b => (s.reg Reg.BAY_CLUSTERS [b]).getLsbD (clusterOf m)
  | none => false

/-- The lowest thread of a mask; 64 for none. -/
def lowThread (m : DWord) : Nat := (threads m).headD 64

/-- The park for writes that failed: the lowest failing thread's code and address (R116, Table MM-8). -/
def State.parkFailed (s : State) (n g : Nat) : State :=
  let fs := (s.group n g).failing
  let s := s.setGroup n g { (s.group n g) with failing := [] }
  match fs with
  | [] => s
  | e :: r =>
    let low := r.foldl (fun a b => if lowThread b.2.2 < lowThread a.2.2 then b else a) e
    s.parkAt n g low.1 low.2.1 (r.foldl (fun m b => m ||| b.2.2) e.2.2)

/-- The group stands at a SIGT or a FENCE with REL that waits for its writes. -/
def State.atRelease (s : State) (n g : Nat) : Bool :=
  let x := s.group n g
  x.issues && (match s.fetchV n x.pc with
    | .ok w => w.legal && w.cls == 9 && decide (6 ≤ s.widen n w.scopeC) && (w.op == 0x0D && w.relC || w.op == 0x0C && s.sameBay n w.coreC)
    | .fault _ => false)

/-- Whether a release at a scope may complete; it completes too when a write that it waited for has failed, and then the group parks. At system scope the host port first issues a zero-length read behind host writes. -/
def State.releaseReady (s : State) (n g scope : Nat) (f : State → State) : State :=
  let x := s.group n g
  let k := s.widen n scope
  if k < 6 then f s
  else if ¬ x.sent.isEmpty then s
  else if ¬ x.failing.isEmpty then (f s).parkFailed n g
  else if k = 7 ∧ x.hostWrote ∧ s.hostUp then
    if s.hostRoom then
      (s.setGroup n g { x with sent := [⟨0x8000000000000, 0, x.active⟩], hostWrote := false }).hostAccess (.group n g) (s.fnOf n) 0x8000000000000 0 none
    else s
  else f s

/-! ### Loads -/

/-- Bytes `[pa, pa + size)` of a Shelf line, with their poison. -/
def ShelfLine.part (y : ShelfLine) (pa size : Nat) : Nat × Bool :=
  (lineField y.data (pa % 128) size, decide (bitsOf y.poison.toNat ((pa % 128 + size - 1) / 8) (pa % 128 / 8) ≠ 0))

/-- One part of a load: data at once, or a Shelf fill or an access outside the device that will bring it. -/
def State.loadPart (s : State) (n g size : Nat) (a : Access) : Option (State × LoadPart) :=
  let i := s.fnOf n
  let p : LoadPart := { thread := a.thread, va := a.va, pa := a.pa, pin := leafPin a.leaf i }
  match regionOf a.pa with
  | .cellar _ | .locker _ =>
    if leafNC a.leaf then
      ((s.countLrd (s.bayOfCore n) 128).readLineBytes .home p.pin a.pa size).map (fun (s, bs, q) => (s, { p with got := some (ofLeBytes bs, q) }))
    else match s.shelfHit n (a.pa / 128) with
      | some (s, y) => some (s, { p with got := some (y.part a.pa size) })
      | none =>
        let x := s.shelf n
        if x.fills.any (fun f => f.1 == a.pa / 128) then some (s, p)
        else some (s.setShelf n { x with fills := x.fills ++ [(a.pa / 128, false)] }, p)
  | .pantry m off => some (s, { p with got := some (s.pantryNat m off size, s.pantryPoison m off size) })
  | .host => if s.hostRoom then some (s.hostAccess (.group n g) i a.pa size none, { p with ext := true }) else none
  | .span _ _ => some (s.spanAccess (.group n g) n 8 a.pa (Config.spanCore n a.pa % 512) 0 (size - 1) 0, { p with ext := true })
  | _ => none

def State.loadParts (s : State) (n g size : Nat) : List Access → Option (State × List LoadPart)
  | [] => some (s, [])
  | a :: r => (s.loadPart n g size a).bind (fun (s, p) => (s.loadParts n g size r).map (fun (s, ps) => (s, p :: ps)))

/-- Bytes of an access (R101). -/
def VWord.bytes (w : VWord) : Nat := 2 ^ w.sizeM

/-- Loaded data in the registers of a thread (R101): sign extension for narrow loads of TY 2, lower addresses in lower registers. -/
def Group.loadRegs (x : Group) (w : VWord) (t v : Nat) : Group :=
  if w.sizeM ≤ 2 then
    x.setV w.vd t (if w.ty = 2 ∧ w.sizeM ≤ 1 then BitVec.ofInt 32 (signExt (8 * w.bytes) v) else BitVec.ofNat 32 v)
  else (List.range (w.bytes / 4)).foldl (fun x k => x.setV (w.vd + k) t (BitVec.ofNat 32 (v / 2 ^ (32 * k)))) x

/-- The iteration's signature takes one more address and value (R115). -/
def Group.sign (x : Group) (a v : Nat) : Group := { x with sigNow := Config.spinSig x.sigNow a v }

/-- A load whose answers have all come: an error (code 0x0C) or poison (code 0x0A) parks the group (R116), else the registers are written and an acquire completes. -/
def State.finishLoad (s : State) (n g : Nat) : State :=
  let x := s.group n g
  match x.load with
  | none => s
  | some l =>
    if l.parts.any (fun p => p.got.isNone) then s else
    let w : VWord := l.word
    let m := x.exec w
    let bad := l.parts.filter (fun p => p.bad.isSome || (match p.got with | some (_, q) => q | none => false))
    match bad with
    | p :: _ => s.parkAt n g (p.bad.getD 0x0A) p.va (if l.uniform then m else BitVec.ofNat 64 (maskOf (bad.map (·.thread))))
    | [] =>
      let value (p : LoadPart) : Nat := (p.got.map (·.1)).getD 0
      let y := l.parts.foldl (fun y p => y.sign p.va (value p)) x
      let y := if w.op = 2 then y.setS (w.vd % 32) (BitVec.ofNat 64 ((l.parts.map value).headD 0))
        else if l.uniform then (threads m).foldl (fun y t => y.loadRegs w t ((l.parts.map value).headD 0)) y
        else l.parts.foldl (fun y p => y.loadRegs w p.thread (value p)) y
      (s.setGroup n g { y.next with load := none }).when (w.ordM == 1) (fun s => s.acquire n w.scopeM)

/-- The threads of an access with their addresses; one entry, of the lowest thread, for a uniform access. -/
def accesses (x : Group) (m : DWord) (space : Bool) (sb va : Nat) (off : Int) (uniform : Bool) : List (Nat × Nat) :=
  let ts := threads m
  if uniform then (ts.take 1).map (fun t => (t, threadAddr space (x.sreg sb) 0 off))
  else ts.map (fun t => (t, threadAddr space (x.sreg sb) (x.vreg va t) off))

/-- Bank replay cycles of a Pantry access (R104): in each quarter, the most distinct 16-byte words of one bank, less one. -/
def bankReplays (as : List Access) : Nat :=
  ((List.range 4).map (fun q =>
    let ws := ((as.filter (fun a => a.thread / 16 == q)).map (fun a => a.pa / 16)).eraseDups
    ((List.range 32).map (fun b => (ws.filter (fun w => w % 32 == b)).length - 1)).foldl max 0)).foldl (· + ·) 0

/-- Replays of an access by Pantry offset counted in CST_VEC_CNT. -/
def State.countReplays (s : State) (n : Nat) (space : Bool) (as : List Access) : State :=
  if space then s else s.bump Reg.CST_VEC_CNT [n] F.CST_VEC_CNT_BANK_REPLAY (bankReplays as)

/-- LD and LDS: every address is checked, then every part is read or asked for. -/
def State.loadV (s : State) (n g op : Nat) : State :=
  s.reachV n g (fun c o => c == 7 && o == op) (fun x w =>
    let m := x.exec w
    let uni := w.unif
    if m = 0 then (s.setGroup n g x.next).when (w.ordM == 1) (fun s => s.acquire n w.scopeM) else
    match s.checkAddrs n w.spaceM w.bytes .read false (accesses x m w.spaceM w.sbM w.va w.offset uni) with
    | none => s
    | some (s', as, []) => match (s'.countReplays n w.spaceM as).loadParts n g w.bytes as with
      | none => s
      | some (s', ps) => (s'.setGroup n g { (s'.group n g) with load := some { word := w, uniform := uni, parts := ps } }).finishLoad n g
    | some (s', _, fs) => s'.parkFaults n g uni m fs)

def execLd (n : CoreId) (g : SlotId) (s : State) : Host.Outcome State Fault Refusal := .next (s.keepPilot (s.loadV n g 0))
def execLds (n : CoreId) (g : SlotId) (s : State) : Host.Outcome State Fault Refusal := .next (s.keepPilot (s.loadV n g 2))

/-- A part of a load takes its data. -/
def MemWait.take (l : MemWait) (ok : LoadPart → Bool) (f : LoadPart → Nat × Bool) : MemWait :=
  { l with parts := l.parts.map (fun p => if p.got.isNone && ok p then { p with got := some (f p) } else p) }

/-- Every group of a core whose load waits for Shelf data takes what `f` gives. -/
def State.feedLoads (s : State) (n : Nat) (ok : LoadPart → Bool) (f : LoadPart → Nat → Nat × Bool) : State :=
  (List.range 8).foldl (fun s g =>
    let x := s.group n g
    match x.load with
    | some l => (s.setGroup n g { x with load := some (l.take ok (fun p => f p (VWord.bytes l.word))) }).finishLoad n g
    | none => s) s

/-- A fill returns a line (R125, R126): the waiting loads take their data, and the line is installed unless an invalidation came first. -/
def State.shelfFill (s : State) (n l : Nat) : State :=
  match (s.shelf n).fills.find? (fun f => f.1 == l) with
  | none => s
  | some (_, gone) =>
    let pin := (((List.range 8).filterMap (fun g => (s.group n g).load)).flatMap (·.parts)).find? (fun p => p.got.isNone && p.pa / 128 == l && !p.ext)
    match (s.countMiss (clusterOf n) l false).cupRead (clusterOf n) l (pin.bind (·.pin)) with
    | none => s
    | some (s, c) =>
      let y : ShelfLine := ⟨l, c.data, c.poison⟩
      let x := s.shelf n
      let s := s.setShelf n { lines := if gone then x.lines else shelfInstall x.lines y, fills := x.fills.filter (fun f => f.1 != l) }
      s.feedLoads n (fun p => !p.ext && p.pa / 128 == l) (fun p k => y.part p.pa k)

def execShelfFill (n : CoreId) (line : Nat) (s : State) : Host.Outcome State Fault Refusal := .next (s.keepPilot (s.shelfFill n line))

/-- An answer from outside the device: data for a load's parts at an address, the end of a write or of a zero-length read, or an error of
code 0x0C with `extra` in its syndrome (R291, R314). When all have come, the store has been performed, or the group parks at it (R116);
a SIGT or FENCE whose zero-length read failed completes first (Table MM-8). -/
def State.groupAnswer (s : State) (n g addr : Nat) (read : Bool) (ok : Bool) (v : Nat) (poison : Bool) (extra : Nat := 0) : State :=
  let x := s.group n g
  let code := 0x0C + 256 * extra
  if read then
    match x.load with
    | none => s
    | some l =>
      let one := l.parts.findIdx? (fun p => p.ext && p.pa == addr && p.got.isNone)
      let ps := l.parts.zipIdx.map (fun e =>
        if some e.2 = one then { e.1 with got := some (if ok then (v, poison) else (0, false)), bad := if ok then none else some code } else e.1)
      (s.setGroup n g { x with load := some { l with parts := ps } }).finishLoad n g
  else match x.sent.find? (fun e => e.pa == addr) with
    | none => s
    | some e =>
      let y := { x with sent := x.sent.erase e, failing := if ok then x.failing else x.failing ++ [(code, e.va, e.mask)] }
      let s := s.setGroup n g y
      if ¬ y.sent.isEmpty ∨ x.status = GrpStatus.free then s
      else if y.failing.isEmpty then s.when x.storing (fun s => s.setGroup n g { y.next with wrote := true, storing := false })
      else if s.atRelease n g then s
      else s.parkFailed n g

/-! ### Stores -/

/-- The bytes a thread stores (R101). -/
def Group.storeBytes (x : Group) (w : VWord) (t : Nat) : List Byte :=
  if w.sizeM ≤ 2 then leBytes w.bytes (x.vreg w.vd t).toNat
  else (List.range (w.bytes / 4)).flatMap (fun k => leBytes 4 (x.vreg (w.vd + k) t).toNat)

/-- The Shelf copy of a stored line is updated (R125). -/
def State.shelfStore (s : State) (n pa : Nat) (bs : List Byte) : State :=
  let (d, m) := spread pa bs
  let x := s.shelf n
  s.setShelf n { x with lines := x.lines.map (fun y => if y.line = pa / 128 then { y with data := mergeLine y.data d m } else y) }

/-- One thread's store, or a uniform one of the threads `mask`. -/
def State.storePart (s : State) (n g : Nat) (a : Access) (bs : List Byte) (mask : DWord) : Option State :=
  let i := s.fnOf n
  let x := s.group n g
  let sent := x.sent ++ [⟨a.pa, a.va, mask⟩]
  match regionOf a.pa with
  | .cellar _ | .locker _ =>
    if leafNC a.leaf then (s.countLrd (s.bayOfCore n) 128).writeLineBytes .home (leafPin a.leaf i) a.pa bs false
    else (s.writeLineBytes (.cupboard (clusterOf n)) (leafPin a.leaf i) a.pa bs false).map (fun s => s.shelfStore n a.pa bs)
  | .pantry m off => some ((s.setPantry m off bs false).stored (pantryAddr m off) bs.length)
  | .host =>
    if ¬ s.hostRoom then none else
    let held := !s.atsHit i a.pa
    some ((s.setGroup n g { x with hostWrote := true, sent := if held then sent else x.sent }).hostAccess (.group n g) i a.pa bs.length (some bs))
  | .span _ _ => some ((s.setGroup n g { x with sent := sent }).spanAccess (.group n g) n 1 a.pa (Config.spanCore n a.pa % 512) 0 (bs.length - 1) (ofLeBytes bs))
  | _ => none

/-- The stores of one instruction in ascending thread order, so that the highest thread's byte stays (R103). -/
def State.storeParts (s : State) (n g : Nat) (x : Group) (w : VWord) : List Access → Option State
  | [] => some s
  | a :: r => (s.storePart n g a (x.storeBytes w a.thread) (if w.unif then x.exec w else BitVec.ofNat 64 (2 ^ a.thread))).bind (fun s => s.storeParts n g x w r)

/-- A uniform store has one address; the highest executing thread's data is what it leaves (R103). -/
def State.storeV (s : State) (n g : Nat) : State :=
  s.reachV n g (fun c o => c == 7 && o == 1) (fun x w =>
    let go (s : State) : State :=
      let m := x.exec w
      if m = 0 then s.setGroup n g (s.group n g).next else
      match s.checkAddrs n w.spaceM w.bytes .write false (accesses x m w.spaceM w.sbM w.va w.offset w.unif) with
      | none => s
      | some (s', as, []) =>
        let as := if w.unif then as.map (fun a => { a with thread := (threads m).getLastD 0 }) else as
        (match (s'.countReplays n w.spaceM as).storeParts n g x w as with
          | none => s
          | some s' =>
            let y := s'.group n g
            s'.setGroup n g (if y.sent.isEmpty then { y.next with wrote := true } else { y with storing := true }))
      | some (s', _, fs) => s'.parkFaults n g w.unif m fs
    if w.ordM = 2 then s.releaseReady n g w.scopeM go else go s)

def execSt (n : CoreId) (g : SlotId) (s : State) : Host.Outcome State Fault Refusal := .next (s.keepPilot (s.storeV n g))

/-! ### Atomics (R107-R109) -/

def atomCode (op : Nat) : AtomCode :=
  match op with
  | 0 => .add
  | 1 => .min
  | 2 => .max
  | 3 => .and
  | 4 => .or
  | 5 => .xor
  | 6 => .xchg
  | _ => .cas

/-- A thread's part of an atomic on a line. -/
def Group.atomPart (x : Group) (w : VWord) (a : Access) : AtomPart := ⟨a.thread, a.pa % 128, x.vreg w.vb a.thread, x.vreg w.vc a.thread⟩

/-- The atomics performed in Pantries, in ascending thread order, with the values they return. -/
def State.atomPantry (s : State) (x : Group) (w : VWord) : List Access → State × List (Nat × Word)
  | [] => (s, [])
  | a :: r =>
    let old := BitVec.ofNat 32 (ofLeBytes (s.bytes a.pa 4))
    let new := atomValue (atomCode w.op) w.ty old (x.vreg w.vb a.thread) (x.vreg w.vc a.thread)
    let s := ((s.setBytes a.pa (leBytes 4 new.toNat)).markWrite a.pa 4 false).stored a.pa 4
    let (s, vs) := s.atomPantry x w r
    (s, (a.thread, old) :: vs)

/-- Accesses gathered by address, each address at its lowest thread (R108). -/
def byAddressN : Nat → List Access → List (List Access)
  | _, [] => []
  | 0, _ => []
  | k + 1, a :: r => (a :: r.filter (fun b => b.pa == a.pa)) :: byAddressN k (r.filter (fun b => b.pa != a.pa))

def byAddress (as : List Access) : List (List Access) := byAddressN as.length as

/-- The memory operations of an instruction: one per address when its threads combine, else one per thread. -/
def atomOps (op : Nat) (as : List Access) : List (List Access) := if op ≤ 5 then byAddress as else as.map (fun a => [a])

/-- Whether an atomic changed memory: the first value read at some address is not the last one left there (R115). -/
def atomChanged (x : Group) (w : VWord) (ps : List LoadPart) (vals : List (Nat × Word)) : Bool :=
  let old (t : Nat) : Word := ((vals.find? (fun v => v.1 == t)).map (·.2)).getD 0
  ps.any (fun p =>
    let mates := ps.filter (fun q => q.pa == p.pa)
    match mates.head?, mates.getLast? with
    | some f, some l => old f.thread != atomValue (atomCode w.op) w.ty (old l.thread) (x.vreg w.vb l.thread) (x.vreg w.vc l.thread)
    | _, _ => false)

/-- An atomic whose operations have all completed: VD under RET, the spin state, an acquire. -/
def State.finishAtom (s : State) (n g : Nat) : State :=
  let x := s.group n g
  match x.atom with
  | none => s
  | some l =>
    if l.left ≠ 0 then s else
    let w : VWord := l.word
    if l.poison then s.parkAt n g 0x0A ((l.parts.map (·.va)).headD 0) (x.exec w) else
    let old (t : Nat) : Word := ((l.vals.find? (fun v => v.1 == t)).map (·.2)).getD 0
    let y := if w.ret then l.parts.foldl (fun y p => (y.setV w.vd p.thread (old p.thread)).sign p.va (old p.thread).toNat) x else x
    (s.setGroup n g { y.next with atom := none, wrote := x.wrote || atomChanged x w l.parts l.vals }).when (w.ordA % 2 == 1) (fun s => s.acquire n w.scopeA)

/-- One operation sent to its home as an Atm (R162). -/
def State.sendAtom (s : State) (n g : Nat) (x : Group) (w : VWord) (k : Nat) (as : List Access) : State :=
  match as with
  | [] => s
  | a :: _ => (s.shelfDrop n (a.pa / 128)).arrive
      { kind := .atm, who := .group n g, line := a.pa / 128, tag := k, atm := some ⟨atomCode w.op, w.ty, as.map (x.atomPart w)⟩ }

def State.atomV (s : State) (n g op mism : Nat) : State :=
  s.reachV n g (fun c o => c == 8 && o == op) (fun x w =>
    let m := x.exec w
    let go (s : State) : State :=
      if m = 0 then (s.setGroup n g (s.group n g).next).when (w.ordA % 2 == 1) (fun s => s.acquire n w.scopeA) else
      match s.checkAddrs n w.spaceA 4 .both true (accesses x m w.spaceA w.sbA w.va 0 false) with
      | none => s
      | some (s', _, f :: fs) => s'.parkFaults n g false m (f :: fs)
      | some (s', as, []) =>
        let here := as.filter (fun a => !hasHome a.pa)
        let away := as.filter (fun a => hasHome a.pa)
        let bad := here.filter (fun a => s'.poisoned a.pa 4)
        match bad with
        | b :: _ => s'.parkAt n g 0x0A b.va (BitVec.ofNat 64 (maskOf (bad.map (·.thread))))
        | [] =>
          s'.checked n g mism (op == 0 && !here.isEmpty) m (fun s =>
            let ops := atomOps op away
            let s := s.when (decide (op ≤ 5)) (fun s => s.bump Reg.CST_VEC_CNT [n] F.CST_VEC_CNT_ATOM_COMB (as.length - (byAddress as).length))
            let (s, vs) := (s.countReplays n w.spaceA as).atomPantry x w here
            let l : MemWait := { word := w, parts := as.map (fun a => { thread := a.thread, va := a.va, pa := a.pa }), left := ops.length, vals := vs }
            let s := s.setGroup n g { (s.group n g) with atom := some l }
            (ops.zipIdx.foldl (fun s e => s.sendAtom n g x w e.2 e.1) s).finishAtom n g)
    if 2 ≤ w.ordA then s.releaseReady n g w.scopeA go else go s)

/-- A Cmp of an Atm reaches its group. -/
def State.atomDone (s : State) (n g : Nat) (poison : Bool) (vals : List (Nat × Word)) : State :=
  let x := s.group n g
  match x.atom with
  | none => s
  | some l => (s.setGroup n g { x with atom := some { l with left := l.left - 1, poison := l.poison || poison, vals := l.vals ++ vals } }).finishAtom n g

def execAtomAdd (n : CoreId) (g : SlotId) (mism : Fin 3) (s : State) : Host.Outcome State Fault Refusal := .next (s.keepPilot (s.atomV n g 0 mism))
def execAtomMin (n : CoreId) (g : SlotId) (s : State) : Host.Outcome State Fault Refusal := .next (s.keepPilot (s.atomV n g 1 0))
def execAtomMax (n : CoreId) (g : SlotId) (s : State) : Host.Outcome State Fault Refusal := .next (s.keepPilot (s.atomV n g 2 0))
def execAtomAnd (n : CoreId) (g : SlotId) (s : State) : Host.Outcome State Fault Refusal := .next (s.keepPilot (s.atomV n g 3 0))
def execAtomOr (n : CoreId) (g : SlotId) (s : State) : Host.Outcome State Fault Refusal := .next (s.keepPilot (s.atomV n g 4 0))
def execAtomXor (n : CoreId) (g : SlotId) (s : State) : Host.Outcome State Fault Refusal := .next (s.keepPilot (s.atomV n g 5 0))
def execAtomXchg (n : CoreId) (g : SlotId) (s : State) : Host.Outcome State Fault Refusal := .next (s.keepPilot (s.atomV n g 6 0))
def execAtomCas (n : CoreId) (g : SlotId) (s : State) : Host.Outcome State Fault Refusal := .next (s.keepPilot (s.atomV n g 7 0))

end Sys2Proof.Machine
end

