-- ==== Sys2Proof/Machine/GroupCtl.lean ====
section
/-! DEFINITION. Control of thread groups: the mask stack, waits and signals, ends, parked groups (05_thread_groups.md R95-R98, R110-R118). -/
namespace Sys2Proof.Machine

/-! ### Transfers and the sibling spin (R115) -/

/-- A control transfer to `target` that leaves `y`: a transfer to the group's own PC or below ends an iteration, and the 4,096th
unchanged one parks the group before it takes effect. -/
def State.transfer (s : State) (n g : Nat) (x y : Group) (target : BitVec 18) : State :=
  if x.pc < target then s.setGroup n g { y with pc := target } else
  let same := x.active != x.live && !x.wrote && x.looped && x.sigNow == x.signature
  if same ∧ 4095 ≤ x.spin then s.park n g 0x08 x.active else
  let k := if same then x.spin + 1 else 0
  s.setGroup n g { y with pc := target, spin := k, signature := x.sigNow, sigNow := 0, wrote := false, looped := true }

/-- A control instruction by its OP. -/
def State.control (s : State) (n g op : Nat) (f : Group → VWord → State) : State := s.reachV n g (fun c o => c == 9 && o == op) f

def execNop (n : CoreId) (g : SlotId) (s : State) : Host.Outcome State Fault Refusal :=
  .next (s.keepPilot (s.control n g 0x00 (fun x _ => s.setGroup n g x.next)))
def execJmp (n : CoreId) (g : SlotId) (s : State) : Host.Outcome State Fault Refusal :=
  .next (s.keepPilot (s.control n g 0x01 (fun x w => s.transfer n g x x w.target)))
def execBrnz (n : CoreId) (g : SlotId) (s : State) : Host.Outcome State Fault Refusal :=
  .next (s.keepPilot (s.control n g 0x02 (fun x w => if x.sreg w.saC ≠ 0 then s.transfer n g x x w.target else s.setGroup n g x.next)))
def execBrz (n : CoreId) (g : SlotId) (s : State) : Host.Outcome State Fault Refusal :=
  .next (s.keepPilot (s.control n g 0x03 (fun x w => if x.sreg w.saC = 0 then s.transfer n g x x w.target else s.setGroup n g x.next)))

/-! ### The mask stack (R95-R98) -/

/-- leave_empty of R98: the stack, the active mask and the PC. -/
def leaveEmpty (live : DWord) : List MaskEntry → List MaskEntry × DWord × BitVec 18
  | [] => ([], 0, 0)
  | e :: r =>
    if e.kind = .loop then (e :: r, 0, e.rpc)
    else if e.pend &&& live ≠ 0 then ({ e with pend := 0 } :: r, e.pend &&& live, e.ppc)
    else if e.saved &&& live = 0 then leaveEmpty live r
    else (r, e.saved &&& live, e.rpc + 1)

def Group.leave (x : Group) : Group :=
  let (st, a, pc) := leaveEmpty x.live x.stack
  { x with stack := st, active := a, pc := pc }

/-- restore and pop of R95: the entry gone, SAVED AND live active, on at PC + 1 or out of an empty path. -/
def Group.pop (x : Group) (e : MaskEntry) (r : List MaskEntry) : Group :=
  let y := { x with stack := r, active := e.saved &&& x.live, pc := x.pc + 1 }
  if y.active = 0 then y.leave else y

def State.split (s : State) (n g : Nat) : State :=
  s.control n g 0x04 (fun x w =>
    if 16 ≤ x.stack.length then s.park n g 0x06 x.active else
    let t := x.active &&& x.preg w.pkC
    let f := x.active &&& ~~~ (x.preg w.pkC)
    if t ≠ 0 then
      s.transfer n g x { x with stack := ⟨.split, x.active, f, x.pc + 1, w.rpc⟩ :: x.stack, active := t } w.target
    else s.setGroup n g { x with stack := ⟨.split, x.active, 0, 0, w.rpc⟩ :: x.stack, active := f, pc := x.pc + 1 })
def execSplit (n : CoreId) (g : SlotId) (s : State) : Host.Outcome State Fault Refusal := .next (s.keepPilot (s.split n g))

def State.join (s : State) (n g : Nat) : State :=
  s.control n g 0x05 (fun x _ => match x.stack with
    | [] => s.park n g 0x07 x.active
    | e :: r =>
      if e.kind ≠ .split ∨ e.rpc ≠ x.pc then s.park n g 0x07 x.active
      else if e.pend &&& x.live ≠ 0 then
        s.setGroup n g { x with stack := { e with pend := 0 } :: r, active := e.pend &&& x.live, pc := e.ppc }
      else s.setGroup n g (x.pop e r))
def execJoin (n : CoreId) (g : SlotId) (s : State) : Host.Outcome State Fault Refusal := .next (s.keepPilot (s.join n g))

def State.lpush (s : State) (n g : Nat) : State :=
  s.control n g 0x06 (fun x w =>
    if 16 ≤ x.stack.length then s.park n g 0x06 x.active
    else s.setGroup n g { x with stack := ⟨.loop, x.active, 0, 0, w.rpc⟩ :: x.stack, pc := x.pc + 1 })
def execLpush (n : CoreId) (g : SlotId) (s : State) : Host.Outcome State Fault Refusal := .next (s.keepPilot (s.lpush n g))

/-- An instruction on the top loop entry; any other top faults with code 0x07. -/
def State.onLoop (s : State) (n g : Nat) (x : Group) (f : MaskEntry → List MaskEntry → State) : State :=
  match x.stack with
  | [] => s.park n g 0x07 x.active
  | e :: r => if e.kind = .loop then f e r else s.park n g 0x07 x.active

def State.brk (s : State) (n g : Nat) : State :=
  s.control n g 0x07 (fun x w => s.onLoop n g x (fun e _ =>
    let a := x.active &&& ~~~ (x.preg w.pkC)
    s.setGroup n g { x with active := a, pc := if a = 0 then e.rpc else x.pc + 1 }))
def execBrk (n : CoreId) (g : SlotId) (s : State) : Host.Outcome State Fault Refusal := .next (s.keepPilot (s.brk n g))

def State.loopIf (s : State) (n g : Nat) : State :=
  s.control n g 0x08 (fun x w => s.onLoop n g x (fun e _ =>
    let a := x.active &&& x.preg w.pkC
    if a = 0 then s.setGroup n g { x with active := a, pc := e.rpc } else s.transfer n g x { x with active := a } w.target))
def execLoopif (n : CoreId) (g : SlotId) (s : State) : Host.Outcome State Fault Refusal := .next (s.keepPilot (s.loopIf n g))

def State.lpop (s : State) (n g : Nat) : State :=
  s.control n g 0x09 (fun x _ => s.onLoop n g x (fun e r => if e.rpc ≠ x.pc then s.park n g 0x07 x.active else s.setGroup n g (x.pop e r)))
def execLpop (n : CoreId) (g : SlotId) (s : State) : Host.Outcome State Fault Refusal := .next (s.keepPilot (s.lpop n g))

/-- The issue turn goes to a sibling path (R114). -/
def State.waitSib (s : State) (n g : Nat) : State :=
  s.control n g 0x0A (fun x _ =>
    let stay := s.setGroup n g { x.next with spin := 0 }
    match x.stack with
    | [] => stay
    | e :: r =>
      if e.kind = .split ∧ e.pend &&& x.live ≠ 0 then
        s.setGroup n g { x with stack := { e with pend := x.active, ppc := x.pc + 1 } :: r, active := e.pend &&& x.live, pc := e.ppc, spin := 0 }
      else stay)
def execWaitsib (n : CoreId) (g : SlotId) (s : State) : Host.Outcome State Fault Refusal := .next (s.keepPilot (s.waitSib n g))

/-! ### Waiting and signalling (R110-R113) -/

def State.wtally (s : State) (n g : Nat) : State :=
  s.control n g 0x0B (fun x w => s.setGroup n g
    { x with status := GrpStatus.waitTally w.tallyC (BitVec.ofNat 32 (x.sreg w.saC).toNat) w.scopeC, spin := 0 })
def execWtally (n : CoreId) (g : SlotId) (s : State) : Host.Outcome State Fault Refusal := .next (s.keepPilot (s.wtally n g))

/-- WTALLY completes as an acquire at its scope. -/
def State.wtallyReached (s : State) (n g : Nat) : State :=
  let x := s.group n g
  match x.status with
  | .waitTally i target scope =>
    if ¬ reached (s.tally n i) target then s else
    ((s.audit n i scope).acquire n scope).setGroup n g { x.next with status := GrpStatus.ready }
  | _ => s
def execWtallyTargetReached (n : CoreId) (g : SlotId) (s : State) : Host.Outcome State Fault Refusal := .next (s.keepPilot (s.wtallyReached n g))

def State.sigt (s : State) (n g : Nat) : State :=
  s.control n g 0x0C (fun x w =>
    if ¬ s.sameBay n w.coreC then s.park n g 0x05 x.active else
    if (s.frozenCore w.coreC).isSome then (s.addTally w.coreC w.tallyC { amount := w.amountC, kind := 1, scope := w.scopeC, core := n }).park n g 0x0C x.active else
    s.releaseReady n g w.scopeC (fun s =>
      (s.setGroup n g (s.group n g).next).addTally w.coreC w.tallyC { amount := w.amountC, kind := 1, scope := w.scopeC, core := n }))
def execSigt (n : CoreId) (g : SlotId) (s : State) : Host.Outcome State Fault Refusal := .next (s.keepPilot (s.sigt n g))

def State.groupFence (s : State) (n g : Nat) : State :=
  s.control n g 0x0D (fun _ w =>
    let go (s : State) : State := (s.setGroup n g (s.group n g).next).when w.acqC (fun s => s.acquire n w.scopeC)
    if w.relC then s.releaseReady n g w.scopeC go else go s)
def execGroupFence (n : CoreId) (g : SlotId) (s : State) : Host.Outcome State Fault Refusal := .next (s.keepPilot (s.groupFence n g))

/-- Slots of a kernel's groups that have not ended. -/
def State.kernelSlots (s : State) (n k : Nat) : List Nat :=
  (List.range 8).filter (fun g => (s.group n g).status != .free && (s.group n g).kernel == k)

/-- The barrier opens when every group of the kernel that has not ended waits at it (R113). -/
def State.openBar (s : State) (n k : Nat) : State :=
  let gs := s.kernelSlots n k
  match gs.head?.map (fun g => (s.group n g).status) with
  | some (.waitBar id) =>
    if gs.all (fun g => (s.group n g).status == .waitBar id) then
      gs.foldl (fun s g => s.setGroup n g { (s.group n g).next with status := GrpStatus.ready }) s
    else s
  | _ => s

def State.gbar (s : State) (n g : Nat) : State :=
  s.control n g 0x0E (fun x w =>
    let other := (s.kernelSlots n x.kernel).any (fun h => match (s.group n h).status with
      | .waitBar id => id != w.idC
      | _ => false)
    if x.active ≠ x.live ∨ other then s.park n g 0x0D x.active
    else (s.setGroup n g { x with status := GrpStatus.waitBar w.idC, spin := 0 }).openBar n x.kernel)
def execGbar (n : CoreId) (g : SlotId) (s : State) : Host.Outcome State Fault Refusal := .next (s.keepPilot (s.gbar n g))

/-! ### Ends (R62, R89, R98) -/

def State.exit (s : State) (n g : Nat) : State :=
  s.control n g 0x0F (fun x w =>
    let m := x.exec w
    let y := { x with live := x.live &&& ~~~ m, active := x.active &&& ~~~ m }
    s.setGroup n g (if y.live = 0 then y else if y.active = 0 then y.leave else y.next))
def execExit (n : CoreId) (g : SlotId) (s : State) : Host.Outcome State Fault Refusal := .next (s.keepPilot (s.exit n g))

/-- A group has ended: its slot is free; the last one completes its kernel, which empties the Shelf and increments the kernel's Tally
once (R62, R126, Table MM-5). A barrier of the kernel may open. -/
def State.endGroup (s : State) (n g : Nat) : State :=
  let x := s.group n g
  let k := s.kern n
  let s := s.setGroup n g { x with status := GrpStatus.free, live := 0, active := 0, load := none, atom := none }
  match k.running.find? (fun r => r.num == x.kernel) with
  | none => s
  | some r =>
    if r.left ≤ 1 then
      let s := (s.setKern n { k with running := k.running.filter (fun q => q.num != r.num) }).clearShelf n
      if r.tallyEn then s.addTally n r.tally { amount := 1, kind := 3, scope := 2, core := n } else s
    else (s.setKern n { k with running := k.running.map (fun q => if q.num = r.num then { q with left := q.left - 1 } else q) }).openBar n x.kernel

def State.groupEnd (s : State) (n g : Nat) : State :=
  let x := s.group n g
  if x.status = GrpStatus.ready ∧ x.live = 0 ∧ x.sent = [] ∧ x.load.isNone ∧ x.atom.isNone then s.endGroup n g else s
def execGroupEnd (n : CoreId) (g : SlotId) (s : State) : Host.Outcome State Fault Refusal := .next (s.keepPilot (s.groupEnd n g))

def State.trap (s : State) (n g : Nat) : State :=
  s.control n g 0x10 (fun x w =>
    if x.exec w = 0 then s.setGroup n g x.next
    else (s.setGroup n g { x with trapCode := w.codeC }).park n g 0x0B (x.exec w))
def execTrap (n : CoreId) (g : SlotId) (s : State) : Host.Outcome State Fault Refusal := .next (s.keepPilot (s.trap n g))

/-! ### Parked groups (R117, R118) -/

/-- A command of CST_GRP_CTL: discarded with a contained record while the group is not parked; the spin count goes to 0. -/
def State.groupCmd (s : State) (w : Writer) (n g cmd : Nat) (f : State → Group → State) : State :=
  let off := Reg.CST_GRP_CTL.addr [n, g]
  s.coreWrite w n off (BitVec.ofNat 64 cmd) (fun s =>
    let x := s.group n g
    if x.status ≠ GrpStatus.parked then s.refuse w off causeState else f (s.wrote Reg.CST_GRP_CTL [n, g] cmd) { x with spin := 0, status := GrpStatus.ready, fault := 0 })

def State.resumeV (s : State) (w : Writer) (n g : Nat) : State := s.groupCmd w n g 1 (fun s y => s.setGroup n g y)
def State.resumeNext (s : State) (w : Writer) (n g : Nat) : State := s.groupCmd w n g 2 (fun s y => s.setGroup n g y.next)
def State.discardV (s : State) (w : Writer) (n g : Nat) : State :=
  s.groupCmd w n g 3 (fun s y => (s.setGroup n g { y with live := 0, active := 0 }).endGroup n g)

def execResume (w : Writer) (n : CoreId) (g : SlotId) (s : State) : Host.Outcome State Fault Refusal := .next (s.keepPilot (s.resumeV w n g))
def execResumeNext (w : Writer) (n : CoreId) (g : SlotId) (s : State) : Host.Outcome State Fault Refusal := .next (s.keepPilot (s.resumeNext w n g))
def execDiscard (w : Writer) (n : CoreId) (g : SlotId) (s : State) : Host.Outcome State Fault Refusal := .next (s.keepPilot (s.discardV w n g))

/-- Whether the debug state lets a writer write the group state of core `n` (Table SE-6). -/
def State.mayDebug (s : State) (w : Writer) (n : Nat) : Bool :=
  let i := s.fnOf n
  let manager := match w with
    | .fn f => f.val == 0
    | .tap => true
    | _ => false
  (decide (2 ≤ s.fld Reg.SEC_STATE [] F.SEC_STATE_DEBUG) && manager) ||
    ((s.reg Reg.SEC_DBG_TEN []).getLsbD i && i != 0 && (manager || (match w with
      | .fn f => f.val == i
      | _ => false)))

/-- A mask-stack entry with word `k` written (R121). -/
def MaskEntry.setWord (e : MaskEntry) (k : Nat) (v : DWord) : MaskEntry :=
  match k with
  | 0 => { e with saved := v }
  | 1 => { e with pend := v }
  | 2 => { e with kind := if fieldOf v 63 62 = 2 then .loop else .split, rpc := BitVec.ofNat 18 (fieldOf v 35 18), ppc := BitVec.ofNat 18 (fieldOf v 17 0) }
  | _ => e

/-- A group with the register at an offset of its core's state window written (R120, R121); `none` where no register lies. -/
def Group.write (x : Group) (g off : Nat) (v : DWord) : Option Group :=
  if off = 0x3020 + 0x40 * g then some { x with active := v }
  else if 0x4000 + 0x400 * g ≤ off ∧ off < 0x4400 + 0x400 * g then
    let o := (off - 0x4000) % 0x400
    if o < 0x100 then some (x.setS (o / 8) v)
    else if o < 0x140 then some (x.setP ((o - 0x100) / 8) v)
    else if 0x200 ≤ o then
      let i := (o - 0x200) / 32
      let d := x.stack.length
      if i < d then some { x with stack := x.stack.zipIdx.map (fun e => if e.2 = d - 1 - i then e.1.setWord ((o % 32) / 8) v else e.1) } else some x
    else none
  else if 0x20000 + 0x4000 * g ≤ off ∧ off < 0x24000 + 0x4000 * g then
    let o := (off - 0x20000) % 0x4000
    let r := o / 0x100
    let j := (o % 0x100) / 8
    some ((x.setV r (2 * j) (BitVec.ofNat 32 (fieldOf v 31 0))).setV r (2 * j + 1) (BitVec.ofNat 32 (fieldOf v 63 32)))
  else none

/-- The slot whose state an offset of the window names. -/
def slotOfOffset (off : Nat) : Nat :=
  if off < 0x4000 then (off - 0x3000) / 0x40 else if off < 0x20000 then (off - 0x4000) / 0x400 else (off - 0x20000) / 0x4000

/-- A write of a parked group's state (R118). -/
def State.groupStateWrite (s : State) (w : Writer) (n off : Nat) (v : DWord) : State :=
  let full := 0x10000000 + 0x40000 * n + off
  s.coreWrite w n full v (fun s =>
    let g := slotOfOffset off
    if ¬ s.mayDebug w n then s.refuse w full causeActor
    else if (s.group n g).status ≠ GrpStatus.parked then s.refuse w full causeState
    else match (s.group n g).write g off v with
      | some x => s.setGroup n g x
      | none => s.refuse w full causeNoReg)

def execGroupStateWrite (w : Writer) (n : CoreId) (off : Nat) (v : DWord) (s : State) : Host.Outcome State Fault Refusal :=
  .next (s.keepPilot (s.groupStateWrite w n off v))

end Sys2Proof.Machine
end

