-- ==== Sys2Proof/Machine/PorterCheck.lean ====
section
/-! DEFINITION. What a Porter descriptor may hold (R190-R194, R197, Table PT-1, Table PT-4), its streams and transforms (R191, R192). -/
namespace Sys2Proof.Machine

/-- The Storekeeper's Porter. -/
def storekeeperPorter : Nat := 1023

/-- A channel that joins source and destination through a funnel (R194). -/
def privileged (p : Nat) : Bool := p == storekeeperPorter

/-- Channel 0 of a cluster Porter. -/
def managerChan (p c : Nat) : Bool := decide (512 ≤ p) && p != storekeeperPorter && c == 0

def PDesc.zero (d : PDesc) (fs : List (Nat × Nat × Nat)) : Bool := fs.all (fun f => d.field f.1 f.2.1 f.2.2 == 0)

/-- Reserved fields of Table PT-2. -/
def reservedFields : List (Nat × Nat × Nat) :=
  [(0, 63, 57), (0, 15, 15), (9, 63, 26), (9, 2, 0), (10, 63, 12), (10, 3, 0), (12, 63, 48), (13, 63, 0), (14, 63, 0)]

def sourceFields : List (Nat × Nat × Nat) := [(0, 9, 8), (1, 63, 0), (4, 63, 0), (5, 63, 0)]
def listFields : List (Nat × Nat × Nat) := [(8, 63, 0), (9, 25, 23)]
def transformFields : List (Nat × Nat × Nat) := [(0, 7, 4), (9, 22, 3)]

/-- Fields that a descriptor's KIND does not use (R190, R191). -/
def PDesc.unused (d : PDesc) (p : Nat) : List (Nat × Nat × Nat) :=
  let cluster := decide (512 ≤ p) && p != storekeeperPorter
  let gather := if d.gather then [(5, 63, 0)] else listFields
  let xf := match d.xform with
    | 0 => [(9, 22, 3)]
    | 1 | 2 => [(9, 22, 12)]
    | _ => [(9, 11, 3)]
  let score := if cluster && ((d.kind != 2 && d.sspace == 0) || (d.gather && d.ispace == 0)) then [] else [(0, 53, 51)]
  let dcore := if cluster && d.dspace == 0 then [] else [(0, 56, 54)]
  score ++ dcore ++ (match d.kind with
    | 1 => gather ++ xf ++ [(10, 11, 4), (11, 63, 0)]
    | 2 => sourceFields ++ [(0, 12, 12)] ++ listFields ++ transformFields ++ [(10, 11, 4)]
    | 3 => gather ++ transformFields ++ [(10, 11, 9), (11, 63, 0)]
    | _ => sourceFields ++ [(0, 12, 12)] ++ listFields ++ transformFields ++ [(6, 63, 0), (7, 63, 0), (10, 8, 4), (11, 63, 0), (12, 47, 0)])

/-- Code 0x01. -/
def PDesc.badEncoding (d : PDesc) (p : Nat) : Bool :=
  !(d.kind != 0 && decide (d.kind ≤ 4)) || decide (6 < d.xform) || d.sspace == 3 || d.dspace == 3 || d.ispace == 3 ||
  (d.kind == 3 && (d.rtype == 3 || d.rop == 3)) || (d.kind == 4 && (d.rangeOp == 0 || decide (4 < d.rangeOp) || d.tmode == 1 || d.tmode == 2)) ||
  ((d.xform == 1 || d.xform == 2) && d.ways == 1) || (decide (3 ≤ d.xform) && (decide (d.xb < 2) || decide (4 < d.xb))) ||
  (privileged p && (d.kind == 3 || d.xform != 0 || d.gather)) ||
  !d.zero reservedFields || !d.zero (d.unused p)

/-- Some destination row of a transfer by global address starts in the device register region (R194). -/
def PDesc.toRegs (d : PDesc) : Bool := d.kind != 4 && d.dspace == 2 && d.corners.any (fun r => d.dstRow r / 536870912 == 7864320)

/-- Code 0x02. -/
def PDesc.badLength (d : PDesc) (p : Nat) : Bool :=
  let four (x : Nat) : Bool := x % 4 == 0
  if d.kind = 4 then d.dst % 128 != 0 || d.slen % 128 != 0 || d.slen == 0
  else
    d.srow == 0 || d.drow == 0 || d.slen % max 1 d.groups.1 != 0 || d.dlen % max 1 d.drow != 0 ||
    (!privileged p && !([d.src, d.dst, d.idx, d.srow, d.drow, d.field 4 63 0, d.field 5 63 0, d.field 6 63 0, d.field 7 63 0].all four)) ||
    ((d.xform == 1 || d.xform == 2) && (d.srow % d.unit != 0 || (!privileged p && decide (d.unit < 4)))) ||
    (d.kind == 3 && (d.dst % 32 != 0 || d.drow % 32 != 0 || d.slen % (if d.wide then 2 else 1) != 0)) ||
    (d.toRegs && !([d.dst, d.srow, d.drow].all (fun x => x % 8 == 0))) || decide (2 ^ 40 ≤ d.dlen) || (d.tmode == 1 && decide (2 ^ 31 ≤ d.dlen))

/-- Spaces of Table PT-1. -/
def spaceAllowed (p c space : Nat) : Bool :=
  if privileged p then space == 2 else if managerChan p c then space == 0 || space == 2 else space == 0 || space == 1

/-- Start of source row `r` of a descriptor without GATHER. -/
def PDesc.srcRow (d : PDesc) (r : Nat) : Nat := ((d.src + (r / d.sc1 : Nat) * d.sstr2 + (r % d.sc1 : Nat) * d.sstr1) % 2 ^ 64).toNat

/-- Rows that bound the source rows' starts. -/
def PDesc.srcCorners (d : PDesc) : List Nat := [0, d.sc1 - 1, (d.sc2 - 1) * d.sc1, d.srows - 1]

/-- Code 0x03 at the start. -/
def PDesc.badSpace (d : PDesc) (p c : Nat) : Bool :=
  if d.kind = 4 then !(d.dspace == 1 && spaceAllowed p c 1)
  else
    !spaceAllowed p c d.dspace || (d.kind != 2 && !spaceAllowed p c d.sspace) || (d.gather && !spaceAllowed p c d.ispace) ||
    (d.dspace == 0 && d.corners.any (fun r => decide (pantrySize < d.dstRow r + d.drow))) ||
    (d.kind != 2 && d.sspace == 0 && !d.gather && d.srcCorners.any (fun r => decide (pantrySize < d.srcRow r + d.srow))) ||
    (d.gather && d.ispace == 0 && decide (pantrySize < d.idx + d.srows * (if d.idx16 then 2 else 4)))

/-- Code 0x04: the Tally's core is not the Bay's, or its device is not reached. -/
def State.badTally (s : State) (p c : Nat) (d : PDesc) : Bool :=
  d.tmode != 0 && !privileged p && !managerChan p c &&
  (if d.tremote then !(match d.core with | some n => s.reaches n d.tdev | none => true) else !s.sameBay (actingCore p d) d.tcore)

/-- The code of Table PT-4 found at the start; 0 for none. -/
def State.descCode (s : State) (p c : Nat) (d : PDesc) : Nat :=
  if d.poisoned then 0x09
  else if d.badEncoding p then 0x01
  else if d.badLength p then 0x02
  else if d.badSpace p c then 0x03
  else if s.badTally p c d then 0x04
  else 0

/-! ### Streams -/

/-- Source positions that the destination bytes `[x, x + n)` are made from (R191, R192). -/
def PDesc.needs (d : PDesc) (x n : Nat) : List Nat :=
  let many (a k : Nat) : List Nat := (List.range k).map (a + ·)
  match d.kind with
  | 2 | 4 => []
  | 3 => if d.wide then many (2 * x) (2 * n) else many x n
  | _ =>
    let (gi, go) := d.groups
    match d.xform with
    | 0 => many x n
    | 1 | 2 => (many x n).map (fun y =>
        let base := y / gi * gi
        let o := y % gi
        let u := o / d.unit
        let per := d.srow / d.unit
        let v := if d.xform = 1 then (u % d.ways) * per + u / d.ways else (u % per) * d.ways + u / per
        base + v * d.unit + o % d.unit)
    | _ => ((List.range ((x + n - 1) / go + 1 - x / go)).map (x / go + ·)).flatMap (fun k => many (k * gi) gi)

/-- Index `i` of a group in packed, plane or byte form (R192). -/
def indexOf (form b i : Nat) (g : List Byte) : Nat :=
  match form with
  | 0 => (g.getD i 0).toNat % 2 ^ b
  | 1 => packedElem b g i
  | _ => ((List.range b).map (fun k => if (ofLeBytes ((g.drop (16 * k)).take 16)).testBit i then 2 ^ k else 0)).foldl (· + ·) 0

/-- 128 indices in a form. -/
def indexForm (form b : Nat) (xs : List Nat) : List Byte :=
  match form with
  | 0 => xs.map (BitVec.ofNat 8)
  | 1 => packElems b xs
  | _ => (List.range b).flatMap (fun k => leBytes 16 (maskOf ((List.range 128).filter (fun i => (xs.getD i 0).testBit k))))

/-- One output group of an index transform. -/
def xformGroup (xform b skip : Nat) (g : List Byte) : List Byte :=
  let (i, o) := match xform with
    | 3 => (0, 1)
    | 4 => (1, 0)
    | 5 => (1, 2)
    | _ => (2, 1)
  g.take skip ++ indexForm o b ((List.range 128).map (fun k => indexOf i b k (g.drop skip)))

/-- Destination bytes `[x, x + n)` of a COPY or RED from source bytes by position. -/
def PDesc.bytesFrom (d : PDesc) (src : Nat → Byte) (x n : Nat) : List Byte :=
  if d.kind = 1 ∧ 3 ≤ d.xform then
    let (gi, go) := d.groups
    (List.range n).map (fun i =>
      let k := (x + i) / go
      (xformGroup d.xform d.xb d.skip ((List.range gi).map (fun j => src (k * gi + j)))).getD ((x + i) % go) 0)
  else (d.needs x n).map src

/-- The next access of a destination stream: within one row, up to the next 128-byte boundary of its address. -/
def PDesc.nextLen (d : PDesc) (x : Nat) : Nat :=
  let o := x % max 1 d.drow
  min (d.drow - o) (128 - (d.dstRow (x / max 1 d.drow) + o) % 128)

def PDesc.dstAddr (d : PDesc) (x : Nat) : Nat := (d.dstRow (x / max 1 d.drow) + x % max 1 d.drow) % 2 ^ 64

/-- A destination byte lies in the source of its own descriptor, whose bytes Table PT-5 then leaves undefined. -/
def PDesc.selfSource (d : PDesc) (a : Nat) : Bool :=
  d.kind == 1 && !d.gather && d.sspace == d.dspace && (d.sspace != 0 || d.score == d.dcore) &&
  (List.range d.srows).any (fun r => decide (d.srcRow r ≤ a) && decide (a < d.srcRow r + d.srow))

end Sys2Proof.Machine
end

