-- ==== Sys2Proof/Machine/Porter.lean ====
section
/-! DEFINITION. Porter engines: start, accesses, completion, errors and recovery of descriptors (09_porter_engines.md R187-R201). -/
namespace Sys2Proof.Machine

/-- How the register file reads and writes for an agent on the manager's side; the register dispatch supplies it. -/
structure RegIo where
  read : State → Nat → State × DWord
  write : State → Nat → DWord → State
  narrow : State → Nat → State

/-! ### Instances -/

/-- Channels of a Porter (Table PT-1); 0 for a number that names none. -/
def chanCount (p : Nat) : Nat := if p < 512 then 8 else if p < 576 then 16 else if p = storekeeperPorter then 4 else 0

def porterCluster (p : Nat) : Nat := if p < 512 then clusterOf p else p - 512

/-- The inst. a channel acts for (R187, R312). -/
def State.porterInst (s : State) (p c : Nat) : Nat :=
  if privileged p ∨ managerChan p c then 0 else s.fnOf (8 * porterCluster p)

/-- The core whose Pantry a space-0 address lies in. -/
def pantryCore (p rel : Nat) : Nat := if p < 512 then p else 8 * (p - 512) + rel

def porterPath (p : Nat) : Path := if privileged p then .home else .cupboard (porterCluster p)

/-- CNT of a Porter raised; SAT when it reaches its largest value (Table PT-6). -/
def State.countBytes (s : State) (p n : Nat) : State :=
  let go (r : RegSpec) (is : List Nat) (f sat : Fld) : State :=
    let s := s.bump r is f n
    if s.fld r is f = 2 ^ 63 - 1 then s.setFld r is sat 1 else s
  if p < 512 then go Reg.CST_PTR_CNT [p] F.CST_PTR_CNT_BYTES F.CST_PTR_CNT_SAT
  else if p = storekeeperPorter then go Reg.PTR_SK_CNT [] F.PTR_SK_CNT_BYTES F.PTR_SK_CNT_SAT
  else go Reg.PTR_CL_CNT [p - 512] F.PTR_CL_CNT_BYTES F.PTR_CL_CNT_SAT

/-! ### Errors (R197, R198) -/

/-- The cores whose sequencers fault with code 0x0B because a MOVE of theirs completed with error. -/
def State.moveFaults (s : State) (ns : List Nat) : State :=
  ns.foldl (fun s n => if (s.seq n).status = .faulted ∨ (s.seq n).status = .aborted ∨ (s.seq n).status = .idle then s else s.seqFault n 0x0B) s

/-- The increments that an ended descriptor holds are gone; their rows count as not counted, so that a retry reaches the exact total (R198, R199). -/
def Active.unhold (a : Active) : Active := { a with held := 0, counted := if a.held = 0 then a.counted else 0 }

/-- A channel error: the descriptor ends with its code, the channel keeps its queue, its MOVE completes with error. -/
def State.chanError (s : State) (p c code addr : Nat) (extra : Nat := 0) : State :=
  let x := s.chan p c
  let s := s.setChan p c { x with status := ChanStatus.error, err := code, act := x.act.map Active.unhold }
  let (b, i) := s.owner (8 * porterCluster p)
  let s := s.log { kind := 0x0F, index := p, cls := .contained, address := addr, syndrome := code + 256 * extra, sub := c,
                   bay := if privileged p then 0xFF else b, inst := if privileged p then 0xFF else i }
  match x.act.bind (·.desc.core) with
  | some n => s.moveFaults [n]
  | none => s

/-- An error response is on its way to the instance. -/
def State.busError (s : State) (p cause addr : Nat) : State :=
  let x := s.porter p
  s.setPorter p { x with errors := x.errors ++ [(cause, addr)] }

/-! ### Where an address leads -/

inductive PlaceRes where
  | ok (s : State) (pa : Nat) (leaf : DWord)
  | chan (s : State) (code : Nat)
  | bus (cause pa : Nat)
  | waits

/-- The die that serves an address inside the device. -/
def State.servingDie (s : State) (pa : Nat) : Option Nat :=
  match regionOf pa with
  | .cellar _ | .locker _ => some ((s.home (pa / 128)).1 / 16)
  | .pantry m _ => some (dieOfCore m)
  | _ => none

/-- The response to a global address (R11, R198, R293). -/
def State.placeGlobal (s : State) (p c pa : Nat) (leaf : DWord) : PlaceRes :=
  if (match s.servingDie pa with | some d => s.dieDown d | none => false) then .bus 4 pa
  else if ¬ s.backed pa then .bus 1 pa
  else match regionOf pa with
    | .host => if s.hostUp then .ok s pa leaf else .bus 2 pa
    | .span _ _ => if s.spanOn ∧ ¬ privileged p ∧ ¬ managerChan p c then .ok s pa leaf else .bus 1 pa
    | _ => .ok s pa leaf

/-- Where `len` bytes at an address of a space lie; `code` is the channel error of a translation fault. -/
def State.porterPlace (s : State) (p c space rel a len : Nat) (need : Need) (code : Nat) : PlaceRes :=
  if space = 0 then
    if pantrySize < a + len then .chan s 0x03 else .ok s (pantryAddr (pantryCore p rel) a) 0
  else if space = 2 then s.placeGlobal p c a 0
  else if 2 ^ 48 ≤ a then .chan s code
  else match s.translate (porterCluster p) (s.porterInst p c) a need with
    | .waits => .waits
    | .fault s _ => .chan s code
    | .ok s pa leaf =>
      if need = .read ∧ s.discardCheck (pa / 128) leaf then .chan s code else s.placeGlobal p c pa leaf

/-- The Bay whose Porter it is. -/
def State.porterBay (s : State) (p : Nat) : Option Nat :=
  if p < 512 then s.bayOfCore p else if p < 576 then s.bayOfCluster (p - 512) else none

/-! ### Reading the source -/

/-- What gathering source bytes gives. -/
inductive Fetch where
  | ok (s : State) (g : Gathered)
  | chan (s : State) (code addr : Nat)
  | bus (s : State) (cause addr : Nat)
  | waits

/-- Runs of consecutive keys and addresses inside one 128-byte block: key, address, length. -/
def runsOf : List (Nat × Nat) → List (Nat × Nat × Nat)
  | [] => []
  | (k, a) :: r => match runsOf r with
    | (k', a', n) :: t => if k' = k + 1 ∧ a' = a + 1 ∧ a' / 128 = a / 128 then (k, a, n + 1) :: t else (k, a, 1) :: (k', a', n) :: t
    | [] => [(k, a, 1)]

/-- `n` bytes of a place inside the device, word by word with their poison. -/
def State.readWords (s : State) (io : RegIo) (p : Nat) (pin : Option Nat) (nc : Bool) : Nat → Nat → Nat → Nat → Option (State × List (Nat × Byte × Bool))
  | 0, _, _, _ => some (s, [])
  | f + 1, k, pa, n =>
    if n = 0 then some (s, []) else
    let m := min n (8 - pa % 8)
    let one : Option (State × List Byte × Bool) := match regionOf pa with
      | .pantry c off => some (s, s.pantry c off m, s.pantryPoison c off m)
      | .regs off => let (s, v) := io.read s (off / 8 * 8); some (s, ((leBytes 8 v.toNat).drop (off % 8)).take m, false)
      | _ => s.readLineBytes (if nc then .home else porterPath p) pin pa m
    one.bind (fun (s, bs, q) =>
      (s.readWords io p pin nc f (k + m) (pa + m) (n - m)).map (fun (s, r) => (s, (bs.zipIdx.map (fun e => (k + e.2, e.1, q))) ++ r)))

/-- One run read at once, or asked for outside the device. -/
def State.fetchRun (s : State) (io : RegIo) (p c : Nat) (d : PDesc) (g : Gathered) (space k a n : Nat) : Fetch :=
  match s.porterPlace p c space d.score a n .read 0x05 with
  | .waits => .waits
  | .chan s code => .chan s code a
  | .bus cause pa => .bus s cause pa
  | .ok s pa leaf =>
    match regionOf pa with
    | .host => if s.hostRoom then .ok (s.hostAccess (.porter p c) (s.porterInst p c) pa n none) { g with missing := g.missing ++ [(pa, k, n)] } else .waits
    | .span _ _ => .ok (s.spanAccess (.porter p c) (actingCore p d) 8 pa d.tcore 0 (n - 1) 0) { g with missing := g.missing ++ [(pa, k, n)] }
    | _ => match (s.when (leafNC leaf && hasHome pa) (fun s => s.countLrd (s.porterBay p) 128)).readWords io p (leafPin leaf (s.porterInst p c)) (leafNC leaf) (n + 1) k pa n with
      | some (s, r) => .ok s { g with got := g.got ++ r }
      | none => .waits

def State.fetchRuns (s : State) (io : RegIo) (p c : Nat) (d : PDesc) (space : Nat) : List (Nat × Nat × Nat) → Gathered → Fetch
  | [], g => .ok s g
  | (k, a, n) :: r, g => match s.fetchRun io p c d g space k a n with
    | .ok s g => s.fetchRuns io p c d space r g
    | e => e

/-- Keys of index bytes begin here; keys below are source stream positions. -/
def indexKey : Nat := 2 ^ 41

def Gathered.has (g : Gathered) (k : Nat) : Bool := g.got.any (fun e => e.1 == k) || g.missing.any (fun m => decide (m.2.1 ≤ k) && decide (k < m.2.1 + m.2.2))
def Gathered.byte (g : Gathered) (k : Nat) : Byte := ((g.got.find? (fun e => e.1 == k)).map (·.2.1)).getD 0
def Gathered.poisoned (g : Gathered) (ks : List Nat) : Bool := g.got.any (fun e => e.2.2 && ks.contains e.1)

/-- Bytes of an index. -/
def PDesc.idxSize (d : PDesc) : Nat := if d.idx16 then 2 else 4

/-- Index `r` of the list, from gathered bytes. -/
def PDesc.idxOf (d : PDesc) (g : Gathered) (r : Nat) : Nat :=
  ofLeBytes ((List.range d.idxSize).map (fun j => g.byte (indexKey + r * d.idxSize + j)))

/-- Address of a source position. -/
def PDesc.srcAddr (d : PDesc) (g : Gathered) (q : Nat) : Nat :=
  let r := q / max 1 d.srow
  let start := if d.gather then ((d.src + (d.idxOf g r : Int) * d.sstr1) % 2 ^ 64).toNat else d.srcRow r
  (start + q % max 1 d.srow) % 2 ^ 64

/-- Gathers the source bytes of destination bytes `[x, x + n)`: the indices first, then the data. -/
def State.fetchFor (s : State) (io : RegIo) (p c : Nat) (d : PDesc) (g : Gathered) (x n : Nat) : Fetch :=
  let ks := d.needs x n
  let rows := (ks.map (· / max 1 d.srow)).eraseDups
  let ik := if d.gather then rows.flatMap (fun r => (List.range d.idxSize).map (fun j => r * d.idxSize + j)) else []
  let need := ik.filter (fun j => !g.has (indexKey + j))
  match s.fetchRuns io p c d d.ispace (runsOf (need.map (fun j => (indexKey + j, d.idx + j)))) g with
  | .ok s g =>
    if ¬ g.missing.isEmpty then .ok s g
    else if g.poisoned (ik.map (indexKey + ·)) then .chan s 0x09 d.idx
    else s.fetchRuns io p c d d.sspace (runsOf ((ks.eraseDups.filter (fun k => !g.has k)).map (fun k => (k, d.srcAddr g k)))) g
  | e => e

/-! ### Increments (R196) -/

/-- Destination rows performed, as a prefix. -/
def Active.rowsDone (a : Active) : Nat := (a.out.foldl (fun m o => min m o.pos) a.pos) / max 1 a.desc.drow

/-- An increment of the active descriptor applies, or is held while its Step has not committed (R73). -/
def State.countFor (s : State) (p c amount : Nat) : State :=
  match (s.chan p c).act with
  | none => s
  | some a =>
    let hold := match a.desc.core, a.desc.step with
      | some n, some k => decide ((s.seq n).stepsDone < k)
      | _, _ => false
    if hold then s.setChan p c { (s.chan p c) with act := some { a with held := a.held + amount } } else s.porterTally p c a.desc amount

/-- PROG and the row increments after an access has been performed. -/
def State.progress (s : State) (p c : Nat) : State :=
  let x := s.chan p c
  match x.act with
  | none => s
  | some a =>
    if a.desc.kind = 4 then s else
    let r := a.rowsDone
    let new := r - a.counted
    let s := s.setChan p c { x with prog := r, act := some { a with counted := max r a.counted } }
    if a.remote then s else match a.desc.tmode with
      | 1 => s.countFor p c (new * a.desc.drow)
      | 2 => s.countFor p c new
      | _ => s

/-! ### Writing the destination -/

/-- A Red of bytes `bs` of a destination row at a line (R157, R191). -/
def PDesc.redOp (d : PDesc) (pa n : Nat) (bs : List Byte) : RedOp :=
  let code : RedCode := if d.rop = 0 then .add else if d.rop = 1 then .max else .min
  let ty : RedTy := if d.rtype = 0 then .fp32 else if d.rtype = 1 then .bf16 else .int32
  let off := if d.wide then 2 * (pa % 128) else pa % 128
  { op := code, ty := ty, wide := d.wide, operand := BitVec.ofNat 2048 (ofLeBytes bs * 2 ^ (8 * off)),
    sectors := BitVec.ofNat 4 (maskOf ((List.range 4).filter (fun k => decide (pa % 128 ≤ 32 * k) && decide (32 * k + 32 ≤ pa % 128 + n)))) }

/-- An increment travels with the message: bytes, or one packet that is a whole row (Table CH-5). -/
def PDesc.withMessage (d : PDesc) (pa n row counted : Nat) : Nat :=
  if d.tremote ∧ d.step.isNone ∧ (pa - 0x4000000000000) / 2 ^ 39 = d.tdev ∧ counted ≤ row then
    (if d.tmode = 1 then 1 else if d.tmode = 2 ∧ n = d.drow then 2 else 0)
  else 0

/-- What a destination access does: performed, outstanding under a tag, or an error. -/
inductive Put where
  | done (s : State)
  | sent (s : State) (tag : Nat) (remote : Bool)
  | chan (s : State) (code addr : Nat)
  | bus (s : State) (cause addr : Nat)
  | waits

/-- Tag of the Red at a stream position. -/
def redTag (pos : Nat) : Nat := 2 ^ 56 + pos

def State.putBytes (s : State) (io : RegIo) (p c : Nat) (a : Active) (n : Nat) (bs : List Byte) (poison : Bool) : Put :=
  let d := a.desc
  let x := a.pos
  match s.porterPlace p c d.dspace d.dcore (d.dstAddr x) n (if d.kind = 3 then .both else .write) 0x06 with
  | .waits => .waits
  | .chan t code => .chan (s.keepPilot t) code (d.dstAddr x)
  | .bus cause pa => .bus s cause pa
  | .ok t pa leaf =>
    let s := s.keepPilot t
    let row := x / max 1 d.drow
    let span (plain : Nat) (data len : Nat) (at_ : Nat) : Put :=
      let k := d.withMessage pa n row a.counted
      .sent (s.spanAccess (.porter p c) (actingCore p d) (plain + k + (if poison then 0x20 else 0)) at_ d.tcore d.tally len data) pa (k != 0)
    if d.kind = 3 then
      let o := d.redOp pa n bs
      match regionOf pa with
      | .cellar _ | .locker _ =>
        .sent (s.arrive { kind := .red, who := .porter p c, line := pa / 128, tag := redTag x, red := some o, poison := poison }) (redTag x) false
      | .span _ _ => span 4 o.operand.toNat (d.rop + 4 * d.rtype + 16 * (if d.rfmt then 1 else 0)) (pa / 128 * 128 + o.sectors.toNat)
      | _ => .chan s 0x07 pa
    else match regionOf pa with
      | .pantry m off => .done (s.keepPilot ((s.setPantry m off bs poison).stored (pantryAddr m off) bs.length))
      | .cellar _ | .locker _ =>
        (match (s.when (leafNC leaf) (fun s => s.countLrd (s.porterBay p) 128)).writeLineBytes (if leafNC leaf then .home else porterPath p) (leafPin leaf (s.porterInst p c)) pa bs poison with
          | some t => .done (s.keepPilot t)
          | none => .waits)
      | .host =>
        if ¬ s.hostRoom then .waits
        else if s.atsHit (s.porterInst p c) pa then .done (s.keepPilot (s.hostStore pa bs poison))
        else .sent (s.hostAccess (.porter p c) (s.porterInst p c) pa n (some bs)) pa false
      | .span _ _ => span 1 (ofLeBytes bs) (n - 1) pa
      | .regs off =>
        let s := (List.range (n / 8)).foldl (fun s i => io.write s (off + 8 * i) (BitVec.ofNat 64 (ofLeBytes ((bs.drop (8 * i)).take 8)))) s
        .done (if n % 8 = 0 then s else s.keepPilot (io.narrow s (off + n / 8 * 8)))
      | .hole => .bus s 1 pa

/-- Bytes of an access that come from no source: the FILL pattern by address. -/
def PDesc.fillBytes (d : PDesc) (a n : Nat) : List Byte := (List.range n).map (fun i => BitVec.ofNat 8 (d.pattern / 2 ^ (8 * ((a + i) % 8))))

/-- Bytes whose own descriptor reads them are undefined (Table PT-5): free values. -/
def State.undefinedBytes (s : State) (d : PDesc) (a : Nat) : List Byte → State × List Byte
  | [] => (s, [])
  | b :: bs =>
    let (s, r) := s.undefinedBytes d (a + 1) bs
    if d.selfSource a then let (k, s) := s.draw; (s, Config.freeByte k :: r) else (s, b :: r)

/-! ### Commands -/

/-- A channel starts its next descriptor (R188, R197). -/
def State.channelStart (s : State) (p c : Nat) : State :=
  let x := s.chan p c
  if chanCount p ≤ c ∨ (s.porter p).status ≠ 0 ∨ x.act.isSome ∨ ¬ (x.status = .idle ∨ x.status = .holding) then s else
  match x.queue with
  | [] => s
  | d :: q =>
    let s := s.setChan p c { x with queue := q, act := some { desc := d }, status := ChanStatus.active, prog := 0, tag := d.tag, poison := false, partials := false }
    match s.descCode p c d with
    | 0 => s
    | code => s.chanError p c code (d.dst % 2 ^ 52)

def execChannelStart (p : Fin 1024) (c : Fin 16) (s : State) : Host.Outcome State Fault Refusal := .next (s.keepPilot (s.channelStart p c))

/-- A line of a RANGE descriptor (R191). -/
def State.porterRange (s : State) (p c : Nat) (a : Active) : State :=
  let d := a.desc
  let i := s.porterInst p c
  let va := d.dst + a.pos
  match (if 2 ^ 48 ≤ va then RangeRes.failed 1 else s.rangeAct i d.rangeOp va) with
  | .waits => s
  | .failed e => s.chanError p c 0x08 va e
  | .done s => s.setChan p c { (s.chan p c) with act := some { a with pos := a.pos + 128 } }

/-- The access at the channel's stream position is a bus error: it stays unperformed, and the response is on its way. -/
def State.failAccess (s : State) (p c n : Nat) (a : Active) (cause addr : Nat) : State :=
  (s.setChan p c { (s.chan p c) with act := some { a with pos := a.pos + n, src := none, out := a.out ++ [⟨addr, a.pos, n, true⟩] } }).busError p cause addr

/-- An access of a channel: source bytes are gathered; once all have come, the destination is written (R188-R196). -/
def State.porterAccess (io : RegIo) (s : State) (p c : Nat) : State :=
  let x := s.chan p c
  match x.act with
  | none => s
  | some a =>
    let d := a.desc
    if (s.porter p).status ≠ 0 ∨ x.status ≠ .active then s
    else if d.kind = 4 then (if a.pos < d.slen then s.keepPilot (s.porterRange p c a) else s)
    else if d.dlen ≤ a.pos then s else
    let n := d.nextLen a.pos
    let g := a.src.getD {}
    if ¬ g.missing.isEmpty then s else
    match s.fetchFor io p c d g a.pos n with
    | .waits => s
    | .chan t code addr => s.keepPilot (t.chanError p c code addr)
    | .bus t cause addr => s.keepPilot (t.failAccess p c n a cause addr)
    | .ok t g =>
      let s := s.keepPilot t
      if ¬ g.missing.isEmpty then s.keepPilot (s.setChan p c { (s.chan p c) with act := some { a with src := some g } }) else
      let ks := d.needs a.pos n
      let poison := d.kind != 2 && g.poisoned ks
      let bs := if d.kind = 2 then d.fillBytes (d.dstAddr a.pos) n else d.bytesFrom g.byte a.pos n
      let (t, bs) := s.undefinedBytes d (d.dstAddr a.pos) bs
      let s := s.keepPilot t
      let b := { a with pos := a.pos + n, src := none }
      let go (s : State) (b : Active) : State := (((s.setChan p c { (s.chan p c) with act := some b, poison := (s.chan p c).poison || poison }).countBytes p n).account (s.porterBay p) Reg.BAY_XFR Reg.BAY_INST_XFR n).progress p c
      match s.putBytes io p c a n bs poison with
      | .waits => s
      | .chan t code addr => s.keepPilot (t.chanError p c code addr)
      | .bus t cause addr => s.keepPilot (t.failAccess p c n a cause addr)
      | .done t => t.keepPilot (go t b)
      | .sent t tag remote => s.keepPilot (go t { b with out := a.out ++ [⟨tag, a.pos, n, false⟩], remote := a.remote || remote })

/-- The answer to an access of a channel from outside the device, or the Cmp of its Red. -/
def State.porterAnswer (s : State) (p c addr : Nat) (read ok : Bool) (cause v : Nat) (poison : Bool) : State :=
  let x := s.chan p c
  match x.act with
  | none => s
  | some a =>
    if read then
      match a.src with
      | none => s
      | some g => match g.missing.find? (fun m => m.1 == addr) with
        | none => s
        | some (pa, k, n) =>
          if ok then
            let g := { got := g.got ++ (leBytes n v).zipIdx.map (fun e => (k + e.2, e.1, poison)), missing := g.missing.erase (pa, k, n) }
            s.setChan p c { x with act := some { a with src := some g } }
          else s.failAccess p c (a.desc.nextLen a.pos) a cause addr
    else match a.out.find? (fun o => o.tag == addr && !o.failed) with
      | none => s
      | some o =>
        if ok then (s.setChan p c { x with act := some { a with out := a.out.erase o } }).progress p c
        else (s.setChan p c { x with act := some { a with out := a.out.map (fun q => if q = o then { q with failed := true } else q) } }).busError p cause addr

/-- Tag of the zero-length read of SYS. -/
def sysTag : Nat := 0x8000000000000

/-- A descriptor completes (R195, R196): with SYS, a zero-length read goes out behind its host writes first. -/
def State.descComplete (s : State) (p c : Nat) : State :=
  let x := s.chan p c
  match x.act with
  | none => s
  | some a =>
    let d := a.desc
    let all := if d.kind = 4 then d.slen else d.dlen
    if x.status ≠ .active ∨ a.pos < all ∨ ¬ a.out.isEmpty then s
    else if d.sys ∧ ¬ a.flushed ∧ s.hostUp then
      if ¬ s.hostRoom then s else
      (s.setChan p c { x with act := some { a with flushed := true, out := [⟨sysTag, a.pos, 0, false⟩] } }).hostAccess (.porter p c) (s.porterInst p c) sysTag 0 none
    else
      let s := if d.tmode = 3 then s.countFor p c 1 else s
      let s := if d.kind = 4 ∧ 3 ≤ d.rangeOp then s.instShelves (s.porterInst p c) else s
      let y := s.chan p c
      let held := match y.act with | some b => b.held | none => 0
      let holds := if held = 0 then y.holds else y.holds ++ [{ a with held := held }]
      s.setChan p c { y with act := none, holds := holds, done := y.done + 1, status := if holds.isEmpty then .idle else .holding }

def execDescriptorComplete (p : Fin 1024) (c : Fin 16) (s : State) : Host.Outcome State Fault Refusal := .next (s.keepPilot (s.descComplete p c))

/-- Every descriptor of an instance's channels. -/
def Porter.descs (x : Porter) : List PDesc := x.chans.flatMap (fun e => e.2.descs)

/-- The first error response that waits reaches the instance (R198, Table PT-5). -/
def State.takeBusError (s : State) (p : Nat) : State :=
  let x := s.porter p
  match x.errors with
  | [] => s
  | (cause, addr) :: r =>
    let (b, i) := s.owner (8 * porterCluster p)
    let rec1 : ErrRec := { kind := 0x0F, index := p, cls := .contained, address := addr, syndrome := cause,
                           bay := if privileged p then 0xFF else b, inst := if privileged p then 0xFF else i }
    if x.status = 0 then (s.setPorter p { x with errors := r, status := 1, cause := cause % 256, errAddr := addr }).log rec1
    else (s.setPorter p { x with errors := r }).log rec1

def execBusError (p : Fin 1024) (s : State) : Host.Outcome State Fault Refusal := .next (s.keepPilot (s.takeBusError p))

/-- A channel of a stopped instance: its descriptor ends with code 0x10, held increments are gone. -/
def Chan.halt (x : Chan) : Chan :=
  match x.act with
  | some a => if x.status = .error then { x with holds := [] } else
    let late := a.desc.kind == 3 && decide (a.rowsDone * a.desc.drow < a.pos) && a.out.any (fun o => !o.failed || decide (a.rowsDone * a.desc.drow < o.pos))
    { x with status := ChanStatus.stopped, err := 0x10, holds := [], prog := a.rowsDone, partials := late, act := some a.unhold }
  | none => { x with holds := [], status := if x.status = .holding then .idle else x.status }

/-- An access of the channel is in flight. -/
def Chan.flying (x : Chan) : Bool :=
  match x.act with
  | some a => a.out.any (fun o => !o.failed) || (match a.src with | some g => !g.missing.isEmpty | none => false)
  | none => false

/-- A stopping instance has no access in flight: it stops, and every MOVE with a descriptor in it completes with error. -/
def State.porterStopped (s : State) (p : Nat) : State :=
  let x := s.porter p
  if x.status ≠ 1 ∨ ¬ x.errors.isEmpty ∨ x.chans.any (fun e => e.2.flying) then s else
  let cores := (x.descs.filterMap (·.core)).eraseDups
  ((s.setPorter p { x with status := 2 }).mapChans p Chan.halt).moveFaults cores

def execPorterStopped (p : Fin 1024) (s : State) : Host.Outcome State Fault Refusal := .next (s.keepPilot (s.porterStopped p))

/-! ### Recovery (R199) -/

/-- Offset of the CTL register of a Porter. -/
def porterCtl (p : Nat) : Nat :=
  if p < 512 then Reg.CST_PTR_CTL.addr [p] else if p = storekeeperPorter then Reg.PTR_SK_CTL.base else Reg.PTR_CL_CTL.addr [p - 512]

/-- Who writes CTL (R201). -/
def mayPorter (w : Writer) (p : Nat) : Bool := if p = storekeeperPorter then w == .storekeeper else isManager w

/-- The value last written to CTL. -/
def State.wroteCtl (s : State) (p v : Nat) : State :=
  if p < 512 then s.wrote Reg.CST_PTR_CTL [p] v else if p = storekeeperPorter then s.wrote Reg.PTR_SK_CTL [] v else s.wrote Reg.PTR_CL_CTL [p - 512] v

/-- A command of CTL: discarded with a record for a stranger, or where `ok` fails. -/
def State.porterCmd (s : State) (w : Writer) (p v : Nat) (ok : Bool) (f : State → State) : State :=
  if ¬ mayPorter w p then s.refuse w (porterCtl p) causeActor else if ok then f (s.wroteCtl p v)
  else s.refuse w (porterCtl p) causeState

/-- CLEAR: every descriptor goes, no Tally moves, the instance runs. -/
def State.porterClear (s : State) (p : Nat) : State :=
  (s.setPorter p { (s.porter p) with status := 0, cause := 0, errors := [] }).mapChans p
    (fun x => { x with queue := [], act := none, holds := [], status := ChanStatus.idle, partials := false })

/-- A stopped descriptor starts again at destination row PROG. -/
def Chan.restart (x : Chan) : Chan :=
  match x.act with
  | some a => { x with status := ChanStatus.active, act := some { a with pos := if a.desc.kind = 4 then a.pos else x.prog * a.desc.drow, src := none, out := [], flushed := false } }
  | none => { x with status := ChanStatus.idle }

def State.clearPorter (s : State) (w : Writer) (p : Nat) : State :=
  s.porterCmd w p 1 ((s.porter p).status == 2) (fun s => s.porterClear p)
def execPorterClear (w : Writer) (p : Fin 1024) (s : State) : Host.Outcome State Fault Refusal := .next (s.keepPilot (s.clearPorter w p))

def State.retryPorter (s : State) (w : Writer) (p : Nat) : State :=
  s.porterCmd w p 2 ((s.porter p).status == 2 && (s.porter p).chans.all (fun e => !(e.2.partials && e.2.status == .stopped)))
    (fun s => (s.setPorter p { (s.porter p) with status := 0, cause := 0 }).mapChans p (fun x => if x.status = .stopped then x.restart else x))
def execPorterRetry (w : Writer) (p : Fin 1024) (s : State) : Host.Outcome State Fault Refusal := .next (s.keepPilot (s.retryPorter w p))

def State.clearChan (s : State) (w : Writer) (p c : Nat) : State :=
  s.porterCmd w p (3 + 16 * c) ((s.chan p c).status == .error)
    (fun s => s.setChan p c { (s.chan p c) with queue := [], act := none, holds := [], status := ChanStatus.idle })
def execClearChannel (w : Writer) (p : Fin 1024) (c : Fin 16) (s : State) : Host.Outcome State Fault Refusal := .next (s.keepPilot (s.clearChan w p c))

def State.retryChan (s : State) (w : Writer) (p c : Nat) : State :=
  s.porterCmd w p (4 + 16 * c) ((s.chan p c).status == .error) (fun s => s.setChan p c (s.chan p c).restart)
def execRetryChannel (w : Writer) (p : Fin 1024) (c : Fin 16) (s : State) : Host.Outcome State Fault Refusal := .next (s.keepPilot (s.retryChan w p c))

/-- CH0_POST copies the descriptor at CH0_DESC into channel 0's queue (Table PT-6). -/
def State.ch0Post (s : State) (w : Writer) (g : Nat) : State :=
  let off := Reg.PTR_CL_CH0_POST.addr [g]
  let p := 512 + g
  s.asManager w off (fun s =>
    let a := (s.reg Reg.PTR_CL_CH0_DESC [g]).toNat / 128 * 128
    if ¬ s.queueRoom p 0 then s.refuse w off causeState else
    let s := s.wrote Reg.PTR_CL_CH0_POST [g] 1
    let bad := s.log { kind := 0x0F, index := p, cls := .contained, address := a, syndrome := 0x09 }
    match s.placeGlobal p 0 a 0 with
    | .ok s _ _ => match s.readGlobal (.cupboard g) none a 128 with
      | .done s (bs, false) => s.post p 0 { raw := lineOfBytes bs }
      | .waits => s
      | .outside => (match regionOf a with
        | .host => s.post p 0 { raw := lineOfBytes (s.bytes a 128) }
        | _ => bad)
      | _ => bad
    | _ => bad)

def execCh0Post (w : Writer) (g : ClusterId) (s : State) : Host.Outcome State Fault Refusal := .next (s.keepPilot (s.ch0Post w g))

end Sys2Proof.Machine
end

