-- ==== Sys2Proof/Machine/Hatches.lean ====
section
/-! DEFINITION. The Hatch pages: posts, indices, device messages (12_tenants_hatches_migration.md R247-R250). -/
namespace Sys2Proof.Machine

/-- BAR0 offset of the Hatch page of inst. `i`. -/
def hatPage (i : Nat) : Nat := 0x02000000 + (i - 1) * 0x10000

/-- A 64-bit word of a Hatch ring; ring 0 is tenant-to-manager, ring 1 manager-to-tenant. -/
def ringWord (i ring entry k : Nat) : Nat := hatPage i + 0x4000 + 0x4000 * ring + 64 * (entry % 256) + 8 * k

/-- The Hatch takes posts (Table TN-6). -/
def State.hatOpen (s : State) (i : Nat) : Bool := decide (1 ≤ s.inst i) && decide (s.inst i ≤ 3)

def ringIdx (ring : Nat) : RegSpec := if ring = 0 then Reg.HAT_T2M_IDX else Reg.HAT_M2T_IDX

def State.ringProd (s : State) (i ring : Nat) : Nat := fieldOf (s.reg (ringIdx ring) [i - 1]) 31 0
def State.ringCons (s : State) (i ring : Nat) : Nat := fieldOf (s.reg (ringIdx ring) [i - 1]) 63 32

/-- A ring holds 256 messages. -/
def State.ringFull (s : State) (i ring : Nat) : Bool := (s.ringProd i ring + 2 ^ 32 - s.ringCons i ring) % 2 ^ 32 == 256

/-- The engine puts a message into a ring: SEQ and SRC overwritten, PROD advanced, the receiver's vector raised when enabled (R248). -/
def State.hatPut (s : State) (i ring src : Nat) (words : List Nat) : State :=
  let prod := s.ringProd i ring
  let w0 := words.headD 0
  let first := prod + bitsOf w0 47 32 * 2 ^ 32 + src * 2 ^ 48 + bitsOf w0 63 56 * 2 ^ 56
  let s := ((first :: words.tail).zipIdx).foldl (fun s e => { s with regs := s.regs.set 0 (ringWord i ring prod e.2) (BitVec.ofNat 64 e.1) }) s
  let s := s.setReg (ringIdx ring) [i - 1] (withField (s.reg (ringIdx ring) [i - 1]) 31 0 (prod + 1))
  if ring = 0 then s.when (s.bit Reg.HAT_IRQ [i - 1] F.HAT_IRQ_T2M_EN) (fun s => s.raise 0 (63 + i))
  else s.when (s.bit Reg.HAT_IRQ [i - 1] F.HAT_IRQ_M2T_EN) (fun s => s.raise i 0)

/-- The cause that refuses a post, 0 for none: 1 full, 2 TYPE, 3 closed (R248; the lowest where several hold). -/
def State.postCause (s : State) (i ring type : Nat) : Nat :=
  if s.ringFull i ring then 1 else if type < 0x100 then 2 else if ¬ s.hatOpen i then 3 else 0

/-- A write of 1 to a post register: the side's staging goes into its ring, or REFUSED and CAUSE are set. -/
def State.post64 (s : State) (i ring : Nat) : State :=
  let stage := if ring = 0 then Reg.HAT_TSTAGE else Reg.HAT_MSTAGE
  let ws := (List.range 8).map (fun k => (s.reg stage [i - 1, k]).toNat)
  let c := s.postCause i ring (bitsOf (ws.headD 0) 47 32)
  if c = 0 then s.hatPut i ring ring ws
  else if ring = 0 then (s.setFld Reg.HAT_STAT [i - 1] F.HAT_STAT_TREFUSED 1).setFld Reg.HAT_STAT [i - 1] F.HAT_STAT_TCAUSE c
  else (s.setFld Reg.HAT_STAT [i - 1] F.HAT_STAT_MREFUSED 1).setFld Reg.HAT_STAT [i - 1] F.HAT_STAT_MCAUSE c

/-- The tenant of inst. `i`. -/
def isTenant (w : Writer) (i : Nat) : Bool := match w with
  | .fn f => f.val == i
  | _ => false

/-- What a Hatch post or an inbound Chute retrain request does in Off: wake_n is asserted (R405). -/
def State.wakeOff (s : State) (f : State → State) : State := if s.power.mode = 2 then s.setPilot (fun p => { p with wakePin := true }) else s.keepPilot (f s)

def State.tenantPost (s : State) (w : Writer) (i : Nat) : State :=
  if isTenant w i then (s.wrote Reg.HAT_TPOST [i - 1] 1).post64 i 0 else s.refuse w (Reg.HAT_TPOST.addr [i - 1]) causeActor
def execTenantPost (w : Writer) (v : VfId) (s : State) : Host.Outcome State Fault Refusal := .next (s.wakeOff (fun s => s.tenantPost w (v + 1)))

def State.managerPost (s : State) (w : Writer) (i : Nat) : State := s.asManager w (Reg.HAT_MPOST.addr [i - 1]) (fun s => (s.wrote Reg.HAT_MPOST [i - 1] 1).post64 i 1)
def execManagerPost (w : Writer) (v : VfId) (s : State) : Host.Outcome State Fault Refusal := .next (s.wakeOff (fun s => s.managerPost w (v + 1)))

/-- A write of a consumer index: by the ring's consumer, and never past PROD (R248). -/
def State.hatCons (s : State) (w : Writer) (i ring c : Nat) : State :=
  let off := (ringIdx ring).addr [i - 1]
  let mine := if ring = 0 then isManager w else isTenant w i
  if ¬ mine then s.refuse w off causeActor
  else if (s.ringProd i ring + 2 ^ 32 - s.ringCons i ring) % 2 ^ 32 < (c + 2 ^ 32 - s.ringCons i ring) % 2 ^ 32 then s.refuse w off causeValue
  else s.setReg (ringIdx ring) [i - 1] (withField (s.reg (ringIdx ring) [i - 1]) 63 32 c)

def execHatchConsWrite (w : Writer) (v : VfId) (m2t : Bool) (cons : Word) (s : State) : Host.Outcome State Fault Refusal :=
  .next (s.keepPilot (s.hatCons w (v + 1) (if m2t then 1 else 0) cons.toNat))

/-! ### Device messages (R249) -/

/-- Words of a device message. -/
def HatMsg.words (m : HatMsg) : List Nat :=
  (m.type % 65536 * 2 ^ 32) :: 0xFFFFFFFF :: (List.range 6).map (fun k => m.payload >>> (64 * k) % 2 ^ 64)

/-- A device message can be posted now. -/
def State.hatRoom (s : State) (i : Nat) : Bool := s.hatOpen i && !s.ringFull i 1

/-- The next thing the engine does with device messages of inst. `i`: post the oldest queued one, then OVERFLOW with the count of lost ones, then the
oldest that has come; without room, queue that one or count it as lost. -/
def State.deviceMessage (s : State) (i : Nat) : State :=
  let q := s.hatQueue.get [] i
  let lost := s.hatLost.get 0 i
  let inQ := s.hatOut.get [] i
  if s.hatRoom i then
    match q, inQ with
    | m :: r, _ => { s.hatPut i 1 2 m.words with hatQueue := s.hatQueue.set [] i r }
    | [], _ =>
      if lost ≠ 0 then { s.hatPut i 1 2 (HatMsg.words ⟨6, lost % 2 ^ 32⟩) with hatLost := s.hatLost.set 0 i 0 }
      else match inQ with
        | m :: r => { s.hatPut i 1 2 m.words with hatOut := s.hatOut.set [] i r }
        | [] => s
  else match inQ with
    | [] => s
    | m :: r =>
      let s := { s with hatOut := s.hatOut.set [] i r }
      if q.length < 16 then { s with hatQueue := s.hatQueue.set [] i (q ++ [m]) }
      else { s with hatLost := s.hatLost.set 0 i (lost + 1) }.setFld Reg.HAT_STAT [i - 1] F.HAT_STAT_EVT_LOST 1

def execDeviceMessage (v : VfId) (s : State) : Host.Outcome State Fault Refusal := .next (s.keepPilot (s.deviceMessage (v + 1)))

/-- The Hatch page at its reset values; `keep` keeps the interrupt enables (R251, R255). Messages queued for it are gone. -/
def State.hatReset (s : State) (i : Nat) (keep : Bool) : State :=
  let irq := s.reg Reg.HAT_IRQ [i - 1]
  let s := { s with regs := s.regs.filter (fun e => decide (e.1 < hatPage i) || decide (hatPage i + 0x10000 ≤ e.1)),
                    hatQueue := s.hatQueue.set [] i [], hatLost := s.hatLost.set 0 i 0, hatOut := s.hatOut.set [] i [] }
  if keep then s.setReg Reg.HAT_IRQ [i - 1] irq else s

end Sys2Proof.Machine
end

