-- ==== Sys2Proof/Machine/Records.lean ====
section
/-! DEFINITION. Save records: their bytes, their checks and their placement (12_tenants_hatches_migration.md R257, R258; R379). The order of the
fields inside a section is the model's own (log 41). -/
namespace Sys2Proof.Machine

def SlotStatus.code : SlotStatus → Nat
  | .empty => 0
  | .loading => 1
  | .loaded => 2
  | .running => 3
  | .stopping => 4
  | .stopped => 5
  | .halted => 6
  | .refused => 7
  | .faulted => 8
  | .aborted => 9

/-- A saved slot's state; a REFUSED slot is saved as EMPTY. -/
def SlotStatus.saved : SlotStatus → Nat
  | .refused => 0
  | x => x.code

def SlotStatus.ofCode (n : Nat) : SlotStatus :=
  match n with
  | 2 => .loaded
  | 5 => .stopped
  | 6 => .halted
  | 8 => .faulted
  | 9 => .aborted
  | _ => .empty

/-- Locker units of an inst., rising. -/
def State.unitsOf (s : State) (i : Nat) : List Nat :=
  (List.range s.units).filter (fun u => s.lockerAllows i (0x010000000000 + u * lockerUnit))

def pad (n : Nat) (bs : List Byte) : List Byte := bs ++ List.replicate (n - bs.length) 0
def le (n x : Nat) : List Byte := leBytes n x

/-! ### Writing a record -/

/-- The INSTANCE section, 34,048 bytes. -/
def State.instSection (s : State) (i : Nat) : List Byte :=
  let q := s.hatQueue.get [] i
  let idx := le 8 (s.reg Reg.HAT_T2M_IDX [i - 1]).toNat ++ le 8 (s.reg Reg.HAT_M2T_IDX [i - 1]).toNat ++ le 8 ((s.reg Reg.HAT_STAT [i - 1]).toNat / 16 * 16 % 2 ^ 16 + s.inst i + q.length * 2 ^ 16) ++
    le 8 (s.reg Reg.HAT_IRQ [i - 1]).toNat ++ le 8 (s.hatLost.get 0 i) ++ le 8 q.length
  pad 256 idx ++ (List.range 4096).flatMap (fun k => le 8 (s.regs.get 0 (hatPage i + 0x4000 + 8 * k)).toNat) ++
  pad 1024 (q.flatMap (fun m => m.words.flatMap (le 8)))

/-- Unit ordinal and offset of a spill area. -/
def State.spillPlace (s : State) (i b j : Nat) : Nat × Nat :=
  let a := (s.reg Reg.BAY_SPILL [b, j]).toNat - 0x010000000000
  ((s.unitsOf i).idxOf (a / lockerUnit), a % lockerUnit)

/-- The BAY section, 1,024 bytes. -/
def State.baySection (s : State) (i b : Nat) : List Byte :=
  pad 1024 (le 8 (s.clustersOf b).length ++ le 8 (s.fld Reg.BAY_CFG [b] F.BAY_CFG_ORDERED) ++ le 8 (s.reg Reg.BAY_SLICE [b]).toNat ++
    le 8 (s.reg Reg.BAY_SHARE [b]).toNat ++ le 8 (s.fld Reg.BAY_SLOW [b] F.BAY_SLOW_LIMIT) ++
    (List.range 4).flatMap (fun j =>
      let x := s.img b j
      let (u, o) := s.spillPlace i b j
      le 8 x.status.saved ++ le 8 (s.reg Reg.BAY_IMG_ADDR [b, j]).toNat ++ le 8 (s.reg Reg.BAY_IMG_LEN [b, j]).toNat ++ le 64 x.meas.toNat ++
      le 8 (s.reg Reg.BAY_WAKE [b, j]).toNat ++ le 8 (s.reg Reg.BAY_CLAIM [b, j]).toNat ++ le 8 u ++ le 8 o))

/-- The CORE section, 2,637,888 bytes. -/
def State.coreSection (s : State) (n : Nat) : List Byte :=
  s.pantry n 0 pantrySize ++ (List.range 4096).flatMap (fun i => le 4 (s.tally n i).toNat) ++
  (List.range 40).map (fun r => BitVec.ofNat 8 (((s.range n).holders.get none r).getD 0xFF)) ++ List.replicate 24 0

/-- The LOCKER section of a unit. -/
def State.lockerSection (s : State) (u : Nat) : List Byte :=
  (List.range lockerUnit).map (fun o => (s.peekByte (0x010000000000 + u * lockerUnit + o)).1)

/-- The KEY section (R379), under nonce `k`. -/
def State.keySection (s : State) (i k : Nat) : List Byte :=
  let sec := s.migSecret.get 0 i
  let nonce : BitVec 96 := (Config.random k).setWidth 96
  pad 256 (le 12 nonce.toNat ++ le 4 (if sec = 0 then 0 else 1) ++ le 80 (Config.sealKey sec i (s.keyGen.get 0 i) nonce).toNat)

/-- Sections in order: TYPE, INDEX, LENGTH. -/
def State.saveSections (s : State) (i : Nat) : List (Nat × Nat × Nat) :=
  let bs := s.baysOf i
  (1, 0, 34048) :: (bs.zipIdx.map (fun e => (2, e.2, 1024)) ++
    bs.zipIdx.flatMap (fun e => (List.range (s.coresOf e.1).length).map (fun c => (3, 512 * e.2 + c, 2637888))) ++
    (List.range (s.unitsOf i).length).map (fun u => (4, u, lockerUnit)) ++ [(5, 0, 256)])

/-- Where the sections start. -/
def saveStart (n : Nat) : Nat := 256 + ceilDiv (32 * n) 64 * 64

def State.saveLen (s : State) (i : Nat) : Nat := (s.saveSections i).foldl (fun t e => t + e.2.2) (saveStart (s.saveSections i).length)

/-- Section entries from an offset on. -/
def saveEntries : Nat → List (Nat × Nat × Nat) → List Byte
  | _, [] => []
  | o, (t, x, n) :: r => le 2 t ++ le 2 x ++ le 4 0 ++ le 8 o ++ le 8 n ++ le 8 0 ++ saveEntries (o + n) r

/-- Bytes of a record, its DIGEST over byte 256 and those after it. -/
def State.saveRecord (s : State) (i k : Nat) : List Byte :=
  let es := s.saveSections i
  let bs := s.baysOf i
  let body := pad (saveStart es.length - 256) (saveEntries (saveStart es.length) es) ++ s.instSection i ++ bs.flatMap (s.baySection i) ++
    bs.flatMap (fun b => (s.coresOf b).flatMap s.coreSection) ++ (s.unitsOf i).flatMap s.lockerSection ++ s.keySection i k
  let feature := (bs.flatMap (fun b => (List.range 4).map (fun j => (s.img b j).feature))).foldl max 0
  pad 256 (le 4 0x5453564F ++ le 2 1 ++ le 2 0 ++ le 1 feature ++ le 1 1 ++ le 2 bs.length ++ le 4 es.length ++ le 8 (s.saveLen i) ++ le 8 0 ++
    shake256 body 64) ++ body

/-! ### Checking a record (Table TN-9) -/

/-- A record as it lies in memory. -/
structure SaveSrc where
  s : State
  base : Nat

def SaveSrc.byte (x : SaveSrc) (o : Nat) : Byte := (x.s.peekByte (x.base + o)).1
def SaveSrc.bytes (x : SaveSrc) (o n : Nat) : List Byte := (List.range n).map (fun k => x.byte (o + k))
def SaveSrc.nat (x : SaveSrc) (o n : Nat) : Nat := ofLeBytes (x.bytes o n)
def SaveSrc.total (x : SaveSrc) : Nat := x.nat 16 8

/-- Sections: TYPE, INDEX, OFFSET, LENGTH. -/
def SaveSrc.sections (x : SaveSrc) : List (Nat × Nat × Nat × Nat) :=
  (List.range (x.nat 12 4)).map (fun k => (x.nat (256 + 32 * k) 2, x.nat (258 + 32 * k) 2, x.nat (264 + 32 * k) 8, x.nat (272 + 32 * k) 8))

def SaveSrc.find (x : SaveSrc) (type index : Nat) : Option Nat :=
  (x.sections.find? (fun e => e.1 == type && e.2.1 == index)).map (·.2.2.1)

/-- The unit that saved unit `u` goes to. -/
def State.mappedUnit (s : State) (i u : Nat) : Nat := fieldOf (s.reg Reg.HAT_INST_RMAP [i]) (4 * u + 3) (4 * u)

/-- The generation that stands for the key of a record's KEY section; `none` on a tag mismatch. -/
def SaveSrc.key (x : SaveSrc) (i : Nat) : Option Nat :=
  match x.find 5 0 with
  | some o => Config.unsealKey (x.s.migSecret.get 0 i) (BitVec.ofNat 96 (x.nat o 12)) (BitVec.ofNat 640 (x.nat (o + 16) 80))
  | none => none

def isHost (a : Nat) : Bool := match regionOf a with
  | .host => true
  | _ => false

/-- Some of the first `n` bytes cannot be read: unbacked, poisoned, or in host memory with the link down. -/
def SaveSrc.broken (x : SaveSrc) (n : Nat) : Bool :=
  (List.range n).any (fun k => !x.s.backed (x.base + k) || (x.s.peekByte (x.base + k)).2 || (isHost (x.base + k) && !x.s.hostUp))

/-- The reason that refuses a RESTORE, 0 for none: the lowest that holds, but bytes that cannot be read come before what they would say. -/
def SaveSrc.reason (x : SaveSrc) (i : Nat) : Nat :=
  let s := x.s
  let bs := s.baysOf i
  let us := (x.sections.filter (fun e => e.1 == 4)).map (·.2.1)
  let mapped := us.map (s.mappedUnit i)
  if x.broken 256 then 0x0A
  else if x.nat 0 4 ≠ 0x5453564F ∨ x.nat 4 2 ≠ 1 ∨ x.nat 6 2 ≠ 0 ∨ x.total % 64 ≠ 0 ∨ x.total < 256 then 5
  else if x.broken x.total then 0x0A
  else if x.nat 32 64 = 0 ∨ x.bytes 32 64 ≠ shake256 (x.bytes 256 (x.total - 256)) 64 then 5
  else if s.fld Reg.DEV_FEATURE [] F.DEV_FEATURE_EFFECTIVE < x.nat 8 1 then 6
  else if x.nat 10 2 ≠ bs.length ∨ bs.zipIdx.any (fun e => (x.find 2 e.2).map (fun o => x.nat o 8) != some (s.clustersOf e.1).length) ∨
      bs.any (fun b => (List.range 4).any (fun j => (s.img b j).status != .empty)) then 7
  else if mapped.any (fun u => !(s.unitsOf i).contains u) ∨ mapped.eraseDups.length ≠ mapped.length then 8
  else if (x.key i).isNone then 9 else 0

/-! ### Placing a record -/

def SaveSrc.placeInst (x : SaveSrc) (s : State) (i o : Nat) : State :=
  let w (k : Nat) : DWord := BitVec.ofNat 64 (x.nat (o + 8 * k) 8)
  let s := (((s.setReg Reg.HAT_T2M_IDX [i - 1] (w 0)).setReg Reg.HAT_M2T_IDX [i - 1] (w 1)).setReg Reg.HAT_STAT [i - 1] (w 2)).setReg Reg.HAT_IRQ [i - 1] (w 3)
  let s := (List.range 4096).foldl (fun s k => { s with regs := s.regs.set 0 (hatPage i + 0x4000 + 8 * k) (BitVec.ofNat 64 (x.nat (o + 256 + 8 * k) 8)) }) s
  let msg (k : Nat) : HatMsg := ⟨x.nat (o + 33024 + 64 * k + 4) 2, x.nat (o + 33024 + 64 * k + 16) 48⟩
  { s with hatLost := s.hatLost.set 0 i (x.nat (o + 32) 8), hatQueue := s.hatQueue.set [] i ((List.range (min 16 (x.nat (o + 40) 8))).map msg) }

/-- A slot of a saved Bay: its registers, and what the image at its address says of it (log 41). -/
def SaveSrc.placeSlot (x : SaveSrc) (s : State) (i b j o : Nat) : State :=
  let w (k : Nat) : DWord := BitVec.ofNat 64 (x.nat (o + 8 * k) 8)
  let s := ((((s.setReg Reg.BAY_IMG_ADDR [b, j] (w 1)).setReg Reg.BAY_IMG_LEN [b, j] (w 2)).setReg Reg.BAY_WAKE [b, j] (w 11)).setReg
    Reg.BAY_CLAIM [b, j] (w 12)).setReg Reg.BAY_SPILL [b, j] (BitVec.ofNat 64 (0x010000000000 + s.mappedUnit i (x.nat (o + 104) 8) * lockerUnit + x.nat (o + 112) 8))
  let img : ImgSrc := { s := s, base := (w 1).toNat, len := fieldOf (w 2) F.BAY_IMG_LEN_LEN.hi F.BAY_IMG_LEN_LEN.lo, failAt := none }
  match SlotStatus.ofCode (x.nat o 8) with
  | .empty => s.setImg b j {}
  | st => s.setImg b j { img.slotOf with status := st, meas := BitVec.ofNat 512 (x.nat (o + 24) 64), fresh := st == SlotStatus.loaded }

def SaveSrc.placeBay (x : SaveSrc) (s : State) (i b o : Nat) : State :=
  let s := (((s.setFld Reg.BAY_CFG [b] F.BAY_CFG_ORDERED (x.nat (o + 8) 8)).setReg Reg.BAY_SLICE [b] (BitVec.ofNat 64 (x.nat (o + 16) 8))).setReg
    Reg.BAY_SHARE [b] (BitVec.ofNat 64 (x.nat (o + 24) 8))).setFld Reg.BAY_SLOW [b] F.BAY_SLOW_LIMIT (x.nat (o + 32) 8)
  (List.range 4).foldl (fun s j => x.placeSlot s i b j (o + 40 + 120 * j)) s

def SaveSrc.placeCore (x : SaveSrc) (s : State) (n o : Nat) : State :=
  let s := s.setPantry n 0 (x.bytes o pantrySize) false
  let s := (List.range 4096).foldl (fun s i => s.setTally n i (x.nat (o + pantrySize + 4 * i) 4)) s
  (List.range 40).foldl (fun s r =>
    let h := (x.byte (o + pantrySize + 16384 + r)).toNat
    s.setRange n { (s.range n) with holders := (s.range n).holders.set none r (if h = 0xFF then none else some h) }) s

/-- Context records of a placed slot say which ranges are live and saved, and which cores have halted (Table BY-2). -/
def State.readContexts (s : State) (b j : Nat) : State :=
  if (s.img b j).status = .empty then s else
  (s.coresOf b).foldl (fun s n =>
    let a := s.shareAddr b j n
    let w (o : Nat) : Nat := ofLeBytes ((List.range 8).map (fun k => (s.peekByte (a + o + k)).1))
    let s := s.setRange n { (s.range n) with live := (s.range n).live.set 0 j (BitVec.ofNat 40 (w 344)), saved := (s.range n).saved.set 0 j (BitVec.ofNat 40 (w 352)) }
    if bitsOf (w 0) 33 30 = 6 then s.setImg b j { (s.img b j) with haltedCores := n :: (s.img b j).haltedCores } else s) s

/-- A checked record placed into inst. `i`. -/
def SaveSrc.place (x : SaveSrc) (s : State) (i : Nat) : State :=
  let bs := s.baysOf i
  let s := match x.find 1 0 with
    | some o => x.placeInst s i o
    | none => s
  let s := (x.sections.filter (fun e => e.1 == 4)).foldl (fun s e => s.poke (0x010000000000 + s.mappedUnit i e.2.1 * lockerUnit) (x.bytes e.2.2.1 lockerUnit) false) s
  let s := bs.zipIdx.foldl (fun s e => match x.find 2 e.2 with
    | some o => x.placeBay s i e.1 o
    | none => s) s
  let s := bs.zipIdx.foldl (fun s e => ((s.coresOf e.1).zipIdx).foldl (fun s c => match x.find 3 (512 * e.2 + c.2) with
    | some o => x.placeCore s c.1 o
    | none => s) s) s
  let s := bs.foldl (fun s b => (List.range 4).foldl (fun s j => s.readContexts b j) s) s
  match x.key i with
  | some g => { s with keyGen := s.keyGen.set 0 i g }
  | none => s

end Sys2Proof.Machine
end

