-- ==== Sys2Proof/Machine/Tenants.lean ====
section
/-! DEFINITION. Commands of the instance state machine, freeze, save and restore, and shared ranges (12_tenants_hatches_migration.md R251-R260). -/
namespace Sys2Proof.Machine

/-- A command of HAT_INST_CMDi that is refused: REASON, a contained record and STATE (R251, Table TN-5). -/
def State.instRefused (s : State) (w : Writer) (i reason cause : Nat) : State :=
  ((s.setFld Reg.HAT_INST_STAT [i] F.HAT_INST_STAT_REASON reason).refuse w (Reg.HAT_INST_CMD.addr [i]) cause reason).tellState i reason

/-- A command by the manager, in one of the states that Table TN-6 allows it in. Any write but QUIESCE ends a locked TDI (R321). -/
def State.instCmd (s : State) (w : Writer) (i cmd : Nat) (ok : List Nat) (f : State → State) : State :=
  s.asManager w (Reg.HAT_INST_CMD.addr [i]) (fun s =>
    let s := if cmd = 2 then s else s.tdiBreak i
    if ok.contains (s.inst i) then f (s.wrote Reg.HAT_INST_CMD [i] cmd) else s.instRefused w i 1 (if s.bit Reg.HAT_INST_STAT [i] F.HAT_INST_STAT_BUSY then causeBusy else causeState))

/-- ENABLE: the virtual function is enabled and the life-cycle is not Returned, where no STATE is posted; the Hatch page is cleared, L_i is zero (R251, R376, R380). -/
def State.enableInst (s : State) (w : Writer) (i : Nat) : State :=
  s.instCmd w i 1 [0] (fun s =>
    if s.fld Reg.SEC_STATE [] F.SEC_STATE_LC = 2 then (s.setFld Reg.HAT_INST_STAT [i] F.HAT_INST_STAT_REASON 2).refuse w (Reg.HAT_INST_CMD.addr [i]) causeState 2
    else if ¬ (s.vfOn ∧ s.vfReady) then s.instRefused w i 1 causeState
    else { s.hatReset i false with measLog := s.measLog.set (0, 0) i (0, 0) }.setInst i 1)
def execEnable (w : Writer) (v : VfId) (s : State) : Host.Outcome State Fault Refusal := .next (s.keepPilot (s.enableInst w (v + 1)))

def State.quiesceCmd (s : State) (w : Writer) (i : Nat) : State := s.instCmd w i 2 [1] (fun s => s.quiesce i)
def execQuiesce (w : Writer) (v : VfId) (s : State) : Host.Outcome State Fault Refusal := .next (s.keepPilot (s.quiesceCmd w (v + 1)))

/-- FORCE_US microseconds after the STOPs: every slot that has not stopped is aborted (R253). -/
def State.quiesceForce (s : State) (i : Nat) : State :=
  if s.inst i = 2 ∧ s.fld Reg.HAT_INST_QCFG [i] F.HAT_INST_QCFG_FORCE_US ≠ 0 then s.quiesceSlots i true else s
def execQuiesceForce (v : VfId) (s : State) : Host.Outcome State Fault Refusal := .next (s.keepPilot (s.quiesceForce (v + 1)))

/-- Porter instances of an inst.'s clusters and cores. -/
def State.portersOfInst (s : State) (i : Nat) : List Nat := (s.baysOf i).flatMap (fun b => (s.clustersOf b).map (512 + ·) ++ s.coresOf b)

/-- An agent of a Bay of the inst. -/
def State.agentOf (s : State) (i : Nat) (a : Agent) : Bool := match s.bayOfAgent a with
  | some b => s.instOfBay b == i
  | none => false

/-- A reduction or atomic of the inst. is somewhere on its way. -/
def State.reducing (s : State) (i : Nat) : Bool :=
  let mine (r : CohReq) : Bool := r.kind.reduces && s.agentOf i r.who
  s.homes.any (fun e => e.2.running.any (fun t => mine t.req) || e.2.waiting.any mine) ||
  s.slices.any (fun e => e.2.queue.any mine || e.2.waiting.any mine) ||
  s.net.any (fun m => match m with
    | .fwd r => mine r
    | .mred r => mine r
    | .mack who _ _ _ _ => s.agentOf i who
    | .cmp who _ _ _ _ _ => s.agentOf i who
    | _ => false)

/-- Everything that R253 names has drained. -/
def State.quiet (s : State) (i : Nat) : Bool :=
  (s.baysOf i).all (fun b => (List.range 4).all (fun j => (s.img b j).status != .running && (s.img b j).status != .stopping)) &&
  (s.portersOfInst i).all (fun p => (s.porter p).chans.all (fun e => match e.2.status with
    | .idle => e.2.queue.isEmpty || (s.porter p).status == 2
    | .error => true
    | .stopped => true
    | _ => false)) &&
  (s.rangeOps.get none i).isNone && !s.reducing i &&
  s.chuteOut.all (fun e => !s.agentOf i e.who) && s.chuteLive.all (fun e => !s.agentOf i e.2.2) &&
  s.hostOut.all (fun r => r.fn != i || (r.write.isNone && r.len != 0))

/-- QUIESCED; with a function-level reset running, RESETTING at once (R254). -/
def State.quiesceComplete (s : State) (i : Nat) : State :=
  if s.inst i ≠ 2 ∨ ¬ s.quiet i then s
  else if s.flr.get 0 i ≠ 0 then (s.setInst i 3).setInst i 7 else s.setInst i 3
def execQuiesceComplete (v : VfId) (s : State) : Host.Outcome State Fault Refusal := .next (s.keepPilot (s.quiesceComplete (v + 1)))

def State.resumeInst (s : State) (w : Writer) (i : Nat) : State := s.instCmd w i 3 [3, 4] (fun s => s.setInst i 1)
def execInstanceResume (w : Writer) (v : VfId) (s : State) : Host.Outcome State Fault Refusal := .next (s.keepPilot (s.resumeInst w (v + 1)))

/-- Every line of a cluster's Cupboard is written back and gone (R257). -/
def State.flushCupboard (s : State) (g : Nat) : State := (s.cups.get [] g).foldl (fun s e => s.cupEvict g e.1) s

def State.freezeInst (s : State) (w : Writer) (i : Nat) : State :=
  s.instCmd w i 4 [3] (fun s => (((s.baysOf i).flatMap s.clustersOf).foldl (fun s g => s.flushCupboard g) s).setInst i 4)
def execFreeze (w : Writer) (v : VfId) (s : State) : Host.Outcome State Fault Refusal := .next (s.keepPilot (s.freezeInst w (v + 1)))

/-! ### Save and restore (R257, R258, Table TN-9) -/

def State.saveAddr (s : State) (i : Nat) : Nat := s.fld Reg.HAT_INST_SAVE [i] F.HAT_INST_SAVE_ADDR

/-- Some 4 KiB piece of a range is not backed, or it is no store. -/
def State.storeBacked (s : State) (a n : Nat) : Bool :=
  n == 0 || (List.range ((a + n - 1) / 4096 + 1 - a / 4096)).all (fun k =>
    let x := max a ((a / 4096 + k) * 4096)
    s.backed x && (match regionOf x with
      | .cellar _ => true
      | .locker _ => true
      | .host => true
      | .pantry _ _ => true
      | _ => false))

/-- The reason that refuses a SAVE, 0 for none. -/
def State.saveReason (s : State) (i : Nat) : Nat :=
  let n := s.saveLen i
  if s.saveAddr i % 64 ≠ 0 ∨ ¬ s.storeBacked (s.saveAddr i) n then 3
  else if s.fld Reg.HAT_INST_SLEN [i] F.HAT_INST_SLEN_LIMIT < n then 4 else 0

def State.saveCmd (s : State) (w : Writer) (i : Nat) : State :=
  s.instCmd w i 5 [4] (fun s =>
    match s.saveReason i with
    | 0 => s.setInst i 5
    | r => s.instRefused w i r causeValue)
def execSave (w : Writer) (v : VfId) (s : State) : Host.Outcome State Fault Refusal := .next (s.keepPilot (s.saveCmd w (v + 1)))

/-- USED shows a record's length. -/
def State.setUsed (s : State) (i n : Nat) : State := s.setFld Reg.HAT_INST_SLEN [i] F.HAT_INST_SLEN_USED (Config.usedField n)

/-- A SAVE or RESTORE that ends with a refusal: a contained record of the Hatch, and STATE. -/
def State.moveFailed (s : State) (i reason : Nat) : State :=
  let s := (s.setFld Reg.HAT_INST_STAT [i] F.HAT_INST_STAT_STATE 4).setFld Reg.HAT_INST_STAT [i] F.HAT_INST_STAT_BUSY 0
  ((s.setFld Reg.HAT_INST_STAT [i] F.HAT_INST_STAT_REASON reason).log
    { kind := 0x13, index := i, cls := .contained, address := s.saveAddr i, syndrome := reason, inst := i }).tellState i reason

/-- The record is written, or an error met its reads or writes (`fail`). -/
def State.saveEnd (s : State) (i : Nat) (fail : Bool) : State :=
  if s.inst i ≠ 5 then s
  else if fail then s.moveFailed i 0x0A
  else
    let (k, s) := s.draw
    let bs := s.saveRecord i k
    ((s.poke (s.saveAddr i) bs false).setUsed i bs.length).setInst i 4
def execSaveEnd (v : VfId) (fail : Bool) (s : State) : Host.Outcome State Fault Refusal := .next (s.keepPilot (s.saveEnd (v + 1) fail))

def State.restoreCmd (s : State) (w : Writer) (i : Nat) : State :=
  s.instCmd w i 6 [4] (fun s =>
    if s.saveAddr i % 64 ≠ 0 ∨ ¬ s.storeBacked (s.saveAddr i) 256 then s.instRefused w i 3 causeValue else s.setInst i 6)
def execRestore (w : Writer) (v : VfId) (s : State) : Host.Outcome State Fault Refusal := .next (s.keepPilot (s.restoreCmd w (v + 1)))

/-- A placement that failed: Pantries, Tallies and Locker lines of the inst. undefined, every slot EMPTY (R258). -/
def State.undefinedInst (s : State) (i : Nat) : State :=
  let ns := (s.baysOf i).flatMap s.coresOf
  let s := ns.foldl (fun s n =>
    let k := s.free
    let s := { s with free := k + pantrySize + 4096 }
    (List.range 4096).foldl (fun s t => s.setTally n t (Config.pick (k + pantrySize + t))) (s.setPantry n 0 (freeBytes k pantrySize) false)) s
  let s := (s.unitsOf i).foldl (fun s u =>
    let k := s.free
    { s with free := k + lockerUnit }.poke (0x010000000000 + u * lockerUnit) (freeBytes k lockerUnit) false) s
  (s.baysOf i).foldl (fun s b => (List.range 4).foldl (fun s j => s.unloadSlot b j) s) s

/-- A RESTORE ends. `fail` 1: an error while the record was read; 2: an error after placement began. -/
def State.restoreEnd (s : State) (i fail : Nat) : State :=
  if s.inst i ≠ 6 then s
  else if fail = 1 then s.moveFailed i 0x0A
  else
    let x : SaveSrc := { s := s, base := s.saveAddr i }
    match x.reason i with
    | 0 =>
      if fail = 2 then (s.undefinedInst i).moveFailed i 0x0A
      else ((x.place s i).setUsed i x.total).setInst i 4
    | r => s.moveFailed i r
def execRestoreEnd (v : VfId) (fail : Fin 3) (s : State) : Host.Outcome State Fault Refusal := .next (s.keepPilot (s.restoreEnd (v + 1) fail))

/-! ### Reset and removal (R254-R256) -/

/-- Zero in every Pantry byte and Tally of a core, no poison, AUDIT off. -/
def State.zeroCore (s : State) (n : Nat) : State :=
  let lo := pantryAddr n 0
  let t := Reg.CST_TALLY.addr [n, 0]
  let s := { s with mem := s.mem.filter (fun c => decide (c.1 < lo) || decide (lo + pantrySize ≤ c.1)),
                    poison := s.poison.filter (fun e => decide (e.1 < lo / 8) || decide ((lo + pantrySize) / 8 ≤ e.1)),
                    regs := s.regs.filter (fun e => decide (e.1 < t) || decide (t + 8 * 4096 ≤ e.1)),
                    tallySet := s.tallySet.filter (fun e => e.1 / 4096 != n),
                    heldAdds := s.heldAdds.filter (fun h => h.core != n) }
  (s.clearShelf n).setFld Reg.CST_MM_CFG [n] F.CST_MM_CFG_AUDIT 0

/-- Every line of a Locker unit in the ZERO encoding, no copy in any Cupboard. -/
def State.zeroUnit (s : State) (u : Nat) : State :=
  let lo := (0x010000000000 + u * lockerUnit) / 128
  let out (l : Nat) : Bool := decide (l < lo) || decide (lo + lockerUnit / 128 ≤ l)
  { s with larder := s.larder.filter (fun e => out e.1), cups := (s.cups.map (fun e => (e.1, e.2.filter (fun c => out c.1)))).filter (fun e => !e.2.isEmpty),
           lockerLost := s.lockerLost.filter (fun e => e.1 / 4 != u) }

/-- What RESET clears (R255, R376, R379). -/
def State.clearInst (s : State) (i : Nat) : State :=
  let bs := s.baysOf i
  let s := bs.foldl (fun s b => (List.range 4).foldl (fun s j => s.unloadSlot b j) { s with serving := s.serving.set {} b {} }) s
  let s := (s.portersOfInst i).foldl (fun s p => s.porterClear p) s
  let s := (bs.flatMap s.coresOf).foldl (fun s n => s.zeroCore n) s
  let s := (s.unitsOf i).foldl (fun s u => s.zeroUnit u) s
  let s := (s.tlbDrop i 3 0).hatReset i true
  { s with keyGen := s.keyGen.set 0 i (s.keyGen.get 0 i + 1), measLog := s.measLog.set (0, 0) i (0, 0), migSecret := s.migSecret.set 0 i 0 }

def State.resetInst (s : State) (w : Writer) (i : Nat) : State := s.instCmd w i 7 [3] (fun s => s.setInst i 7)
def execReset (w : Writer) (v : VfId) (s : State) : Host.Outcome State Fault Refusal := .next (s.keepPilot (s.resetInst w (v + 1)))

/-- RESETTING ends: QUIESCED, or ACTIVE after a function-level reset. -/
def State.resetEnd (s : State) (i : Nat) : State :=
  if s.inst i ≠ 7 then s
  else
    let s := s.clearInst i
    let again := s.flr.get 0 i
    let s := { s with flr := s.flr.set 0 i 0 }.setInst i 3
    if again = 1 then s.setInst i 1 else s
def execResetEnd (v : VfId) (s : State) : Host.Outcome State Fault Refusal := .next (s.keepPilot (s.resetEnd (v + 1)))

/-- Nothing of the manager's set-up is left (R256). -/
def State.removable (s : State) (i : Nat) : Bool :=
  (s.baysOf i).isEmpty && s.fld Reg.LRD_PIN_CFG [i] F.LRD_PIN_CFG_WAYS == 0 && !s.bit Reg.LRD_MMU_ROOT [i] F.LRD_MMU_ROOT_EN &&
  !s.bit Reg.LRD_TLB_STAT [] F.LRD_TLB_STAT_BUSY

def State.removeInst (s : State) (w : Writer) (i : Nat) : State :=
  s.instCmd w i 8 [3] (fun s => if s.removable i then (s.clearInst i).setInst i 0 else s.instRefused w i 2 causeState)
def execRemove (w : Writer) (v : VfId) (s : State) : Host.Outcome State Fault Refusal := .next (s.keepPilot (s.removeInst w (v + 1)))

/-- QUIESCE with an immediate ABORT, then RESET; `k` says what asked for it. -/
def State.abortReset (s : State) (i k : Nat) : State :=
  let st := s.inst i
  let s := { s with flr := s.flr.set 0 i k }
  if st = 1 ∨ st = 2 then s.quiesceNow i else if st = 7 then s else s.setInst i 7

/-- A function-level reset of virtual function `i` (R254): QUIESCE with an immediate ABORT, then RESET, then ACTIVE. -/
def State.vfFlr (s : State) (i : Nat) : State :=
  if s.inst i = 0 then s else s.abortReset i 1
def execVfFlr (v : VfId) (s : State) : Host.Outcome State Fault Refusal := .next (s.keepPilot (s.vfFlr (v + 1)))

/-! ### Shared ranges (R259, R260) -/

/-- The refetch fails: the line is poisoned, its sharers are told (R260). -/
def State.refetchFail (s : State) (l : Nat) : State :=
  match s.larderLine l, s.sharedRange l with
  | some x, some k =>
    if ¬ x.refetch then s else
    let s := { s with larder := s.larder.set none l (some { x with refetch := false, poison := true }) }
    let s := s.log { kind := 0x08, index := (s.home l).1, cls := .contained, poisoned := true, address := 128 * l, sub := x.way, aux := (s.home l).2 }
    (s.tellSharers k 4 l).wake l
  | _, _ => s
def execSharedRefetchFail (line : Nat) (s : State) : Host.Outcome State Fault Refusal := .next (s.keepPilot (s.refetchFail line))

/-- An uncorrectable error in a line of an enabled shared range: the line is refetching; a second error ends the refetch (Table TN-10). -/
def State.refetch (s : State) (l : Nat) : State :=
  match s.larderLine l, s.sharedRange l with
  | some x, some _ => if x.refetch then s.refetchFail l else { s with larder := s.larder.set none l (some { x with refetch := true }) }
  | _, _ => s
def execSharedRefetch (line : Nat) (s : State) : Host.Outcome State Fault Refusal := .next (s.keepPilot (s.refetch line))

/-- The backing line's data and poison; `host` is what host memory answers. -/
def State.backing (s : State) (k l : Nat) (host : Line) : Line × Bool :=
  if s.bit Reg.HAT_SHR_BACK [k] F.HAT_SHR_BACK_BACK_SELF then (let (d, _, p) := s.cellarGet l; (d, p))
  else
    let a := 128 * (s.fld Reg.HAT_SHR_BACK [k] F.HAT_SHR_BACK_BACK + l - s.fld Reg.HAT_SHR_BASE [k] F.HAT_SHR_BASE_BASE)
    match regionOf a with
    | .host => (host, false)
    | _ => let (d, p) := s.lineValue (a / 128); (d, p != 0)

/-- The backing line arrives (R259). -/
def State.refetchDone (s : State) (l : Nat) (host : Line) : State :=
  match s.larderLine l, s.sharedRange l with
  | some x, some k =>
    if ¬ x.refetch then s else
    let (d, p) := s.backing k l host
    if p then s.refetchFail l else
    let s := { s with larder := s.larder.set none l (some { x with refetch := false, poison := false, data := d, enc := encodingOf d x.pinned s.compress }) }
    let s := s.log { kind := 0x08, index := (s.home l).1, cls := .corrected, address := 128 * l, sub := x.way, aux := (s.home l).2 }
    ((s.bump Reg.HAT_SHR_CNT [k] F.HAT_SHR_CNT_REFETCH 1).wake l).beginDelete (s.home l).1 (s.home l).2 x.way
  | _, _ => s
def execSharedRefetchDone (line : Nat) (host : Line) (s : State) : Host.Outcome State Fault Refusal := .next (s.keepPilot (s.refetchDone line host))

end Sys2Proof.Machine
end

