-- ==== Sys2Proof/Machine/Start.lean ====
section
/-! DEFINITION. Package resets, what a bring-up leaves, Joist routes, cold starts and warm restarts (R130, R242, R269-R271, R325, R330,
R346, R369-R376). -/
namespace Sys2Proof.Machine

/-! ### Joist links and routes (R263, R269, R270) -/

/-- Ends of the Joist links (Table JT-1). -/
def linkEnds : List (Nat × Nat) := [(0, 1), (2, 3), (0, 2), (1, 3), (4, 0), (4, 1), (5, 2), (5, 3)]

/-- The die at the other end of link `j` from die `d`. -/
def farEnd (j d : Nat) : Option Nat :=
  match linkEnds[j]? with
  | some (a, b) => if a = d then some b else if b = d then some a else none
  | none => none

/-- STATE of JST_DIE_STAT for a die. -/
def State.dieState (s : State) (d : Nat) : Nat := fieldOf (s.reg Reg.JST_DIE_STAT []) (4 * d + 3) (4 * d)
def State.setDieState (s : State) (d v : Nat) : State := s.setReg Reg.JST_DIE_STAT [] (withField (s.reg Reg.JST_DIE_STAT []) (4 * d + 3) (4 * d) v)
def State.setDieCause (s : State) (d v : Nat) : State := s.setReg Reg.JST_DIE_STAT [] (withField (s.reg Reg.JST_DIE_STAT []) (24 + 4 * d + 3) (24 + 4 * d) v)

def State.linkState (s : State) (j : Nat) : Nat := s.fld Reg.JST_LINK_STAT [j] F.JST_LINK_STAT_STATE

/-- A link that is up between two dies that are not fenced. -/
def State.openLink (s : State) (j : Nat) : Bool :=
  s.linkState j == 2 && (match linkEnds[j]? with
    | some (a, b) => s.dieState a != 3 && s.dieState b != 3
    | none => false)

/-- Table JT-6. -/
def defaultLink (d t : Nat) : Option Nat :=
  ([[none, some 0, some 2, some 0, some 4, some 2], [some 0, none, some 0, some 3, some 5, some 3], [some 2, some 1, none, some 1, some 2, some 6],
    [some 1, some 3, some 1, none, some 3, some 7], [some 4, some 5, some 4, some 5, none, some 4], [some 6, some 7, some 6, some 7, some 6, none]].getD d []).getD t none

/-- The default route from `d` to `t` crosses open links only. -/
def State.defaultOpen (s : State) (t : Nat) : Nat → Nat → Bool
  | 0, _ => false
  | k + 1, d =>
    if d = t then true else
    match defaultLink d t with
    | some j => s.openLink j && (match farEnd j d with
      | some e => s.defaultOpen t k e
      | none => false)
    | none => false

/-- Hops from every die to `t` over open links, after `k` rounds. -/
def State.hops (s : State) (t : Nat) : Nat → List Nat
  | 0 => (List.range 6).map (fun d => if d = t then 0 else 99)
  | k + 1 =>
    let h := s.hops t k
    (List.range 6).map (fun d => (List.range 8).foldl (fun m j => match farEnd j d with
      | some e => if s.openLink j then min m (h.getD e 99 + 1) else m
      | none => m) (h.getD d 99))

/-- The outgoing link of die `d` for die `t` (R270): the default, or the first link of the shortest open route, lowest link first. -/
def State.routeLink (s : State) (d t : Nat) : Option Nat :=
  if d = t then none
  else if s.defaultOpen t 6 d then defaultLink d t
  else
    let h := s.hops t 6
    (List.range 8).find? (fun j => match farEnd j d with
      | some e => s.openLink j && h.getD e 99 < 99 && h.getD e 99 + 1 == h.getD d 99
      | none => false)

/-- Routes installed by the Storekeeper firmware (R269, R270). -/
def State.installRoutes (s : State) : State :=
  (List.range 6).foldl (fun s d => s.setReg Reg.JST_ROUTE [d] (BitVec.ofNat 64 ((List.range 6).foldl (fun w t => match s.routeLink d t with
    | some j => w + (8 + j) * 2 ^ (4 * t)
    | none => w) 0))) s

/-- A die reset returns the die's clocks to their reset values but for CLK_SSC (R346). -/
def State.resetClocks (s : State) (u : Nat) : State :=
  let lo := Reg.CLK_SEL.addr [u] - 0x80
  { s with regs := s.regs.filter (fun e => decide (e.1 < lo) || decide (Reg.CLK_SSC.addr [u] ≤ e.1)),
           clocks := { s.clocks with started := s.clocks.started.filter (fun e => e.1 / 8 != u) } }

/-- A power domain's bit (Table PW-1). -/
def State.setDom (s : State) (k : Nat) (on : Bool) : State :=
  let r := if k < 64 then Reg.PWR_DOM0 else Reg.PWR_DOM1
  s.setReg r [] (withField (s.reg r []) (k % 64) (k % 64) (if on then 1 else 0))

def State.setDoms (s : State) (ks : List Nat) (on : Bool) : State := ks.foldl (fun s k => s.setDom k on) s

/-! ### Device-fatal errors (Table BY-4) -/

/-- Every slot that is not EMPTY of a Bay is ABORTED, its streams are gone, and the Bay is lost. -/
def State.loseBay (s : State) (b : Nat) : State :=
  let s := (List.range 4).foldl (fun s j => if (s.img b j).status = .empty then s else s.abortSlot b j) s
  let s := (List.range 4).foldl (fun s j => if (s.img b j).status = .empty then s else s.setImg b j { s.img b j with status := .aborted }) s
  (s.setBay b { s.bay b with lost := true }).bayEventTold b 0x40 0

/-- A device-fatal error: its record, and every Bay lost. The Storekeeper then warm-restarts (WARM_RESTART). -/
def State.deviceFatal (s : State) (r : ErrRec) : State :=
  let s := s.log { r with cls := .fatal }
  ((List.range 64).filter (fun b => s.bit Reg.BAY_CFG [b] F.BAY_CFG_EN)).foldl (fun s b => s.loseBay b) s

/-! ### Package reset (R277, R370) -/

/-- The Pilot resets the whole package: everything but the Pilot, the flash and host memory goes to its reset value, and a start is due. -/
def State.packageReset (s : State) : State :=
  { State.reset with pending := s.pending, free := s.free, replies := s.replies,
                     pilot := { s.pilot with phase := if s.pilot.perst ∨ s.pilot.extest ∨ s.pilot.phase = 0 then 0 else 1, warm := false, stage := 1 },
                     mem := s.mem.filter (fun c => isHost c.1), poison := s.poison.filter (fun e => isHost (8 * e.1)),
                     regs := s.regs.filter (fun e => decide (Reg.SEC_CAUSE.base ≤ e.1) && decide (e.1 < Reg.SEC_CAUSE.base + 0xC0) ||
                       e.1 == Reg.CLK_EVT.base && bitAt e.2 F.CLK_EVT_REF_BAD.lo) }

/-- The 512 bits of a cause record (Table SE-2). -/
def causeRecord (num kind stage code detail pclk : Nat) : BitVec 512 :=
  BitVec.ofNat 512 (num % 2 ^ 32 + (kind % 256) * 2 ^ 32 + (stage % 256) * 2 ^ 40 + (code % 65536) * 2 ^ 48 + (detail % 2 ^ 64) * 2 ^ 64 + (pclk % 2 ^ 64) * 2 ^ 128)

/-- A cause record enters the ring in flash; the three latest appear in SEC_CAUSEj (R371). -/
def State.pushCause (s : State) (r : BitVec 512) : State :=
  let s := s.setPilot (fun p => { p with causes := (r :: p.causes).take 16 })
  let old (j w : Nat) := s.reg Reg.SEC_CAUSE [j, w]
  s.keepPilot ((List.range 8).foldl (fun s w => ((s.setReg Reg.SEC_CAUSE [2, w] (old 1 w)).setReg Reg.SEC_CAUSE [1, w] (old 0 w)).setReg Reg.SEC_CAUSE [0, w]
    (BitVec.ofNat 64 (r.toNat >>> (64 * w)))) s)

/-- A start that has not succeeded fails: its cause record, and a package reset (R370, R371). -/
def State.startFails (s : State) (code detail pclk : Nat) : State :=
  (s.pushCause (causeRecord s.pilot.n (if s.pilot.warm then 1 else 0) s.pilot.stage code detail pclk)).packageReset.setPilot (fun p => { p with uncounted := false })

/-- A package reset by the Pilot at run time or during a start (R277, R339, R356): a start in progress has failed with code 0x05. -/
def State.pilotReset (s : State) (detail : Nat) : State :=
  if s.pilot.phase = 1 ∨ s.pilot.phase = 2 then s.startFails 5 detail 0 else s.packageReset

/-! ### Counting starts (R371) -/

/-- A start is counted; whether it enters Boxroom mode. -/
def State.countStart (s : State) (goodReads : Bool) : State × Bool :=
  let p := s.pilot
  if p.uncounted then (s.setPilot (fun p => { p with n := p.rpmc0 }), false)
  else
    let n := p.rpmc0 + 1
    let box := decide (3 ≤ max p.fails (n - 1 - (if goodReads then p.good else 0)))
    (s.setPilot (fun p => { p with rpmc0 := n, n := n, fails := if box then p.fails else p.fails + 1 }), box)

/-- SEC_STATE and SEC_START as the Pilot's counters stand. -/
def State.showPilot (s : State) : State :=
  let p := s.pilot
  let t := (s.setFld Reg.SEC_STATE [] F.SEC_STATE_SVN_MIN p.svnMin).setFld Reg.SEC_STATE [] F.SEC_STATE_FAILS p.fails
  let t := (t.setFld Reg.SEC_STATE [] F.SEC_STATE_LC p.lifeCycle).setFld Reg.SEC_STATE [] F.SEC_STATE_OWNER_SET (if p.owner.isSome then 1 else 0)
  let t := (t.setFld Reg.SEC_START [] F.SEC_START_GOOD p.good).setFld Reg.SEC_START [] F.SEC_START_NUM p.n
  s.keepPilot (if p.lifeCycle = 0 then t else (List.range 2).foldl (fun s w => s.setReg Reg.SEC_DEVID [w] (Config.deviceValue (4 + p.lifeCycle) w)) t)

/-! ### What a bring-up leaves (Table SE-1) -/

/-- Data rates by NEXT_RATE (Table CL-3). -/
def cellarRates : List Nat := [8533, 7500, 6400, 5500, 4267]

/-- The Cellar with the given packages in the interleave (R325); `folded` is the package folded out. A channel that has failed stays failed. -/
def State.setCellar (s : State) (gib : Nat) (pkgs : Nat) (folded : Option Nat) : State :=
  let n := popCount 8 pkgs
  let s := (s.setFld Reg.CEL_CAP [] F.CEL_CAP_PKG_GIB gib).setFld Reg.CEL_CAP [] F.CEL_CAP_CAP_MIB (n * gib * 1024 * 15 / 16)
  let s := s.setFld Reg.CEL_CAP [] F.CEL_CAP_RATE (cellarRates.getD (s.fld Reg.CEL_CFG [] F.CEL_CFG_NEXT_RATE) 0)
  let s := (s.setFld Reg.CEL_CAP [] F.CEL_CAP_FOLDED (if folded.isSome then 1 else 0)).setFld Reg.CEL_CAP [] F.CEL_CAP_FOLD_PKG (folded.getD 0)
  let s := (List.range 32).foldl (fun s c =>
    if pkgs.testBit (c / 4) then (if s.fld Reg.CEL_CH_STAT [c] F.CEL_CH_STAT_STATE = 4 then s else s.setFld Reg.CEL_CH_STAT [c] F.CEL_CH_STAT_STATE 2)
    else s.setFld Reg.CEL_CH_STAT [c] F.CEL_CH_STAT_STATE (if folded = some (c / 4) then 5 else 0)) s
  s.setFld Reg.DEV_INV_DIE [] F.DEV_INV_DIE_CELLAR_PKG pkgs

/-- No Cellar: absent, or failed with a contained record (R325, R336). -/
def State.noCellar (s : State) (fitted : Nat) : State :=
  let s := (s.setCellar 0 0 none).setFld Reg.CEL_STAT [] F.CEL_STAT_STATE (if fitted = 0 then 0 else 4)
  if fitted = 0 then s else s.log { kind := 0x0E, index := 0, cls := .contained }

/-- The interleave goes from 32 to 28 channels (R333 steps 2 and 3): lines of failed packages are moved as poison, lines at or above the new
capacity are dropped. -/
def State.foldCellar (s : State) (p gib pkgs : Nat) : State :=
  let s := { s with cellarCtl := { s.cellarCtl with fold := none, lost := (List.range 8).filter (fun q => s.packageFailed q) } }
  let s := s.setCellar gib (pkgs - (if pkgs.testBit p then 2 ^ p else 0)) (some p)
  let cap := s.cellarSize
  let out (l : Nat) : Bool := match regionOf (128 * l) with
    | .cellar o => decide (cap ≤ o)
    | _ => false
  { s with larder := s.larder.filter (fun e => !out e.1), cups := (s.cups.map (fun e => (e.1, e.2.filter (fun c => !out c.1)))).filter (fun e => !e.2.isEmpty),
           mem := s.mem.filter (fun c => !out (c.1 / 128)), cellar := s.cellar.filter (fun e => !out e.1) }

/-- The Cellar after training (R325, R330, R333): a warm restart keeps contents and fold, starts a fold that ran again, and leaves a Cellar that has lost
a package after a fold without backing (R332). -/
def State.bringCellar (s : State) (x : Bringup) (warm : Bool) : State :=
  let fitted := if x.straps.getLsbD 4 then 0 else x.fitted.toNat
  let again := if warm then s.cellarCtl.fold else none
  let good := (x.packages.toNat &&& fitted) &&& (match again with
    | some p => 0xFF - 2 ^ p
    | none => 0xFF)
  let was := if warm ∧ s.bit Reg.CEL_CAP [] F.CEL_CAP_FOLDED then some (s.fld Reg.CEL_CAP [] F.CEL_CAP_FOLD_PKG) else none
  let bad := (List.range 8).filter (fun p => !good.testBit p)
  if warm ∧ s.cellarCtl.dead then s.noCellar fitted else
  match was, bad with
  | none, [] => (s.setCellar x.packageGib good none).setFld Reg.CEL_STAT [] F.CEL_STAT_STATE 2
  | none, [p] => (s.foldCellar p x.packageGib good).setFld Reg.CEL_STAT [] F.CEL_STAT_STATE 2
  | some q, bs =>
    if bs.all (fun p => p == q) then (s.setCellar x.packageGib (0xFF - 2 ^ q) (some q)).setFld Reg.CEL_STAT [] F.CEL_STAT_STATE 2 else s.noCellar fitted
  | _, _ => s.noCellar fitted

/-- A compute die's Joist level, taken as its feature level (R271, R273). -/
def State.joistLevel (s : State) (d : Nat) : Nat := fieldOf (s.reg Reg.DEV_FEATURE []) (8 * d + 7) (8 * d)

/-- A link trains between two usable dies (R271). -/
def State.trainLink (s : State) (j mods repaired : Nat) : State :=
  let width := popCount 24 mods
  let level := match linkEnds[j]? with
    | some (a, b) => min (s.joistLevel a) (s.joistLevel b)
    | none => 0
  s.setReg Reg.JST_LINK_STAT [j] (BitVec.ofNat 64 (mods % 2 ^ 24 + (repaired % 256) * 2 ^ 32 + (if width = 0 then 0 else 2) * 2 ^ 44 + width * 2 ^ 48 + level * 2 ^ 56))

/-- The PDs of a compute die's fabric and Undercroft. -/
def dieDoms (d : Nat) : List Nat := [8 + 18 * d, 9 + 18 * d]

/-- A compute die as self test found it: its inventory bits, state and domains (R9, R278). -/
def State.bringDie (s : State) (x : Bringup) (d : Nat) : State :=
  let up := x.dies.getLsbD d && x.undercrofts.getLsbD d
  let f16 (v : Nat) : Nat := if up then bitsOf v (16 * d + 15) (16 * d) else 0
  let s := s.setReg Reg.DEV_INV_DIE [] (withField (withField (s.reg Reg.DEV_INV_DIE []) d d (if up then 1 else 0)) (4 + d) (4 + d)
    (if x.undercrofts.getLsbD d then 1 else 0))
  let s := s.setReg Reg.DEV_INV_CLUSTER [] (withField (s.reg Reg.DEV_INV_CLUSTER []) (16 * d + 15) (16 * d) (f16 x.clusters.toNat))
  let s := (List.range 8).foldl (fun s k => s.setReg Reg.DEV_INV_ENGINE [8 * d + k] (if up then x.engines.getD (8 * d + k) 0 else 0)) s
  let s := (s.setDieState d (if up then 2 else 0)).setDoms (dieDoms d) up
  let s := (List.range 16).foldl (fun s k => s.setDom (10 + 18 * d + k) ((f16 x.clusters.toNat).testBit k)) s
  if up then
    (((s.setFld Reg.PWR_DIE_STAT [d] F.PWR_DIE_STAT_OP 0).setFld Reg.PWR_DIE_STAT [d] F.PWR_DIE_STAT_VDD_MV (s.fld Reg.PWR_OPTAB [0] F.PWR_OPTAB_VDD_MV))).setFld
      Reg.PWR_DIE_STAT [d] F.PWR_DIE_STAT_ACLK_MHZ (s.fld Reg.PWR_OPTAB [0] F.PWR_OPTAB_ACLK_MHZ)
  else s

/-- Deletions of the flash list, applied after self test (R393). -/
def State.applyDeletions (s : State) : State :=
  s.keepPilot (s.pilot.deletions.foldl (fun s (u, st, way) =>
    if u < 64 then
      let k := 49152 * u + st
      { s with larderCtl := { s.larderCtl with deletedWays := s.larderCtl.deletedWays.set 0 k (s.larderCtl.deletedWays.get 0 k ||| BitVec.ofNat 16 (2 ^ way)) } }.bump
        Reg.ERR_DEL [] F.ERR_DEL_LRD_WAYS 1
    else
      let k := 2048 * (u - 64) + st
      { s with larderCtl := { s.larderCtl with cupDeleted := s.larderCtl.cupDeleted.set 0 k (s.larderCtl.cupDeleted.get 0 k ||| BitVec.ofNat 16 (2 ^ way)) } }.bump
        Reg.ERR_DEL [] F.ERR_DEL_CUP_WAYS 1)
    (s.setFld Reg.ERR_DEL [] F.ERR_DEL_FLASH_USED s.pilot.deletions.length))

/-- What row W of Table SE-1 leaves outside the Pilot: straps, inventory, links and routes, interleave mode, Cellar, ports. -/
def State.bringUnits (s : State) (x : Bringup) (warm : Bool) : State :=
  let s := s.setReg Reg.DEV_STRAP [] (x.straps.setWidth 64)
  let s := s.when (fieldOf x.straps 7 6 != 0) (fun s => s.log { kind := 0x16, index := 0, cls := .contained, address := Reg.DEV_STRAP.base })
  let s := s.setDoms [0, 1, 2, 3] true
  let s := (s.setFld Reg.DEV_INV_DIE [] F.DEV_INV_DIE_ION 1).setFld Reg.DEV_INV_DIE [] F.DEV_INV_DIE_IOS 1
  let s := ((List.range 4).foldl (fun s d => s.bringDie x d) s).setDieState 4 2
  let s := s.setDieState 5 2
  let s := (List.range 8).foldl (fun s j => match linkEnds[j]? with
    | some (a, b) => if s.dieState a = 2 ∧ s.dieState b = 2 then s.trainLink j (x.modules.getD j 0).toNat (x.repaired.getD j 0) else s.trainLink j 0 0
    | none => s) s
  let s := s.installRoutes
  let s := (s.setFld Reg.LRD_COH_STAT [] F.LRD_COH_STAT_ORDER 0).setFld Reg.LRD_COH_STAT [] F.LRD_COH_STAT_REASON 0
  let s := s.setFld Reg.LRD_ILV_CFG [] F.LRD_ILV_CFG_MODE (s.fld Reg.LRD_ILV_CFG [] F.LRD_ILV_CFG_NEXT)
  let s := s.bringCellar x warm
  let s := s.setDoms [6, 7] (s.fld Reg.CEL_STAT [] F.CEL_STAT_STATE == 2)
  let on (p : Nat) : Bool := s.bit Reg.CHU_PORT_CFG [p] F.CHU_PORT_CFG_EN
  let s := (List.range 8).foldl (fun s p => s.setFld Reg.CHU_PORT_STAT [p] F.CHU_PORT_STAT_STATE (if on p then 1 else 4)) s
  (s.setDom 4 ((List.range 4).any on)).setDom 5 ((List.range 4).any (fun p => on (4 + p)))

/-- Row W of Table SE-1 on. -/
def State.bringUp (s : State) (x : Bringup) (warm : Bool) : State :=
  ((s.keepPilot (s.bringUnits x warm)).setPilot (fun p => { p with phase := 2, enables := 0x1F, pg := 0x1F, thermTrip := false, wakePin := false })).showPilot

/-! ### Cold starts (R369-R372, R375) -/

/-- SVN and M0 of a slot whose image is valid and no older than SVN_MIN. -/
def State.slotImage (s : State) (x : Bringup) (k : Nat) : Option (Nat × BitVec 512) :=
  match (if k = 0 then s.pilot.slotA else s.pilot.slotB) with
  | some (v, m) => if x.images.getLsbD k ∧ s.pilot.svnMin ≤ v then some (v, m.getD (Config.flashImage k)) else none
  | none => none

/-- The image that the ROM runs: of the active slot, else of the other (R375). -/
def State.chooseImage (s : State) (x : Bringup) : Option (Nat × Nat × BitVec 512) :=
  let a := s.pilot.active
  match s.slotImage x a with
  | some (v, m) => some (a, v, m)
  | none => (s.slotImage x (1 - a)).map (fun (v, m) => (1 - a, v, m))

/-- M0 or M1 put into SEC_MEAS. -/
def State.setMeas (s : State) (k : Nat) (m : BitVec 512) : State :=
  (List.range 8).foldl (fun s w => s.setReg Reg.SEC_MEAS [k, w] (BitVec.ofNat 64 (m.toNat >>> (64 * w)))) s

/-- Boxroom mode (R372). -/
def State.boxroom (s : State) : State :=
  let s := s.keepPilot ((s.setDoms [0, 1, 2, 3, 8, 44] true).setFld Reg.SEC_STATE [] F.SEC_STATE_BOXROOM 1)
  (s.setPilot (fun p => { p with phase := 3, enables := 0x13, pg := 0x13, thermTrip := false })).showPilot

/-- A cold start whose flash, PUF, image and dies are as `x` gives. -/
def State.coldStart (s : State) (x : Bringup) : State :=
  if s.pilot.phase ≠ 1 ∨ s.pilot.enabling.isSome then s else
  match s.packageReset.countStart x.goodReads with
  | (s, true) => s.boxroom
  | (s, false) =>
    if ¬ x.flashOk then (s.setPilot (fun p => { p with stage := 3 })).startFails 4 0 x.pclk
    else if ¬ x.pufOk then (s.setPilot (fun p => { p with stage := 5 })).startFails 3 0 x.pclk
    else
      match s.chooseImage x with
      | none => (s.setPilot (fun p => { p with stage := 7, lastTried := 1 - p.active })).startFails 2 0 x.pclk
      | some (k, v, m) =>
        let s := s.setPilot (fun p => { p with stage := 9, lastTried := k })
        let s := s.keepPilot (((s.setMeas 0 m).setFld Reg.SEC_STATE [] F.SEC_STATE_SVN v).setFld Reg.SEC_STATE [] F.SEC_STATE_SLOT k)
        if x.fatal ≠ 0 then s.startFails 6 x.fatal x.pclk
        else if (x.dies &&& x.undercrofts) = 0 then (s.setPilot (fun p => { p with stage := 11 })).startFails 7 0 x.pclk
        else (s.bringUp x false).applyDeletions
def execColdStart (x : Bringup) (s : State) : Host.Outcome State Fault Refusal := .next (s.coldStart x)

/-- M1 over the straps, DEV_ID, DEV_FEATURE, every DEV_INV_ register and MODE (R376): each register as its eight bytes. -/
def State.m1 (s : State) : BitVec 512 :=
  let rs := [s.reg Reg.DEV_STRAP [], s.reg Reg.DEV_ID [], s.reg Reg.DEV_FEATURE [], s.reg Reg.DEV_INV_DIE [], s.reg Reg.DEV_INV_CLUSTER []] ++
    (List.range 32).map (fun i => s.reg Reg.DEV_INV_ENGINE [i]) ++ [BitVec.ofNat 64 (s.fld Reg.LRD_ILV_CFG [] F.LRD_ILV_CFG_MODE)]
  BitVec.ofNat 512 (ofLeBytes (shake256 (rs.flatMap (fun r => leBytes 8 r.toNat)) 64))

/-- The start succeeds (R370, R371, R376, R382). -/
def State.startSucceeds (s : State) : State :=
  let s := s.keepPilot (s.setMeas 1 s.m1)
  (s.setPilot (fun p => { p with phase := 3, fails := 0, good := if p.uncounted then p.good else p.n, uncounted := false, stage := 14 })).showPilot

/-- The Pilot ends a start that has not succeeded in 80,000,000 PCLK cycles (R370). -/
def State.watchdog (s : State) (stage detail : Nat) : State :=
  if s.pilot.phase = 1 ∨ s.pilot.phase = 2 then (s.setPilot (fun p => { p with stage := stage })).startFails 1 detail 80000000 else s
def execStartWatchdog (stage detail : Nat) (s : State) : Host.Outcome State Fault Refusal := .next (s.watchdog stage detail)

/-! ### Warm restarts (R369, R371, R242, R306, R346, R368, R388) -/

def allOnes : Nat := 2 ^ 64 - 1

/-- Bits of a register that a warm restart keeps. -/
def warmKeep (r : RegSpec) (is : List Nat) : Nat :=
  let b := r.base
  if 0x2000000 ≤ b ∧ b < 0x3000000 then allOnes
  else if [Reg.BAY_CLUSTERS.base, Reg.BAY_CFG.base, Reg.BAY_SLICE.base, Reg.BAY_SHARE.base, Reg.BAY_WAKE.base, Reg.BAY_CLAIM.base, Reg.BAY_SPILL.base,
    Reg.BAY_ENG.base, Reg.BAY_LRD.base, Reg.BAY_XFR.base, Reg.BAY_CHU.base, Reg.BAY_INTF.base, Reg.BAY_INST_ENG.base, Reg.BAY_INST_LRD.base,
    Reg.BAY_INST_XFR.base, Reg.BAY_INST_CHU.base, Reg.LRD_QMAP.base, Reg.LRD_PIN_CFG.base, Reg.LRD_LOCKER_MAP.base, Reg.LRD_MMU_ROOT.base,
    Reg.LRD_RNG_ADDR.base, Reg.LRD_RNG_LEN.base, Reg.LRD_RED_CFG.base, Reg.CHU_SPAN.base, Reg.CHU_CFG.base, Reg.CHU_XADDR.base, Reg.CHU_EVT.base,
    Reg.CHU_PORT_CFG.base, Reg.CHU_EPOCH.base, Reg.CHU_INWIN_BASE.base, Reg.CHU_INWIN_LIM.base, Reg.HST_LINK_STAT.base, Reg.HST_ERR.base,
    Reg.CEL_CFG.base, Reg.CEL_CAP.base, Reg.CLK_SSC.base, Reg.ERR_PROD.base, Reg.ERR_CONS.base, Reg.ERR_CTL.base, Reg.ERR_THR.base,
    Reg.ERR_FATAL.base, Reg.ERR_REC.base, Reg.ERR_DEL.base, Reg.SEC_CAUSE.base, Reg.SEC_DEVID.base, Reg.SEC_MEAS.base, Reg.HAT_INST_STAT.base].contains b then allOnes
  else if b = Reg.SEC_STATE.base then allOnes - 0x30
  else if b = Reg.BAY_SLOW.base then 2 ^ (F.BAY_SLOW_LIMIT.hi + 1) - 2 ^ F.BAY_SLOW_LIMIT.lo
  else if b = Reg.LRD_ILV_CFG.base then r.rwMask
  else if b = Reg.LRD_MH_STAT.base then 2 ^ (F.LRD_MH_STAT_UNITS.hi + 1) - 2 ^ F.LRD_MH_STAT_UNITS.lo
  else if b = Reg.CLK_PLL.base then (if is = [5, 3] then allOnes else 0)
  else if b = Reg.CLK_STAT.base then (if is = [5] then 8 else 0)
  else if b = Reg.CLK_SEL.base then (if is = [5] then 0xC0 else 0)
  else if 0x200000 ≤ b ∧ b < 0x300000 then r.rwMask
  else 0

/-- Every dirty Larder line is written back at a warm restart (R387). -/
def State.settleDirty (s : State) : State :=
  s.larder.foldl (fun s e => match e.2 with
    | some x => if x.st = 2 ∧ ¬ x.dead ∧ ¬ isLocker e.1 then s.cellarPut e.1 x.data false x.poison else s
    | none => s) s

/-- An inst. that is not ABSENT returns ACTIVE, its Hatch reset where a SAVE or RESTORE ran, and RESTARTED is posted (Table TN-10). -/
def State.restartInst (s : State) (i : Nat) : State :=
  let st := s.inst i
  if st = 0 then s else
  let s := if st = 5 ∨ st = 6 then s.hatReset i true else s
  let s := ((s.setReg Reg.HAT_INST_STAT [i] 0).setFld Reg.HAT_INST_STAT [i] F.HAT_INST_STAT_STATE 1)
  s.hatPush i ⟨7, s.pilot.restarts⟩

/-- What a warm restart keeps; every volatile unit goes to its reset value. -/
def State.warmReset (s : State) : State :=
  let s := s.keepPilot s.settleDirty
  let keepMem (a : Nat) : Bool := match regionOf a with
    | .cellar _ => true
    | .host => true
    | _ => false
  let t : State := { State.reset with
                       pending := s.pending, free := s.free, replies := s.replies, pilot := { s.pilot with restarts := s.pilot.restarts + 1 },
                       regs := keepRegs warmKeep s.regs, mem := s.mem.filter (fun c => keepMem c.1), poison := s.poison.filter (fun e => isHost (8 * e.1)),
                       msixOpen := s.msixOpen, msixPend := s.msixPend, msixSent := s.msixSent, msixTable := s.msixTable,
                       bays := (s.bays.filter (fun e => e.2.on)).map (fun e => (e.1, { on := true, lost := e.2.lost })),
                       cellar := s.cellar, keyOwner := s.keyOwner, keyGen := s.keyGen, cellarCtl := { lost := s.cellarCtl.lost, fold := s.cellarCtl.fold, dead := s.cellarCtl.dead },
                       larderCtl := { deletedWays := s.larderCtl.deletedWays, cupDeleted := s.larderCtl.cupDeleted },
                       hatOut := s.hatOut, hatQueue := s.hatQueue, hatLost := s.hatLost, atsOn := s.atsOn, atc := s.atc, vfOn := s.vfOn, vfReady := s.vfReady,
                       measLog := s.measLog, migSecret := s.migSecret, transit := s.transit, bar2 := s.bar2, apsel := s.apsel,
                       clocks := { started := s.clocks.started.filter (fun e => e.1 == 43), spread := s.clocks.spread }, power := { mode := 0 } }
  t.keepPilot ((List.range 32).foldl (fun s k => s.restartInst (k + 1)) t)

/-- A warm restart begins at row W; it is counted, and fails as a cold start does (R369-R371). -/
def State.warmRestart (s : State) (x : Bringup) : State :=
  if s.pilot.phase < 2 then s else
  match s.countStart x.goodReads with
  | (s, true) => s.packageReset.boxroom
  | (s, false) =>
    let s := s.setPilot (fun p => { p with warm := true, stage := 9 })
    if x.fatal ≠ 0 then s.startFails 6 x.fatal x.pclk
    else if (x.dies &&& x.undercrofts) = 0 then (s.setPilot (fun p => { p with stage := 11 })).startFails 7 0 x.pclk
    else s.warmReset.bringUp x true
def execWarmRestart (x : Bringup) (s : State) : Host.Outcome State Fault Refusal := .next (s.warmRestart x)

end Sys2Proof.Machine
end

