-- ==== Sys2Proof/Machine/Cellar.lean ====
section
/-! DEFINITION. The Cellar's channels: reads and writes, retraining, the fold, the key map (16_cellar_interface.md R324-R338). -/
namespace Sys2Proof.Machine

def State.hasCellar (s : State) : Bool := s.fld Reg.CEL_CAP [] F.CEL_CAP_CAP_MIB != 0

def State.chanState (s : State) (c : Nat) : Nat := s.fld Reg.CEL_CH_STAT [c] F.CEL_CH_STAT_STATE
def State.setChanState (s : State) (c v : Nat) : State := s.setFld Reg.CEL_CH_STAT [c] F.CEL_CH_STAT_STATE v

/-- A retraining of a channel takes the next turn. -/
def State.askRetrain (s : State) (c : Nat) : State :=
  if s.cellarCtl.asked.contains c then s else { s with cellarCtl := { s.cellarCtl with asked := s.cellarCtl.asked ++ [c] } }

/-- A line of the Cellar-backed region that the Cellar holds. -/
def State.isCellarLine (s : State) (l : Nat) : Bool := (match regionOf (128 * l) with | .cellar _ => true | _ => false) && s.backed (128 * l)

/-! ### Reads and writes (R327-R329) -/

/-- A read of a line that its home lacks: `bad` tries failed, the one that passed needed correction or not; after four the line comes with POISON. -/
def State.cellarRead (s : State) (l : Nat) (bad : Fin 5) (fixed : Bool) : State :=
  if ¬ s.isCellarLine l ∨ (s.larderLine l).isSome then s else
  match s.fill l none with
  | none => s
  | some s =>
    let c := s.channelOf l
    if s.packageFailed (c / 4) then s else
    let s := (s.when (bad != 0) (fun s => s.setFld Reg.CEL_EVT [] F.CEL_EVT_RETRY 1)).bump Reg.CEL_CH_CNT [c] F.CEL_CH_CNT_RETRY (min 3 bad.val)
    let s := s.when (decide (3 ≤ bad.val)) (fun s => s.askRetrain c)
    if bad = 4 then
      let s := (s.bump Reg.CEL_CH_CNT [c] F.CEL_CH_CNT_UNCORR 1).setFld Reg.CEL_EVT [] F.CEL_EVT_UNCORR 1
      let s := s.log { kind := 0x0E, index := c, cls := .contained, poisoned := true, address := 128 * l }
      (match s.larderLine l with
        | some x => { s with larder := s.larder.set none l (some { x with poison := true }) }
        | none => s)
    else if fixed then (s.bump Reg.CEL_CH_CNT [c] F.CEL_CH_CNT_CORR 1).log { kind := 0x0E, index := c, cls := .corrected, address := 128 * l }
    else s
def execCellarRead (line : Nat) (bad : Fin 5) (fixed : Bool) (s : State) : Host.Outcome State Fault Refusal := .next (s.keepPilot (s.cellarRead line bad fixed))

/-- A home writes back a dirty line, or the discard marker of a line of a CHK page (R139). -/
def State.cellarWrite (s : State) (l : Nat) : State :=
  if ¬ s.isCellarLine l ∨ s.cellarWaits l ∨ s.lineBusy l then s else
  match s.larderLine l with
  | none => s
  | some x =>
    if x.dead then (if x.chk then s.cellarPut l 0 true false else s)
    else if x.st = 2 then { s.cellarPut l x.data false x.poison with larder := s.larder.set none l (some { x with st := 1 }) }
    else s
def execCellarWrite (line : Nat) (s : State) : Host.Outcome State Fault Refusal := .next (s.keepPilot (s.cellarWrite line))

/-- A refresh of a channel reads its MR4 code. -/
def State.cellarRefresh (s : State) (c : Nat) (temp : Byte) : State :=
  if s.chanState c = 2 ∨ s.chanState c = 3 then s.setFld Reg.CEL_CH_STAT [c] F.CEL_CH_STAT_TEMP temp.toNat else s
def execCellarRefresh (c : ChanId) (temp : Byte) (s : State) : Host.Outcome State Fault Refusal := .next (s.keepPilot (s.cellarRefresh c temp))

/-! ### Retraining (R331, R332) -/

/-- The channel whose turn it is: a requested one, else the next that is up from the last turn on. -/
def State.turnChannel (s : State) : Option Nat :=
  match s.cellarCtl.asked.find? (fun c => s.chanState c == 2) with
  | some c => some c
  | none => ((List.range 32).map (fun k => (s.cellarCtl.turn + k) % 32)).find? (fun c => s.chanState c == 2)

/-- The window of the channel in turn opens; one at a time. -/
def State.retrainTurn (s : State) : State :=
  if ¬ s.hasCellar ∨ s.bit Reg.CEL_STAT [] F.CEL_STAT_RETRAINING ∨ s.cellarCtl.fold.isSome then s else
  match s.turnChannel with
  | none => s
  | some c =>
    let k := s.cellarCtl
    let s := { s with cellarCtl := if k.asked.contains c then { k with asked := k.asked.erase c } else { k with turn := (c + 1) % 32 } }
    ((s.setFld Reg.CEL_STAT [] F.CEL_STAT_RETRAINING 1).setFld Reg.CEL_STAT [] F.CEL_STAT_RETRAIN_CH c).setChanState c 3
def execCellarRetrainTurn (s : State) : Host.Outcome State Fault Refusal := .next (s.keepPilot s.retrainTurn)

/-- A channel fails, and its package with it; after a fold the Cellar fails. -/
def State.channelFails (s : State) (c : Nat) : State :=
  let was := s.packageFailed (c / 4)
  let s := s.setChanState c 4
  if was then s else
  let s := (s.setFld Reg.CEL_EVT [] F.CEL_EVT_PKG_FAIL 1).log { kind := 0x0E, index := c, cls := .contained }
  if s.bit Reg.CEL_CAP [] F.CEL_CAP_FOLDED then
    { s.setFld Reg.CEL_STAT [] F.CEL_STAT_STATE 4 with cellarCtl := { s.cellarCtl with dead := true } }
  else s

/-- The window ends; the third training in a row that fails fails the channel. -/
def State.windowEnd (s : State) (ok : Bool) : State :=
  if ¬ s.bit Reg.CEL_STAT [] F.CEL_STAT_RETRAINING then s else
  let c := s.fld Reg.CEL_STAT [] F.CEL_STAT_RETRAIN_CH
  let n := if ok then 0 else s.cellarCtl.fails.get 0 c + 1
  let s := { s with cellarCtl := { s.cellarCtl with fails := s.cellarCtl.fails.set 0 c n } }
  let s := (s.setFld Reg.CEL_STAT [] F.CEL_STAT_RETRAINING 0).setChanState c 2
  if 3 ≤ n then s.channelFails c else s
def execRetrainWindowEnd (ok : Bool) (s : State) : Host.Outcome State Fault Refusal := .next (s.keepPilot (s.windowEnd ok))

/-! ### Commands (R331, R333, R335, R336) -/

/-- A refused Cellar command: its code in REFUSE, and a record. -/
def State.cellarRefuse (s : State) (w : Writer) (off cause code : Nat) : State := (s.setFld Reg.CEL_STAT [] F.CEL_STAT_REFUSE code).refuse w off cause code

/-- A write of CEL_CMD or CEL_KEY_CMD by the manager, with a Cellar and no command running. -/
def State.cellarCmd (s : State) (w : Writer) (off : Nat) (f : State → State) : State :=
  s.asManager w off (fun s =>
    if ¬ s.hasCellar then s.cellarRefuse w off causeState 4
    else if s.bit Reg.CEL_STAT [] F.CEL_STAT_BUSY then s.cellarRefuse w off causeBusy 5
    else f s)

def State.cellarRetrain (s : State) (w : Writer) (c : Nat) : State :=
  s.cellarCmd w Reg.CEL_CMD.base (fun s => (s.wrote Reg.CEL_CMD [] (2 + 2048 * c)).askRetrain c)
def execCellarRetrainCmd (w : Writer) (c : ChanId) (s : State) : Host.Outcome State Fault Refusal := .next (s.keepPilot (s.cellarRetrain w c))

/-- Every dirty Cellar-backed line of the Cupboards and the Larder goes to the Cellar, and stays clean where it is (R333 step 1). -/
def State.flushAll (s : State) : State :=
  let ls := (s.cups.flatMap (fun e => e.2.map (·.1)) ++ s.larder.map (·.1)).eraseDups.filter (fun l => !isLocker l)
  ls.foldl (fun s l =>
    let s := (s.holders l).foldl (fun s g => s.snoopCup .snpC g l) s
    match s.larderLine l with
    | some x => if x.st = 2 then { s.cellarPut l x.data false x.poison with larder := s.larder.set none l (some { x with st := 1 }) } else s
    | none => s) s

/-- The code that refuses a fold, 0 for none. -/
def State.foldCode (s : State) (p : Nat) : Nat :=
  if (List.range 256).any (fun k => let st := (s.imgs.get {} k).status; st == .running || st == .stopping) then 1
  else if s.bit Reg.CEL_CAP [] F.CEL_CAP_FOLDED then 2
  else if ¬ (s.fld Reg.DEV_INV_DIE [] F.DEV_INV_DIE_CELLAR_PKG).testBit p then 3 else 0

def State.foldCmd (s : State) (w : Writer) (p : Nat) : State :=
  s.cellarCmd w Reg.CEL_CMD.base (fun s =>
    match s.foldCode p with
    | 0 =>
      let s := (s.wrote Reg.CEL_CMD [] (1 + 256 * p)).flushAll
      { (s.setFld Reg.CEL_STAT [] F.CEL_STAT_STATE 3).setFld Reg.CEL_STAT [] F.CEL_STAT_BUSY 1 with cellarCtl := { s.cellarCtl with fold := some p } }
    | k => s.cellarRefuse w Reg.CEL_CMD.base (if k = 3 then causeValue else causeState) k)
def execFold (w : Writer) (p : Fin 8) (s : State) : Host.Outcome State Fault Refusal := .next (s.keepPilot (s.foldCmd w p))

/-- The fold completes; another package that failed meanwhile fails the Cellar (Table CL-2). -/
def State.foldEnd (s : State) : State :=
  match s.cellarCtl.fold with
  | none => s
  | some p =>
    let other := (List.range 8).any (fun q => q != p && s.packageFailed q)
    let s := (s.foldCellar p (s.fld Reg.CEL_CAP [] F.CEL_CAP_PKG_GIB) (s.fld Reg.DEV_INV_DIE [] F.DEV_INV_DIE_CELLAR_PKG)).setFld Reg.CEL_STAT [] F.CEL_STAT_BUSY 0
    { s.setFld Reg.CEL_STAT [] F.CEL_STAT_STATE (if other then 4 else 2) with cellarCtl := { s.cellarCtl with dead := other } }
def execFoldEnd (s : State) : Host.Outcome State Fault Refusal := .next (s.keepPilot s.foldEnd)

/-- A block below the capacity. -/
def State.blockOk (s : State) (block : Nat) : Bool := decide (block * 2097152 < s.cellarSize)

def State.keyCmd (s : State) (w : Writer) (v : Nat) (ok : State → Bool) (f : State → State) : State :=
  s.cellarCmd w Reg.CEL_KEY_CMD.base (fun s => if ok s then f (s.wrote Reg.CEL_KEY_CMD [] v) else s.cellarRefuse w Reg.CEL_KEY_CMD.base causeValue 6)

def State.assignKey (s : State) (w : Writer) (block i : Nat) : State :=
  s.keyCmd w (2 ^ 38 + 2 ^ 32 * i + block) (fun s => s.blockOk block && decide (i ≤ 32)) (fun s => { s with keyOwner := s.keyOwner.set none block (some i) })
def execAssign (w : Writer) (block : Fin 262144) (i : Fin 64) (s : State) : Host.Outcome State Fault Refusal := .next (s.keepPilot (s.assignKey w block i))
def State.clearKey (s : State) (w : Writer) (block : Nat) : State :=
  s.keyCmd w (2 * 2 ^ 38 + block) (fun s => s.blockOk block) (fun s => { s with keyOwner := s.keyOwner.set none block none })
def execKeyClear (w : Writer) (block : Fin 262144) (s : State) : Host.Outcome State Fault Refusal := .next (s.keepPilot (s.clearKey w block))
/-- A new key pair; a key of an inst. is named by its generation. -/
def State.rekeyInst (s : State) (w : Writer) (i : Nat) : State :=
  s.keyCmd w (3 * 2 ^ 38 + 2 ^ 32 * i) (fun _ => decide (i ≤ 32)) (fun s => { s with keyGen := s.keyGen.set 0 i (s.keyGen.get 0 i + 1) })
def execRekey (w : Writer) (i : Fin 64) (s : State) : Host.Outcome State Fault Refusal := .next (s.keepPilot (s.rekeyInst w i))

end Sys2Proof.Machine
end

