-- ==== Sys2Proof/Machine/Links.lean ====
section
/-! DEFINITION. What the Joist and Chute link layers share: flits, CRC, replay buffers, acknowledgements, credits (R265-R267, R286-R288). -/
namespace Sys2Proof.Machine

/-- The figures of a link layer: places of the header fields of a flit, LSEQ width, replay depth, slots of credit by channel. -/
structure LinkKind where
  seqLo : Nat
  ackLo : Nat
  ackV : Nat
  nak : Nat
  kindLo : Nat
  chLo : Nat
  chBits : Nat
  amtLo : Nat
  amtBits : Nat
  seqBits : Nat
  depth : Nat
  credits : List Nat

/-- Table JT-3, Table JT-4, R266. -/
def joistKind : LinkKind := ⟨52, 40, 39, 38, 36, 33, 3, 21, 12, 12, 2048, [512, 256, 512, 1024, 64]⟩

/-- Table CH-2, Table CH-3, R287. -/
def chuteKind : LinkKind := ⟨48, 32, 31, 30, 28, 26, 2, 12, 14, 16, 4096, [16384, 8192, 256]⟩

def flitField (f : BitVec 2048) (lo bits : Nat) : Nat := fieldOf f (lo + bits - 1) lo

/-- Bytes 248-255 hold the CRC of bytes 0-247. -/
def flitGood (f : BitVec 2048) : Bool := crc64 (leBytes 248 f.toNat) == BitVec.ofNat 64 (f.toNat >>> 1984)

/-- Slot `k` of a flit's payload. -/
def flitSlot (f : BitVec 2048) (k : Nat) : BitVec 128 := BitVec.ofNat 128 (f.toNat >>> (64 + 128 * k))

/-- A DATA flit: header fields, up to 15 slots (slots past them are zero), CRC. `back` is the receiver of the other direction. -/
def buildFlit (k : LinkKind) (seq : Nat) (back : Wire) (slots : List (BitVec 128)) : BitVec 2048 :=
  let (ch, amt) := match back.returns with
    | e :: _ => e
    | [] => (0, 0)
  let hdr := seq * 2 ^ k.seqLo + (match back.rx with
      | some a => a * 2 ^ k.ackLo + 2 ^ k.ackV
      | none => 0) + (if back.naking then 2 ^ k.nak else 0) + ch * 2 ^ k.chLo + (amt % 2 ^ k.amtBits) * 2 ^ k.amtLo
  let body := hdr + (slots.zipIdx.foldl (fun n e => n + e.1.toNat * 2 ^ (128 * e.2)) 0) * 2 ^ 64
  BitVec.ofNat 2048 (body + (crc64 (leBytes 248 body)).toNat * 2 ^ 1984)

/-- What the flit tells the transmitter of the other direction: flits acknowledged leave its buffer, credits return (R266, R267). -/
def Wire.told (w : Wire) (k : LinkKind) (f : BitVec 2048) : Wire :=
  let ack := flitField f k.ackLo k.seqBits
  let buf := if flitField f k.ackV 1 = 1 ∧ w.buf.any (fun e => e.1 == ack) then (w.buf.dropWhile (fun e => e.1 != ack)).drop 1 else w.buf
  let ch := flitField f k.chLo k.chBits
  { w with buf := buf, used := w.used.set 0 ch (w.used.get 0 ch - flitField f k.amtLo k.amtBits) }

/-- What a DATA flit does to its receiver: taken in order, or dropped with a NAK (R266, R287). The slots come whole. -/
def Wire.takeData (w : Wire) (k : LinkKind) (f : BitVec 2048) : Wire :=
  let seq := flitField f k.seqLo k.seqBits
  let want := match w.rx with
    | some a => (a + 1) % 2 ^ k.seqBits
    | none => 0
  if seq = want then
    { w with rx := some seq, naking := false, partials := w.partials ++ (List.range 15).map (flitSlot f), unacked := w.unacked + 1 }
  else if (want + 2 ^ k.seqBits - seq) % 2 ^ k.seqBits ≤ k.depth then w
  else { w with naking := true }

/-- Messages whose slots have all come: `size` gives the slots of a message from its header; a zero slot where a header is due is filling (the spec names no filler). -/
def splitSlots (size : BitVec 128 → Nat) : Nat → List (BitVec 128) → List (List (BitVec 128)) × List (BitVec 128)
  | 0, ss => ([], ss)
  | _ + 1, [] => ([], [])
  | k + 1, h :: r =>
    if h = 0 then splitSlots size k r
    else if (h :: r).length < size h then ([], h :: r)
    else let (ms, rest) := splitSlots size k ((h :: r).drop (size h)); ((h :: r).take (size h) :: ms, rest)

/-- Groups of up to 15 slots. -/
def flitsOf : Nat → List (BitVec 128) → List (List (BitVec 128))
  | 0, _ => []
  | k + 1, ss => if ss.isEmpty then [] else ss.take 15 :: flitsOf k (ss.drop 15)

/-- Room for a message of `n` slots: credits of its channel, and room in the replay buffer (R266, R267, R288). -/
def Wire.room (w : Wire) (k : LinkKind) (ch n : Nat) : Bool :=
  decide (w.used.get 0 ch + n ≤ k.credits.getD ch 0) && decide (w.buf.length + (n + 14) / 15 ≤ k.depth)

/-- A message goes out: its flits enter the replay buffer and its slots' credits are used; acknowledgement and returned credits of the other direction travel with them. -/
def Wire.sendSlots (w : Wire) (k : LinkKind) (back : Wire) (ch : Nat) (slots : List (BitVec 128)) : Wire × Wire :=
  let fs := flitsOf (slots.length + 1) slots
  let (w, back) := fs.foldl (fun (w, back) ss =>
    ({ w with lseq := (w.lseq + 1) % 2 ^ k.seqBits, buf := w.buf ++ [(w.lseq, buildFlit k w.lseq back ss)] },
     { back with returns := back.returns.drop 1, unacked := 0 })) (w, back)
  ({ w with used := w.used.set 0 ch (w.used.get 0 ch + slots.length) }, back)

end Sys2Proof.Machine
end

