-- ==== Sys2Proof/Machine/Joists.lean ====
section
/-! DEFINITION. Joist messages and flits, module retraining, link failure, die loss and rejoin (13_package_joists.md R265-R278). -/
namespace Sys2Proof
open Machine

/-! ### Messages (Table JT-4, Table JT-5) -/

def JoistMsg.type (m : JoistMsg) : Nat := fieldOf m.hdr 127 120
def JoistMsg.sdie (m : JoistMsg) : Nat := fieldOf m.hdr 119 117
def JoistMsg.ddie (m : JoistMsg) : Nat := fieldOf m.hdr 116 114
def JoistMsg.sagent (m : JoistMsg) : Nat := fieldOf m.hdr 113 106
def JoistMsg.dagent (m : JoistMsg) : Nat := fieldOf m.hdr 105 98
def JoistMsg.txn (m : JoistMsg) : Nat := fieldOf m.hdr 97 86
def JoistMsg.dslots (m : JoistMsg) : Nat := fieldOf m.hdr 85 81
def JoistMsg.poison (m : JoistMsg) : Bool := bitAt m.hdr 80
def JoistMsg.err (m : JoistMsg) : Bool := bitAt m.hdr 79
def JoistMsg.aux (m : JoistMsg) : BitVec 24 := BitVec.ofNat 24 (fieldOf m.hdr 75 52)
def JoistMsg.addr (m : JoistMsg) : Nat := fieldOf m.hdr 51 0

/-- The channel of a TYPE, and none for a reserved one. -/
def joistChannel (t : Nat) : Option Nat :=
  if 0x01 ≤ t ∧ t ≤ 0x0C then some 0 else if 0x10 ≤ t ∧ t ≤ 0x13 then some 1 else if 0x20 ≤ t ∧ t ≤ 0x27 then some 2
  else if 0x30 ≤ t ∧ t ≤ 0x32 then some 3 else if 0x40 ≤ t ∧ t ≤ 0x43 then some 4 else none

/-- Agents of a die (R268). -/
def joistAgent (d a : Nat) : Bool := if d < 4 then decide (a ≤ 33) else if d = 4 then decide (a ≤ 22) else d == 5 && decide (a ≤ 21)

def JoistMsg.legal (m : JoistMsg) : Bool :=
  (joistChannel m.type).isSome && joistAgent m.sdie m.sagent && joistAgent m.ddie m.dagent && decide (m.dslots ≤ 16)

/-- The data of a message as a number, from byte 0 of its first data slot. -/
def JoistMsg.data (m : JoistMsg) : Nat := m.slots.zipIdx.foldl (fun n e => n + e.1.toNat * 2 ^ (128 * e.2)) 0

/-- An answer to a message: source and destination change places, TXN stays. -/
def JoistMsg.answer (m : JoistMsg) (type n data : Nat) (poison err lost : Bool) : JoistMsg :=
  let b (x : Bool) (k : Nat) : Nat := if x then 2 ^ k else 0
  let d := ceilDiv n 16
  ⟨BitVec.ofNat 128 (type * 2 ^ 120 + m.ddie * 2 ^ 117 + m.sdie * 2 ^ 114 + m.dagent * 2 ^ 106 + m.sagent * 2 ^ 98 + m.txn * 2 ^ 86 + d * 2 ^ 81 +
    b poison 80 + b err 79 + b lost 78 + m.addr),
   (List.range d).map (fun k => BitVec.ofNat 128 (data >>> (128 * k)))⟩

end Sys2Proof

namespace Sys2Proof.Machine

/-- The TYPE that completes a request, none for one that expects nothing or that the coherence rows complete. -/
def completionType (t : Nat) : Option Nat :=
  if t = 0x05 then some 0x31 else if t = 0x0A then some 0x32 else if t = 0x0B then some 0x27 else if t = 0x40 ∨ t = 0x41 then some 0x42 else none

/-- Types that a Joist row takes at their destination; the others reach their agents as commands of their own. -/
def joistRow (t : Nat) : Bool := decide (0x0A ≤ t ∧ t ≤ 0x0C) || t == 0x27 || t == 0x31 || t == 0x32 || decide (0x40 ≤ t)

/-! ### Wires -/

def State.joist (s : State) (k : Nat) : Wire := s.joists.get {} k
def State.setJoist (s : State) (k : Nat) (w : Wire) : State := { s with joists := s.joists.set {} k w }
def State.joistLink (s : State) (j : Nat) : JoistLink := s.joistLinks.get {} j
def State.setJoistLink (s : State) (j : Nat) (x : JoistLink) : State := { s with joistLinks := s.joistLinks.set {} j x }

/-- The die that sends in direction `k`, and the one that receives. -/
def wireFrom (k : Nat) : Nat := match linkEnds[k / 2]? with
  | some (a, b) => if k % 2 = 0 then a else b
  | none => 0
def wireTo (k : Nat) : Nat := match linkEnds[k / 2]? with
  | some (a, b) => if k % 2 = 0 then b else a
  | none => 0

/-- The direction of link `j` that die `d` sends in. -/
def wireOf (j d : Nat) : Nat := 2 * j + (if (match linkEnds[j]? with | some (a, _) => a == d | none => true) then 0 else 1)

/-! ### Errors at a source (R276) -/

/-- An access of an agent ends with an error. -/
def State.failAgent (s : State) (who : Agent) (addr : Nat) (read : Bool) (cause : Nat) : State :=
  match who with
  | .porter p c => s.porterAnswer p c addr read false cause 0 false
  | .group n g => s.groupAnswer n g addr read false 0 false
  | .sequencer n => s.seqFault n 0x0B
  | _ => s

/-- A request that waits for its completion ends as R276 gives: a TINC or PWr is dropped and counted, any other completes with error. -/
def State.fenceReq (s : State) (m : JoistMsg) (who : Agent) : State :=
  if m.type = 0x0B ∨ m.type = 0x0C then s.bump Reg.JST_EVT [] F.JST_EVT_DROPPED 1
  else s.failAgent who m.addr true 4

/-- Requests of an agent at a home that die `d` held (a bus error of CAUSE 4; code 0x0C for a group). -/
def State.fenceHome (s : State) (r : CohReq) : State :=
  match r.who with
  | .porter p _ => s.busError p 4 (128 * r.line)
  | .group n g =>
    let x := s.group n g
    if x.status = GrpStatus.free ∨ x.status = GrpStatus.parked then s else (s.setGroup n g { x with atom := none }).parkAt n g 0x0C (128 * r.line) x.active
  | _ => s

/-! ### Link failure and die loss (R274-R277) -/

/-- A link fails while its dies live: an uncorrectable Joist error, device-fatal (R274). -/
def State.linkFails (s : State) (j : Nat) : State :=
  if s.linkState j ≠ 2 then s else
  let s := (s.setFld Reg.JST_LINK_STAT [j] F.JST_LINK_STAT_STATE 4).jstEvent 2
  let s := (s.setJoist (2 * j) {}).setJoist (2 * j + 1) {}
  s.deviceFatal { kind := 0x0C, index := j, cls := .fatal }

/-- What the units of a die hold is gone: cores, Cupboards, Larder lines homed there, its clocks and state windows. -/
def State.clearDie (s : State) (d : Nat) : State :=
  let core (n : Nat) : Bool := n / 128 == d
  let clus (g : Nat) : Bool := g / 16 == d
  let homed (l : Nat) : Bool := hasHome (128 * l) && (s.home l).1 / 16 == d
  let lo := pantryAddr (128 * d) 0
  let hi := pantryAddr (128 * d + 128) 0
  let cst (n : Nat) : Nat := 0x10000000 + 0x40000 * n
  let owned := s.larder.filter (fun e => match s.ownerOf e.1 with
    | some g => clus g
    | none => false)
  let s := owned.foldl (fun s e => match e.2 with
    | some x => { s with larder := s.larder.set none e.1 (some { x with poison := true }) }
    | none => s) s
  let t := { s with
    seqs := s.seqs.filter (fun e => !core e.1), steps := s.steps.filter (fun e => !core e.1), groups := s.groups.filter (fun e => !core (e.1 / 8)),
    kernels := s.kernels.filter (fun e => !core e.1), porters := s.porters.filter (fun e => if e.1 < 512 then !core e.1 else e.1 == 1023 || !clus (e.1 - 512)),
    ranges := s.ranges.filter (fun e => !core e.1), shelves := s.shelves.filter (fun e => !core e.1), cups := s.cups.filter (fun e => !clus e.1),
    tlbs := s.tlbs.filter (fun e => !clus e.1), slices := s.slices.filter (fun e => !clus e.1), larder := s.larder.filter (fun e => !homed e.1),
    homes := s.homes.filter (fun e => !homed e.1), tallySet := s.tallySet.filter (fun e => !core (e.1 / 4096)),
    mem := s.mem.filter (fun c => decide (c.1 < lo) || decide (hi ≤ c.1)), poison := s.poison.filter (fun e => decide (8 * e.1 < lo) || decide (hi ≤ 8 * e.1)),
    regs := s.regs.filter (fun e => (decide (e.1 < cst (128 * d)) || decide (cst (128 * d + 128) ≤ e.1)) &&
      (decide (e.1 < 0x100000 + 0x100 * d) || decide (0x100000 + 0x100 * d + 0x98 ≤ e.1))),
    heldAdds := s.heldAdds.filter (fun h => !core h.core) }
  t.bump Reg.JST_EVT [] F.JST_EVT_DROPPED (s.heldAdds.countP (fun h => core h.core))

/-- Inventory bits of a die go to 0 (R9). -/
def State.fenceInventory (s : State) (d : Nat) : State :=
  let s := s.setReg Reg.DEV_INV_DIE [] (withField (withField (s.reg Reg.DEV_INV_DIE []) d d 0) (4 + d) (4 + d) 0)
  let s := s.setReg Reg.DEV_INV_CLUSTER [] (withField (s.reg Reg.DEV_INV_CLUSTER []) (16 * d + 15) (16 * d) 0)
  let s := (List.range 8).foldl (fun s k => s.setReg Reg.DEV_INV_ENGINE [8 * d + k] 0) s
  s.setDoms (dieDoms d ++ (List.range 16).map (fun k => 10 + 18 * d + k)) false

/-- Messages toward a lost die (R276). -/
def State.fenceMessages (s : State) (d : Nat) : State :=
  let gone := s.joistLive.filter (fun e => e.1.ddie == d)
  let waiting := s.joistOut.filter (fun e => e.2.ddie == d && (e.2.type == 0x0B || e.2.type == 0x0C))
  let homes := s.homes.filter (fun e => hasHome (128 * e.1) && (s.home e.1).1 / 16 == d)
  let reqs := homes.flatMap (fun e => e.2.running.map (·.req) ++ e.2.waiting) ++
    (s.slices.filter (fun e => e.1 / 16 == d)).flatMap (fun e => e.2.queue ++ e.2.waiting)
  let s := { s with joistLive := s.joistLive.filter (fun e => e.1.ddie != d), joistOut := s.joistOut.filter (fun e => e.2.ddie != d && e.1 != d),
                    joistIn := s.joistIn.filter (fun e => e.1 != d) }
  let s := s.bump Reg.JST_EVT [] F.JST_EVT_DROPPED waiting.length
  let s := gone.foldl (fun s e => s.fenceReq e.1 e.2) s
  reqs.foldl (fun s r => s.fenceHome r) s

/-- A Bay with a cluster on die `d`. -/
def State.bayOnDie (s : State) (b d : Nat) : Bool := s.bit Reg.BAY_CFG [b] F.BAY_CFG_EN && (s.clustersOf b).any (fun g => g / 16 == d)

/-- A compute die that is not fenced is lost, with the CAUSE of JST_DIE_STAT (R275, R276, R394, Table BY-4). -/
def State.loseDie (s : State) (d cause : Nat) : State :=
  if s.dieState d = 3 then s else
    let s := (List.range 4).foldl (fun s e => if s.dieState e = 4 then s.setDieState e 3 else s) s
    let s := ((s.setDieState d 3).setDieCause d cause).jstEvent 4
    let s := (List.range 8).foldl (fun s j => if (farEnd j d).isSome then
      ((s.setFld Reg.JST_LINK_STAT [j] F.JST_LINK_STAT_STATE 3).setJoist (2 * j) {}).setJoist (2 * j + 1) {} else s) s
    let s := (s.fenceMessages d).fenceInventory d
    let lost := (List.range 64).filter (fun b => s.bayOnDie b d)
    let s := s.setFld Reg.LRD_COH_STAT [] F.LRD_COH_STAT_LOST (s.fld Reg.LRD_COH_STAT [] F.LRD_COH_STAT_LOST ||| 2 ^ d)
    let s := (s.clearDie d).installRoutes
    let s := s.spnEvent
    if s.quadrant then
      let s := s.log { kind := 0x15, index := d, cls := .contained, retired := true }
      let s := s.log { kind := 0x08, index := 16 * d, cls := .contained, poisoned := true }
      let s := (List.range s.units).foldl (fun s u => { s with lockerLost := s.lockerLost.set false (4 * u + d) true }) s
      lost.foldl (fun s b => s.loseBay b) s
    else s.deviceFatal { kind := 0x15, index := d, cls := .fatal, retired := true }

/-- A die is lost; of an I/O die the Pilot resets the package (R277). -/
def State.dieLost (s : State) (d cause : Nat) : State := if 4 ≤ d then s.pilotReset d else s.keepPilot (s.loseDie d cause)

/-- A link takes no good flit of die `d` for 2 µs (R275). `late`: the die's other links have not followed within 2 µs more. -/
def State.linkSilence (s : State) (j d : Nat) (late : Bool) : State :=
  if s.linkState j ≠ 2 ∨ (farEnd j d).isNone then s else
  let x := s.joistLink j
  let s := s.keepPilot (s.setJoistLink j { x with silent := if x.silent.contains d then x.silent else d :: x.silent })
  if (List.range 8).all (fun k => (farEnd k d).isNone || s.linkState k != 2 || (s.joistLink k).silent.contains d) then s.dieLost d 1
  else if late then s.keepPilot (s.linkFails j) else s
def execLinkSilence (j : LinkId) (d : Fin 6) (late : Bool) (s : State) : Host.Outcome State Fault Refusal := .next (s.linkSilence j d late)

/-- A rail stays below its monitor level for 1 µs; rails are numbered as Table PW-2 (R275, R400). The monitors of VDD_SD and VDDQ_C lose no die. -/
def State.supplyTrip (s : State) (r : Nat) : State :=
  if r < 4 then s.dieLost r 2 else if r < 8 then s.dieLost (r - 4) 2 else if r < 10 then s.dieLost (r - 4) 2 else s
def execSupplyMonitorTrip (rail : Fin 12) (s : State) : Host.Outcome State Fault Refusal := .next (s.supplyTrip rail)

/-! ### Flits (R265-R269) -/

/-- A message of a taken flit: a reserved TYPE or agent fails the link; else it is delivered, or waits for its next hop. -/
def State.joistDeliver (s : State) (k : Nat) (ss : List (BitVec 128)) : State :=
  match ss with
  | [] => s
  | h :: r =>
    let m : JoistMsg := ⟨h, r⟩
    if ¬ m.legal then s.linkFails (k / 2)
    else
      let w := s.joist k
      let ch := (joistChannel m.type).getD 0
      let s := s.setJoist k { w with returns := w.returns.set 0 ch (w.returns.get 0 ch + 1 + m.dslots) }
      if m.ddie ≠ wireTo k then { s with joistOut := s.joistOut ++ [(wireTo k, m)] }
      else if joistRow m.type then { s with joistIn := s.joistIn ++ [(wireTo k, m)] } else s

/-- A flit arrives at the end of direction `k` from module `m` (R265, R266). -/
def State.joistFlit (s : State) (k m : Nat) (f : BitVec 2048) : State :=
  let j := k / 2
  if s.linkState j ≠ 2 ∨ ¬ (s.fld Reg.JST_LINK_STAT [j] F.JST_LINK_STAT_MODULES).testBit m then s
  else if ¬ flitGood f then
    let x := s.joistLink j
    let s := (s.bump Reg.JST_LINK_CNT [j] F.JST_LINK_CNT_CRC_ERR 1).setJoistLink j { x with crc := x.crc.set 0 m (x.crc.get 0 m + 1) }
    s.setJoist k { s.joist k with naking := true }
  else
    let x := s.joistLink j
    let s := s.setJoistLink j { x with silent := x.silent.erase (wireFrom k) }
    let back := 2 * j + (1 - k % 2)
    let s := s.setJoist back ((s.joist back).told joistKind f)
    let s := s.when (flitField f joistKind.nak 1 == 1) (fun s => s.bump Reg.JST_LINK_CNT [j] F.JST_LINK_CNT_REPLAY 1)
    if flitField f joistKind.kindLo 2 ≠ 0 then s else
    let w := (s.joist k).takeData joistKind f
    let (ms, rest) := splitSlots (fun h => 1 + fieldOf h 85 81) (w.partials.length + 1) w.partials
    ms.foldl (fun s ss => s.joistDeliver k ss) (s.setJoist k { w with partials := rest })
def execJoistFlitReceive (k : Fin 16) (m : Fin 24) (flit : BitVec 2048) (s : State) : Host.Outcome State Fault Refusal := .next (s.keepPilot (s.joistFlit k m flit))

/-- A DATA flit is unacknowledged 8 µs after its first transmission (R266). -/
def State.joistTimeout (s : State) (k : Nat) : State := if (s.joist k).buf.isEmpty then s else s.linkFails (k / 2)
def execJoistAckTimeout (k : Fin 16) (s : State) : Host.Outcome State Fault Refusal := .next (s.keepPilot (s.joistTimeout k))

/-- The link that JST_ROUTE of die `d` gives for die `t`. -/
def State.routeOf (s : State) (d t : Nat) : Option Nat :=
  let e := fieldOf (s.reg Reg.JST_ROUTE [d]) (4 * t + 3) (4 * t)
  if 8 ≤ e then some (e - 8) else none

/-- Die `d` sends a message, its own agent's or one in transit (R267, R269); toward an unreachable die it completes as R276 gives. -/
def State.joistSend (s : State) (d : Nat) (who : Agent) (m : JoistMsg) : State :=
  let transit := s.joistOut.contains (d, m)
  let own := m.sdie == d
  if ¬ m.legal ∨ m.slots.length ≠ m.dslots ∨ m.ddie = d ∨ (¬ transit ∧ ¬ own) then s else
  let gone := { s with joistOut := s.joistOut.erase (d, m) }
  match s.routeOf d m.ddie with
  | none => if own ∧ (completionType m.type).isSome ∨ m.type = 0x0C then gone.fenceReq m who else gone
  | some j =>
    let k := wireOf j d
    let ch := (joistChannel m.type).getD 0
    if ¬ s.openLink j ∨ ¬ (s.joist k).room joistKind ch (1 + m.dslots) then s else
    let back := 2 * j + (1 - k % 2)
    let (w, b) := (s.joist k).sendSlots joistKind (s.joist back) ch (m.hdr :: m.slots)
    let s := (gone.setJoist k w).setJoist back b
    if own ∧ (completionType m.type).isSome then { s with joistLive := s.joistLive ++ [(m, who)] } else s
def execJoistMessageSend (d : Fin 6) (who : Agent) (m : JoistMsg) (s : State) : Host.Outcome State Fault Refusal := .next (s.keepPilot (s.joistSend d who m))

/-! ### Messages at their destination -/

/-- The `k`-th message delivered at die `d`, where it has one of the types, taken off the list. -/
def State.joistTake (s : State) (d k : Nat) (types : List Nat) (f : State → JoistMsg → State) : State :=
  match (s.joistIn.filter (fun e => e.1 == d))[k]? with
  | some e => if types.contains e.2.type then f { s with joistIn := s.joistIn.erase e } e.2 else s
  | none => s

def State.joistReply (s : State) (d : Nat) (m : JoistMsg) : State := { s with joistOut := s.joistOut ++ [(d, m)] }

/-- A Pantry-window access at its cluster: unbacked ones answer with ERR (R11, R127). -/
def State.takePrd (s : State) (d : Nat) (m : JoistMsg) : State :=
  let n := min 256 (Config.joistAux 0 m.aux)
  match regionOf m.addr with
  | .pantry c off =>
    if s.backed m.addr ∧ off + n ≤ pantrySize then
      s.joistReply d (m.answer 0x32 n (s.pantryNat c off n) (s.pantryPoison c off n) false false)
    else s.joistReply d (m.answer 0x32 n 0 false true false)
  | _ => s.joistReply d (m.answer 0x32 n 0 false true false)
def execPrd (d : DieId) (k : Nat) (s : State) : Host.Outcome State Fault Refusal := .next (s.keepPilot (s.joistTake d k [0x0A] (fun s m => s.takePrd d m)))

def State.takePwr (s : State) (d : Nat) (m : JoistMsg) : State :=
  let n := min (16 * m.dslots) (Config.joistAux 1 m.aux)
  match regionOf m.addr with
  | .pantry c off =>
    if s.backed m.addr ∧ off + n ≤ pantrySize then
      ((s.setPantry c off (leBytes n m.data) m.poison).stored m.addr n).joistReply d (m.answer 0x27 0 0 false false false)
    else s.joistReply d (m.answer 0x27 0 0 false true false)
  | _ => s.joistReply d (m.answer 0x27 0 0 false true false)
def execPwr (d : DieId) (k : Nat) (s : State) : Host.Outcome State Fault Refusal := .next (s.keepPilot (s.joistTake d k [0x0B] (fun s m => s.takePwr d m)))

/-- An increment reaches a core of cluster DAGENT (R176). -/
def State.takeTinc (s : State) (d : Nat) (m : JoistMsg) : State :=
  let f (i : Nat) : Nat := Config.joistAux i m.aux
  if 16 ≤ m.dagent then s else
  s.addTally (8 * (16 * d + m.dagent) + f 7 % 8) (f 2 % 4096) { amount := f 3 % 2 ^ 32, kind := f 4 % 8, scope := f 5 % 8, core := f 6 % 512 }
def execTinc (d : DieId) (k : Nat) (s : State) : Host.Outcome State Fault Refusal := .next (s.keepPilot (s.joistTake d k [0x0C] (fun s m => s.takeTinc d m)))

/-- A completion meets the request that it answers (R268, R276). -/
def State.joistDone (s : State) (m : JoistMsg) (read : Bool) : State :=
  match s.joistLive.find? (fun e => e.1.txn == m.txn && e.1.sdie == m.ddie && e.1.sagent == m.dagent && e.1.ddie == m.sdie && completionType e.1.type == some m.type) with
  | none => s
  | some e =>
    let s := { s with joistLive := s.joistLive.erase e }
    if m.err then s.failAgent e.2 e.1.addr read 4
    else match e.2 with
      | .porter p c => s.porterAnswer p c e.1.addr read true 0 m.data m.poison
      | .group n g => s.groupAnswer n g e.1.addr read true m.data m.poison
      | _ => s
def execPcmp (d : Fin 6) (k : Nat) (s : State) : Host.Outcome State Fault Refusal := .next (s.keepPilot (s.joistTake d k [0x27] (fun s m => s.joistDone m false)))
def execPdat (d : Fin 6) (k : Nat) (s : State) : Host.Outcome State Fault Refusal := .next (s.keepPilot (s.joistTake d k [0x32] (fun s m => s.joistDone m true)))
def execCmpd (d : Fin 6) (k : Nat) (s : State) : Host.Outcome State Fault Refusal := .next (s.keepPilot (s.joistTake d k [0x31] (fun s m => s.joistDone m true)))

/-- The answer to a register access of the Storekeeper or of a die, which shows what it read. -/
def State.takeGcmp (s : State) (m : JoistMsg) : State :=
  let s := s.joistDone m true
  { s with replies := { who := .storekeeper, status := if m.err then 2 else 0, len := 8, data := m.data % 2 ^ 64 } :: s.replies }
def execGcmp (d : Fin 6) (k : Nat) (s : State) : Host.Outcome State Fault Refusal := .next (s.keepPilot (s.joistTake d k [0x42] (fun s m => s.takeGcmp m)))

/-- A sensor and event report is taken; its contents reach the model as TEMPERATURE_SAMPLE, THROTTLE_TICK and the events they report. -/
def execSevt (d : Fin 6) (k : Nat) (s : State) : Host.Outcome State Fault Refusal := .next (s.keepPilot (s.joistTake d k [0x43] (fun s _ => s)))

/-! ### Modules (R272) -/

def State.setModules (s : State) (j mods : Nat) : State :=
  (s.setFld Reg.JST_LINK_STAT [j] F.JST_LINK_STAT_MODULES mods).setFld Reg.JST_LINK_STAT [j] F.JST_LINK_STAT_WIDTH (popCount 24 mods)

/-- The lowest waiting module is taken out for retraining when none retrains. -/
def State.nextRetrain (s : State) (j : Nat) : State :=
  let x := s.joistLink j
  match x.retraining, x.waiting with
  | none, m :: r =>
    let mods := s.fld Reg.JST_LINK_STAT [j] F.JST_LINK_STAT_MODULES
    (s.setJoistLink j { x with retraining := some m, waiting := r }).setModules j (if mods.testBit m then mods - 2 ^ m else mods)
  | _, _ => s

/-- The end of a 1 ms window: modules over THRESH wait for retraining, one of a link at a time. -/
def State.crcWindow (s : State) (j : Nat) : State :=
  if s.linkState j ≠ 2 then s else
  let x := s.joistLink j
  let t := s.fld Reg.JST_LINK_CFG [j] F.JST_LINK_CFG_THRESH
  let worse := (x.crc.filter (fun e => t < e.2 && some e.1 != x.retraining && !x.waiting.contains e.1)).map (·.1)
  (s.setJoistLink j { x with crc := [], waiting := x.waiting ++ worse }).nextRetrain j
def execModuleCrcWindow (j : LinkId) (s : State) : Host.Outcome State Fault Refusal := .next (s.keepPilot (s.crcWindow j))

/-- A retraining module returns with lanes repaired, or is disabled: a corrected record and JST_EVT.NARROW; no module left fails the link (R274). -/
def State.retrainEnd (s : State) (j : Nat) (ok : Bool) (lanes : Nat) : State :=
  let x := s.joistLink j
  match x.retraining with
  | none => s
  | some m =>
    let s := s.setJoistLink j { x with retraining := none }
    let mods := s.fld Reg.JST_LINK_STAT [j] F.JST_LINK_STAT_MODULES
    let s := s.when (decide (0 < lanes)) (fun s => s.bump Reg.JST_LINK_STAT [j] F.JST_LINK_STAT_REPAIRED lanes)
    if ok then (s.setModules j (mods ||| 2 ^ m)).nextRetrain j
    else
      let s := (s.log { kind := 0x0C, index := j, cls := .corrected, sub := m }).jstEvent 1
      if mods = 0 then s.linkFails j else s.nextRetrain j
def execModuleRetrainEnd (j : LinkId) (ok : Bool) (lanes : Fin 9) (s : State) : Host.Outcome State Fault Refusal := .next (s.keepPilot (s.retrainEnd j ok lanes))

/-! ### Rejoin (R278, R356) -/

/-- A die temperature below 85 °C; an invalid reading counts as at its limit. -/
def cool (t : Nat) : Bool := decide (t < 85)

def State.rejoin (s : State) (w : Writer) (d : Nat) : State :=
  s.asManager w Reg.JST_DIE_CMD.base (fun s =>
    if ¬ s.quadrant ∨ s.dieState d ≠ 3 ∨ ¬ cool (s.fld Reg.PWR_DIE_STAT [d] F.PWR_DIE_STAT_TC) ∨ ¬ cool (s.fld Reg.PWR_DIE_STAT [d] F.PWR_DIE_STAT_TU) then
      s.refuse w Reg.JST_DIE_CMD.base causeState
    else (s.wrote Reg.JST_DIE_CMD [] (1 + 16 * d)).setDieState d 4)
def execRejoin (w : Writer) (d : DieId) (s : State) : Host.Outcome State Fault Refusal := .next (s.keepPilot (s.rejoin w d))

/-- A link of the die that returns trains when the die at its other end is up. -/
def State.relink (s : State) (x : Bringup) (d j : Nat) : State :=
  match farEnd j d with
  | some e => if s.dieState e = 2 then s.trainLink j (x.modules.getD j 0).toNat (x.repaired.getD j 0) else s
  | none => s

/-- The die is back: self test, links, routes, LOST bit, home ordering (R278). A die that fails self test stays fenced. -/
def State.rejoinEnd (s : State) (x : Bringup) (d : Nat) : State :=
  if s.dieState d ≠ 4 then s
  else if ¬ (x.dies.getLsbD d ∧ x.undercrofts.getLsbD d) then s.setDieState d 3
  else
    let s := (s.resetClocks d).bringDie x d
    let s := (List.range 8).foldl (fun s j => s.relink x d j) s
    let s := s.installRoutes
    let lost := s.fld Reg.LRD_COH_STAT [] F.LRD_COH_STAT_LOST
    let s := s.setFld Reg.LRD_COH_STAT [] F.LRD_COH_STAT_LOST (if lost.testBit d then lost - 2 ^ d else lost)
    (List.range 16).foldl (fun s k => s.setFld Reg.PWR_CL [16 * d + k] F.PWR_CL_STATE 0) s
def execRejoinEnd (d : DieId) (x : Bringup) (s : State) : Host.Outcome State Fault Refusal := .next (s.keepPilot (s.rejoinEnd x d))

end Sys2Proof.Machine
end

