-- ==== Sys2Proof/Machine/Chute.lean ====
section
/-! DEFINITION. Chute ports: flits, messages, role epochs and the inbound map, completions, routes, training and failures
(14_chute_ports_and_spans.md R282-R303). -/
namespace Sys2Proof
open Machine

/-- TYPE without POISON. -/
def ChuteMsg.kind (m : ChuteMsg) : Nat := if m.type = 0x21 ∨ m.type = 0x22 ∨ m.type = 0x23 ∨ m.type = 0x24 ∨ m.type = 0x25 ∨ m.type = 0x26 ∨ m.type = 0x31 then m.type - 0x20 else m.type

/-- The data is marked poisoned (R290). -/
def ChuteMsg.poison (m : ChuteMsg) : Bool := m.kind != m.type

/-- An FP32 operand on a BF16 line (Table CH-4, RFMT). -/
def ChuteMsg.wide (m : ChuteMsg) : Bool := m.len.testBit 4 && bitsOf m.len 3 2 == 1

/-- Bytes of data that a message carries (Table CH-5). -/
def ChuteMsg.bytes (m : ChuteMsg) : Nat :=
  let k := m.kind
  if k = 1 ∨ k = 2 ∨ k = 3 ∨ k = 0x11 then m.len + 1
  else if 4 ≤ k ∧ k ≤ 6 then (if m.wide then 256 else 128)
  else if k = 0x18 then 64 else if k = 0x19 ∨ k = 0x1A then 16 else 0

/-- The data of a write begins at byte ADDR mod 16 of its first data slot (R289). -/
def ChuteMsg.lead (m : ChuteMsg) : Nat := if 1 ≤ m.kind ∧ m.kind ≤ 3 then m.addr % 16 else 0
def ChuteMsg.dslots (m : ChuteMsg) : Nat := if m.bytes = 0 then 0 else ceilDiv (m.lead + m.bytes) 16

/-- Channel of a TYPE, none for a reserved one (Table CH-5). -/
def ChuteMsg.channel (m : ChuteMsg) : Option Nat :=
  let k := m.kind
  if 1 ≤ k ∧ k ≤ 8 then some 0 else if k = 0x10 ∨ k = 0x11 then some 1 else if 0x18 ≤ k ∧ k ≤ 0x1A then some 2 else none

/-- The header of Table CH-4 and the data slots. -/
def ChuteMsg.slots (m : ChuteMsg) : List (BitVec 128) :=
  let h := (m.type % 64) * 2 ^ 122 + (m.sdev % 2048) * 2 ^ 111 + (m.ddev % 2048) * 2 ^ 100 + (m.score % 512) * 2 ^ 91 + (m.dcore % 512) * 2 ^ 82 +
    (m.epoch % 65536) * 2 ^ 66 + (m.tag % 128) * 2 ^ 59 + (m.tally % 4096) * 2 ^ 47 + (m.len % 256) * 2 ^ 39 + m.addr % 2 ^ 39
  BitVec.ofNat 128 h :: (List.range m.dslots).map (fun k => BitVec.ofNat 128 ((m.data * 2 ^ (8 * m.lead)) >>> (128 * k)))

/-- A message from its header, without data. -/
def chuteHeader (h : BitVec 128) : ChuteMsg :=
  { type := fieldOf h 127 122, sdev := fieldOf h 121 111, ddev := fieldOf h 110 100, score := fieldOf h 99 91, dcore := fieldOf h 90 82,
    epoch := fieldOf h 81 66, tag := fieldOf h 65 59, tally := fieldOf h 58 47, len := fieldOf h 46 39, addr := fieldOf h 38 0 }

/-- A message from its slots. -/
def chuteOfSlots : List (BitVec 128) → ChuteMsg
  | [] => { type := 0 }
  | h :: r =>
    let m := chuteHeader h
    let raw := r.zipIdx.foldl (fun n e => n + e.1.toNat * 2 ^ (128 * e.2)) 0
    { m with data := (raw >>> (8 * m.lead)) % 2 ^ (8 * m.bytes) }

end Sys2Proof

namespace Sys2Proof.Machine

/-! ### Ports -/

def State.portTx (s : State) (p : Nat) : Wire := s.ports.get {} (2 * p)
def State.portRx (s : State) (p : Nat) : Wire := s.ports.get {} (2 * p + 1)
def State.setPorts (s : State) (p : Nat) (tx rx : Wire) : State := { s with ports := (s.ports.set {} (2 * p) tx).set {} (2 * p + 1) rx }
def State.portState (s : State) (p : Nat) : Nat := s.fld Reg.CHU_PORT_STAT [p] F.CHU_PORT_STAT_STATE
def State.setPortState (s : State) (p v : Nat) : State := s.setFld Reg.CHU_PORT_STAT [p] F.CHU_PORT_STAT_STATE v

/-! ### Completions (R291, Table CH-6) -/

/-- Global address of a message in its span window. -/
def spanTarget (m : ChuteMsg) : Nat := 0x4000000000000 + m.ddev * 2 ^ 39 + m.addr

/-- The tag that a Porter knows a write or a Red by. -/
def State.spanTag (s : State) (p c : Nat) (m : ChuteMsg) : Nat :=
  if 4 ≤ m.kind ∧ m.kind ≤ 6 then
    (match (s.chan p c).act with
      | some a => ((a.out.find? (fun o => o.tag / 128 == spanTarget m / 128 && !o.failed)).map (·.tag)).getD (spanTarget m)
      | none => spanTarget m)
  else spanTarget m

/-- A message completes at the agent that issued it; the syndrome of an error carries STATUS. -/
def State.chuteDone (s : State) (who : Agent) (m : ChuteMsg) (status data : Nat) (poison : Bool) : State :=
  let ok := status == 0
  match who with
  | .porter p c =>
    if m.kind = 7 then (if ok then s else s.busError p (3 + 256 * status) (spanTarget m))
    else s.porterAnswer p c (s.spanTag p c m) (m.kind == 8) ok (3 + 256 * status) data poison
  | .group n g => s.groupAnswer n g (spanTarget m) (m.kind == 8) ok data poison status
  | .sequencer n => if ok then s else s.seqFault n (0x0B + 256 * status)
  | _ => s

/-- An answer to a message that port `p` brought. -/
def State.chuteReply (s : State) (p : Nat) (m : ChuteMsg) (type status len data : Nat) : State :=
  s.chutePush { type := type, sdev := s.spanId, ddev := m.sdev, score := m.score, tag := m.tag, len := if type % 32 = 0x10 then status else len - 1, data := data }
    (.chute p) (some p)

/-- A request completes: at its agent, or with an RCMP or RCMPD over the port that brought it. -/
def State.chuteFinish (s : State) (who : Agent) (m : ChuteMsg) (status data : Nat) (poison : Bool) : State :=
  match who with
  | .chute p =>
    if m.kind = 8 ∧ status = 0 then s.chuteReply p m (if poison then 0x31 else 0x11) 0 (m.len + 1) data
    else s.chuteReply p m 0x10 status 0 0
  | _ => s.chuteDone who m status data poison

/-! ### The destination's checks (R294, R295) -/

/-- The inst. of a core's Bay. -/
def State.instOfCore (s : State) (n : Nat) : Option Nat := (s.bayOfCore n).map s.instOfBay

/-- The EPOCH check. -/
def State.epochOk (s : State) (m : ChuteMsg) : Bool :=
  match s.bayOfCore m.dcore with
  | some b => m.epoch != 0 && m.epoch == s.fld Reg.CHU_EPOCH [b] F.CHU_EPOCH_EPOCH
  | none => false

/-- The target of an access through the inbound map, if the entry grants it. -/
def State.inbound (s : State) (m : ChuteMsg) (write : Bool) (len : Nat) : Option Nat :=
  let k := bitsOf m.addr 38 36
  let o := bitsOf m.addr 35 0
  let e := s.reg Reg.CHU_INWIN_BASE [k]
  let f (x : Fld) : Nat := fieldOf e x.hi x.lo
  let i := f F.CHU_INWIN_BASE_INSTANCE
  let a := f F.CHU_INWIN_BASE_BASE * 4096 + o
  if f F.CHU_INWIN_BASE_EN = 1 ∧ o + len ≤ s.fld Reg.CHU_INWIN_LIM [k] F.CHU_INWIN_LIM_SIZE ∧
     (if write then f F.CHU_INWIN_BASE_W else f F.CHU_INWIN_BASE_R) = 1 ∧ s.instOfCore m.dcore = some i ∧ s.lockerAllows i a then
    (match regionOf a with
      | .cellar _ | .locker _ | .pantry _ _ => if s.backed a ∧ s.backed (a + len - 1) then some a else none
      | _ => none)
  else none

/-- Pieces of a range that lie inside one line each. -/
def linePieces (a n : Nat) : List (Nat × Nat) :=
  if n = 0 then [] else
  (List.range ((a + n - 1) / 128 + 1 - a / 128)).map (fun k =>
    let lo := max a ((a / 128 + k) * 128)
    (lo, min (a + n) ((a / 128 + k + 1) * 128) - lo))

/-- Bytes written at their homes or in a Pantry; none while a line must wait. -/
def State.homeWrite (s : State) (a : Nat) (bs : List Byte) (poison : Bool) : Option State :=
  ((linePieces a bs.length).foldl (fun (r : Option State) e => r.bind (fun s =>
    match s.writeGlobal .home none e.1 ((bs.drop (e.1 - a)).take e.2) poison with
    | .done s _ => some s
    | _ => none)) (some s)).map (fun s => s.stored a bs.length)

/-- Bytes read at their homes or from a Pantry. -/
def State.homeRead (s : State) (a n : Nat) : Option (State × List Byte × Bool) :=
  (linePieces a n).foldl (fun (r : Option (State × List Byte × Bool)) e => r.bind (fun (s, bs, q) =>
    match s.readGlobal .home none e.1 e.2 with
    | .done s (cs, p) => some (s, bs ++ cs, q || p)
    | _ => none)) (some (s, [], false))

/-- The increment of a message that counts (R290): LKIND 5, LREMOTE 1. -/
def State.chuteCount (s : State) (m : ChuteMsg) (amount scope : Nat) : State :=
  s.addTally m.dcore m.tally { amount := amount, kind := 5, scope := scope, core := m.score, dev := some m.sdev }

/-- Amount of a type that counts data or packets. -/
def chuteAmount (m : ChuteMsg) : Nat :=
  if m.kind = 2 then m.len + 1 else if m.kind = 3 ∨ m.kind = 6 then 1 else if m.kind = 5 then 32 * popCount 4 m.addr else 0

/-- The reduction that an RRED asks for (Table CH-4). -/
def chuteRed (m : ChuteMsg) : RedOp :=
  { op := if m.len % 4 = 0 then .add else if m.len % 4 = 1 then .max else .min,
    ty := if bitsOf m.len 3 2 = 0 then .fp32 else if bitsOf m.len 3 2 = 1 then .bf16 else .int32,
    wide := m.wide, sectors := BitVec.ofNat 4 m.addr, operand := BitVec.ofNat 2048 m.data }

/-- STATUS that the checks ahead of the inbound map give, 0 for none (R257, R276, R295). -/
def State.chuteCheck (s : State) (m : ChuteMsg) : Nat :=
  if ¬ s.spanOn then 2
  else if ¬ s.epochOk m then 1
  else if s.dieDown (dieOfCore m.dcore) then 7
  else if (s.frozenCore m.dcore).isSome then 3 else 0

/-- The lowest number that no reduction of a Chute message holds. -/
def State.redTag (s : State) : Nat := ((List.range (s.chuteReds.length + 1)).find? (fun t => s.chuteReds.all (fun e => e.1 != t))).getD 0

/-- The serving die of an address is fenced. -/
def State.servedDown (s : State) (a : Nat) : Bool := match s.servingDie a with
  | some d => s.dieDown d
  | none => false

/-- A request is performed at this device, its destination; unchanged where a line must wait. -/
def State.chutePerform (s : State) (who : Agent) (m : ChuteMsg) (take : State → State) : State :=
  match s.chuteCheck m with
  | 0 =>
    let k := m.kind
    if k = 7 then ((take s).chuteCount m (m.addr % 65536) 6).chuteFinish who m 0 0 false
    else
      let red := 4 ≤ k ∧ k ≤ 6
      let at_ := if red then { m with addr := m.addr / 128 * 128 } else m
      let len := if red then 128 else m.len + 1
      match s.inbound at_ (k != 8) len with
      | none => (take s).chuteFinish who m 2 0 false
      | some a =>
        if s.servedDown a then (take s).chuteFinish who m 7 0 false
        else if red then
          if ¬ hasHome a then (take s).chuteFinish who m 2 0 false
          else
            let tag := s.redTag
            let s := take s
            ({ s with chuteReds := s.chuteReds ++ [(tag, (⟨m, who, none⟩ : ChuteItem))] }).arrive
              { kind := .red, who := .chute (match who with | .chute p => p | _ => 8), line := a / 128, tag := tag, red := some (chuteRed m), poison := m.poison }
        else if k = 8 then
          match s.homeRead a len with
          | none => s
          | some (s, bs, q) => (take s).chuteFinish who m 0 (ofLeBytes bs) q
        else
          match s.homeWrite a (leBytes len m.data) m.poison with
          | none => s
          | some s =>
            let s := take s
            (if k = 1 then s else s.chuteCount m (chuteAmount m) 5).chuteFinish who m 0 0 false
  | st =>
    let s := take s
    let s := if st = 1 then s.bump Reg.CHU_DROP [] F.CHU_DROP_STALE 1 else s
    let s := match st, s.frozenCore m.dcore with
      | 3, some i => s.refuseFrozen i
      | _, _ => s
    s.chuteFinish who m st 0 false

/-- The Cmp of an RRED's reduction: its increment, and its completion (R290). -/
def State.chuteRedDone (s : State) (tag : Nat) : State :=
  match s.chuteReds.find? (fun e => e.1 == tag) with
  | none => s
  | some e =>
    let s := { s with chuteReds := s.chuteReds.erase e }
    let m := e.2.msg
    (if m.kind = 4 then s else s.chuteCount m (chuteAmount m) 5).chuteFinish e.2.who m 0 0 false

/-! ### Routing and sending (R288, R289, R297) -/

/-- The origin tables of a message's agent: its Bay's, or the transit tables for the Storekeeper's own and forwarded messages. -/
def State.tablesFor (s : State) (who : Agent) (m : ChuteMsg) : List RouteTable :=
  match who with
  | .chute _ => s.transit
  | .storekeeper => s.transit
  | _ => match s.bayOfCore m.score with
    | some b => s.origins.get [] b
    | none => []

/-- The port of a message by the table in use. -/
def State.chutePort (s : State) (who : Agent) (m : ChuteMsg) (alt : Nat) : Option Nat := portOf (s.routeMask (s.tablesFor who m) alt m.ddev) m.score

def isReq (m : ChuteMsg) : Bool := m.channel == some 0

/-- A message that no port can carry: a request completes UNREACHABLE, a span-management message is dropped and counted. -/
def State.unreachable (s : State) (x : ChuteItem) : State :=
  if isReq x.msg then s.chuteFinish x.who x.msg 5 0 false
  else if x.msg.channel = some 2 then s.bump Reg.CHU_DROP [] F.CHU_DROP_LATE 1 else s

/-- A free tag of a message's SCORE on a port. -/
def State.freeTag (s : State) (p score : Nat) : Option Nat :=
  (List.range 128).find? (fun t => s.chuteLive.all (fun e => e.1 != p || e.2.1.score != score || e.2.1.tag != t))

/-- An item put back with its port. -/
def State.queueFor (s : State) (k p : Nat) (x : ChuteItem) : State := { s with chuteOut := setAt s.chuteOut k { x with port := some p } }

/-- The item goes out on port `p` when it holds a tag and credits; else it stays queued for it. -/
def State.sendOn (s : State) (k p : Nat) (x : ChuteItem) : State :=
  let own := isReq x.msg && (match x.who with | .chute _ => false | _ => true)
  match (if own then s.freeTag p x.msg.score else some 0) with
  | none => if own then s.queueFor k p x else s
  | some t =>
    let m := if own then { x.msg with tag := t } else x.msg
    let ss := m.slots
    if s.portState p ≠ 2 ∨ ¬ (s.portTx p).room chuteKind (m.channel.getD 0) ss.length then s.queueFor k p x
    else
      let (tx, rx) := (s.portTx p).sendSlots chuteKind (s.portRx p) (m.channel.getD 0) ss
      let s := ({ s with chuteOut := s.chuteOut.eraseIdx k }).setPorts p tx rx
      let s := s.account (if own then s.bayOfCore m.score else none) Reg.BAY_CHU Reg.BAY_INST_CHU m.bytes
      match x.who with
      | .chute i => if isReq m then { s with chuteFwd := s.chuteFwd ++ [(p, i, m)] } else s
      | _ => if own then { s with chuteLive := s.chuteLive ++ [(p, m, x.who)] } else s

/-- The `k`-th waiting message: served locally where it names this device, routed once, and sent when it can be. A port that is disabled completes its messages with LINK. -/
def State.chuteSend (s : State) (k : Nat) : State :=
  match s.chuteOut[k]? with
  | none => s
  | some x =>
    let drop (s : State) : State := { s with chuteOut := s.chuteOut.eraseIdx k }
    if x.port.isNone ∧ x.msg.ddev = s.spanId ∧ isReq x.msg then s.chutePerform x.who x.msg drop
    else
      match x.port.or (s.chutePort x.who x.msg (s.fld Reg.CHU_RSTAT [] F.CHU_RSTAT_ALT)) with
      | none => (drop s).unreachable x
      | some p => if s.portState p = 4 ∧ isReq x.msg then (drop s).chuteFinish x.who x.msg 4 0 false else s.sendOn k p x
def execChuteMessageSend (k : Nat) (s : State) : Host.Outcome State Fault Refusal := .next (s.keepPilot (s.chuteSend k))

/-! ### Port failure (R287, R299) -/

/-- An item queued for the failed port is routed again by the port's alternate table; an answer queued for it is gone. -/
def State.rerouteItem (s : State) (p : Nat) (x : ChuteItem) : Option ChuteItem × Bool :=
  if x.port ≠ some p then (some x, false)
  else if x.msg.channel = some 1 then (none, false)
  else match s.chutePort x.who x.msg (1 + p) with
    | some q => (some { x with port := some q }, false)
    | none => (none, true)

/-- A port that was up fails. -/
def State.portFails (s : State) (p : Nat) : State :=
  if s.portState p ≠ 2 then s else
  let failed := s.fld Reg.CHU_RSTAT [] F.CHU_RSTAT_FAILED ||| 2 ^ p
  let s := (s.setPortState p 3).setPorts p {} {}
  let s := (s.setFld Reg.CHU_RSTAT [] F.CHU_RSTAT_FAILED failed).setFld Reg.CHU_RSTAT [] F.CHU_RSTAT_ALT (1 + (lowestOne failed 8 0).getD 0)
  let live := s.chuteLive.filter (fun e => e.1 == p)
  let fwd := s.chuteFwd.filter (fun e => e.1 == p)
  let lost := s.chuteOut.filter (fun x => (s.rerouteItem p x).2)
  let s := { s with chuteLive := s.chuteLive.filter (fun e => e.1 != p), chuteFwd := s.chuteFwd.filter (fun e => e.1 != p),
                    chuteOut := s.chuteOut.filterMap (fun x => (s.rerouteItem p x).1) }
  let s := live.foldl (fun s e => s.chuteDone e.2.2 e.2.1 4 0 false) s
  let s := fwd.foldl (fun s e => s.chuteReply e.2.1 e.2.2 0x10 4 0 0) s
  let s := lost.foldl (fun s x => s.unreachable x) s
  ((s.log { kind := 0x0D, index := p, cls := .contained }).chuEvent 1).spnEvent

def execChuteAckTimeout (p : PortId) (s : State) : Host.Outcome State Fault Refusal := .next (s.keepPilot (if (s.portTx p).buf.isEmpty then s else s.portFails p))

/-- A lane loses its framing lock (R282, R287). -/
def State.laneLoss (s : State) (p lane : Nat) : State :=
  let v := s.fld Reg.CHU_PORT_STAT [p] F.CHU_PORT_STAT_LANES
  (s.setFld Reg.CHU_PORT_STAT [p] F.CHU_PORT_STAT_LANES (if v.testBit lane then v - 2 ^ lane else v)).portFails p
def execLaneLockLoss (p : PortId) (lane : Fin 12) (s : State) : Host.Outcome State Fault Refusal := .next (s.keepPilot (s.laneLoss p lane))

/-! ### Receiving (R284, R287) -/

def State.chuteDeliver (s : State) (p : Nat) (ss : List (BitVec 128)) : State :=
  let m := chuteOfSlots ss
  match m.channel with
  | none => s.portFails p
  | some ch =>
    let rx := s.portRx p
    let s := s.setPorts p (s.portTx p) { rx with returns := rx.returns.set 0 ch (rx.returns.get 0 ch + ss.length) }
    { s with chuteIn := s.chuteIn ++ [(p, m)] }

/-- A flit of a good block. -/
def State.chuteFlit (s : State) (p : Nat) (f : BitVec 2048) : State :=
  if s.portState p ≠ 2 then s
  else if ¬ flitGood f then s.setPorts p (s.portTx p) { s.portRx p with naking := true }
  else
    let s := s.setPorts p ((s.portTx p).told chuteKind f) (s.portRx p)
    let s := s.when (flitField f chuteKind.nak 1 == 1) (fun s => s.bump Reg.CHU_PORT_CNT [p] F.CHU_PORT_CNT_REPLAY 1)
    if flitField f chuteKind.kindLo 2 ≠ 0 then s else
    let rx := (s.portRx p).takeData chuteKind f
    let (ms, rest) := splitSlots (fun h => 1 + (chuteHeader h).dslots) (rx.partials.length + 1) rx.partials
    ms.foldl (fun s ss => s.chuteDeliver p ss) (s.setPorts p (s.portTx p) { rx with partials := rest })

/-- A block after its six codewords were decoded: symbols corrected, codewords beyond correction, and its 3,084 message symbols (R284). -/
def State.chuteBlock (s : State) (p corrected bad : Nat) (block : BitVec 30840) : State :=
  if s.portState p ≠ 2 then s else
  let s := (s.bump Reg.CHU_PORT_FEC [p] F.CHU_PORT_FEC_CORR corrected).bump Reg.CHU_PORT_CNT [p] F.CHU_PORT_CNT_UNCORR bad
  if 0 < bad then s.setPorts p (s.portTx p) { s.portRx p with naking := true }
  else (List.range 15).foldl (fun s k => s.chuteFlit p (BitVec.ofNat 2048 (block.toNat >>> (120 + 2048 * k)))) s
def execChuteBlockReceive (p : PortId) (corrected : Nat) (bad : Fin 7) (block : BitVec 30840) (s : State) : Host.Outcome State Fault Refusal :=
  .next (s.keepPilot (s.chuteBlock p corrected bad block))

/-- No acknowledgement for 200 ns: one is sent (R287). -/
def State.ackInterval (s : State) (p : Nat) : State := s.setPorts p (s.portTx p) { s.portRx p with unacked := 0, returns := (s.portRx p).returns.drop 1 }
def execChuteAckInterval (p : PortId) (s : State) : Host.Outcome State Fault Refusal := .next (s.keepPilot (s.ackInterval p))

/-! ### Messages at their destination -/

/-- The `k`-th delivered message, if it has one of the kinds and names this device (`here`) or another. -/
def State.chuteTake (s : State) (k : Nat) (here : Bool) (kinds : List Nat) (f : State → Nat → ChuteMsg → State) : State :=
  match s.chuteIn[k]? with
  | some (p, m) => if kinds.contains m.kind ∧ (m.ddev == s.spanId) = here then f s p m else s
  | none => s

def State.dropIn (k : Nat) (s : State) : State := { s with chuteIn := s.chuteIn.eraseIdx k }

/-- A request of a kind is performed. -/
def State.takeReq (s : State) (k kind : Nat) : State := s.chuteTake k true [kind] (fun s p m => s.chutePerform (.chute p) m (State.dropIn k))
def execRwr (k : Nat) (s : State) : Host.Outcome State Fault Refusal := .next (s.keepPilot (s.takeReq k 1))
def execRwrB (k : Nat) (s : State) : Host.Outcome State Fault Refusal := .next (s.keepPilot (s.takeReq k 2))
def execRwrP (k : Nat) (s : State) : Host.Outcome State Fault Refusal := .next (s.keepPilot (s.takeReq k 3))
def execRred (k : Nat) (s : State) : Host.Outcome State Fault Refusal := .next (s.keepPilot (s.takeReq k 4))
def execRredB (k : Nat) (s : State) : Host.Outcome State Fault Refusal := .next (s.keepPilot (s.takeReq k 5))
def execRredP (k : Nat) (s : State) : Host.Outcome State Fault Refusal := .next (s.keepPilot (s.takeReq k 6))
def execRtinc (k : Nat) (s : State) : Host.Outcome State Fault Refusal := .next (s.keepPilot (s.takeReq k 7))
def execRrd (k : Nat) (s : State) : Host.Outcome State Fault Refusal := .next (s.keepPilot (s.takeReq k 8))

/-- A completion meets the message it answers; a late one is discarded and counted (R301). -/
def State.takeRcmp (s : State) (k : Nat) (kind : Nat) : State :=
  s.chuteTake k true [kind] (fun s p m =>
    let s := s.dropIn k
    match s.chuteLive.find? (fun e => e.1 == p && e.2.1.score == m.score && e.2.1.tag == m.tag) with
    | none => s.bump Reg.CHU_DROP [] F.CHU_DROP_LATE 1
    | some e => ({ s with chuteLive := s.chuteLive.erase e }).chuteDone e.2.2 e.2.1 (if kind = 0x10 then m.len else 0) m.data m.poison)
def execRcmp (k : Nat) (s : State) : Host.Outcome State Fault Refusal := .next (s.keepPilot (s.takeRcmp k 0x10))
def execRcmpd (k : Nat) (s : State) : Host.Outcome State Fault Refusal := .next (s.keepPilot (s.takeRcmp k 0x11))

/-- A transit device passes a message on (R297, R298): requests and span management by the transit table, completions back the way the request came. -/
def State.forward (s : State) (k : Nat) : State :=
  s.chuteTake k false [1, 2, 3, 4, 5, 6, 7, 8, 0x10, 0x11, 0x18, 0x19, 0x1A] (fun s p m =>
    let s := s.dropIn k
    if m.channel = some 1 then
      match s.chuteFwd.find? (fun e => e.1 == p && e.2.2.sdev == m.ddev && e.2.2.score == m.score && e.2.2.tag == m.tag) with
      | none => s.bump Reg.CHU_DROP [] F.CHU_DROP_LATE 1
      | some e => ({ s with chuteFwd := s.chuteFwd.erase e }).chutePush m (.chute p) (some e.2.1)
    else
      match s.chutePort (.chute p) m (s.fld Reg.CHU_RSTAT [] F.CHU_RSTAT_ALT) with
      | none => s.unreachable ⟨m, .chute p, none⟩
      | some q => s.chutePush m (.chute p) (some q))
def execChuteForward (k : Nat) (s : State) : Host.Outcome State Fault Refusal := .next (s.keepPilot (s.forward k))

/-- CEPOCH comes from the master (R303): the first four data bytes. -/
def State.takeCepoch (s : State) (k : Nat) : State :=
  s.chuteTake k true [0x19] (fun s _ m => ((s.dropIn k).setFld Reg.CHU_SPAN [] F.CHU_SPAN_CEPOCH (m.data % 2 ^ 32)).chuEvent 2)
def execSpnCepoch (k : Nat) (s : State) : Host.Outcome State Fault Refusal := .next (s.keepPilot (s.takeCepoch k))

/-- A failure report reaches the master (R303). -/
def State.takeSpnFail (s : State) (k : Nat) : State :=
  s.chuteTake k true [0x1A] (fun s _ _ => let s := s.dropIn k; if s.fld Reg.CHU_SPAN [] F.CHU_SPAN_MASTER = s.spanId then s.raiseEpoch else s)
def execSpnFail (k : Nat) (s : State) : Host.Outcome State Fault Refusal := .next (s.keepPilot (s.takeSpnFail k))

/-- TIMEOUT_US passed since the `k`-th outstanding request was sent (R301). -/
def State.messageTimeout (s : State) (k : Nat) : State :=
  match s.chuteLive[k]? with
  | some e => ({ s with chuteLive := s.chuteLive.eraseIdx k }).chuteDone e.2.2 e.2.1 6 0 false
  | none => s
def execMessageTimeout (k : Nat) (s : State) : Host.Outcome State Fault Refusal := .next (s.keepPilot (s.messageTimeout k))

/-! ### Training and commands (R285, R297, R300, R302) -/

/-- A port completes training: its partner's ID and level. A partner with the device's own ID leaves it training (R302). -/
def State.trainingDone (s : State) (p peer level : Nat) : State :=
  if s.portState p ≠ 1 ∨ ¬ s.bit Reg.CHU_PORT_CFG [p] F.CHU_PORT_CFG_EN then s
  else if peer = s.spanId then s.chuEvent 1
  else
    let s := (s.setPortState p 2).setPorts p {} {}
    let s := (s.setFld Reg.CHU_PORT_STAT [p] F.CHU_PORT_STAT_PEER peer).setFld Reg.CHU_PORT_STAT [p] F.CHU_PORT_STAT_LANES 0xFFF
    s.setFld Reg.CHU_PORT_STAT [p] F.CHU_PORT_STAT_LEVEL (min level (s.fld Reg.DEV_FEATURE [] F.DEV_FEATURE_EFFECTIVE))
def execChuteTrainingDone (p : PortId) (peer : Fin 2048) (level : Fin 256) (s : State) : Host.Outcome State Fault Refusal :=
  .next (s.keepPilot (s.trainingDone p peer level))

/-- A port that has not trained tries again while EN is 1 (R285). -/
def State.trainingRetry (s : State) (p : Nat) : State :=
  if s.portState p ≠ 1 then s
  else if s.bit Reg.CHU_PORT_CFG [p] F.CHU_PORT_CFG_EN then s.setFld Reg.CHU_PORT_STAT [p] F.CHU_PORT_STAT_LANES 0
  else s.setPortState p 4
def execChuteTrainingRetry (p : PortId) (s : State) : Host.Outcome State Fault Refusal := .next (s.keepPilot (s.trainingRetry p))

/-- RETRAIN of a failed port (R300). -/
def State.retrainPort (s : State) (w : Writer) (p : Nat) : State :=
  s.asManager w Reg.CHU_CMD.base (fun s =>
    let s := s.wrote Reg.CHU_CMD [] (1 + 16 * p)
    if s.portState p = 3 then (s.setPortState p 1).setFld Reg.CHU_PORT_STAT [p] F.CHU_PORT_STAT_LANES 0 else s)
def execRetrain (w : Writer) (p : PortId) (s : State) : Host.Outcome State Fault Refusal := .next (s.keepPilot (s.retrainPort w p))

/-- RESTORE_ROUTES: ports that are up again leave FAILED (R300). -/
def State.restoreRoutes (s : State) (w : Writer) : State :=
  s.asManager w Reg.CHU_CMD.base (fun s =>
    let s := s.wrote Reg.CHU_CMD [] 2
    let f := maskOf ((onesOf 8 (s.fld Reg.CHU_RSTAT [] F.CHU_RSTAT_FAILED)).filter (fun p => s.portState p != 2))
    (s.setFld Reg.CHU_RSTAT [] F.CHU_RSTAT_FAILED f).setFld Reg.CHU_RSTAT [] F.CHU_RSTAT_ALT (match lowestOne f 8 0 with
      | some p => 1 + p
      | none => 0))
def execRestoreRoutes (w : Writer) (s : State) : Host.Outcome State Fault Refusal := .next (s.keepPilot (s.restoreRoutes w))

/-- XLOAD: nine tables of 4,096 bytes from CHU_XADDR; an address that is not backed, or poison, leaves the tables as they are with a contained record. -/
def State.xload (s : State) (w : Writer) : State :=
  s.asManager w Reg.CHU_CMD.base (fun s =>
    let s := s.wrote Reg.CHU_CMD [] 3
    let a := s.fld Reg.CHU_XADDR [] F.CHU_XADDR_ADDR * 64
    let bs := (List.range 36864).map (fun i => s.peekByte (a + i))
    if ¬ s.storeBacked a 36864 ∨ bs.any (·.2) then s.log { kind := 0x16, index := 0, cls := .contained, address := a }
    else { s with transit := (List.range 9).map (fun i => ⟨i, ((bs.drop (4096 * i)).take 4096).map (·.1)⟩) })
def execXload (w : Writer) (s : State) : Host.Outcome State Fault Refusal := .next (s.keepPilot (s.xload w))

/-- A write of CHU_SPAN: EN always; ID and MASTER only while EN is 0 (R302). -/
def State.spanWrite (s : State) (w : Writer) (v : DWord) : State :=
  s.asManager w Reg.CHU_SPAN.base (fun s =>
    let f (x : Fld) : Nat := fieldOf v x.hi x.lo
    let on := s.bit Reg.CHU_SPAN [] F.CHU_SPAN_EN
    let s := s.setFld Reg.CHU_SPAN [] F.CHU_SPAN_EN (f F.CHU_SPAN_EN)
    if on then
      if f F.CHU_SPAN_ID ≠ s.fld Reg.CHU_SPAN [] F.CHU_SPAN_ID ∨ f F.CHU_SPAN_MASTER ≠ s.fld Reg.CHU_SPAN [] F.CHU_SPAN_MASTER then
        s.refuse w Reg.CHU_SPAN.base causeState
      else s
    else (s.setFld Reg.CHU_SPAN [] F.CHU_SPAN_ID (f F.CHU_SPAN_ID)).setFld Reg.CHU_SPAN [] F.CHU_SPAN_MASTER (f F.CHU_SPAN_MASTER))
def execSpanEnable (w : Writer) (v : DWord) (s : State) : Host.Outcome State Fault Refusal := .next (s.keepPilot (s.spanWrite w v))

/-- A write of CHU_PORT_CFG.EN: a port taken out of use stops, one put into use trains (R285, Table RL-5). -/
def State.portEnable (s : State) (p : Nat) (on : Bool) : State :=
  let s := if on then (if s.portState p = 4 ∨ s.portState p = 0 then s.setPortState p 1 else s) else (s.portFails p).setPortState p 4
  let up (q : Nat) : Bool := s.bit Reg.CHU_PORT_CFG [q] F.CHU_PORT_CFG_EN
  (s.setDom 4 ((List.range 4).any up)).setDom 5 ((List.range 4).any (fun q => up (4 + q)))

/-- An inbound retrain request while the OV4 is Off asserts wake_n (R405). -/
def State.inboundRetrain (s : State) : State := s.wakeOff id
def execInboundChuteRetrainRequest (_p : PortId) (s : State) : Host.Outcome State Fault Refusal := .next s.inboundRetrain

end Sys2Proof.Machine
end

