-- ==== Sys2Proof/Machine/Clocks.lean ====
section
/-! DEFINITION. Clocks: the reference watch, PLLs, source switches, spread spectrum (17_clocks.md R339-R349). -/
namespace Sys2Proof.Machine

/-- The Pilot's count of reference cycles over 1,024 PCLK cycles (R339). -/
def State.refCheck (s : State) (n : Nat) : State :=
  if s.power.mode = 2 ∨ (10000 ≤ n ∧ n ≤ 16000) then s
  else (s.keepPilot ((s.setFld Reg.CLK_REF [] F.CLK_REF_REF_OK 0).setFld Reg.CLK_EVT [] F.CLK_EVT_REF_BAD 1)).pilotReset 0
def execRefclkCheck (count : Nat) (s : State) : Host.Outcome State Fault Refusal := .next (s.refCheck count)

/-- A refused clock write (R345): its code, the event, and a record whose source is the clock block. -/
def State.clockRefuse (s : State) (u code : Nat) (off : Nat) : State :=
  ((s.setFld Reg.CLK_STAT [u] F.CLK_STAT_REFUSE code).setFld Reg.CLK_EVT [] F.CLK_EVT_REFUSED 1).log
    { kind := 0x14, index := u, cls := .contained, address := off, syndrome := code }

/-- PLLs of a unit (Table CK-2). -/
def pllCount (u : Nat) : Nat := if u < 4 then 4 else 5

/-- The PLL that a value of CLK_SELu selects for each domain, in the order ACLK, FCLK, MCLK, SCLK. -/
def selected (u : Nat) (v : DWord) : List Nat :=
  let a := fieldOf v 1 0
  let f := fieldOf v 3 2
  if u < 4 then (if a = 0 then [] else [a - 1]) ++ (if f = 0 then [] else [f + 1])
  else (if f = 0 then [] else [f - 1]) ++ (if fieldOf v 5 4 = 1 then [2] else []) ++ (if u = 5 ∧ fieldOf v 7 6 = 1 then [3] else [])

def State.pllReady (s : State) (u p : Nat) : Bool := s.bit Reg.CLK_PLL [u, p] F.CLK_PLL_READY

/-- READY of a PLL, in its register and in CLK_STATu. -/
def State.setReady (s : State) (u p : Nat) (on : Bool) : State :=
  let s := s.setFld Reg.CLK_PLL [u, p] F.CLK_PLL_READY (if on then 1 else 0)
  s.setReg Reg.CLK_STAT [u] (withField (s.reg Reg.CLK_STAT [u]) p p (if on then 1 else 0))

/-- A field takes its new value unless that is a reserved encoding (R3). -/
def takeField (old new : DWord) (f : Fld) (ok : Nat → Bool) : DWord :=
  if ok (fieldOf new f.hi f.lo) then withField old f.hi f.lo (fieldOf new f.hi f.lo) else old

/-- A write of CLK_PLLu_p (R342, R343, R345). -/
def State.pllWrite (s : State) (w : Writer) (u p : Nat) (v : DWord) : State :=
  let off := Reg.CLK_PLL.addr [u, p]
  if w ≠ .storekeeper then s.refuse w off causeActor
  else if pllCount u ≤ p then s
  else
    let old := s.reg Reg.CLK_PLL [u, p]
    let fb (n : Nat) : Bool := decide (560 ≤ n) && decide (n ≤ 1120)
    let all (_ : Nat) : Bool := true
    let new := takeField (takeField (takeField (takeField old v F.CLK_PLL_FRAC all) v F.CLK_PLL_POSTDIV (fun n => n != 0)) v F.CLK_PLL_FBDIV fb) v F.CLK_PLL_EN all
    let bad := !fb (fieldOf v F.CLK_PLL_FBDIV.hi F.CLK_PLL_FBDIV.lo) || fieldOf v F.CLK_PLL_POSTDIV.hi F.CLK_PLL_POSTDIV.lo == 0
    let s := s.when bad (fun s => s.refuse w off causeReserved)
    if (selected u (s.reg Reg.CLK_SEL [u])).contains p then (if new = old then s else s.clockRefuse u 2 off)
    else
      let s := (s.setReg Reg.CLK_PLL [u, p] new).setReady u p false
      let on := bitAt new F.CLK_PLL_EN.lo
      { s with clocks := { s.clocks with started := s.clocks.started.set none (8 * u + p) (if on then some (s.reg Reg.CLK_REFCNT [u]).toNat else none) } }
def execClkPllWrite (w : Writer) (u : Fin 6) (p : Fin 5) (v : DWord) (s : State) : Host.Outcome State Fault Refusal := .next (s.keepPilot (s.pllWrite w u p v))

/-- 4,096 reference cycles after its start a PLL reads READY. -/
def State.pllStarted (s : State) (u p : Nat) : State :=
  match s.clocks.started.get none (8 * u + p) with
  | none => s
  | some t =>
    if ((s.reg Reg.CLK_REFCNT [u]).toNat + 2 ^ 64 - t) % 2 ^ 64 < 4096 then s
    else { s.setReady u p true with clocks := { s.clocks with started := s.clocks.started.set none (8 * u + p) none } }
def execPllReady (u : Fin 6) (p : Fin 5) (s : State) : Host.Outcome State Fault Refusal := .next (s.keepPilot (s.pllStarted u p))

/-- Fields of CLK_SELu that unit `u` has, each with the number of its encodings. -/
def selFields (u : Nat) : List (Fld × Nat) :=
  (if u < 4 then [(F.CLK_SEL_ACLK_SRC, 3)] else []) ++ [(F.CLK_SEL_FCLK_SRC, 3)] ++ (if 4 ≤ u then [(F.CLK_SEL_MCLK_SRC, 2)] else []) ++
    (if u = 5 then [(F.CLK_SEL_SCLK_SRC, 2)] else [])

/-- A write of CLK_SELu (R344, R345); where several codes hold, the lowest is recorded. -/
def State.selWrite (s : State) (w : Writer) (u : Nat) (v : DWord) : State :=
  let off := Reg.CLK_SEL.addr [u]
  if w ≠ .storekeeper then s.refuse w off causeActor
  else
    let old := s.reg Reg.CLK_SEL [u]
    let fs := selFields u
    let new := fs.foldl (fun x f => takeField x v f.1 (fun n => decide (n < f.2))) old
    let s := s.when (fs.any (fun f => decide (f.2 ≤ fieldOf v f.1.hi f.1.lo))) (fun s => s.refuse w off causeReserved)
    if (selected u new).any (fun p => !s.pllReady u p) then s.clockRefuse u 1 off
    else if s.bit Reg.CLK_STAT [u] F.CLK_STAT_SWITCHING then s.clockRefuse u 3 off
    else if new = old then s
    else (s.setReg Reg.CLK_SEL [u] new).setFld Reg.CLK_STAT [u] F.CLK_STAT_SWITCHING 1
def execClkSelWrite (w : Writer) (u : Fin 6) (v : DWord) (s : State) : Host.Outcome State Fault Refusal := .next (s.keepPilot (s.selWrite w u v))

def execClockSwitchDone (u : Fin 6) (s : State) : Host.Outcome State Fault Refusal := .next (s.keepPilot (s.setFld Reg.CLK_STAT [u] F.CLK_STAT_SWITCHING 0))

/-- The next modulation period of a unit takes CLK_SSCu (R347). -/
def execSscPeriodStart (u : Fin 6) (s : State) : Host.Outcome State Fault Refusal :=
  .next (s.keepPilot { s with clocks := { s.clocks with spread := s.clocks.spread.set (resetOf Reg.CLK_SSC.fields 0) u (s.reg Reg.CLK_SSC [u]) } })

end Sys2Proof.Machine
end

