-- ==== Sys2Proof/Machine/Power.lean ====
section
/-! DEFINITION. Power, current and thermal control (18_power_and_thermal.md R350-R368, R404). -/
namespace Sys2Proof.Machine

/-- PWR_EVT bits (R368). -/
def State.powerEvent (s : State) (bits : Nat) : State := s.events Reg.PWR_EVT [] (s.fld Reg.PWR_EVT_EN [] F.PWR_EVT_EN_EN) bits 97

def State.setPower (s : State) (f : PowerCtl → PowerCtl) : State := { s with power := f s.power }

/-- A compute die that is up. -/
def State.dieUp (s : State) (d : Nat) : Bool := s.dieState d == 2

/-! ### Currents and package power (R351, R352) -/

/-- Rails of Table PW-2. -/
def railCount : Nat := 13

/-- Nominal voltage of a rail (Table EP-2), mV; VDD_Ad from the operating point. -/
def State.nominal (s : State) (r : Nat) : Nat :=
  if r < 4 then s.fld Reg.PWR_DIE_STAT [r] F.PWR_DIE_STAT_VDD_MV else if r < 10 then 750 else if r = 10 then 900 else if r = 11 then 500 else 1800

def State.railVolts (s : State) (r : Nat) : Nat := (s.power.volts.get none r).getD (s.nominal r)

/-- Mean of the newest `n` samples, of those there are. -/
def meanOf (xs : List Nat) (n : Nat) : Rat :=
  let ys := xs.take n
  if ys.isEmpty then 0 else ((ys.foldl (· + ·) 0 : Nat) : Rat) / ((ys.length : Nat) : Rat)

/-- Samples of the three rail windows: 1, 20, 1,000 µs. -/
def windowSamples (w : Nat) : Nat := if w = 0 then 10 else if w = 1 then 200 else 10000
def windowLen (w : Nat) : Nat := if w = 0 then 1 else if w = 1 then 20 else 1000

def State.railMean (s : State) (r w : Nat) : Rat := meanOf (s.power.amps.get [] r) (windowSamples w)

/-- PWR_RAILr_LIM of a window, 0.1 A. -/
def State.railLimit (s : State) (r w : Nat) : Nat :=
  s.fld Reg.PWR_RAIL_LIM [r] (if w = 0 then F.PWR_RAIL_LIM_L1US else if w = 1 then F.PWR_RAIL_LIM_L20US else F.PWR_RAIL_LIM_L1MS)

/-- Package power over the newest `n` samples, W (a sample is kept in tenths of a milliwatt). -/
def State.watts (s : State) (n : Nat) : Rat := meanOf s.power.watts n / 10000

/-- Relative excess over a limit. -/
def excessOver (x : Rat) (limit : Nat) : Rat := if limit = 0 then Config.overZero x else (x - (limit : Rat)) / (limit : Rat)

/-! ### The bubble throttle (R353, R354) -/

/-- LIMIT of R364. -/
def State.powerLimit (s : State) : Nat :=
  let cap := s.fld Reg.PWR_CAP [] F.PWR_CAP_CAP_W
  let sust := s.fld Reg.PWR_PKG [] F.PWR_PKG_SUST_W
  if cap ≠ 0 ∧ cap < sust then cap else sust

/-- A temperature that drives reason 5 or 6: an invalid reading counts as the limit (R279). -/
def heat (t limit : Nat) : Nat := if t = 0xFF then limit else t

/-- The excess of reason `r` in its window `w` for die `d` (Table PW-3); a reason without a limit in force lies below it. -/
def State.excess (s : State) (r w d : Nat) : Option Rat :=
  let ratio (t start limit : Nat) : Rat := (((t : Int) - (start : Int) : Int) : Rat) / (((limit : Int) - (start : Int) : Int) : Rat)
  match r with
  | 0 => some (excessOver (s.railMean d w) (s.railLimit d w))
  | 1 => some (excessOver (s.railMean (4 + d) w) (s.railLimit (4 + d) w))
  | 2 =>
    let es := [8, 9, 10, 11].map (fun k => excessOver (s.railMean k w) (s.railLimit k w))
    let temp := max (heat (s.power.ioTemp.get 0 4) 105) (heat (s.power.ioTemp.get 0 5) 105)
    some ((es ++ (if w = 2 then [ratio temp 100 105] else [])).foldl max (es.headD 0))
  | 3 => if w = 0 then some (excessOver (s.watts 100) (s.fld Reg.PWR_PKG [] F.PWR_PKG_PEAK_W)) else none
  | 4 => if w = 2 then some (excessOver (s.watts 10000) (s.fld Reg.PWR_PKG [] F.PWR_PKG_SUST_W)) else none
  | 5 => if w = 2 then some (ratio (heat (s.fld Reg.PWR_DIE_STAT [d] F.PWR_DIE_STAT_TC) 105) (s.fld Reg.PWR_THERM [] F.PWR_THERM_CD_START) 105) else none
  | 6 => if w = 2 then some (ratio (heat (s.fld Reg.PWR_DIE_STAT [d] F.PWR_DIE_STAT_TU) 95) (s.fld Reg.PWR_THERM [] F.PWR_THERM_UC_START) 95) else none
  | 7 => if w = 2 then some (let c := s.fld Reg.PWR_CAP [] F.PWR_CAP_CAP_W; if c = 0 then -1 else excessOver (s.watts 10000) c) else none
  | 8 => if w = 2 then some (let c := s.fld Reg.PWR_STAT [] F.PWR_STAT_SPAN_CAP; if c = 0 then -1 else excessOver (s.watts 10000) c) else none
  | _ => none

/-- Length in µs of the window of a reason; the package peak has 10 µs. -/
def reasonLen (r w : Nat) : Nat := if r = 3 then 10 else windowLen w

/-- The accumulator after a sample. -/
def accNext (acc e : Rat) (gain len : Nat) : Rat :=
  if 0 < e then min 63 (acc + e * (gain : Rat) / (8 * (len : Rat)))
  else if e < -(1 / 32) then max 0 (acc - 1 / (8 * (len : Rat)))
  else acc

def thrKey (r w d : Nat) : Nat := 4 * (3 * r + w) + d

def State.accOf (s : State) (r d : Nat) : Rat := (List.range 3).foldl (fun m w => max m (s.power.acc.get 0 (thrKey r w d))) 0

/-- The reason with the largest accumulator, the lowest code on a tie; none when all are 0. -/
def State.topReason (s : State) (d : Nat) : Nat × Rat :=
  (List.range 9).foldl (fun (m : Nat × Rat) r => if m.2 < s.accOf r d then (r, s.accOf r d) else m) (15, 0)

/-- The samples of currents enter, in 0.1 A by rail. -/
def State.sampleRails (s : State) (amps : List Nat) : State :=
  let p := (List.range railCount).foldl (fun n r => n + amps.getD r 0 * s.railVolts r) 0
  let now := (List.range railCount).foldl (fun (t : Tbl (List Nat)) r => t.set [] r ((amps.getD r 0 :: t.get [] r).take 10000)) s.power.amps
  let s := s.setPower (fun x => { x with watts := (p :: x.watts).take 10000, amps := now })
  let s := (List.range railCount).foldl (fun s r => s.setReg Reg.PWR_RAIL_MEAS [r] (BitVec.ofNat 64
    ((List.range 3).foldl (fun n w => n + ((s.railMean r w).floor.toNat % 65536) * 2 ^ (32 - 16 * w)) 0))) s
  (s.setFld Reg.PWR_STAT [] F.PWR_STAT_P_10US (s.watts 100).floor.toNat).setFld Reg.PWR_STAT [] F.PWR_STAT_P_1MS (s.watts 10000).floor.toNat

/-- Level and reason of a die, and the duration of its reason: ten reference cycles. -/
def State.setLevel (s : State) (d : Nat) : State :=
  let (r, a) := s.topReason d
  let level := if s.bit Reg.PWR_DIE_STAT [d] F.PWR_DIE_STAT_HARD then 63 else a.floor.toNat
  let s := s.when (s.power.level.get 0 d == 0 && level != 0) (fun s => s.powerEvent 2)
  let s := s.setPower (fun x => { x with level := x.level.set 0 d level })
  let r := if level = 0 then 15 else r
  let s := s.setFld Reg.PWR_DIE_STAT [d] F.PWR_DIE_STAT_REASON r
  if r = 15 then s else
  let was := s.bit Reg.PWR_DIE_THR [d, r] F.PWR_DIE_THR_SAT
  let s := s.bump Reg.PWR_DIE_THR [d, r] F.PWR_DIE_THR_COUNT 10
  if s.fld Reg.PWR_DIE_THR [d, r] F.PWR_DIE_THR_COUNT = 2 ^ 63 - 1 ∧ ¬ was then (s.setFld Reg.PWR_DIE_THR [d, r] F.PWR_DIE_THR_SAT 1).powerEvent 0x40 else s

/-- Every 100 ns: samples, accumulators, levels. -/
def State.throttleTick (s : State) (amps : List Nat) : State :=
  if s.power.mode = 2 then s else
  let s := s.sampleRails amps
  let gain := s.fld Reg.PWR_CTL [] F.PWR_CTL_GAIN
  let acc := (List.range 9).foldl (fun t r => (List.range 3).foldl (fun t w => (List.range 4).foldl (fun (t : Tbl Rat) d =>
    match s.excess r w d with
    | some e => t.set 0 (thrKey r w d) (accNext (t.get 0 (thrKey r w d)) e gain (reasonLen r w))
    | none => t) t) t) s.power.acc
  let s := s.setPower (fun x => { x with acc := acc })
  let s := s.when ((List.range 3).any (fun w => decide ((s.railLimit 12 w : Rat) < s.railMean 12 w))) (fun s => s.powerEvent 0x10)
  ((List.range 4).filter (fun d => s.dieUp d)).foldl (fun s d => s.setLevel d) s
def execThrottleTick (amps : List Nat) (s : State) : Host.Outcome State Fault Refusal := .next (s.keepPilot (s.throttleTick amps))

/-- At a frame of 64 ACLK cycles a die's level takes effect. -/
def execThrottleFrame (d : DieId) (s : State) : Host.Outcome State Fault Refusal :=
  .next (s.keepPilot (s.setFld Reg.PWR_DIE_STAT [d] F.PWR_DIE_STAT_LEVEL (s.power.level.get 0 d)))

/-! ### Temperature (R355, R356) -/

/-- A cause of hard throttling: set at its limit, over when the reading falls below the limit less 2. -/
def hardNext (was : Bool) (t limit : Nat) : Bool := if limit ≤ heat t limit then true else if heat t limit + 2 < limit then false else was

/-- Samples in a row that call for a trip; an invalid one counts for nothing. -/
def hotNext (n : Nat) (valid hot : Bool) : Nat := if ¬ valid then n else if hot then n + 1 else 0

/-- A package temperature sample of die `d` (R355, R356): readings, hard throttle; and whether the second sample in a row calls for a trip. -/
def State.sampleHeat (s : State) (d : Nat) (tc tu : Byte) : State × Bool :=
  if 4 ≤ d then
    let n := hotNext (s.power.ioHot.get 0 d) (tc != 0xFF) (decide (112 ≤ tc.toNat))
    let s := s.setPower (fun x => { x with ioTemp := x.ioTemp.set 0 d tc.toNat, ioHot := x.ioHot.set 0 d n })
    if 2 ≤ n then (s.powerEvent 8, true) else (s, false)
  else if ¬ s.dieUp d then (s, false)
  else
    let s := (s.setFld Reg.PWR_DIE_STAT [d] F.PWR_DIE_STAT_TC tc.toNat).setFld Reg.PWR_DIE_STAT [d] F.PWR_DIE_STAT_TU tu.toNat
    let h := s.power.hard.get 0 d
    let c := hardNext (h.testBit 0) tc.toNat 105
    let u := hardNext (h.testBit 1) tu.toNat 95
    let h' := (if c then 1 else 0) + (if u then 2 else 0)
    let n := hotNext (s.power.hot.get 0 d) (tc != 0xFF || tu != 0xFF) ((tu != 0xFF && decide (100 ≤ tu.toNat)) || (tc != 0xFF && decide (112 ≤ tc.toNat)))
    let s := s.setPower (fun x => { x with hard := x.hard.set 0 d h', hot := x.hot.set 0 d n })
    let s := s.setFld Reg.PWR_DIE_STAT [d] F.PWR_DIE_STAT_HARD (if h' = 0 then 0 else 1)
    let s := s.when (h == 0 && h' != 0) (fun s => s.powerEvent 4)
    if 2 ≤ n then ((s.setPower (fun x => { x with hot := x.hot.set 0 d 0 })).powerEvent 8, true) else (s, false)

/-- A trip drives therm_trip_n; a compute die is lost with cause 3, an I/O die resets the package (R356). -/
def State.temperature (s : State) (d : Nat) (tc tu : Byte) : State :=
  if s.power.mode = 2 then s
  else
    let t := s.keepPilot (s.sampleHeat d tc tu).1
    if (s.sampleHeat d tc tu).2 then (t.setPilot (fun p => { p with thermTrip := true })).dieLost d 3 else t
def execTemperatureSample (d : Fin 6) (tc tu : Byte) (s : State) : Host.Outcome State Fault Refusal := .next (s.temperature d tc tu)

/-! ### Cluster sleep and wake (R357, R358) -/

def State.clState (s : State) (g : Nat) : Nat := s.fld Reg.PWR_CL [g] F.PWR_CL_STATE
def State.setClState (s : State) (g v : Nat) : State := s.setFld Reg.PWR_CL [g] F.PWR_CL_STATE v

/-- A Porter with nothing active or queued. -/
def State.porterIdle (s : State) (p : Nat) : Bool := (s.porter p).chans.all (fun e => e.2.act.isNone && e.2.queue.isEmpty && e.2.holds.isEmpty)

/-- An idle cluster. -/
def State.clusterIdle (s : State) (g : Nat) : Bool :=
  (match s.bayOfCluster g with
    | some b => !(s.bay b).on && (s.bay b).switch == 0
    | none => true) &&
  s.groups.all (fun e => e.1 / 64 != g || decide (e.2.status = GrpStatus.free)) &&
  (List.range 8).all (fun c => s.porterIdle (8 * g + c)) && s.porterIdle (512 + g) &&
  s.homes.all (fun e => e.2.running.all (fun t => decide (t.req.who ≠ .cluster g)) && e.2.waiting.all (fun r => decide (r.who ≠ .cluster g)))

/-- The cluster holds Bay-relative core 0 of a formed Bay. -/
def State.holdsWords (s : State) (g : Nat) : Bool :=
  (List.range 64).any (fun b => s.bit Reg.BAY_CFG [b] F.BAY_CFG_EN && (s.clustersOf b).head? == some g)

def clusterDom (g : Nat) : Nat := 10 + 18 * (g / 16) + g % 16

/-- A cluster goes off: its Cupboard is written back and emptied, its state is lost but for Pantries and Tallies on retention power. -/
def State.powerGate (s : State) (g : Nat) (keep : Bool) : State :=
  let s := ((s.cups.get [] g).map (·.1)).foldl (fun s l => s.cupEvict g l) s
  let core (n : Nat) : Bool := n / 8 == g
  let lo := pantryAddr (8 * g) 0
  let hi := pantryAddr (8 * g + 8) 0
  let win (n : Nat) : Nat := 0x10000000 + 0x40000 * n
  let tally (a : Nat) : Bool := let n := (a - 0x10000000) / 0x40000; decide (Reg.CST_TALLY.addr [n, 0] ≤ a) && decide (a < Reg.CST_TALLY.addr [n, 0] + 0x8000)
  let mine (a : Nat) : Bool := (decide (win (8 * g) ≤ a) && decide (a < win (8 * g + 8)) && !(keep && tally a)) ||
    (decide (Reg.PTR_CL_STAT.addr [g] ≤ a) && decide (a < Reg.PTR_CL_STAT.addr [g] + 0x10000))
  let s := { s with
    seqs := s.seqs.filter (fun e => !core e.1), steps := s.steps.filter (fun e => !core e.1), groups := s.groups.filter (fun e => e.1 / 64 != g),
    kernels := s.kernels.filter (fun e => !core e.1), porters := s.porters.filter (fun e => if e.1 < 512 then !core e.1 else e.1 != 512 + g),
    shelves := s.shelves.filter (fun e => !core e.1), tlbs := s.tlbs.set [] g [], regs := s.regs.filter (fun e => !mine e.1),
    tallySet := s.tallySet.filter (fun e => keep || !core (e.1 / 4096)),
    mem := if keep then s.mem else s.mem.filter (fun c => decide (c.1 < lo) || decide (hi ≤ c.1)),
    poison := if keep then s.poison else s.poison.filter (fun e => decide (8 * e.1 < lo) || decide (hi ≤ 8 * e.1)) }
  (s.setClState g 2).setDom (clusterDom g) false

def State.clockGateTimer (s : State) (g : Nat) : State :=
  if s.power.mode = 0 ∧ s.clusterUp g ∧ s.clState g = 0 ∧ s.fld Reg.PWR_CL [g] F.PWR_CL_MODE ≠ 1 ∧ s.fld Reg.PWR_GATE [] F.PWR_GATE_CG_DELAY_US ≠ 0 ∧ s.clusterIdle g
  then s.setClState g 1 else s
def execClockGateTimer (g : ClusterId) (s : State) : Host.Outcome State Fault Refusal := .next (s.keepPilot (s.clockGateTimer g))

def State.powerGateTimer (s : State) (g : Nat) : State :=
  if s.power.mode = 0 ∧ s.clState g = 1 ∧ s.fld Reg.PWR_CL [g] F.PWR_CL_MODE = 0 ∧ s.fld Reg.PWR_GATE [] F.PWR_GATE_PG_DELAY_US ≠ 0 ∧ s.clusterIdle g ∧ ¬ s.holdsWords g
  then s.powerGate g (s.bit Reg.PWR_CL [g] F.PWR_CL_RETAIN) else s
def execPowerGateTimer (g : ClusterId) (s : State) : Host.Outcome State Fault Refusal := .next (s.keepPilot (s.powerGateTimer g))

/-- A wake trigger begins the wake of a power-gated cluster. -/
def State.clusterWake (s : State) (g : Nat) : State :=
  if s.power.mode = 0 ∧ s.clState g = 2 ∧ s.wakeReq.getLsbD g then
    { s.setClState g 3 with wakeReq := s.wakeReq &&& ~~~ BitVec.ofNat 64 (2 ^ g) }
  else s
def execClusterWake (g : ClusterId) (s : State) : Host.Outcome State Fault Refusal := .next (s.keepPilot (s.clusterWake g))

/-- Increments that waited for a cluster apply, oldest first (R181). -/
def State.replayAdds (s : State) (g : Nat) : State :=
  let mine := s.heldAdds.filter (fun h => clusterOf h.core == g)
  mine.foldl (fun s h => s.addTally h.core h.tally h.incr) { s with heldAdds := s.heldAdds.filter (fun h => clusterOf h.core != g) }

/-! ### Operating points (R359-R361) -/

/-- The phase of a Bay: 0 prefill, 1 decode, 2 collective, 3 idle. -/
def State.phaseOf (s : State) (b : Nat) : Nat :=
  if ¬ (s.bay b).on then 3
  else if ¬ s.bit Reg.PWR_BAYOP [b] F.PWR_BAYOP_PH_EN then 0
  else match (s.coresOf b).head? with
    | some n => (s.pantryNat n (0x27FF80 + 8 * s.fld Reg.PWR_BAYOP [b] F.PWR_BAYOP_PH_WORD) 8 / 2 ^ s.fld Reg.PWR_BAYOP [b] F.PWR_BAYOP_PH_LO) % 4
    | none => 3

/-- The point that a Bay's clusters vote for. -/
def State.voteOf (s : State) (b : Nat) : Nat :=
  s.fld Reg.PWR_BAYOP [b] (match s.phaseOf b with
    | 0 => F.PWR_BAYOP_PREFILL
    | 1 => F.PWR_BAYOP_DECODE
    | 2 => F.PWR_BAYOP_COLL
    | _ => F.PWR_BAYOP_IDLE)

def State.pointVdd (s : State) (n : Nat) : Nat := s.fld Reg.PWR_OPTAB [n] F.PWR_OPTAB_VDD_MV
def State.pointAclk (s : State) (n : Nat) : Nat := s.fld Reg.PWR_OPTAB [n] F.PWR_OPTAB_ACLK_MHZ

/-- A point stands above another: higher voltage, then higher ACLK. -/
def State.above (s : State) (a b : Nat) : Bool := decide (s.pointVdd b < s.pointVdd a) || (s.pointVdd a == s.pointVdd b && decide (s.pointAclk b < s.pointAclk a))

/-- Powered clusters of a die. -/
def State.powered (s : State) (d : Nat) : List Nat := ((List.range 16).map (fun k => 16 * d + k)).filter (fun g => s.clusterUp g && decide (s.clState g ≤ 1))

/-- ACLK and point of a die. -/
def State.setPoint (s : State) (d n : Nat) : State :=
  (s.setFld Reg.PWR_DIE_STAT [d] F.PWR_DIE_STAT_OP n).setFld Reg.PWR_DIE_STAT [d] F.PWR_DIE_STAT_ACLK_MHZ (s.pointAclk n)

/-- n of R360 for each powered cluster. -/
def State.setDividers (s : State) (d : Nat) : State :=
  let a := s.fld Reg.PWR_DIE_STAT [d] F.PWR_DIE_STAT_ACLK_MHZ
  (s.powered d).foldl (fun s g =>
    let v := s.pointAclk (s.fld Reg.PWR_CL [g] F.PWR_CL_VOTE)
    s.setFld Reg.PWR_CL [g] F.PWR_CL_DIV (if v < a then max 4 (8 * v / a) else 8)) s

/-- Votes of a die's clusters, and a change of its point where none runs: a raise waits for the regulator, and for a hard throttle to end; a lowering
switches the clocks at once. -/
def State.sampleDie (s : State) (d : Nat) : State :=
  if ¬ s.dieUp d then s else
  let gs := s.powered d
  let s := gs.foldl (fun s g => s.setFld Reg.PWR_CL [g] F.PWR_CL_VOTE (match s.bayOfCluster g with
    | some b => s.voteOf b
    | none => 0)) s
  let votes := gs.map (fun g => s.fld Reg.PWR_CL [g] F.PWR_CL_VOTE)
  let now := s.fld Reg.PWR_DIE_STAT [d] F.PWR_DIE_STAT_OP
  let want := match votes with
    | [] => now
    | v :: vs => vs.foldl (fun m x => if s.above x m ∨ (¬ s.above m x ∧ x < m) then x else m) v
  let change (r : Bool) (s : State) : State := s.setPower (fun x => { x with change := x.change.set none d (some ⟨want, now, r⟩) })
  let s := if want = now ∨ (s.power.change.get none d).isSome then s
    else if s.above want now then (if s.bit Reg.PWR_DIE_STAT [d] F.PWR_DIE_STAT_HARD then s else change true s)
    else change false (s.setPoint d want)
  s.setDividers d

/-- Every 1 µs each Bay's phase is sampled. -/
def execPhaseSample (s : State) : Host.Outcome State Fault Refusal :=
  .next (s.keepPilot (if s.power.mode = 0 ∧ s.pilot.phase ≥ 2 then (List.range 4).foldl (fun s d => s.sampleDie d) s else s))

def State.endChange (s : State) (d : Nat) : State := s.setPower (fun x => { x with change := x.change.set none d none })

/-- The regulator acknowledges: a raise switches the clocks, but not of a die that is hard-throttled. -/
def State.vregAck (s : State) (d : Nat) : State :=
  match s.power.change.get none d with
  | none => s
  | some c =>
    let s := (s.endChange d).setFld Reg.PWR_DIE_STAT [d] F.PWR_DIE_STAT_VDD_MV (s.pointVdd c.point)
    if c.raising ∧ ¬ s.bit Reg.PWR_DIE_STAT [d] F.PWR_DIE_STAT_HARD then (s.setPoint d c.point).setDividers d else s
def execVregAck (d : DieId) (s : State) : Host.Outcome State Fault Refusal := .next (s.keepPilot (s.vregAck d))

/-- No acknowledgement within 100 µs: the die stays at, or returns to, its old point. -/
def State.vregTimeout (s : State) (d : Nat) : State :=
  match s.power.change.get none d with
  | none => s
  | some c => (((s.endChange d).setPoint d c.old).setDividers d).powerEvent 1
def execVregTimeout (d : DieId) (s : State) : Host.Outcome State Fault Refusal := .next (s.keepPilot (s.vregTimeout d))

/-! ### Regulator telemetry (R352, R404) -/

def execRegulatorTelemetryRead (r : Fin 13) (mv : BitVec 16) (s : State) : Host.Outcome State Fault Refusal :=
  .next (s.keepPilot (if s.power.mode = 2 then s else s.setPower (fun x => { x with volts := x.volts.set none r (some mv.toNat) })))

/-- A read of a rail unanswered for 1 ms: its nominal counts. -/
def execAvsReadTimeout (r : Fin 13) (s : State) : Host.Outcome State Fault Refusal :=
  .next (s.keepPilot (if s.power.mode = 2 then s else (s.setPower (fun x => { x with volts := x.volts.set none r none })).powerEvent 1))

/-! ### Device power states (R362) -/

/-- Standby: every usable cluster power-gated, the Chute ports off. -/
def State.enterStandby (s : State) (d3 : Bool) : State :=
  let s := ((List.range 64).filter (fun g => s.clusterUp g && s.clState g != 2)).foldl
    (fun s g => s.powerGate g (s.bit Reg.PWR_CL [g] F.PWR_CL_RETAIN || s.holdsWords g)) s
  let s := (List.range 8).foldl (fun s p => if s.portState p = 4 then s else (s.portFails p).setPortState p 0) s
  (s.setDoms [4, 5] false).setPower (fun x => { x with mode := 1, d3hot := d3 })

/-- D3hot of function 0: every inst. with a slot RUNNING or STOPPING acts as on QUIESCE with an immediate ABORT, then Standby. -/
def State.d3hotEntry (s : State) : State :=
  if ¬ s.hostUp ∨ s.power.mode = 2 ∨ s.power.d3hot ∨ s.pilot.phase ≠ 3 ∨ s.bit Reg.SEC_STATE [] F.SEC_STATE_BOXROOM then s
  else if s.power.mode = 1 then s.setPower (fun x => { x with d3hot := true })
  else
    let busy (b : Nat) : Bool := s.bit Reg.BAY_CFG [b] F.BAY_CFG_EN && (List.range 4).any (fun j => let st := (s.img b j).status; st == .running || st == .stopping)
    let is := (((List.range 64).filter busy).map s.instOfBay).eraseDups
    let s := is.foldl (fun s i => if i = 0 then s.quiesceSlots 0 true else s.quiesceNow i) s
    s.enterStandby true
def execD3hotEntry (s : State) : Host.Outcome State Fault Refusal := .next (s.keepPilot s.d3hotEntry)

/-- Link L1.2 with no stream on any cores: Standby. -/
def execLinkL12Entry (s : State) : Host.Outcome State Fault Refusal :=
  .next (s.keepPilot (if s.hostUp ∧ s.power.mode = 0 ∧ s.pilot.phase = 3 ∧ ¬ s.bit Reg.SEC_STATE [] F.SEC_STATE_BOXROOM ∧ s.bays.all (fun e => !e.2.on) then s.enterStandby false else s))

/-- Back to D0: Chute ports retrain; clusters wake on demand. -/
def State.returnToD0 (s : State) : State :=
  if s.power.mode ≠ 1 then s else
  let on (p : Nat) : Bool := s.bit Reg.CHU_PORT_CFG [p] F.CHU_PORT_CFG_EN
  let s := (List.range 8).foldl (fun s p => if on p then s.setPortState p 1 else s) s
  ((s.setDom 4 ((List.range 4).any on)).setDom 5 ((List.range 4).any (fun p => on (4 + p)))).setPower (fun x => { x with mode := 0, d3hot := false })
def execReturnToD0 (s : State) : Host.Outcome State Fault Refusal := .next (s.keepPilot s.returnToD0)

/-- Off: the Larder is flushed, everything but the Pilot goes off, and the enables are deasserted from group 4 down (R403). -/
def State.d3coldEntry (s : State) : State :=
  if s.power.mode = 2 ∨ s.pilot.phase < 2 then s else
  let s := s.keepPilot s.flushAll
  let s := (s.setPilot (fun p => { p with phase := 0 })).packageReset
  (s.keepPilot (s.setPower (fun x => { x with mode := 2 }))).setPilot (fun p => { p with enables := 0x0F, dropping := some 4 })
def execD3coldEntry (s : State) : Host.Outcome State Fault Refusal := .next s.d3coldEntry

/-! ### Power across a span (R363-R365) -/

/-- The weight in units of 2⁻¹⁶, at most 0xFFFF. -/
def weightOf (r a : Nat) : Nat := if a = 0 ∨ a ≤ r then 0 else min 0xFFFF ((a - r) * 65536 / a)

/-- Data of SPN_PWR (Table PW-6). -/
def spnPower (kind dev period p limit w cap : Nat) : Nat :=
  kind % 256 + (dev % 65536) * 2 ^ 16 + (period % 2 ^ 32) * 2 ^ 32 + (p % 2 ^ 32) * 2 ^ 64 + (limit % 2 ^ 32) * 2 ^ 96 + (w % 65536) * 2 ^ 128 + (cap % 2 ^ 32) * 2 ^ 160

/-- A member in the computation of R365. -/
structure CapMember where
  dev : Nat
  r : SpanReport
  cap : Nat
  fixed : Bool
  deriving DecidableEq, Repr

/-- The loop of R365. -/
def capLoop (budget : Int) : Nat → List CapMember → List CapMember
  | 0, ms => ms
  | k + 1, ms =>
    let spare := budget - ((ms.foldl (fun n m => n + m.cap) 0 : Nat) : Int)
    let opens := ms.filter (fun m => !m.fixed)
    if spare < 1 ∨ opens.isEmpty then ms else
    let tot : Nat := opens.foldl (fun n m => n + m.r.w * m.r.p) 0
    let add (m : CapMember) : Nat := if tot = 0 then spare.toNat / opens.length else spare.toNat * (m.r.w * m.r.p) / tot
    let ms := ms.map (fun m => if m.fixed then m else { m with cap := m.cap + add m })
    let full (m : CapMember) : Bool := !m.fixed && decide (m.r.limit ≤ m.cap)
    if ms.all (fun m => !full m) then ms
    else capLoop budget k (ms.map (fun m => if full m then { m with cap := m.r.limit, fixed := true } else m))

/-- Caps of the members whose report is at most two periods old. -/
def spanCaps (budget floor : Nat) (rs : Tbl (Option SpanReport)) : List CapMember :=
  let old : Nat := rs.foldl (fun n e => match e.2 with
    | some r => if 2 < r.age then n + r.cap else n
    | none => n) 0
  let ms : List CapMember := rs.filterMap (fun e => match e.2 with
    | some r => if r.age ≤ 2 then some ⟨e.1, r, min floor r.limit, decide (r.limit ≤ floor)⟩ else none
    | none => none)
  capLoop ((budget : Int) - (old : Int)) (ms.length + 1) ms

/-- A cap arrives or is the master's own. -/
def State.takeCap (s : State) (cap : Nat) : State := (s.setFld Reg.PWR_STAT [] F.PWR_STAT_SPAN_CAP cap).setPower (fun x => { x with capAge := 0 })

/-- The master computes and sends the caps. -/
def State.sendCaps (s : State) : State :=
  let cs := spanCaps (s.fld Reg.PWR_BUDGET [] F.PWR_BUDGET_BUDGET_W) (s.fld Reg.PWR_SPAN [] F.PWR_SPAN_FLOOR_W) s.power.reports
  let s := s.setPower (fun x => { x with reports := x.reports.map (fun e => (e.1, e.2.map (fun r =>
    { r with cap := ((cs.find? (fun c => c.dev == e.1)).map (·.cap)).getD r.cap, age := r.age + 1 }))) })
  cs.foldl (fun s c => if c.dev = s.spanId then s.takeCap c.cap else s.spnSend c.dev 0x18 64 (spnPower 1 c.dev s.power.periods 0 0 0 c.cap)) s

/-- A power period ends. -/
def State.spanPeriodEnd (s : State) : State :=
  let w := weightOf s.critR s.critA
  let s := (s.setFld Reg.PWR_CRIT [] F.PWR_CRIT_R_KCYC (s.critR / 1000)).setFld Reg.PWR_CRIT [] F.PWR_CRIT_WEIGHT w
  let s := { s with critR := 0, critA := 0 }.setPower (fun x => { x with periods := (x.periods + 1) % 2 ^ 32, capAge := x.capAge + 1 })
  if ¬ (s.bit Reg.CHU_SPAN [] F.CHU_SPAN_EN ∧ s.bit Reg.PWR_SPAN [] F.PWR_SPAN_EN) ∨ s.power.mode = 2 then s else
  let p := s.fld Reg.PWR_STAT [] F.PWR_STAT_P_1MS
  let s := if s.fld Reg.CHU_SPAN [] F.CHU_SPAN_MASTER = s.spanId then
      (s.setPower (fun x => { x with reports := x.reports.set none s.spanId (some { p := p, limit := s.powerLimit, w := w, cap := s.fld Reg.PWR_STAT [] F.PWR_STAT_SPAN_CAP }) })).sendCaps
    else s.spnSend (s.fld Reg.CHU_SPAN [] F.CHU_SPAN_MASTER) 0x18 64 (spnPower 0 s.spanId s.power.periods p s.powerLimit w 0)
  s.when (decide (4 ≤ s.power.capAge)) (fun s => s.powerEvent 0x20)
def execSpanPeriodEnd (s : State) : Host.Outcome State Fault Refusal := .next (s.keepPilot s.spanPeriodEnd)

/-- SPN_PWR reaches the master (a report) or a member (its cap). -/
def State.takeSpnPwr (s : State) (k : Nat) : State :=
  s.chuteTake k true [0x18] (fun s _ m =>
    let s := s.dropIn k
    let f (lo n : Nat) : Nat := (m.data / 2 ^ (8 * lo)) % 2 ^ (8 * n)
    if f 0 1 = 1 then (if f 2 2 = s.spanId then s.takeCap (f 20 4) else s)
    else if f 0 1 = 0 ∧ s.fld Reg.CHU_SPAN [] F.CHU_SPAN_MASTER = s.spanId then
      let cap := ((s.power.reports.get none (f 2 2)).map (·.cap)).getD 0
      s.setPower (fun x => { x with reports := x.reports.set none (f 2 2) (some { p := f 8 4, limit := f 12 4, w := f 16 2, cap := cap }) })
    else s)
def execSpnPwr (k : Nat) (s : State) : Host.Outcome State Fault Refusal := .next (s.keepPilot (s.takeSpnPwr k))

end Sys2Proof.Machine
end

