-- ==== Sys2Proof/Machine/Host.lean ====
section
/-! DEFINITION. The host port's own commands: configuration requests, completions, address translation, interrupts, virtual functions
and the link (15_host_port.md R307-R323). Inbound memory requests are in Machine/Access.lean. -/
namespace Sys2Proof.Machine

/-- Boxroom mode (R372). -/
def State.inBoxroom (s : State) : Bool := s.bit Reg.SEC_STATE [] F.SEC_STATE_BOXROOM

def State.reply (s : State) (r : Reply) : State := { s with replies := r :: s.replies }

/-- STATUS of an answer. -/
def stOk : Nat := 0
def stUr : Nat := 1
def stCa : Nat := 2
def stRrs : Nat := 3

/-- `tag` of a Device Readiness Status, a Function Readiness Status, an Invalidate Completion message. -/
def tagDrs : Nat := 1
def tagFrs : Nat := 2
def tagInval : Nat := 3

/-! ### Configuration requests (R308, R309, R314, R318) -/

/-- Powers of two of a function's BAR2 sizes. -/
def barMin (f : Nat) : Nat := if f = 0 then 30 else 26
def barMax (f : Nat) : Nat := if f = 0 then 36 else 32
def State.barSize (s : State) (f : Nat) : Nat := max (barMin f) (s.bar2.get 0 f)

/-- What a configuration request that completes successfully does. What a read returns is not in the manual. -/
def State.configAct (s : State) (f : InstId) (op : CfgOp) : State :=
  match op with
  | .read _ =>
    let (k, s) := s.draw
    s.reply { who := .fn f, status := stOk, len := 4, data := Config.pick k % 2 ^ 32 }
  | .atsEnable on => { s with atsOn := s.atsOn.set false f.val on }.reply { who := .fn f, status := stOk }
  | .barSize n =>
    (if barMin f.val ≤ n ∧ n ≤ barMax f.val then { s with bar2 := s.bar2.set 0 f.val (if n = barMin f.val then 0 else n) } else s).reply { who := .fn f, status := stOk }

/-- A configuration request. The first that completes successfully makes the start succeed. -/
def State.configRequest (s : State) (f : InstId) (op : CfgOp) : State :=
  if ¬ s.hostUp then s
  else if s.pilot.phase = 2 ∧ (f.val = 0 ∨ s.vfOn ∧ s.vfReady ∧ ¬ s.inBoxroom) then
    (let t := s.startSucceeds
     t.keepPilot ((t.configAct f op).reply { who := .fn 0, tag := tagDrs }))
  else s.keepPilot (
    if s.pilot.phase < 2 ∨ (f.val ≠ 0 ∧ s.vfOn ∧ ¬ s.vfReady) then s.reply { who := .fn f, status := stRrs }
    else if f.val ≠ 0 ∧ (¬ s.vfOn ∨ s.inBoxroom) then s.reply { who := .fn f, status := stUr }
    else s.configAct f op)
def execConfigRequest (f : InstId) (op : CfgOp) (s : State) : Host.Outcome State Fault Refusal := .next (s.configRequest f op)

/-! ### Requests of the OV4 (R312, R314-R316) -/

/-- Invalidate Requests complete once no access of theirs is left. -/
def State.settleInval (s : State) : State :=
  let done := s.atsInval.filter (fun e => e.2.isEmpty)
  done.foldl (fun s e => s.reply { who := .fn (Fin.ofNat 33 e.1), tag := tagInval }) { s with atsInval := s.atsInval.filter (fun e => !e.2.isEmpty) }

/-- A request leaves the outstanding ones. -/
def State.dropReq (s : State) (r : HostReq) : State :=
  { s with hostOut := s.hostOut.erase r, atsInval := s.atsInval.map (fun (e : Nat × List Nat) => (e.1, e.2.filter (fun t => t != r.tag))) }.settleInval

/-- The answer to a request reaches its agent: a bus error of CAUSE 2, or code 0x0C for a group, where it failed. -/
def State.answerReq (s : State) (r : HostReq) (ok : Bool) (data : Nat) (poison : Bool) : State :=
  let read := r.write.isNone && r.len != 0
  match r.who with
  | .porter p c => s.porterAnswer p c r.addr read ok 2 data poison
  | .group n g => s.groupAnswer n g r.addr read ok data poison
  | _ => s

def State.failReq (s : State) (r : HostReq) : State := (s.dropReq r).answerReq r false 0 false

/-- An issued request with a tag. -/
def State.issued (s : State) (tag : Nat) : Option HostReq := s.hostOut.find? (fun r => r.tag == tag && !r.waits)

/-- A completion: STATUS 0 success, else Unsupported Request or Completer Abort. One that matches no request is late. -/
def State.hostCompletion (s : State) (tag : Nat) (status : Fin 3) (data : Nat) (poison : Bool) : State :=
  match s.issued tag with
  | none => s.bump Reg.HST_ERR [] F.HST_ERR_LATE 1
  | some r => if status = 0 then (s.dropReq r).answerReq r true (data % 2 ^ (8 * r.len)) poison else s.failReq r
def execHostCompletion (tag : Nat) (status : Fin 3) (data : Nat) (poison : Bool) (s : State) : Host.Outcome State Fault Refusal :=
  .next (s.keepPilot (s.hostCompletion tag status data poison))

/-- No completion within the Completion Timeout value. -/
def State.completionTimeout (s : State) (tag : Nat) : State :=
  match s.hostOut.find? (fun r => r.tag == tag) with
  | none => s
  | some r => (s.bump Reg.HST_ERR [] F.HST_ERR_CTO 1).failReq r
def execCompletionTimeout (tag : Nat) (s : State) : Host.Outcome State Fault Refusal := .next (s.keepPilot (s.completionTimeout tag))

/-- A translation enters the cache; a full cache gives up an entry that the spec does not name. -/
def State.atcPut (s : State) (e : Nat × Nat × Nat) : State :=
  if s.atc.contains e then s
  else if s.atc.length < 4096 then { s with atc := e :: s.atc }
  else
    let (k, s) := s.draw
    { s with atc := e :: s.atc.eraseIdx (Config.pick k % s.atc.length) }

/-- A translation completes: 4 KiB to 1 GiB, `size` its power of two; the access that waited is issued. -/
def State.atsTranslation (s : State) (tag : Nat) (ok : Bool) (size : Fin 64) : State :=
  match s.hostOut.find? (fun r => r.tag == tag && r.waits) with
  | none => s
  | some r =>
    if ¬ ok then s.failReq r else
    let k := max 12 (min 30 size.val)
    let s := s.atcPut (r.fn, k, r.addr / 2 ^ k)
    match r.write with
    | some bs => (((s.hostStore r.addr bs false).dropReq r).answerReq r true 0 false)
    | none => { s with hostOut := s.hostOut.map (fun q => if q = r then { r with waits := false } else q) }
def execAtsTranslation (tag : Nat) (ok : Bool) (size : Fin 64) (s : State) : Host.Outcome State Fault Refusal := .next (s.keepPilot (s.atsTranslation tag ok size))

/-- An Invalidate Request of `2 ^ size` bytes: entries that overlap it are dropped, and it completes after their users. -/
def State.atsInvalidate (s : State) (f : InstId) (size : Fin 64) (page : Nat) : State :=
  if ¬ s.hostUp ∨ 32 ≤ s.atsInval.length then s else
  let lo := page * 2 ^ size.val
  let hi := lo + 2 ^ size.val
  let hit (e : Nat × Nat × Nat) : Bool := e.1 == f.val && decide (e.2.2 * 2 ^ e.2.1 < hi) && decide (lo < (e.2.2 + 1) * 2 ^ e.2.1)
  let gone := s.atc.filter hit
  let users : List HostReq := s.hostOut.filter (fun r => r.fn == f.val && !r.waits && gone.any (fun e => e.2.2 == r.addr / 2 ^ e.2.1))
  { s with atc := s.atc.filter (fun e => !hit e), atsInval := s.atsInval ++ [(f.val, users.map HostReq.tag)] }.settleInval
def execAtsInvalidate (f : InstId) (size : Fin 64) (page : Nat) (s : State) : Host.Outcome State Fault Refusal := .next (s.keepPilot (s.atsInvalidate f size page))

/-! ### Interrupts (R313) -/

/-- Vectors of a function (Table HP-1). -/
def vectorsOf (f : Nat) : Nat := if f = 0 then 256 else 16

/-- An open vector whose pending bit is set sends its message while the link is up. -/
def State.sendPending (s : State) (f v : Nat) : State :=
  if s.msixOpen.get false (vecKey f v) ∧ s.msixPend.get false (vecKey f v) ∧ s.hostUp then
    { s with msixPend := s.msixPend.set false (vecKey f v) false, msixSent := (f, v) :: s.msixSent }
  else s

/-- The mask bit of a vector. -/
def State.setMask (s : State) (f v : Nat) (masked : Bool) : State :=
  { s with msixOpen := s.msixOpen.set false (vecKey f v) (!masked) }.sendPending f v

def State.msixUnmask (s : State) (f : InstId) (v : Fin 256) : State := if v.val < vectorsOf f.val then s.setMask f.val v.val false else s
def execMsixUnmask (f : InstId) (v : Fin 256) (s : State) : Host.Outcome State Fault Refusal := .next (s.keepPilot (s.msixUnmask f v))

/-! ### Functions (R318, R319) -/

/-- A function-level reset of function 0 is a warm restart. -/
def execF0Flr (x : Bringup) (s : State) : Host.Outcome State Fault Refusal := .next (if s.hostUp then s.warmRestart x else s)

def execVfEnableSet (s : State) : Host.Outcome State Fault Refusal :=
  .next (s.keepPilot (if s.hostUp ∧ s.pilot.phase = 3 ∧ ¬ s.vfOn ∧ ¬ s.inBoxroom then { s with vfOn := true, vfReady := false } else s))

/-- 1 ms after VF Enable every virtual function sends Function Readiness Status. -/
def State.vfReadyNow (s : State) : State :=
  if s.vfOn ∧ ¬ s.vfReady then
    (List.range 32).foldl (fun s k => s.reply { who := .fn (Fin.ofNat 33 (k + 1)), tag := tagFrs }) { s with vfReady := true }
  else s
def execVfReady (s : State) : Host.Outcome State Fault Refusal := .next (s.keepPilot s.vfReadyNow)

/-- VF Enable is cleared: every inst. acts as on QUIESCE with an immediate ABORT, and one that a function-level reset is resetting stays QUIESCED. -/
def State.vfClear (s : State) : State :=
  if s.hostUp ∧ s.vfOn then
    (List.range 32).foldl (fun s k => s.quiesceNow (k + 1)) { s with vfOn := false, vfReady := false, flr := s.flr.map (fun e => (e.1, 2)) }
  else s
def execVfEnableClear (s : State) : Host.Outcome State Fault Refusal := .next (s.keepPilot s.vfClear)

/-! ### The link (R317, R320) -/

/-- The link goes down: every outstanding request fails. Inbound requests that wait for an answer have nobody to answer. -/
def State.hostLinkDown (s : State) : State :=
  if ¬ s.hostUp then s else
  let s := s.setReg Reg.HST_LINK_STAT [] 0
  let s := s.hostOut.foldl (fun s r => s.failReq r) s
  { s with hostIn := s.hostIn.filter (fun r => r.write.isSome) }
def execHostLinkDown (s : State) : Host.Outcome State Fault Refusal := .next (s.keepPilot s.hostLinkDown)

/-- The widest width of Table HP-1 within what fits. -/
def trainWidth (w : Nat) : Nat := if 16 ≤ w then 16 else if 8 ≤ w then 8 else if 4 ≤ w then 4 else if 1 ≤ w then 1 else 0

/-- The link trains; `speed` and `width` are the highest rate and the width that both ends support and whose lanes pass equalisation. -/
def State.hostLinkTrain (s : State) (speed : Fin 8) (width : Fin 33) : State :=
  if s.pilot.phase < 2 ∨ speed = 0 ∨ width = 0 then s else
  let sp := if s.inBoxroom then 1 else min speed.val (s.fld Reg.HST_LINK_CFG [] F.HST_LINK_CFG_MAX_SPEED)
  let w := if s.inBoxroom then 1 else trainWidth width.val
  let s := ((s.setFld Reg.HST_LINK_STAT [] F.HST_LINK_STAT_SPEED sp).setFld Reg.HST_LINK_STAT [] F.HST_LINK_STAT_WIDTH w).setFld Reg.HST_LINK_STAT [] F.HST_LINK_STAT_FLIT (if 6 ≤ sp then 1 else 0)
  let s := s.setFld Reg.HST_LINK_STAT [] F.HST_LINK_STAT_UP 1
  s.msixPend.foldl (fun s e => s.sendPending (e.1 / 2048) (e.1 % 2048)) s
def execHostLinkTrain (speed : Fin 8) (width : Fin 33) (s : State) : Host.Outcome State Fault Refusal := .next (s.keepPilot (s.hostLinkTrain speed width))

/-- A record whose source is the host port. -/
def State.logHost (s : State) (f : Nat) (addr : Nat) (syndrome : Nat := 0) : State :=
  s.log { kind := 0x10, index := f, cls := .contained, address := addr, syndrome := syndrome, sub := f, inst := f }

/-- An inbound non-posted request has not completed within 1 ms. -/
def State.abortInbound (s : State) (k : Nat) : State :=
  match s.hostIn[k]? with
  | none => s
  | some r =>
    if r.write.isSome then s else
    ({ s with hostIn := s.hostIn.eraseIdx k }.reply { who := .fn (Fin.ofNat 33 r.fn), status := stCa, len := r.len }).logHost r.fn r.addr
def execCompleterAbortTimeout (k : Nat) (s : State) : Host.Outcome State Fault Refusal := .next (s.keepPilot (s.abortInbound k))

end Sys2Proof.Machine
end

