-- ==== Sys2Proof/Machine/Security.lean ====
section
/-! DEFINITION. Security commands, tokens, debug, SPDM, TDISP and the debug port (19_boot_security_debug.md R371-R385; R321). -/
namespace Sys2Proof.Machine

/-! ### Commands of SEC_CMD (R384, Table SE-8) -/

/-- DEBUG as SEC_STATE shows it: Tenant while a tenant bit is set and no token is in force (R381). -/
def State.setDebug (s : State) (v : Nat) : State :=
  s.setFld Reg.SEC_STATE [] F.SEC_STATE_DEBUG (if v ≤ 1 then (if s.fld Reg.SEC_DBG_TEN [] F.SEC_DBG_TEN_MASK = 0 then 0 else 1) else v)

def State.debug (s : State) : Nat := s.fld Reg.SEC_STATE [] F.SEC_STATE_DEBUG

/-- A command ends with a result; any but 0 leaves a contained record. -/
def State.secResult (s : State) (w : Writer) (off result : Nat) : State :=
  let s := s.setFld Reg.SEC_CMD_STAT [] F.SEC_CMD_STAT_RESULT result
  if result = 0 then s else s.refuse w off (if result = 5 ∨ result = 8 then causeState else causeValue) result

/-- A command of the manager, where it is allowed. -/
def State.secCmd (s : State) (w : Writer) (cmd : Nat) (allowed : Bool) (f : State → State) : State :=
  if isManager w && allowed then f (s.keepPilot (s.wrote Reg.SEC_CMD [] cmd))
  else s.keepPilot (s.asManager w Reg.SEC_CMD.base (fun s => s.secResult w Reg.SEC_CMD.base 5))

def State.setNonce (s : State) (n : BitVec 256) (live : Bool) : State :=
  { (List.range 4).foldl (fun s w => s.setReg Reg.SEC_NONCE [w] (BitVec.ofNat 64 (n.toNat >>> (64 * w)))) s with nonceLive := live }

def State.newNonce (s : State) (w : Writer) : State :=
  s.secCmd w 1 true (fun s => let (k, s) := s.draw; (s.setNonce (Config.random k) true).secResult w Reg.SEC_CMD.base 0)
def execNewNonce (w : Writer) (s : State) : Host.Outcome State Fault Refusal := .next (s.keepPilot (s.newNonce w))

def State.debugClose (s : State) (w : Writer) : State :=
  s.secCmd w 3 (!s.inBoxroom) (fun s => (s.setDebug 0).secResult w Reg.SEC_CMD.base 0)
def execDebugClose (w : Writer) (s : State) : Host.Outcome State Fault Refusal := .next (s.keepPilot (s.debugClose w))

/-- SVN_MIN is raised to the SVN of the running image; a counter of the flash never goes down (R375). -/
def State.commitSvn (s : State) (w : Writer) : State :=
  s.secCmd w 4 (!s.inBoxroom && s.pilot.lifeCycle == 1) (fun s =>
    ((s.keepPilot (s.secResult w Reg.SEC_CMD.base 0)).setPilot (fun p => { p with svnMin := max p.svnMin (s.fld Reg.SEC_STATE [] F.SEC_STATE_SVN) })).showPilot)
def execCommitSvn (w : Writer) (s : State) : Host.Outcome State Fault Refusal := .next (s.commitSvn w)

/-- GOOD and FAILS are set right and the package is reset. -/
def State.retryNow (s : State) : State := (s.setPilot (fun p => { p with good := p.n, fails := 0 })).packageReset

def State.retryStart (s : State) (w : Writer) : State :=
  s.secCmd w 5 s.inBoxroom (fun s => s.retryNow)
def execRetry (w : Writer) (s : State) : Host.Outcome State Fault Refusal := .next (s.retryStart w)

/-! ### Reading global memory -/

def State.peekNat (s : State) (a n : Nat) : Nat := ofLeBytes ((List.range n).map (fun k => (s.peekByte (a + k)).1))

/-- Some byte cannot be read. -/
def State.unreadable (s : State) (a n : Nat) : Bool :=
  (List.range n).any (fun k => !s.backed (a + k) || (s.peekByte (a + k)).2 || (isHost (a + k) && !s.hostUp))

/-! ### Tokens (R380, R383) -/

def tokenLen : Nat := 29920

/-- The header has the form of Table SE-7. -/
def State.tokenForm (s : State) (a : Nat) : Bool :=
  s.peekNat a 4 == 0x4B54564F && decide (1 ≤ s.peekNat (a + 4) 1) && decide (s.peekNat (a + 4) 1 ≤ 5) && decide (s.peekNat (a + 5) 1 ≤ 1) &&
  s.peekNat (a + 6) 2 == 0 && s.peekNat (a + 120) 8 == 0 && (s.peekNat (a + 4) 1 == 5 || s.peekNat (a + 56) 64 == 0)

/-- A TDI is CONFIG_LOCKED or RUN. -/
def State.tdiBusy (s : State) : Bool := (List.range 32).any (fun k => let st := s.fld Reg.HST_TDI_STAT [k + 1] F.HST_TDI_STAT_STATE; st == 1 || st == 2)

/-- The result that KIND alone gives in the present state, 0 where it is allowed. -/
def State.kindResult (s : State) (kind : Nat) : Nat :=
  let lc := s.pilot.lifeCycle
  match kind with
  | 1 => if 2 ≤ lc ∨ s.inBoxroom then 5 else if s.tdiBusy then 8 else 0
  | 2 => if lc = 2 then 0 else 5
  | 3 => if lc = 0 then 0 else 5
  | 4 => if lc = 1 then 0 else 5
  | _ => if lc = 1 then 0 else 5

/-- The signer that a KIND needs: 0 vendor, 1 owner. -/
def State.signer (s : State) (kind : Nat) : Nat :=
  match kind with
  | 1 => if s.pilot.lifeCycle = 0 then 0 else 1
  | 2 => 0
  | 3 => 0
  | _ => if s.pilot.owner.isSome then 1 else 0

/-- The result of a token, checked in the order of R383; `vendorSig` and `ownerSig`: its signature verifies under that key. -/
def State.tokenResult (s : State) (fails vendorSig ownerSig : Bool) : Nat :=
  let a := s.fld Reg.SEC_TOKEN_ADDR [] F.SEC_TOKEN_ADDR_ADDR
  if s.fld Reg.SEC_TOKEN_LEN [] F.SEC_TOKEN_LEN_LEN ≠ tokenLen then 1
  else if fails ∨ s.unreadable a tokenLen then 6
  else if ¬ s.tokenForm a then 1
  else if ¬ s.nonceLive ∨ s.peekNat (a + 8) 32 ≠ (List.range 4).foldl (fun n w => n + (s.reg Reg.SEC_NONCE [w]).toNat * 2 ^ (64 * w)) 0 then 3
  else if s.peekNat (a + 40) 16 ≠ (s.reg Reg.SEC_DEVID [0]).toNat + (s.reg Reg.SEC_DEVID [1]).toNat * 2 ^ 64 then 4
  else
    let kind := s.peekNat (a + 4) 1
    let by_ := s.peekNat (a + 5) 1
    if s.kindResult kind ≠ 0 then s.kindResult kind
    else if by_ = s.signer kind ∧ (if by_ = 0 then vendorSig else ownerSig && s.pilot.owner.isSome) then 0 else 2

/-- What an accepted token does. DEPLOY and RETURN remove every inst. and reset the package, which leaves no inst. -/
def State.tokenAct (s : State) (kind pk : Nat) : State :=
  match kind with
  | 1 => s.keepPilot (s.setDebug 2)
  | 2 => s.keepPilot (s.setDebug 3)
  | 3 => (s.setPilot (fun p => { p with lifeCycle := 1 })).packageReset
  | 4 => (s.setPilot (fun p => { p with lifeCycle := 2 })).packageReset
  | _ => (s.setPilot (fun p => { p with owner := some (BitVec.ofNat 512 pk), ownerEpoch := p.ownerEpoch + 1 })).showPilot

def State.applyToken (s : State) (w : Writer) (fails vendorSig ownerSig : Bool) : State :=
  s.secCmd w 2 true (fun s =>
    let a := s.fld Reg.SEC_TOKEN_ADDR [] F.SEC_TOKEN_ADDR_ADDR
    let r := s.tokenResult fails vendorSig ownerSig
    let kind := s.peekNat (a + 4) 1
    let pk := s.peekNat (a + 56) 64
    let s := s.keepPilot ((s.setNonce 0 false).secResult w Reg.SEC_CMD.base r)
    if r = 0 then s.tokenAct kind pk else s)
def execApplyToken (w : Writer) (fails vendorSig ownerSig : Bool) (s : State) : Host.Outcome State Fault Refusal :=
  .next (s.applyToken w fails vendorSig ownerSig)

/-- RECOVER: the image is read and verified as R375 gives; `sig`: its signature verifies. -/
def State.recover (s : State) (w : Writer) (fails sig : Bool) : State :=
  s.secCmd w 6 s.inBoxroom (fun s =>
    let a := s.fld Reg.SEC_TOKEN_ADDR [] F.SEC_TOKEN_ADDR_ADDR
    let n := s.fld Reg.SEC_TOKEN_LEN [] F.SEC_TOKEN_LEN_LEN
    let end_ (r : Nat) : State := s.keepPilot (s.secResult w Reg.SEC_CMD.base r)
    if n < 128 + 29792 then end_ 1
    else if fails ∨ s.unreadable a n then end_ 6
    else if s.peekNat a 4 ≠ 0x4B53564F ∨ 14 * 1048576 < s.peekNat (a + 8) 4 ∨ n ≠ 128 + s.peekNat (a + 8) 4 + 29792 then end_ 1
    else if ¬ sig then end_ 2
    else if s.peekNat (a + 4) 2 < s.pilot.svnMin then end_ 7
    else
      let m0 : BitVec 512 := BitVec.ofNat 512 (ofLeBytes (shake256 ((List.range n).map (fun k => (s.peekByte (a + k)).1)) 64))
      let slot : Option (Nat × Option (BitVec 512)) := some (s.peekNat (a + 4) 2, some m0)
      let t := 1 - s.pilot.lastTried
      (s.setPilot (fun p => if t = 0 then { p with slotA := slot, active := 0 } else { p with slotB := slot, active := 1 })).retryNow)
def execRecover (w : Writer) (fails sig : Bool) (s : State) : Host.Outcome State Fault Refusal := .next (s.recover w fails sig)

/-- A write of SEC_DBG_TEN (R378, R381). -/
def State.writeDebugMask (s : State) (w : Writer) (v : DWord) : State :=
  let off := Reg.SEC_DBG_TEN.base
  s.asManager w off (fun s =>
    let m := fieldOf v 32 1
    if s.pilot.lifeCycle ≠ 1 ∨ s.inBoxroom then s.secResult w off 5
    else if (List.range 32).any (fun k => m.testBit k && (let st := s.fld Reg.HST_TDI_STAT [k + 1] F.HST_TDI_STAT_STATE; st == 1 || st == 2)) then s.secResult w off 8
    else let s := s.setFld Reg.SEC_DBG_TEN [] F.SEC_DBG_TEN_MASK m; s.setDebug s.debug)

/-! ### SPDM (R377). Response codes and order of requests as SPDM 1.3 gives them (log 27) -/

def State.spdmOf (s : State) (f : Nat) : Spdm := s.spdm.get {} f
def State.setSpdm (s : State) (f : Nat) (x : Spdm) : State := { s with spdm := s.spdm.set {} f x }

/-- A response; contents that the manual does not lay out are free. -/
def State.respond (s : State) (f : InstId) (code : Nat) : State :=
  let (k, s) := s.draw
  s.reply { who := .fn f, tag := 0x100 + code, data := Config.spdmReply code k }

/-- ERROR with its code: 1 invalid request, 4 unexpected request, 0x0A session limit. -/
def State.spdmError (s : State) (f : InstId) (code : Nat) : State := s.reply { who := .fn f, tag := 0x17F, data := code }

/-- A request on a function's mailbox. -/
def State.onMailbox (s : State) (f : InstId) (go : State → State) : State :=
  if ¬ s.hostUp then s
  else if s.pilot.phase < 3 ∨ (f.val ≠ 0 ∧ s.vfOn ∧ ¬ s.vfReady) then s.reply { who := .fn f, status := stRrs }
  else if f.val ≠ 0 ∧ (s.inBoxroom ∨ ¬ s.vfOn) then s.reply { who := .fn f, status := stUr }
  else go s

/-- A request that needs stage `n` of the negotiation. -/
def State.spdmAt (s : State) (f : InstId) (n : Nat) (go : State → State) : State :=
  s.onMailbox f (fun s => if n ≤ (s.spdmOf f).stage then go s else s.spdmError f 4)

/-- A request inside an established session. -/
def State.inSession (s : State) (f : InstId) (go : State → State) : State :=
  s.onMailbox f (fun s => if (s.spdmOf f).session = 2 then go s else s.spdmError f 4)

def State.toStage (s : State) (f : InstId) (n : Nat) : State := s.setSpdm f { (s.spdmOf f) with stage := n }

def execGetVersion (f : InstId) (s : State) : Host.Outcome State Fault Refusal := .next (s.keepPilot (s.onMailbox f (fun s => (s.toStage f 1).respond f 0x04)))
def execGetCapabilities (f : InstId) (s : State) : Host.Outcome State Fault Refusal := .next (s.keepPilot (s.spdmAt f 1 (fun s => (s.toStage f 2).respond f 0x61)))
def execNegotiateAlgorithms (f : InstId) (s : State) : Host.Outcome State Fault Refusal := .next (s.keepPilot (s.spdmAt f 2 (fun s => (s.toStage f 3).respond f 0x63)))
def execGetDigests (f : InstId) (s : State) : Host.Outcome State Fault Refusal := .next (s.keepPilot (s.spdmAt f 3 (fun s => s.respond f 0x01)))
def execGetCertificate (f : InstId) (s : State) : Host.Outcome State Fault Refusal := .next (s.keepPilot (s.spdmAt f 3 (fun s => s.respond f 0x02)))
def execChallenge (f : InstId) (s : State) : Host.Outcome State Fault Refusal := .next (s.keepPilot (s.spdmAt f 3 (fun s => s.respond f 0x03)))

/-- A value of 512 bits held in eight registers. -/
def State.meas (s : State) (k : Nat) : Nat := (List.range 8).foldl (fun n w => n + (s.reg Reg.SEC_MEAS [k, w]).toNat * 2 ^ (64 * w)) 0

/-- A measurement block (Table SE-5); block 0x10 carries its extension count above the 64 bytes. -/
def State.block (s : State) (f index : Nat) : Option Nat :=
  match index with
  | 1 => some Config.romDigest.toNat
  | 2 => some (s.meas 0)
  | 3 => some (s.meas 1)
  | 4 => some (Config.stateDigest [s.pilot.lifeCycle, s.debug, s.fld Reg.SEC_DBG_TEN [] F.SEC_DBG_TEN_MASK, s.fld Reg.SEC_STATE [] F.SEC_STATE_SVN,
      s.pilot.svnMin, if s.pilot.owner.isSome then 1 else 0]).toNat
  | 5 => some (match s.pilot.owner with
    | some pk => ofLeBytes (shake256 (leBytes 64 pk.toNat) 64)
    | none => 0)
  | 0x10 => some (let (l, c) := s.measLog.get (0, 0) f; l.toNat + c * 2 ^ 512)
  | _ => none

/-- Indexes of the blocks. -/
def blockIndexes : List Nat := [1, 2, 3, 4, 5, 0x10]

/-- GET_MEASUREMENTS: index 0 asks for their number, 0xFF for all; a signed response carries the quote. -/
def State.getMeasurements (s : State) (f : InstId) (index : Nat) (signed : Bool) : State :=
  s.spdmAt f 3 (fun s =>
    let send (s : State) (n data : Nat) : State := s.reply { who := .fn f, tag := 0x160, len := n, data := data }
    let go : Option State := if index = 0 then some (send s 1 blockIndexes.length)
      else if index = 0xFF then some (blockIndexes.foldl (fun s i => send s 64 ((s.block f i).getD 0)) s)
      else (s.block f index).map (fun b => send s 64 b)
    match go with
    | none => s.spdmError f 1
    | some s => if signed then s.respond f 0x60 else s)
def execGetMeasurements (f : InstId) (index : Fin 256) (signed : Bool) (s : State) : Host.Outcome State Fault Refusal :=
  .next (s.keepPilot (s.getMeasurements f index signed))

/-- KEY_EXCHANGE: one session per function. -/
def State.keyExchange (s : State) (f : InstId) : State :=
  s.spdmAt f 3 (fun s =>
    let x := s.spdmOf f
    if x.session ≠ 0 then s.spdmError f 0x0A
    else (s.setSpdm f { x with session := 1, number := x.number + 1, updates := 0 }).respond f 0x64)
def execKeyExchange (f : InstId) (s : State) : Host.Outcome State Fault Refusal := .next (s.keepPilot (s.keyExchange f))

/-- FINISH; `ok`: what it carries verifies. -/
def State.spdmFinish (s : State) (f : InstId) (ok : Bool) : State :=
  s.onMailbox f (fun s =>
    let x := s.spdmOf f
    if x.session ≠ 1 then s.spdmError f 4
    else if ok then (s.setSpdm f { x with session := 2 }).respond f 0x65 else (s.setSpdm f { x with session := 0 }).spdmError f 1)
def execFinish (f : InstId) (ok : Bool) (s : State) : Host.Outcome State Fault Refusal := .next (s.keepPilot (s.spdmFinish f ok))

def execHeartbeat (f : InstId) (s : State) : Host.Outcome State Fault Refusal := .next (s.keepPilot (s.inSession f (fun s => s.respond f 0x68)))
def execKeyUpdate (f : InstId) (s : State) : Host.Outcome State Fault Refusal :=
  .next (s.keepPilot (s.inSession f (fun s => (s.setSpdm f { (s.spdmOf f) with updates := (s.spdmOf f).updates + 1 }).respond f 0x69)))
def execEndSession (f : InstId) (s : State) : Host.Outcome State Fault Refusal :=
  .next (s.keepPilot (s.inSession f (fun s => (s.setSpdm f { (s.spdmOf f) with session := 0 }).respond f 0x6C)))

/-- A chunk of a large request, at most 4,096 bytes of at most 65,536. -/
def State.chunkSend (s : State) (f : InstId) (chunk : List Byte) (last : Bool) : State :=
  s.spdmAt f 3 (fun s =>
    let x := s.spdmOf f
    let n := (x.chunks.map List.length).foldl (· + ·) chunk.length
    if 4096 < chunk.length ∨ 65536 < n then (s.setSpdm f { x with chunks := [] }).spdmError f 1
    else (s.setSpdm f { x with chunks := if last then [] else x.chunks ++ [chunk] }).respond f 0x05)
def execChunkSend (f : InstId) (chunk : List Byte) (last : Bool) (s : State) : Host.Outcome State Fault Refusal := .next (s.keepPilot (s.chunkSend f chunk last))
def execChunkGet (f : InstId) (s : State) : Host.Outcome State Fault Refusal := .next (s.keepPilot (s.spdmAt f 3 (fun s => s.respond f 0x06)))

/-- SET_MIGRATION_SECRET: inside a session on a virtual function. -/
def State.setSecret (s : State) (v : VfId) (x : BitVec 256) : State :=
  s.inSession v.succ (fun s => ({ s with migSecret := s.migSecret.set 0 (v.val + 1) x }.extendLog (v.val + 1) (Config.secretMeas x)).respond v.succ 0x7E)
def execSetMigrationSecret (v : VfId) (secret : BitVec 256) (s : State) : Host.Outcome State Fault Refusal := .next (s.keepPilot (s.setSecret v secret))

/-- IDE_KM sets the keys of a function's stream (R321). -/
def execIdeKm (f : InstId) (s : State) : Host.Outcome State Fault Refusal :=
  .next (s.keepPilot (s.inSession f (fun s => ({ s with ide := s.ide.set false f.val true }).respond f 0x7E)))

/-! ### TDISP (R321, R378) -/

def State.tdi (s : State) (i : Nat) : Nat := s.fld Reg.HST_TDI_STAT [i] F.HST_TDI_STAT_STATE
def State.setTdi (s : State) (i v : Nat) : State := s.setFld Reg.HST_TDI_STAT [i] F.HST_TDI_STAT_STATE v

/-- A TDISP response, and its error. -/
def State.tdisp (s : State) (v : VfId) (code : Nat) : State := s.respond v.succ (0x200 + code)
def State.tdispError (s : State) (v : VfId) : State := s.reply { who := .fn v.succ, tag := 0x37F }

/-- LOCK_INTERFACE_REQUEST is refused (R378). -/
def State.lockRefused (s : State) (i : Nat) : Bool :=
  s.pilot.lifeCycle != 1 || s.debug == 2 || (s.fld Reg.SEC_DBG_TEN [] F.SEC_DBG_TEN_MASK).testBit (i - 1) || s.inst i != 1

def State.lockInterface (s : State) (v : VfId) : State :=
  s.inSession v.succ (fun s => if s.tdi (v + 1) ≠ 0 ∨ s.lockRefused (v + 1) then s.tdispError v else (s.setTdi (v + 1) 1).tdisp v 0x03)
def execLockInterfaceRequest (v : VfId) (s : State) : Host.Outcome State Fault Refusal := .next (s.keepPilot (s.lockInterface v))

/-- START_INTERFACE_REQUEST; `ok`: its nonce is the one that the lock gave out. -/
def State.startInterface (s : State) (v : VfId) (ok : Bool) : State :=
  s.inSession v.succ (fun s => if s.tdi (v + 1) = 1 ∧ ok then (s.setTdi (v + 1) 2).tdisp v 0x06 else s.tdispError v)
def execStartInterfaceRequest (v : VfId) (ok : Bool) (s : State) : Host.Outcome State Fault Refusal := .next (s.keepPilot (s.startInterface v ok))

/-- STOP_INTERFACE: RESET of the inst., and the TDI is CONFIG_UNLOCKED. -/
def State.stopInterface (s : State) (v : VfId) : State :=
  s.inSession v.succ (fun s =>
    let i := v.val + 1
    let s := if s.inst i = 0 then s else s.abortReset i (if s.flr.get 0 i = 1 then 1 else 2)
    (s.setTdi i 0).tdisp v 0x07)
def execStopInterface (v : VfId) (s : State) : Host.Outcome State Fault Refusal := .next (s.keepPilot (s.stopInterface v))

/-- The ranges of a virtual function that its report lists: BAR, first offset, length (Table HP-2). -/
def State.reportRanges (s : State) (i : Nat) : List (Nat × Nat × Nat) :=
  [(0, 0, 0x10000), (0, 0x10000, 0x28), (0, 0x10100, 0x18), (0, 0x18000, 0x100), (0, 0x19000, 8), (0, 0x20000, 0x2000), (0, 0x40000, 0xC0000), (2, 0, 2 ^ s.barSize i)]

/-- GET_DEVICE_INTERFACE_REPORT: one answer for each range, its offset and length. -/
def State.interfaceReport (s : State) (v : VfId) : State :=
  s.inSession v.succ (fun s => if s.tdi (v + 1) = 1 ∨ s.tdi (v + 1) = 2 then
    ((s.reportRanges (v + 1)).foldl (fun s r => s.reply { who := .fn v.succ, tag := 0x304, len := r.2.2, data := r.1 * 2 ^ 64 + r.2.1 }) s) else s.tdispError v)
def execGetDeviceInterfaceReport (v : VfId) (s : State) : Host.Outcome State Fault Refusal := .next (s.keepPilot (s.interfaceReport v))

/-! ### The debug port (R382) -/

def State.extestEntry (s : State) : State :=
  if s.power.mode = 2 ∨ ¬ s.pilot.pwrok ∨ s.pilot.extest then s
  else (s.setPilot (fun p => { p with extest := true, fails := 0, good := p.rpmc0 })).packageReset
def execExtestEntry (s : State) : Host.Outcome State Fault Refusal := .next s.extestEntry

/-- Leaving EXTEST begins a cold start that is not counted. -/
def State.extestExit (s : State) : State :=
  if s.pilot.extest then s.setPilot (fun p => { p with extest := false, uncounted := true, phase := if p.perst ∨ ¬ p.pwrok then 0 else 1, stage := 1 }) else s
def execExtestExit (s : State) : Host.Outcome State Fault Refusal := .next s.extestExit

/-- VENDORSCAN is enabled in the Vendor state alone; what an internal chain holds the manual does not say. -/
def execVendorscan (s : State) : Host.Outcome State Fault Refusal :=
  if s.debug = 3 ∧ s.power.mode ≠ 2 then .fault .internalChain else .next s

end Sys2Proof.Machine
end

