-- ==== Sys2Proof/Machine/Views.lean ====
section
/-! DEFINITION. What registers read as: the value the register file holds, or the live value of a unit (R4-R6, R55, R86, R87, R120, R121, R186, R201,
R245, R249, R368). -/
namespace Sys2Proof.Machine

/-- Value of a one-bit condition. -/
def bit01 (b : Bool) : Nat := if b then 1 else 0

/-- Bits numbered by a condition. -/
def bitsWhere (n : Nat) (p : Nat → Bool) : Nat := maskOf ((List.range n).filter p)

/-! ### Cores -/

/-- CST_STEP_STAT, CST_STEP_INFO, CST_ENG_PROG (R55). -/
def StepUnit.statWord (u : StepUnit) : Nat :=
  let busy (e : Nat) : Bool := match u.running with
    | some d => d.takes e && decide ((u.engine e).done ≤ d.field 63 53)
    | none => false
  bitsWhere 4 busy + bitsWhere 4 (fun e => (u.engine e).kept.isSome) * 2 ^ 4 + bit01 (u.running.isSome || u.queued.isSome) * 2 ^ 8 +
    bit01 u.lastPoison * 2 ^ 9 + u.lastEnd * 2 ^ 10 + u.lastSeq.toNat * 2 ^ 32
def StepUnit.infoWord (u : StepUnit) : Nat := u.faultCode % 256 + u.curSeq.toNat * 2 ^ 32
def StepUnit.progWord (u : StepUnit) : Nat := (List.range 4).foldl (fun n e => n + (u.engine e).done % 4096 * 2 ^ (16 * e)) 0

/-- CST_SEQ_RA (R86). -/
def State.raWord (s : State) (n : Nat) : Nat :=
  let q := s.seq n
  q.scan.pc.toNat + q.scan.stop * 2 ^ 30 + min 4 (q.scan.steps - q.stepsIssued) * 2 ^ 33 + min 8 (s.prefetchOut n) * 2 ^ 36

/-- Registers of a core's sequencer and Step unit; `k` is the second index. -/
def State.seqView (s : State) (base n k : Nat) : Option Nat :=
  let q := s.seq n
  let u := s.stepUnit n
  if base = Reg.CST_STEP_STAT.base then some u.statWord
  else if base = Reg.CST_STEP_INFO.base then some u.infoWord
  else if base = Reg.CST_ENG_PROG.base then some u.progWord
  else if base = Reg.CST_SEQ_STAT.base then some q.statWord
  else if base = Reg.CST_SEQ_WAIT.base then some q.waitWord
  else if base = Reg.CST_SEQ_LOOP.base then some (q.loopWord k)
  else if base = Reg.CST_SEQ_LSTR.base then some (q.strideWord k)
  else if base = Reg.CST_SEQ_CALL.base then some (q.callWord k)
  else if base = Reg.CST_SEQ_EXP.base then some (q.expWord k)
  else if base = Reg.CST_SEQ_RA.base then some (s.raWord n)
  else if base = Reg.CST_SEQ_CHEAP.base then some (q.gap + q.maxGap * 2 ^ 32)
  else if base = Reg.CST_SEQ_CHAIN.base then some q.chainPc.toNat
  else none

/-- STATE of Table TG-7. -/
def GrpStatus.code : GrpStatus → Nat
  | .free => 0
  | .ready => 1
  | .waitTally .. | .waitBar _ => 2
  | .parked => 3

/-- CST_GRP_STAT (R120). -/
def Group.statWord (x : Group) : Nat :=
  x.pc.toNat + x.gnum % 8 * 2 ^ 27 + x.status.code * 2 ^ 30 + x.stack.length * 2 ^ 33 + x.fault * 2 ^ 40 + x.trapCode.toNat * 2 ^ 48

/-- Registers of slot `g` of core `n`. -/
def State.groupView (s : State) (base n g : Nat) : Option Nat :=
  let x := s.group n g
  if base = Reg.CST_GRP_STAT.base then some x.statWord
  else if base = Reg.CST_GRP_FADDR.base then some x.faddr.toNat
  else if base = Reg.CST_GRP_FMASK.base then some x.fmask.toNat
  else if base = Reg.CST_GRP_LIVE.base then some x.live.toNat
  else if base = Reg.CST_GRP_ACT.base then some x.active.toNat
  else if base = Reg.CST_GRP_SPIN.base then some (x.signature.toNat + x.spin % 4096 * 2 ^ 32)
  else none

/-- A word of a mask-stack entry (Table TG-8). -/
def MaskEntry.word (e : MaskEntry) (k : Nat) : Nat :=
  match k with
  | 0 => e.saved.toNat
  | 1 => e.pend.toNat
  | 2 => e.ppc.toNat + e.rpc.toNat * 2 ^ 18 + (match e.kind with
      | .split => 1
      | .loop => 2) * 2 ^ 62
  | _ => 0

/-- The group state view and the vector registers, by window offset (R121); an entry at or above DEPTH reads zero. -/
def State.stateView (s : State) (n off : Nat) : Option Nat :=
  if 0x4000 ≤ off ∧ off < 0x6000 then
    let x := s.group n ((off - 0x4000) / 0x400)
    let o := (off - 0x4000) % 0x400
    if o < 0x100 then some (x.sreg (o / 8)).toNat
    else if o < 0x140 then some (x.preg ((o - 0x100) / 8)).toNat
    else if 0x200 ≤ o then some (match x.stack.reverse[(o - 0x200) / 32]? with
      | some e => e.word ((o % 32) / 8)
      | none => 0)
    else none
  else if 0x20000 ≤ off ∧ off < 0x40000 then
    let x := s.group n ((off - 0x20000) / 0x4000)
    let o := (off - 0x20000) % 0x4000
    some ((x.vreg (o / 0x100) (2 * (o % 0x100 / 8))).toNat + (x.vreg (o / 0x100) (2 * (o % 0x100 / 8) + 1)).toNat * 2 ^ 32)
  else none

/-! ### Porters (R201) -/

def ChanStatus.code : ChanStatus → Nat
  | .idle => 0
  | .active => 1
  | .stopped => 2
  | .error => 3
  | .holding => 4

def Chan.statWord (x : Chan) : Nat :=
  x.status.code + bit01 x.poison * 2 ^ 3 + bit01 x.partials * 2 ^ 4 + x.queue.length * 2 ^ 16 + x.err * 2 ^ 24

/-- Register `k` of channel `c`: STAT, PROG, TAG, DONE. -/
def Chan.word (x : Chan) (k : Nat) : Nat :=
  match k with
  | 0 => x.statWord
  | 1 => x.prog
  | 2 => x.tag.toNat
  | _ => x.done.toNat

/-- Porter `p` and its register at a distance from the Porter's base. -/
def State.porterWord (s : State) (p o : Nat) : Option Nat :=
  if o = 0 then some ((s.porter p).status + (s.porter p).cause * 2 ^ 8)
  else if o = 8 then some (s.porter p).errAddr
  else if 0x100 ≤ o ∧ o < 0x500 ∧ o % 0x40 < 0x20 then some ((s.chan p ((o - 0x100) / 0x40)).word (o % 0x40 / 8))
  else none

/-- Live registers of a Porter by offset; the registers that hold values of their own (CTL, CNT, CH0_DESC, CH0_POST) answer `none`. -/
def State.porterView (s : State) (off : Nat) : Option Nat :=
  if 0x4400000 ≤ off ∧ off < 0x4410000 then s.porterWord storekeeperPorter (off - 0x4400000)
  else if 0x4000000 ≤ off ∧ off < 0x4400000 then
    (let o := off % 0x10000; if o = 0x120 ∨ o = 0x128 then none else s.porterWord (512 + (off - 0x4000000) / 0x10000) o)
  else if 0x10000000 ≤ off ∧ 0x6000 ≤ off % 0x40000 ∧ off % 0x40000 < 0x6400 then s.porterWord ((off - 0x10000000) / 0x40000) (off % 0x40000 - 0x6000)
  else none

/-! ### Bays, Hatches, slices, power -/

/-- BAY_IMG_STAT (R87). -/
def ImgSlot.statWord (x : ImgSlot) : Nat := x.status.code + x.jprof % 16 * 2 ^ 8 + x.refuse % 256 * 2 ^ 16 + x.haltedCores.length * 2 ^ 32

/-- BAY_SCHED (R245). -/
def State.schedWord (s : State) (b : Nat) : Nat :=
  let x := s.bay b
  x.cur + bit01 x.on * 2 ^ 3 + bit01 x.lost * 2 ^ 4 + x.target.getD 0 * 2 ^ 8 + x.switch * 2 ^ 10 + bitsWhere 4 (s.critical b) * 2 ^ 32 + bitsWhere 4 (s.isReady b) * 2 ^ 36

/-- BAY_CTLWi: the last words of the Pantry of Bay-relative core 0 (R227). -/
def State.ctlWord (s : State) (b i : Nat) : Nat :=
  match s.bit Reg.BAY_CFG [b] F.BAY_CFG_EN, (s.coresOf b).head? with
  | true, some n => s.pantryNat n (0x27FF80 + 8 * i) 8
  | _, _ => 0

/-- Live registers outside the core windows. -/
def State.unitView (s : State) (r : RegSpec) (is : List Nat) : Option Nat :=
  let n := is.headD 0
  let k := is.getD 1 0
  let old := (s.reg r is).toNat
  if r.base = Reg.BAY_IMG_STAT.base then some (s.img n k).statWord
  else if r.base = Reg.BAY_IMG_MEAS.base then some (fieldOf (s.img n k).meas (64 * is.getD 2 0 + 63) (64 * is.getD 2 0))
  else if r.base = Reg.BAY_SCHED.base then some (s.schedWord n)
  else if r.base = Reg.BAY_CTLW.base then some (s.ctlWord n k)
  else if r.base = Reg.HAT_STAT.base then some (old / 16 * 16 % 2 ^ 16 + s.inst (n + 1) + (s.hatQueue.get [] (n + 1)).length * 2 ^ 16)
  else if r.base = Reg.LRD_SL_STAT.base then some ((s.slice n).queue.length + (s.slice n).fwd.length * 2 ^ 20 + (~~~ (s.slice n).offline).toNat * 2 ^ 32)
  else if r.base = Reg.PWR_STAT.base then some (old / 2 ^ 16 * 2 ^ 16 + s.powerLimit)
  else if r.base = Reg.CST_MM_CFG.base then some (old % 2 + bit01 (s.orderedCore n) * 2 ^ 8)
  else none

/-- What a register reads as. -/
def State.view (s : State) (r : RegSpec) (is : List Nat) : DWord :=
  let n := is.headD 0
  let k := is.getD 1 0
  match (s.seqView r.base n k).orElse (fun _ => (s.groupView r.base n k).orElse (fun _ => (s.porterView (r.addr is)).orElse (fun _ => s.unitView r is))) with
  | some v => BitVec.ofNat 64 v
  | none => s.reg r is

/-! ### Reads by offset -/

/-- A ring entry's word in a Hatch page (Table TN-2). -/
def isRingWord (off : Nat) : Bool := decide (0x2000000 ≤ off) && decide (off < 0x2200000) && decide (0x4000 ≤ off % 0x10000) && decide (off % 0x10000 < 0xC000)

/-- The window offset of a core state window, with its core. -/
def windowOf (off : Nat) : Option (Nat × Nat) := if 0x10000000 ≤ off ∧ off < 0x18000000 then some ((off - 0x10000000) / 0x40000, off % 0x40000) else none

/-- The register that the peek alias at an offset names (R6). -/
def aliasOf (off : Nat) : Option (RegSpec × List Nat) :=
  if off < 0x8000 then none else match findReg (off - 0x8000) with
  | some (r, is) => if r.rcMask = 0 then none else some (r, is)
  | none => none

/-- In Boxroom mode a read reaches the identity block, whose inventory reads 0, and the SEC_ block (R372). -/
def boxroomReads (off : Nat) : Bool := decide (off < 0x100000) || (decide (0x300000 ≤ off) && decide (off < 0x400000))
def isInventory (off : Nat) : Bool := off == Reg.DEV_INV_DIE.base || off == Reg.DEV_INV_CLUSTER.base || (decide (0x100 ≤ off) && decide (off < 0x200))

/-- What a 64-bit read of an offset returns, without any side effect; an offset with no register reads zero (R4, R6). -/
def State.regPeek (s : State) (off : Nat) : DWord :=
  if s.inBoxroom ∧ (¬ boxroomReads off ∨ isInventory off) then 0
  else if off % 8 ≠ 0 then 0
  else if isRingWord off then s.regs.get 0 off
  else match findReg off with
    | some (r, is) => s.view r is
    | none => match aliasOf off with
      | some (r, is) => s.view r is
      | none => match windowOf off with
        | some (n, o) => BitVec.ofNat 64 ((s.stateView n o).getD 0)
        | none => 0

/-- Bits that a read of a half names (R4). -/
def halfHi : Half → Nat
  | .low => 31
  | _ => 63
def halfLo : Half → Nat
  | .high => 32
  | _ => 0

/-- The RC fields that lie wholly or partly in the half that is read, cleared (R4, R5). -/
def State.clearRead (s : State) (r : RegSpec) (is : List Nat) (h : Half) : State :=
  if r.base = Reg.CST_SEQ_CHEAP.base then
    (match h with
      | .low => s
      | _ => s.setSeq (is.headD 0) { (s.seq (is.headD 0)) with maxGap := 0 })
  else
    let fs := r.fields.filter (fun f => f.acc == .rc && decide (f.lo ≤ halfHi h) && decide (halfLo h ≤ f.hi))
    if fs.isEmpty then s else s.setReg r is (fs.foldl (fun v f => withField v f.hi f.lo 0) (s.reg r is))

/-- A read by an agent on the manager's side: the value, and the side effect on RC fields at the main offset. -/
def State.regRead (s : State) (off : Nat) (h : Half) : State × DWord :=
  let v := s.regPeek off
  let v := match h with
    | .whole => v
    | _ => BitVec.ofNat 64 (fieldOf v (halfHi h) (halfLo h))
  if s.inBoxroom ∧ ¬ boxroomReads off then (s, v)
  else match findReg off with
    | some (r, is) => (s.clearRead r is h, v)
    | none => (s, v)

end Sys2Proof.Machine
end

