-- ==== Sys2Proof/Machine/Regs.lean ====
section
/-! DEFINITION. Writes of registers by offset, and reads with a side effect (R3-R6, R413, and the register rule of each chapter). -/
namespace Sys2Proof.Machine

/-! ### Commands -/

/-- A write of a register that issues commands: the command its value names, or a record of a reserved encoding. -/
def State.reservedCmd (s : State) (w : Writer) (off : Nat) : State := s.refuse w off causeReserved

/-- BAY_IMG_CMD (R82). The error at which a LOAD's read would fail is LOAD's operand; none here. -/
def State.imgWrite (s : State) (w : Writer) (b j : Nat) (v : DWord) : State :=
  let off := Reg.BAY_IMG_CMD.addr [b, j]
  s.asManager w off (fun s => match fieldOf v 3 0 with
    | 1 => s.loadCmd b j none
    | 2 => s.startCmd b j
    | 3 => s.stopImg b j
    | 4 => s.abortImg b j
    | 5 => s.unloadImg b j
    | _ => s.reservedCmd w off)

/-- LRD_QMAP_CMD, LRD_PIN_CMD, LRD_TLB_INV, LRD_RNG_CMDi, LRD_COH_CMD. -/
def State.larderWrite (s : State) (w : Writer) (base i : Nat) (v : DWord) : Option State :=
  if base = Reg.LRD_QMAP_CMD.base then some (s.qmapCmd w (fieldOf v 8 0) (fieldOf v 10 9))
  else if base = Reg.LRD_PIN_CMD.base then some (s.pinCmd w (fieldOf v 13 12) (fieldOf v 11 8) (fieldOf v 5 0))
  else if base = Reg.LRD_TLB_INV.base then some (s.tlbInv w (fieldOf v 61 56) (fieldOf v 55 54) (fieldOf v 35 0))
  else if base = Reg.LRD_RNG_CMD.base then
    (let op := fieldOf v 2 0
     some (if 1 ≤ op ∧ op ≤ 4 then s.rangeCmd w i op else s.tenantWrite w (Reg.LRD_RNG_CMD.addr [i]) (fun s =>
       s.refuse w (Reg.LRD_RNG_CMD.addr [i]) (if mayRange w i then causeReserved else causeActor))))
  else if base = Reg.LRD_COH_CMD.base then
    some (match fieldOf v 1 0 with
      | 1 =>
        let (k, t) := s.draw
        t.enterOwner w (2 + Config.pick k % 2)
      | 2 => s.exitOwner w
      | _ => s.reservedCmd w Reg.LRD_COH_CMD.base)
  else none

/-- CTL of Porter `p` (R201). -/
def State.porterWrite (s : State) (w : Writer) (p : Nat) (v : DWord) : State :=
  let c := fieldOf v 7 4
  match fieldOf v 3 0 with
  | 1 => s.clearPorter w p
  | 2 => s.retryPorter w p
  | 3 => s.clearChan w p c
  | 4 => s.retryChan w p c
  | _ => s.refuse w (porterCtl p) (if mayPorter w p then causeReserved else causeActor)

/-- HAT_INST_CMDi (R251). -/
def State.instWrite (s : State) (w : Writer) (i : Nat) (v : DWord) : State :=
  match fieldOf v 3 0 with
  | 1 => s.enableInst w i
  | 2 => s.quiesceCmd w i
  | 3 => s.resumeInst w i
  | 4 => s.freezeInst w i
  | 5 => s.saveCmd w i
  | 6 => s.restoreCmd w i
  | 7 => s.resetInst w i
  | 8 => s.removeInst w i
  | _ => s.asManager w (Reg.HAT_INST_CMD.addr [i]) (fun s => (s.tdiBreak i).reservedCmd w (Reg.HAT_INST_CMD.addr [i]))

/-- JST_DIE_CMD, CHU_CMD, CEL_CMD, CEL_KEY_CMD. Only compute dies 0-3 rejoin. -/
def State.linkWrite (s : State) (w : Writer) (base : Nat) (v : DWord) : Option State :=
  let bad : State := s.asManager w base (fun s => s.reservedCmd w base)
  if base = Reg.JST_DIE_CMD.base then some (if fieldOf v 3 0 = 1 ∧ fieldOf v 6 4 < 4 then s.rejoin w (fieldOf v 6 4) else bad)
  else if base = Reg.CHU_CMD.base then
    some (match fieldOf v 3 0 with
      | 1 => if fieldOf v 7 4 < 8 then s.retrainPort w (fieldOf v 7 4) else bad
      | 2 => s.restoreRoutes w
      | 3 => s.xload w
      | _ => bad)
  else if base = Reg.CEL_CMD.base then
    some (match fieldOf v 3 0 with
      | 1 => s.foldCmd w (fieldOf v 10 8)
      | 2 => s.cellarRetrain w (fieldOf v 15 11)
      | _ => bad)
  else if base = Reg.CEL_KEY_CMD.base then
    some (match fieldOf v 39 38 with
      | 1 => s.assignKey w (fieldOf v 17 0) (fieldOf v 37 32)
      | 2 => s.clearKey w (fieldOf v 17 0)
      | 3 => s.rekeyInst w (fieldOf v 37 32)
      | _ => bad)
  else none

/-- SEC_CMD (Table SE-8). Whether a signature verifies, and whether a read fails, are operands of the rows; here they are free. -/
def State.secWrite (s : State) (w : Writer) (v : DWord) : State :=
  match fieldOf v 3 0 with
  | 1 => s.keepPilot (s.newNonce w)
  | 2 =>
    let (k, s) := s.draw
    s.applyToken w false (Config.pick k % 2 == 1) (Config.pick k / 2 % 2 == 1)
  | 3 => s.keepPilot (s.debugClose w)
  | 4 => s.commitSvn w
  | 5 => s.retryStart w
  | 6 =>
    let (k, s) := s.draw
    s.recover w false (Config.pick k % 2 == 1)
  | _ => s.keepPilot (s.asManager w Reg.SEC_CMD.base (fun s => s.reservedCmd w Reg.SEC_CMD.base))

/-! ### Registers with rules of their own -/

/-- BAY_CFG (R226, R245): formed, dissolved, or INSTANCE and ORDERED set while EN is 0. -/
def State.bayCfgWrite (s : State) (w : Writer) (b : Nat) (v : DWord) : State :=
  let off := Reg.BAY_CFG.addr [b]
  let i := fieldOf v F.BAY_CFG_INSTANCE.hi F.BAY_CFG_INSTANCE.lo
  let o := fieldOf v F.BAY_CFG_ORDERED.hi F.BAY_CFG_ORDERED.lo
  if bitAt v F.BAY_CFG_EN.lo then s.bayForm w b i (o == 1)
  else s.asManager w off (fun s =>
    if s.bit Reg.BAY_CFG [b] F.BAY_CFG_EN then
      (s.when (i != s.instOfBay b || o != s.fld Reg.BAY_CFG [b] F.BAY_CFG_ORDERED) (fun s => s.refuse w off causeState)).bayDissolve w b
    else
      let s := (s.tdiBreak (s.instOfBay b)).setFld Reg.BAY_CFG [b] F.BAY_CFG_ORDERED o
      if 32 < i then s.reservedCmd w off else (s.setFld Reg.BAY_CFG [b] F.BAY_CFG_INSTANCE i).tdiBreak i)

/-- A register of the Hatch page of inst. `i` (Table TN-3): each side writes its own registers and its own bits. -/
def State.hatchWrite (s : State) (w : Writer) (r : RegSpec) (is : List Nat) (v : DWord) : State :=
  let i := is.headD 0 + 1
  let off := r.addr is
  let own (ok : Bool) (s' : State) : State := if ok then s' else s.refuse w off causeActor
  let clear (f : Fld) (s : State) : State := if bitAt v f.lo then s.setFld r is f 0 else s
  if r.base = Reg.HAT_TSTAGE.base then own (isTenant w i) (s.setReg r is v)
  else if r.base = Reg.HAT_MSTAGE.base then own (isManager w) (s.setReg r is v)
  else if r.base = Reg.HAT_TPOST.base then
    (if bitAt v 0 then s.tenantPost w i else own (isTenant w i) (s.wrote r is 0))
  else if r.base = Reg.HAT_MPOST.base then
    (if bitAt v 0 then s.managerPost w i else own (isManager w) (s.wrote r is 0))
  else if r.base = Reg.HAT_T2M_IDX.base then s.hatCons w i 0 (fieldOf v 63 32)
  else if r.base = Reg.HAT_M2T_IDX.base then s.hatCons w i 1 (fieldOf v 63 32)
  else if r.base = Reg.HAT_STAT.base then
    (if isTenant w i then clear F.HAT_STAT_TREFUSED s
     else own (isManager w) (clear F.HAT_STAT_MREFUSED (clear F.HAT_STAT_EVT_LOST s)))
  else if isTenant w i then s.setFld r is F.HAT_IRQ_M2T_EN (fieldOf v F.HAT_IRQ_M2T_EN.hi F.HAT_IRQ_M2T_EN.lo)
  else own (isManager w) (s.setFld r is F.HAT_IRQ_T2M_EN (fieldOf v F.HAT_IRQ_T2M_EN.hi F.HAT_IRQ_T2M_EN.lo))

/-- CEPOCH of CHU_SPAN by the Storekeeper firmware; the other fields by the manager (R302, R306). -/
def State.chuSpanWrite (s : State) (w : Writer) (v : DWord) : State :=
  if w = .storekeeper then s.setFld Reg.CHU_SPAN [] F.CHU_SPAN_CEPOCH (fieldOf v F.CHU_SPAN_CEPOCH.hi F.CHU_SPAN_CEPOCH.lo) else s.spanWrite w v

/-- Registers of a core's state window: the tenant and the manager write Tallies, AUDIT and, under R118, group state; the rest is read-only (R186, R311). -/
def State.windowWrite (s : State) (w : Writer) (off : Nat) (r : RegSpec) (is : List Nat) (v : DWord) : State :=
  let n := is.headD 0
  let k := is.getD 1 0
  if r.base = Reg.CST_TALLY.base then s.coreWrite w n off v (fun s => s.setTally n k (fieldOf v 31 0))
  else if r.base = Reg.CST_TALLY_ADD.base then s.coreWrite w n off v (fun s => s.tallyAddWrite w n k v)
  else if r.base = Reg.CST_MM_CFG.base then s.coreWrite w n off v (fun s => s.setFld r is F.CST_MM_CFG_AUDIT (fieldOf v 0 0))
  else if r.base = Reg.CST_GRP_ACT.base then s.groupStateWrite w n (off % 0x40000) v
  else if r.base = Reg.CST_GRP_CTL.base then
    (match fieldOf v 1 0 with
      | 1 => s.resumeV w n k
      | 2 => s.resumeNext w n k
      | 3 => s.discardV w n k
      | _ => s.coreWrite w n off v (fun s => s.reservedCmd w off))
  else if r.base = Reg.CST_PTR_CTL.base then
    (if isManager w then s.coreWrite w n off v (fun s => s.porterWrite w n v) else s.tenantWrite w off (fun s => s.refuse w off causeActor))
  else if 0x10006000 ≤ r.base ∧ r.base < 0x10006400 then s.tenantWrite w off (fun s => s.refuse w off causeActor)
  else if isManager w then s
  else s.tenantWrite w off (fun s => s.refuse w off causeActor)

/-! ### Plain fields -/

/-- A field and whether the value written to it is one that its chapter allows. -/
abbrev FieldRule := Fld × Bool

def within (lo hi n : Nat) : Bool := decide (lo ≤ n) && decide (n ≤ hi)

/-- Rules of the host, Cellar, clock, Chute and Bay fields. -/
def State.linkRules (s : State) (r : RegSpec) (is : List Nat) (v : DWord) : List FieldRule :=
  let f (x : Fld) : Nat := fieldOf v x.hi x.lo
  let b := is.headD 0
  if r.base = Reg.HST_LINK_CFG.base then [(F.HST_LINK_CFG_MAX_SPEED, f F.HST_LINK_CFG_MAX_SPEED != 0)]
  else if r.base = Reg.CEL_CFG.base then [(F.CEL_CFG_RETRAIN_MS, f F.CEL_CFG_RETRAIN_MS != 0), (F.CEL_CFG_NEXT_RATE, within 0 4 (f F.CEL_CFG_NEXT_RATE))]
  else if r.base = Reg.CLK_SSC.base then [(F.CLK_SSC_RATE, within 30 63 (f F.CLK_SSC_RATE)), (F.CLK_SSC_DEPTH, within 0 10 (f F.CLK_SSC_DEPTH))]
  else if r.base = Reg.CHU_CFG.base then [(F.CHU_CFG_TIMEOUT_US, f F.CHU_CFG_TIMEOUT_US != 0)]
  else if r.base = Reg.CHU_INWIN_BASE.base then [(F.CHU_INWIN_BASE_INSTANCE, within 0 32 (f F.CHU_INWIN_BASE_INSTANCE))]
  else if r.base = Reg.CHU_INWIN_LIM.base then
    [(F.CHU_INWIN_LIM_SIZE, f F.CHU_INWIN_LIM_SIZE % 4096 == 0 && within 0 (2 ^ 36) (f F.CHU_INWIN_LIM_SIZE))]
  else if r.base = Reg.BAY_SLICE.base then [(F.BAY_SLICE_BE_SLICE, f F.BAY_SLICE_BE_SLICE != 0), (F.BAY_SLICE_LC_SLICE, f F.BAY_SLICE_LC_SLICE != 0)]
  else if r.base = Reg.LRD_RED_CFG.base then [(F.LRD_RED_CFG_BIND_MAX, f F.LRD_RED_CFG_BIND_MAX != 0)]
  else if r.base = Reg.PWR_BAYOP.base then
    (let point (x : Fld) : FieldRule := (x, s.bit Reg.PWR_OPTAB [f x] F.PWR_OPTAB_VALID)
     [point F.PWR_BAYOP_IDLE, point F.PWR_BAYOP_COLL, point F.PWR_BAYOP_DECODE, point F.PWR_BAYOP_PREFILL, (F.PWR_BAYOP_PH_LO, within 0 62 (f F.PWR_BAYOP_PH_LO))])
  else if r.base = Reg.PWR_RAIL_LIM.base then
    [F.PWR_RAIL_LIM_L1US, F.PWR_RAIL_LIM_L20US, F.PWR_RAIL_LIM_L1MS].map (fun x => (x, within 1 (fieldOf (r.resetAt [b]) x.hi x.lo) (f x)))
  else []

/-- Rules of the power fields. -/
def State.powerRules (s : State) (r : RegSpec) (v : DWord) : List FieldRule :=
  let f (x : Fld) : Nat := fieldOf v x.hi x.lo
  if r.base = Reg.PWR_CTL.base then [(F.PWR_CTL_GAIN, within 8 255 (f F.PWR_CTL_GAIN))]
  else if r.base = Reg.PWR_PKG.base then [(F.PWR_PKG_PEAK_W, within 0 3200 (f F.PWR_PKG_PEAK_W)), (F.PWR_PKG_SUST_W, within 0 2400 (f F.PWR_PKG_SUST_W))]
  else if r.base = Reg.PWR_CAP.base then [(F.PWR_CAP_CAP_W, within 0 (s.fld Reg.PWR_PKG [] F.PWR_PKG_SUST_W) (f F.PWR_CAP_CAP_W))]
  else if r.base = Reg.PWR_THERM.base then
    [(F.PWR_THERM_CD_START, within 60 100 (f F.PWR_THERM_CD_START)), (F.PWR_THERM_UC_START, within 60 90 (f F.PWR_THERM_UC_START))]
  else if r.base = Reg.PWR_SPAN.base then [(F.PWR_SPAN_PERIOD_US, within 100 65535 (f F.PWR_SPAN_PERIOD_US))]
  else if r.base = Reg.PWR_CL.base then [(F.PWR_CL_MODE, f F.PWR_CL_MODE != 3)]
  else []

/-- The cause that discards a whole write in the present state, 0 for none. -/
def State.stateCause (s : State) (r : RegSpec) (is : List Nat) (v : DWord) : Nat :=
  let n := is.headD 0
  let k := is.getD 1 0
  if r.base = Reg.BAY_CLUSTERS.base then (if s.bit Reg.BAY_CFG [n] F.BAY_CFG_EN then causeState else 0)
  else if r.base = Reg.BAY_CLAIM.base then (if (s.img n k).status = .empty then 0 else causeState)
  else if r.base = Reg.BAY_SPILL.base ∨ r.base = Reg.BAY_IMG_ADDR.base ∨ r.base = Reg.BAY_IMG_LEN.base then (if loadable (s.img n k).status then 0 else causeState)
  else if r.base = Reg.LRD_RNG_ADDR.base ∨ r.base = Reg.LRD_RNG_LEN.base then (if (s.rangeOps.get none n).isSome then causeState else 0)
  else if r.base = Reg.HAT_INST_SAVE.base ∨ r.base = Reg.HAT_INST_SLEN.base ∨ r.base = Reg.HAT_INST_QCFG.base ∨ r.base = Reg.HAT_INST_RMAP.base then
    (if s.bit Reg.HAT_INST_STAT [n] F.HAT_INST_STAT_BUSY then causeState else 0)
  else if r.base = Reg.HAT_SHR_BASE.base then (if s.bit r is F.HAT_SHR_BASE_EN ∧ bitAt v F.HAT_SHR_BASE_EN.lo then causeState else 0)
  else if r.base = Reg.HAT_SHR_LEN.base ∨ r.base = Reg.HAT_SHR_BACK.base ∨ r.base = Reg.HAT_SHR_SHARE.base then
    (if s.bit Reg.HAT_SHR_BASE [n] F.HAT_SHR_BASE_EN then causeState else 0)
  else if r.base = Reg.ERR_CONS.base then
    (let c := s.fld Reg.ERR_CONS [] F.ERR_CONS_CONS
     if (s.fld Reg.ERR_PROD [] F.ERR_PROD_PROD + 2 ^ 32 - c) % 2 ^ 32 < (fieldOf v 31 0 + 2 ^ 32 - c) % 2 ^ 32 then causeValue else 0)
  else 0

/-- The value of a register after a write: RW fields take the written value but where it is reserved, ones clear RW1C bits (R3, R5). -/
def RegSpec.written (r : RegSpec) (old v : DWord) (bad : List Fld) : DWord :=
  let rw := BitVec.ofNat 64 r.rwMask
  let x := ((old &&& ~~~ rw) ||| (v &&& rw)) &&& ~~~ (v &&& BitVec.ofNat 64 r.w1cMask)
  bad.foldl (fun x f => withField x f.hi f.lo (fieldOf old f.hi f.lo)) x

/-- What a write does beyond its fields. -/
def State.afterWrite (s : State) (r : RegSpec) (is : List Nat) (old : DWord) : State :=
  let n := is.headD 0
  if r.base = Reg.LRD_MMU_ROOT.base then s.tdiBreak n
  else if r.base = Reg.CHU_PORT_CFG.base then
    (let on := s.bit r is F.CHU_PORT_CFG_EN
     if on = bitAt old F.CHU_PORT_CFG_EN.lo then s else s.portEnable n on)
  else if r.base = Reg.PWR_CL.base then
    (let m := s.fld r is F.PWR_CL_MODE
     if m = 1 ∨ m = 2 ∧ s.gated n then s.wantWake n else s)
  else s

/-- A write of a register by the field access types (R5): one record for reserved values, none of whose fields changes. -/
def State.plainWrite (s : State) (w : Writer) (off : Nat) (r : RegSpec) (is : List Nat) (v : DWord) : State :=
  let s := if r.base = Reg.BAY_CLUSTERS.base then s.tdiBreak (s.instOfBay (is.headD 0)) else s
  match s.stateCause r is v with
  | 0 =>
    let bad := ((s.linkRules r is v ++ s.powerRules r v).filter (fun e => !e.2)).map (·.1)
    let old := s.reg r is
    ((s.setReg r is (r.written old v bad)).when (!bad.isEmpty) (fun s => s.refuse w off causeReserved)).afterWrite r is old
  | c => s.refuse w off c

/-! ### Who writes what -/

/-- The blocks whose chapters discard every write but the ones they name with a record: Porters, Joists, clocks (R201, R281, R349). -/
def strictBlock (off : Nat) : Bool :=
  (decide (0x4000000 ≤ off) && decide (off < 0x5000000)) || (decide (0xA000000 ≤ off) && decide (off < 0xB000000)) || (decide (0x100000 ≤ off) && decide (off < 0x200000))

/-- A register with nothing that a write could change. -/
def RegSpec.readOnly (r : RegSpec) : Bool := r.rwMask == 0 && r.w1cMask == 0

/-- Command registers and registers with rules of their own outside the core windows and Hatch pages. -/
def State.specialWrite (s : State) (w : Writer) (off : Nat) (r : RegSpec) (is : List Nat) (v : DWord) : Option State :=
  let n := is.headD 0
  let k := is.getD 1 0
  if r.base = Reg.BAY_IMG_CMD.base then some (s.imgWrite w n k v)
  else if r.base = Reg.BAY_CFG.base then some (s.bayCfgWrite w n v)
  else if r.base = Reg.BAY_CTLW.base then some (s.controlWord w n k v)
  else if r.base = Reg.HAT_INST_CMD.base then some (s.instWrite w n v)
  else if r.base = Reg.SEC_DBG_TEN.base then some (s.writeDebugMask w v)
  else if r.base = Reg.CHU_SPAN.base then some (s.chuSpanWrite w v)
  else if r.base = Reg.CLK_PLL.base then some (s.pllWrite w n k v)
  else if r.base = Reg.CLK_SEL.base then some (s.selWrite w n v)
  else if r.base = Reg.JST_ROUTE.base then
    some (if w = .storekeeper then s.setReg r is (BitVec.ofNat 64 (fieldOf v 23 0)) else s.refuse w off causeActor)
  else if r.base = Reg.PTR_CL_CTL.base then some (s.porterWrite w (512 + n) v)
  else if r.base = Reg.PTR_SK_CTL.base then some (s.porterWrite w storekeeperPorter v)
  else if r.base = Reg.PTR_CL_CH0_POST.base then
    some (if bitAt v 0 then s.ch0Post w n else s.asManager w off (fun s => s.wrote r is 0))
  else (s.larderWrite w r.base n v).orElse (fun _ => s.linkWrite w r.base v)

/-- A tenant reaches the Hatch page and the range registers of its inst., the control words of its Bays and the windows of its Bays' cores. -/
def State.tenantReaches (s : State) (i off : Nat) : Bool :=
  (decide (hatPage i ≤ off) && decide (off < hatPage i + 0x10000)) ||
  (decide (Reg.LRD_RNG_ADDR.addr [i] ≤ off) && decide (off < Reg.LRD_RNG_ADDR.addr [i] + 0x28)) ||
  (match findReg off with
    | some (r, is) => r.base == Reg.BAY_CTLW.base && s.bit Reg.BAY_CFG [is.headD 0] F.BAY_CFG_EN && s.instOfBay (is.headD 0) == i
    | none => false) ||
  (match windowOf off with
    | some (n, _) => s.bayOfCore n |>.any (fun b => s.instOfBay b == i)
    | none => false)

/-- The tenant's inst., for a writer that is one. -/
def tenantOf : Writer → Option Nat
  | .fn f => if f.val = 0 then none else some f.val
  | _ => none

/-- The record of a write narrower than 64 bits (R4, R413). -/
def State.narrowWrite (s : State) (w : Writer) (own : Nat) : State :=
  s.log { kind := 0x10, index := writerSub w, cls := .contained, address := own, syndrome := causeNarrow, sub := writerSub w, inst := writerInst w }

/-- A 64-bit write at an aligned offset, but of SEC_CMD, by someone who reaches it. -/
def State.writeUnit (s : State) (w : Writer) (off : Nat) (v : DWord) : State :=
  if isRingWord off then s
  else match findReg off with
    | some (r, is) =>
      if 0x10000000 ≤ off then s.windowWrite w off r is v
      else if 0x2000000 ≤ off ∧ off < 0x3000000 then s.hatchWrite w r is v
      else match s.specialWrite w off r is v with
        | some s' => s'
        | none =>
          if (r.base = Reg.LRD_RNG_ADDR.base ∨ r.base = Reg.LRD_RNG_LEN.base) ∧ mayRange w (is.headD 0) then s.plainWrite w off r is v
          else if ¬ isManager w then s.refuse w off causeActor
          else if r.readOnly then (if strictBlock off then s.refuse w off causeActor else s)
          else s.plainWrite w off r is v
    | none =>
      if (aliasOf off).isSome then s
      else match windowOf off with
        | some (n, o) => if (s.stateView n o).isSome then s.groupStateWrite w n o v else s.tenantWrite w off (fun s => s.refuse w off causeNoReg)
        | none => s.refuse w off causeNoReg

/-- A 64-bit write at an aligned offset by someone who reaches it; SEC_CMD alone commands the Pilot. -/
def State.writeAt (s : State) (w : Writer) (off : Nat) (v : DWord) : State :=
  if off = Reg.SEC_CMD.base then s.secWrite w v else s.keepPilot (s.writeUnit w off v)

/-- A write of `width` bytes at a function-0 offset (R4). -/
def State.regWrite (s : State) (w : Writer) (off width : Nat) (v : DWord) : State :=
  let hatch := decide (0x2000000 ≤ off) && decide (off < 0x3000000)
  if s.inBoxroom ∧ ¬ boxroomReads off then s
  else if s.closedFor w ∧ ¬ hatch then s.keepPilot (s.dropWrite (writerSub w) (ownOffset w off))
  else if width ≠ 8 ∨ off % 8 ≠ 0 then s.keepPilot (s.narrowWrite w (ownOffset w off))
  else match tenantOf w with
    | some i => if s.tenantReaches i off then s.writeAt w off v else s.keepPilot (s.refuse w off causeActor)
    | none => s.writeAt w off v

def execRegWrite (w : Writer) (off width : Nat) (v : DWord) (s : State) : Host.Outcome State Fault Refusal := .next (s.regWrite w off width v)

/-! ### Reads with a side effect (R4-R6) -/

/-- A read of an RC register at its main offset. Through a virtual function a window register reads as its peek alias (R311); a read of a gated core's window
wakes its cluster and is answered once it is asked again. -/
def State.rcRead (s : State) (w : Writer) (off : Nat) (h : Half) : State :=
  let gate := match windowOf off with
    | some (n, _) => if s.gated (clusterOf n) then some (clusterOf n) else none
    | none => none
  match gate, tenantOf w with
  | some g, _ => s.wantWake g
  | none, some i =>
    let v := if s.tenantReaches i off then (s.regPeek off).toNat else 0
    s.reply { who := w, len := (halfHi h + 1 - halfLo h) / 8, data := bitsOf v (halfHi h) (halfLo h) }
  | none, none =>
    let (s', v) := s.regRead off h
    s'.reply { who := w, len := (halfHi h + 1 - halfLo h) / 8, data := v.toNat }

def execRcRead (w : Writer) (off : Nat) (half : Half) (s : State) : Host.Outcome State Fault Refusal := .next (s.keepPilot (s.rcRead w off half))

end Sys2Proof.Machine
end

