-- ==== Sys2Proof/Machine/Access.lean ====
section
/-! DEFINITION. Requests through the host port (15_host_port.md R308-R311, R315, R317, R321), register accesses of Porters, of Joist messages and of the debug
port, completions, and the end of a cluster's wake (R150, R188, R267, R358, R382). -/
namespace Sys2Proof.Machine

/-! ### Porters, completions, wakes -/

/-- Who writes registers through a Porter: the Storekeeper firmware through its own, the manager through channel 0 of a cluster Porter. -/
def porterWriter (p : Nat) : Writer := if p = storekeeperPorter then .storekeeper else .porter0

/-- The register file as a Porter reaches it. -/
def regIo (w : Writer) : RegIo := ⟨fun s off => s.regRead off .whole, fun s off v => s.regWrite w off 8 v, fun s off => s.narrowWrite w off⟩

def execPorterAccess (p : Fin 1024) (c : Fin 16) (s : State) : Host.Outcome State Fault Refusal :=
  .next (State.porterAccess (regIo (porterWriter p)) s p c)

/-- A Cmp on its way to a requester. -/
def isCmp (who : Agent) (line tag : Nat) : CohMsg → Bool
  | .cmp w l t _ _ _ => w == who && l == line && t == tag
  | _ => false

/-- A completion reaches its requester: a Red or Atm sender goes on; a non-caching reader or writer has its answer (R150). -/
def State.takeCmp (s : State) (who : Agent) (line tag : Nat) : State :=
  match s.net.find? (isCmp who line tag) with
  | some (.cmp w l t d p vs) =>
    let s := { s with net := s.net.erase (.cmp w l t d p vs) }
    (match who with
      | .porter q c => s.porterAnswer q c tag false true 0 0 p
      | .group n g => s.atomDone n g p vs
      | .chute _ => s.chuteRedDone tag
      | _ => s)
  | _ => s
def execCmp (who : Agent) (line tag : Nat) (s : State) : Host.Outcome State Fault Refusal := .next (s.keepPilot (s.takeCmp who line tag))

/-- The cluster that a held window write waits for. -/
def State.heldCluster (s : State) (off : Nat) : Option Nat :=
  match windowOf off with
  | some (n, _) => some (clusterOf n)
  | none => match findReg off with
    | some (r, is) => if r.base = Reg.BAY_CTLW.base then (s.coresOf (is.headD 0)).head?.map clusterOf else none
    | none => none

/-- Window writes that waited for a cluster, oldest first. -/
def State.replayWrites (s : State) (g : Nat) : State :=
  let mine := s.heldWrites.filter (fun e => s.heldCluster e.2.1 == some g)
  mine.foldl (fun s e => s.regWrite e.1 e.2.1 8 e.2.2) { s with heldWrites := s.heldWrites.filter (fun e => s.heldCluster e.2.1 != some g) }

/-- The cluster is powered: increments and window writes that waited go on (R181, R358). -/
def State.wakeDone (s : State) (g : Nat) : State :=
  if s.clState g ≠ 3 then s else (s.keepPilot (((s.setClState g 0).setDom (clusterDom g) true).replayAdds g)).replayWrites g
def execWakeComplete (g : ClusterId) (s : State) : Host.Outcome State Fault Refusal := .next (s.wakeDone g)

/-! ### Register messages of the Joist (R267) -/

/-- The writer that a register message stands for: IO-N carries the host port, IO-S the Storekeeper. -/
def joistWriter (m : JoistMsg) : Writer := if m.sdie = 4 then .fn 0 else .storekeeper

def execGrd (d : Fin 6) (k : Nat) (s : State) : Host.Outcome State Fault Refusal :=
  .next (s.keepPilot (s.joistTake d k [0x40] (fun s m =>
    let (s, v) := s.regRead m.addr .whole
    s.joistReply d (m.answer 0x42 8 v.toNat false false false))))

def execGwr (d : Fin 6) (k : Nat) (s : State) : Host.Outcome State Fault Refusal :=
  .next (s.joistTake d k [0x41] (fun s m =>
    let t := s.regWrite (joistWriter m) m.addr 8 (BitVec.ofNat 64 m.data)
    t.keepPilot (t.joistReply d (m.answer 0x42 0 0 false false false))))

/-! ### The debug port (R382) -/

/-- The gated cluster whose core window an offset lies in. -/
def State.gatedWindow (s : State) (off : Nat) : Option Nat :=
  match windowOf off with
  | some (n, _) => if s.gated (clusterOf n) then some (clusterOf n) else none
  | none => none

/-- A register of a domain that is off in Standby: a gated cluster's windows and Porters, and the Chute ports (Table PW-1, Table PW-5). -/
def State.unpowered (s : State) (off : Nat) : Bool :=
  (s.gatedWindow off).isSome || (decide (0x4000000 ≤ off) && decide (off < 0x4400000) && s.gated ((off - 0x4000000) / 0x10000)) ||
  (decide (0xB001000 ≤ off) && decide (off < 0xB001800))

/-- REGACC: a 64-bit access with the rights of function 0, in the Owner and Vendor debug states; else zeros are shifted out. In Standby a register of an
unpowered domain reads zero and takes no write (Table SE-6); in D0 a gated cluster wakes for its window, which is read once it is asked again. -/
def State.regAcc (s : State) (off : Nat) (write : Option DWord) : State :=
  if s.power.mode = 2 then s
  else if s.debug < 2 ∨ (s.power.mode = 1 ∧ s.unpowered off) then s.keepPilot (s.reply { who := .tap, len := 8 })
  else match write, s.gatedWindow off with
    | some v, _ => s.regWrite .tap off 8 v
    | none, some g => s.keepPilot (s.wantWake g)
    | none, none =>
      let (t, v) := s.regRead off .whole
      s.keepPilot (t.reply { who := .tap, len := 8, data := v.toNat })
def execRegacc (off : Nat) (write : Option DWord) (s : State) : Host.Outcome State Fault Refusal := .next (s.regAcc off write)

/-! ### BAR0 (R4, R308-R311, R313, R323) -/

/-- What an offset of a function's BAR0 names. -/
inductive BarPlace where
  | reg (off : Nat)
  | window (off : Nat)
  | apsel (a : Nat)
  | invalid (off : Nat)
  | noWord
  | table (o : Nat)
  | pba (o : Nat)
  | none
  deriving DecidableEq, Repr

/-- Function 0 (Table SC-4). -/
def barZero (off : Nat) : BarPlace :=
  if 0xC010000 ≤ off ∧ off < 0xC011000 then .table (off - 0xC010000)
  else if 0xC011000 ≤ off ∧ off < 0xC011020 then .pba (off - 0xC011000)
  else .reg off

/-- Aperture `a` of virtual function `f` is VALID: its core's cluster belongs to a formed Bay of inst. `f` (R311). -/
def State.apertureOk (s : State) (f a : Nat) : Bool :=
  match s.bayOfCore (s.apsel.get 0 (3 * f + a)) with
  | some b => s.instOfBay b == f
  | none => false

/-- A virtual function (Table HP-2). -/
def State.barVf (s : State) (f off : Nat) : BarPlace :=
  if off < 0x10000 then .reg (hatPage f + off)
  else if off < 0x10028 then .reg (Reg.LRD_RNG_ADDR.addr [f] + (off - 0x10000))
  else if 0x10100 ≤ off ∧ off < 0x10118 then .apsel ((off - 0x10100) / 8)
  else if 0x18000 ≤ off ∧ off < 0x18100 then .table (off - 0x18000)
  else if 0x19000 ≤ off ∧ off < 0x19008 then .pba (off - 0x19000)
  else if 0x20000 ≤ off ∧ off < 0x22000 then
    (let b := (off - 0x20000) / 0x80
     if s.bit Reg.BAY_CFG [b] F.BAY_CFG_EN ∧ s.instOfBay b = f then .reg (Reg.BAY_CTLW.addr [b, off % 0x80 / 8] + off % 8) else .noWord)
  else if 0x40000 ≤ off ∧ off < 0x100000 then
    (let a := (off - 0x40000) / 0x40000
     let full := 0x10000000 + 0x40000 * s.apsel.get 0 (3 * f + a) + off % 0x40000
     if s.apertureOk f a then .window full else .invalid full)
  else .none

def State.barPlace (s : State) (f off : Nat) : BarPlace := if f = 0 then barZero off else s.barVf f off

/-- The die that holds a block of registers, for the blocks that lie on compute dies. -/
def dieOfReg (off : Nat) : Option Nat :=
  if 0x10000000 ≤ off ∧ off < 0x18000000 then some ((off - 0x10000000) / 0x40000 / 128)
  else if 0x4000000 ≤ off ∧ off < 0x4400000 then some ((off - 0x4000000) / 0x10000 / 16)
  else if 0x8004000 ≤ off ∧ off < 0x8004800 then some ((off - 0x8004000) / 32 / 16)
  else if 0x100000 ≤ off ∧ off < 0x100400 then some ((off - 0x100000) / 0x100)
  else none

def BarPlace.off : BarPlace → Option Nat
  | .reg o | .window o => some o
  | _ => Option.none

/-- The place lies on a fenced die (R317). -/
def State.placeDown (s : State) (p : BarPlace) : Bool := ((p.off.bind dieOfReg).map s.dieDown).getD false

/-- A gated cluster whose window the place names (R358). -/
def State.placeGated (s : State) (p : BarPlace) : Option Nat :=
  match p.off.bind windowOf with
  | some (n, _) => if s.gated (clusterOf n) then some (clusterOf n) else none
  | none => none

/-- A 32-bit word of an MSI-X table: address, data and mask of each vector. -/
def State.msixRead (s : State) (f o : Nat) : Nat :=
  let key := vecKey f (o / 16)
  match o % 16 / 4 with
  | 3 => bit01 (!s.msixOpen.get false key)
  | k => fieldOf (s.msixTable.get 0 key) (32 * k + 31) (32 * k)

def State.msixWrite (s : State) (f o v : Nat) : State :=
  let key := vecKey f (o / 16)
  match o % 16 / 4 with
  | 3 => s.setMask f (o / 16) (v.testBit 0)
  | k => { s with msixTable := s.msixTable.set 0 key (withField (s.msixTable.get 0 key) (32 * k + 31) (32 * k) v) }

/-- Pending bits from vector `8·o` on. -/
def State.pbaRead (s : State) (f o : Nat) : Nat := bitsWhere 64 (fun k => s.msixPend.get false (vecKey f (8 * o + k)))

/-- A 64-bit read, or one of a half, of a place. Through a virtual function an RC register shows its peek alias (R311). -/
def State.placeRead (s : State) (f : Nat) (p : BarPlace) (h : Half) : State × Nat :=
  let cut (v : Nat) : Nat := bitsOf v (halfHi h) (halfLo h)
  match p with
  | .reg off =>
    if f = 0 then (let (s, v) := s.regRead off h; (s, v.toNat))
    else if s.closedFor (.fn (Fin.ofNat 33 f)) ∧ 0x3000000 ≤ off ∨ s.closedFor (.fn (Fin.ofNat 33 f)) ∧ off < 0x2000000 then (s, 0)
    else (s, cut (s.regPeek off).toNat)
  | .window off => (s, cut (s.regPeek off).toNat)
  | .apsel a => (s, if s.closedFor (.fn (Fin.ofNat 33 f)) then 0 else cut (s.apsel.get 0 (3 * f + a) + bit01 (s.apertureOk f a) * 2 ^ 9))
  | .table o => (s, if s.closedFor (.fn (Fin.ofNat 33 f)) then 0 else cut (s.msixRead f o + s.msixRead f (o + 4) * 2 ^ 32))
  | .pba o => (s, if s.closedFor (.fn (Fin.ofNat 33 f)) then 0 else cut (s.pbaRead f o))
  | .invalid _ | .noWord | .none => (s, 0)

/-- A 64-bit write of a place; `own` is its offset in the function's BAR0. -/
def State.placeWrite (s : State) (f own : Nat) (p : BarPlace) (v : DWord) : State :=
  let w : Writer := .fn (Fin.ofNat 33 f)
  match p with
  | .reg off | .window off => s.regWrite w off 8 v
  | p => s.keepPilot (
    if s.closedFor w then s.dropWrite f own else
    match p with
    | .apsel a => { s with apsel := s.apsel.set 0 (3 * f + a) (fieldOf v 8 0) }
    | .table o => (s.msixWrite f o (fieldOf v 31 0)).msixWrite f (o + 4) (fieldOf v 63 32)
    | .invalid off => s.refuseAt w off causeValue
    | .noWord => s.refuseAt w own causeActor
    | .none => s.refuseAt w own causeNoReg
    | _ => s)

/-- A request served, or one that waits with what is left of it. -/
inductive Served where
  | done (s : State)
  | wait (s : State) (r : HostIn)

/-- Completer Abort with a contained record (R317). -/
def State.abortHost (s : State) (r : HostIn) : State :=
  (s.reply { who := .fn (Fin.ofNat 33 r.fn), status := stCa, len := r.len }).logHost r.fn r.addr

/-- Unsupported Request. -/
def State.unsupported (s : State) (r : HostIn) : State :=
  if r.write.isSome then s else s.reply { who := .fn (Fin.ofNat 33 r.fn), status := stUr, len := r.len }

/-- Aligned 64-bit words read in turn. -/
def State.readPlaces (s : State) (f : Nat) : List Nat → State × Nat
  | [] => (s, 0)
  | o :: os =>
    let (s, v) := s.placeRead f (s.barPlace f o) .whole
    let (s, x) := s.readPlaces f os
    (s, v + x * 2 ^ 64)

/-- Offsets of the words of an access. -/
def wordsOf (off len : Nat) : List Nat := (List.range (ceilDiv (off % 8 + len) 8)).map (fun k => off / 8 * 8 + 8 * k)

/-- A BAR0 read: 64-bit words, or an aligned 32-bit half (R4). Another size is no register access. -/
def State.barRead (s : State) (r : HostIn) : Served :=
  let os := wordsOf r.addr r.len
  let gate := os.findSome? (fun o => s.placeGated (s.barPlace r.fn o))
  let send (s : State) (v : Nat) : Served := .done (s.reply { who := .fn (Fin.ofNat 33 r.fn), len := r.len, data := v })
  if os.any (fun o => s.placeDown (s.barPlace r.fn o)) then .done (s.abortHost r)
  else match gate with
    | some g => .wait (s.wantWake g) r
    | none =>
      if r.addr % 8 = 0 ∧ r.len % 8 = 0 ∧ r.len ≠ 0 then (let (s, v) := s.readPlaces r.fn os; send s v)
      else if r.len = 4 ∧ r.addr % 4 = 0 then
        (let (s, v) := s.placeRead r.fn (s.barPlace r.fn (r.addr / 8 * 8)) (if r.addr % 8 = 0 then .low else .high); send s v)
      else .done (s.unsupported r)

/-- The inst. that is FROZEN and whose core a place names, for a peer's write (R257). -/
def State.peerFrozen (s : State) (r : HostIn) (p : BarPlace) : Option Nat :=
  if ¬ r.peer then none else (p.off.bind windowOf).bind (fun e => s.frozenCore e.1)

/-- A BAR0 write: 64-bit words; a narrower one changes nothing (R4), but in an MSI-X table, which takes 32-bit words. -/
def State.barWrite (s : State) (r : HostIn) (bs : List Byte) : State :=
  if r.addr % 8 = 0 ∧ bs.length % 8 = 0 then
    (wordsOf r.addr bs.length).foldl (fun s o =>
      let p := s.barPlace r.fn o
      if s.placeDown p then s.keepPilot (s.logHost r.fn o)
      else match s.peerFrozen r p with
        | some i => s.keepPilot (s.refuseFrozen i)
        | none => s.placeWrite r.fn o p (BitVec.ofNat 64 (ofLeBytes ((bs.drop (o - r.addr)).take 8)))) s
  else s.keepPilot (match s.barPlace r.fn r.addr, s.closedFor (.fn (Fin.ofNat 33 r.fn)) with
    | .table o, false => if bs.length = 4 ∧ o % 4 = 0 then s.msixWrite r.fn o (ofLeBytes bs) else s
    | .reg off, true => if 0x2000000 ≤ off ∧ off < 0x3000000 then s.narrowWrite (.fn (Fin.ofNat 33 r.fn)) r.addr else s.dropWrite r.fn r.addr
    | _, true => s.dropWrite r.fn r.addr
    | _, false => s.narrowWrite (.fn (Fin.ofNat 33 r.fn)) r.addr)

/-! ### BAR2 (R10, R11, R136, R308, R309, R390) -/

/-- Where a BAR2 offset leads. -/
inductive BarTarget where
  | ok (s : State) (pa : Nat) (leaf : DWord)
  | unbacked
  | down
  | waits

/-- Memory that BAR2 reaches: the Cellar, the Locker and Pantry windows, where backed. -/
def State.barMemory (s : State) (pa : Nat) (leaf : DWord) : BarTarget :=
  match s.servingDie pa with
  | none => .unbacked
  | some d => if s.dieDown d then .down else if s.backed pa then .ok s pa leaf else .unbacked

def State.barTarget (s : State) (f x : Nat) (need : Need) : BarTarget :=
  if f = 0 then s.barMemory (s.fld Reg.HST_F0_WIN [] F.HST_F0_WIN_BASE * 2 ^ 30 / 2 ^ s.barSize 0 * 2 ^ s.barSize 0 + x) 0
  else match s.walk f (s.fld Reg.HST_VF_WIN [f] F.HST_VF_WIN_BASE * 2 ^ 32 + x) need with
    | (.ok s pa e, _) => if need = .read ∧ s.discardCheck (pa / 128) e then .unbacked else (s.keyCheck f pa e).barMemory pa e
    | (.waits, _) => .waits
    | _ => .unbacked

/-- Poisoned bytes leave as they are or as zero; which is open (Table RL-4). -/
def State.damaged (s : State) : List Byte → State × List Byte
  | [] => (s, [])
  | b :: bs =>
    let (k, s) := s.draw
    let (s, r) := s.damaged bs
    (s, (if Config.pick k % 2 = 0 then b else 0) :: r)

/-- What a BAR2 read has gathered. -/
inductive Gather where
  | ok (s : State) (bs : List Byte) (poison : Bool)
  | down
  | waits

/-- Pieces of a read, each inside one line. -/
def State.gatherBar (s : State) (f : Nat) : List (Nat × Nat) → Gather
  | [] => .ok s [] false
  | (x, n) :: r =>
    let next (s : State) (bs : List Byte) (q : Bool) : Gather :=
      match s.gatherBar f r with
      | .ok s cs p => .ok s (bs ++ cs) (q || p)
      | e => e
    match s.barTarget f x .read with
    | .down => .down
    | .waits => .waits
    | .unbacked => next (s.logHost f x) (List.replicate n 0) false
    | .ok s pa leaf => match s.readGlobal .home (leafPin leaf f) pa n with
      | .done s (bs, true) => let (s, bs) := s.damaged bs; next s bs true
      | .done s (bs, false) => next s bs false
      | .waits => .waits
      | _ => next (s.logHost f x) (List.replicate n 0) false

/-- The inst. that is FROZEN and that a peer's write to memory is aimed at: the owner of the core, or of the Locker unit (R257). -/
def State.frozenTarget (s : State) (pa : Nat) : Option Nat :=
  match regionOf pa with
  | .pantry m _ => s.frozenCore m
  | .locker o =>
    let way := fieldOf (s.reg Reg.LRD_LOCKER_MAP []) (4 * (o / lockerUnit) + 3) (4 * (o / lockerUnit))
    (List.range 33).find? (fun i => i != 0 && (s.fld Reg.LRD_PIN_CFG [i] F.LRD_PIN_CFG_LOCKER).testBit way && decide (4 ≤ s.inst i) && decide (s.inst i ≤ 6))
  | _ => none

/-- One piece of a BAR2 write; `none` while it waits. -/
def State.putBar (s : State) (r : HostIn) (x : Nat) (bs : List Byte) : Option State :=
  match s.barTarget r.fn x .write with
  | .waits => none
  | .unbacked | .down => some (s.logHost r.fn x)
  | .ok s pa leaf =>
    match (if r.peer then s.frozenTarget pa else none) with
    | some i => some (s.refuseFrozen i)
    | none => match s.writeGlobal .home (leafPin leaf r.fn) pa bs r.poison with
      | .done s _ => some (s.stored pa bs.length)
      | .waits => none
      | _ => some (s.logHost r.fn x)

/-- The pieces of a BAR2 write in turn; what is left when one waits. -/
def State.putPieces (s : State) (r : HostIn) : Nat → List Byte → Served
  | 0, _ => .done s
  | k + 1, bs =>
    if bs.isEmpty then .done s else
    let n := min bs.length (128 - r.addr % 128)
    match s.putBar r r.addr (bs.take n) with
    | some s => s.putPieces { r with addr := r.addr + n, write := some (bs.drop n) } k (bs.drop n)
    | none => .wait s { r with write := some bs }

/-- What is served with the Pilot and the queue left as they are. -/
def Served.keepPilot (s : State) : Served → Served
  | .done t => .done (s.keepPilot t)
  | .wait t r => .wait (s.keepPilot t) r

/-- A request that has been let in, carried out as far as it goes. -/
def State.hostServe (s : State) (r : HostIn) : Served :=
  match r.bar, r.write with
  | 0, some bs => .done (s.barWrite r bs)
  | 0, none => Served.keepPilot s (s.barRead r)
  | _, none => Served.keepPilot s ( if s.closedFor (.fn (Fin.ofNat 33 r.fn)) then .done (s.reply { who := .fn (Fin.ofNat 33 r.fn), len := r.len }) else
    match s.gatherBar r.fn (linePieces r.addr r.len) with
    | .ok s bs p => .done (s.reply { who := .fn (Fin.ofNat 33 r.fn), len := r.len, data := ofLeBytes bs, poison := p })
    | .down => .done (s.abortHost r)
    | .waits => .wait s r)
  | _, some bs => Served.keepPilot s (if s.closedFor (.fn (Fin.ofNat 33 r.fn)) then .done (s.dropWrite r.fn r.addr) else
    s.putPieces r (bs.length + 1) bs)

/-- A request joins those of its function that wait, or is served at once. -/
def State.hostAdmit (s : State) (r : HostIn) : State :=
  if s.hostIn.any (fun e => e.fn == r.fn) then { s with hostIn := s.hostIn ++ [r] }
  else match s.hostServe r with
    | .done s => s
    | .wait s r => { s with hostIn := s.hostIn ++ [r] }

/-- The oldest waiting request of function `f` is tried again. -/
def State.hostRetry (s : State) (f : Nat) : State :=
  match s.hostIn.find? (fun e => e.fn == f) with
  | none => s
  | some e => match s.hostServe e with
    | .done t => { t with hostIn := t.hostIn.erase e }
    | .wait t r => { t with hostIn := t.hostIn.map (fun x => if x == e then r else x) }

/-- Bytes of a BAR of a function; 0 for none. -/
def State.barBytes (s : State) (f bar : Nat) : Nat :=
  if bar = 0 then (if f = 0 then 2 ^ 29 else 2 ^ 20) else if bar = 2 then 2 ^ s.barSize f else 0

/-- An inbound memory request (R308, R309, R318, R319, R321): refused where its function does not serve requests, else served. A write with EP set creates
poison, which one contained record tells of (R390). -/
def State.hostRequest (s : State) (f : InstId) (bar off : Nat) (op : HostOp) (peer ide : Bool) : State :=
  if ¬ s.hostUp then s else
  let (len, data, ep) : Nat × Option (List Byte) × Bool := match op with
    | .read n => (n, none, false)
    | .write bs p => (bs.length, some bs, p)
    | .atomic => (8, none, false)
  let r : HostIn := { fn := f.val, bar := bar, addr := off, len := len, write := data, poison := ep, peer := peer }
  if s.pilot.phase < 3 then
    s.keepPilot ((s.when (s.pilot.warm && s.pilot.phase == 2) (fun s => s.bump Reg.HST_ERR [] F.HST_ERR_UR 1)).unsupported r)
  else if f ≠ 0 ∧ (s.inBoxroom ∨ ¬ s.vfOn ∨ ¬ s.vfReady) then s.keepPilot (s.unsupported r)
  else if f ≠ 0 ∧ s.fld Reg.HST_TDI_STAT [f.val] F.HST_TDI_STAT_STATE = 2 ∧ ¬ ide then s.keepPilot ((s.bump Reg.HST_ERR [] F.HST_ERR_IDE_REJ 1).unsupported r)
  else if op = .atomic ∨ s.power.d3hot ∨ s.barBytes f bar < off + len ∨ len = 0 then s.keepPilot (s.unsupported r)
  else if bar ≠ 0 ∧ s.inBoxroom then s.keepPilot (s.unsupported r)
  else (s.keepPilot (s.when ep (fun s => s.logHost f.val off))).hostAdmit r
def execHostRequest (f : InstId) (bar : Fin 6) (off : Nat) (op : HostOp) (peer ide : Bool) (s : State) : Host.Outcome State Fault Refusal :=
  .next (s.hostRequest f bar off op peer ide)

end Sys2Proof.Machine
end

