-- ==== Sys2Proof/Machine/Errors.lean ====
section
/-! DEFINITION. Retirement of engines and ways (20_errors_reliability_readback.md R392, R393, R397) and the regulator alert (R404). -/
namespace Sys2Proof.Machine

/-! ### Retirement windows (R392) -/

/-- An engine whose replays in the window passed the threshold leaves service, with its record. -/
def State.retireReplayed (s : State) (src : Nat) : State :=
  let n := src / 4
  if ¬ s.engineUsable n (src % 4) then s
  else (s.logCore n { kind := 0x01, index := src, cls := .contained, retired := true, address := (s.stepUnit n).curSeq.toNat }).loseEngine n (src % 4)

/-- A field of ERR_THR turns its retirement on when it is not zero; the count has to lie above it. -/
def State.overThreshold (s : State) (f : Fld) (count : Nat) : Bool := s.fld Reg.ERR_THR [] f != 0 && decide (s.fld Reg.ERR_THR [] f < count)

/-- The end of a window: engines first, then Cupboard and Larder ways, as Table RL-9 orders their records. -/
def State.retirementWindow (s : State) (ways : List WayCount) : State :=
  let es := (s.replays.filter (fun e => s.overThreshold F.ERR_THR_ENGINE e.2)).map (·.1)
  let s := es.foldl (fun s e => s.retireReplayed e) { s with replays := [] }
  let cups := ways.filter (fun w => decide (64 ≤ w.unit.val) && s.overThreshold F.ERR_THR_CUPBOARD w.count)
  let lrds := ways.filter (fun w => decide (w.unit.val < 64) && s.overThreshold F.ERR_THR_LARDER w.count)
  (cups ++ lrds).foldl (fun s w => s.beginDelete w.unit w.set w.way) s

/-- The window of 100,000,000 reference cycles ends; `ways` are the corrected errors that the codes of Table RL-3 counted. -/
def execRetirementWindow (ways : List WayCount) (s : State) : Host.Outcome State Fault Refusal := .next (s.keepPilot (s.retirementWindow ways))

/-! ### Deletion of a way (R142, R393) -/

/-- The line of Locker unit `u` in a set of a slice (R129, R141). -/
def State.lockerLineAt (s : State) (u sl st : Nat) : Option Nat :=
  let base := 0x010000000000 / 128 + u * (lockerUnit / 128)
  if s.quadrant then ((List.range 16).map (fun j => base + (sl / 16) * 786432 + 16 * st + j)).find? (fun l => s.home l == (sl, st))
  else ((List.range 64).map (fun j => base + 64 * st + j)).find? (fun l => s.home l == (sl, st))

/-- Lines in a way of a set, with the line of a Locker unit that the way backs. -/
def State.linesIn (s : State) (sl st way : Nat) : List (Nat × LarderLine) :=
  let ls := (s.setLines sl st).filter (fun e => e.2.way == way)
  match (s.unitOfWay way).bind (fun u => s.lockerLineAt u sl st) with
  | some l => match s.larder.get none l, s.larderLine l with
    | none, some x => ls ++ [(l, x)]
    | _, _ => ls
  | none => ls

/-- A line of the deleted way leaves: an ordinary line as a victim, a pinned one to an unpinned way where it stays pinned, else poisoned. -/
def State.leaveWay (s : State) (sl st l : Nat) (x : LarderLine) : State :=
  if ¬ x.pinned then s.evict l
  else match s.takeWay sl st false with
    | some (w, s) => { s with larder := s.larder.set none l (some { x with way := w }) }
    | none => { s with larder := s.larder.set none l (some { x with poison := true }) }

/-- The Larder's part of a deletion, when no line of the way is held by a reduction, a refetch or a transaction. -/
def State.deleteLarderWay (s : State) (sl st way : Nat) : State :=
  let k := 49152 * sl + st
  let ls := s.linesIn sl st way
  let s := s.setCtl (fun c => { c with deletedWays := c.deletedWays.set 0 k (c.deletedWays.get 0 k ||| BitVec.ofNat 16 (2 ^ way)) })
  (ls.foldl (fun s e => s.leaveWay sl st e.1 e.2) s).bump Reg.ERR_DEL [] F.ERR_DEL_LRD_WAYS 1

/-- The Cupboard's part: a line, where the way holds one, leaves under R151. The model does not place Cupboard lines in ways, so which line of a
set with an empty way that is stays free. -/
def State.deleteCupWay (s : State) (g st way : Nat) : State :=
  let k := 2048 * g + st
  let mates := (s.cups.get [] g).filter (fun e => e.1 % 2048 == st)
  let room := 16 - popCount 16 (s.larderCtl.cupDeleted.get 0 k).toNat
  let (d, s) := s.draw
  let s := match mates[Config.pick d % max room 1]? with
    | some e => s.cupEvict g e.1
    | none => s
  (s.setCtl (fun c => { c with cupDeleted := c.cupDeleted.set 0 k (c.cupDeleted.get 0 k ||| BitVec.ofNat 16 (2 ^ way)) })).bump Reg.ERR_DEL [] F.ERR_DEL_CUP_WAYS 1

/-- The flash list of 4,096 entries takes a run-time deletion. -/
def State.recordDeletion (s : State) (u st way : Nat) : State :=
  if 4096 ≤ s.pilot.deletions.length then s
  else (s.keepPilot (s.bump Reg.ERR_DEL [] F.ERR_DEL_FLASH_USED 1)).setPilot (fun p => { p with deletions := p.deletions ++ [(u, st, way)] })

/-- The lines of a way can leave now; a victim leaves in home ordering only (R155). -/
def State.mayLeave (s : State) (sl st way : Nat) : Bool :=
  (s.linesIn sl st way).all (fun e => !e.2.red && !e.2.refetch && (s.homeLine e.1).running.isEmpty) &&
  (decide (s.order = 0) || (s.linesIn sl st way).isEmpty)

/-- The deletion that runs in a set ends; requests that waited there go on, and a second deletion of the set starts. -/
def State.deleteEnd (s : State) (u st : Nat) : State :=
  match s.larderCtl.deleting.find? (fun e => e.1 == u && e.2.1 == st) with
  | none => s
  | some e =>
    let way := e.2.2
    if u < 64 ∧ ¬ s.mayLeave u st way then s else
    let t := s.setCtl (fun c => { c with deleting := c.deleting.erase e })
    let s := (s.keepPilot (if u < 64 then t.deleteLarderWay u st way else t.deleteCupWay (u - 64) st way)).recordDeletion u st way
    s.keepPilot (((s.homes.map (·.1)).filter (fun l => s.home l == (u, st))).foldl (fun s l => s.wake l) s)
def execWayDeleteEnd (unit : Fin 128) (set : Nat) (s : State) : Host.Outcome State Fault Refusal := .next (s.deleteEnd unit set)

/-! ### The regulator alert (R404) -/

/-- The Status reads that `vr_alert_n` asks for name rail `r`: a corrected record. -/
def execVrAlert (r : Fin 13) (s : State) : Host.Outcome State Fault Refusal :=
  .next (s.keepPilot (if s.pilot.phase < 2 ∨ s.power.mode = 2 then s else s.log { kind := 0x15, index := 8 + r, cls := .corrected }))

end Sys2Proof.Machine
end

