-- ==== Sys2Proof/Machine/Pins.lean ====
section
/-! DEFINITION. The pins of the board: auxiliary power, PERST, the enables and power-good inputs (21_electrical_and_package.md R402, R403, R412; R369). -/
namespace Sys2Proof.Machine

/-- The next start will enter Boxroom mode, with the GOOD record readable (R371). -/
def Pilot.willBox (p : Pilot) : Bool := decide (3 ≤ max p.fails (p.rpmc0 - p.good))

/-- The group that follows group `g` (Table EP-3; groups 0, 1 and 4 in Boxroom mode). -/
def Pilot.nextGroup (p : Pilot) (g : Nat) : Option Nat :=
  if 4 ≤ g then none else if g = 1 ∧ p.willBox ∧ ¬ p.uncounted then some 4 else some (g + 1)

/-- Rail sequencing begins: the first enable is asserted. -/
def State.beginRails (s : State) : State := s.setPilot (fun p => { p with enables := 1, pg := 0, enabling := some 0, dropping := none })

/-- pilot_pwrok rises: FAILS reads 0 and a cold start begins (R369, R371, R402). -/
def State.pwrokRise (s : State) : State :=
  if s.pilot.pwrok then s else
  (s.setPilot (fun p => { p with pwrok := true, fails := 0, uncounted := false, stage := 1, phase := if p.perst ∨ p.extest then 0 else 1 })).beginRails
def execPilotPwrokRise (s : State) : Host.Outcome State Fault Refusal := .next s.pwrokRise

/-- pilot_pwrok falls: every enable at once, and everything but the flash is lost (R403, R412). -/
def State.pwrokFall (s : State) : State :=
  if ¬ s.pilot.pwrok then s else
  (s.setPilot (fun p => { p with phase := 0 })).packageReset.setPilot (fun p =>
    { p with pwrok := false, extest := false, enables := 0, pg := 0, enabling := none, dropping := none, thermTrip := false, wakePin := false })
def execPilotPwrokFall (s : State) : Host.Outcome State Fault Refusal := .next s.pwrokFall

/-- perst_n asserted: the start is held off; the rail sequence goes on (R412). -/
def State.perstAssert (s : State) : State :=
  if s.pilot.perst then s
  else if s.power.mode = 2 ∨ ¬ s.pilot.pwrok then s.setPilot (fun p => { p with perst := true })
  else (s.setPilot (fun p => { p with perst := true, phase := 0 })).packageReset
def execPerstAssert (s : State) : Host.Outcome State Fault Refusal := .next s.perstAssert

/-- perst_n deasserted: a cold start begins (R369), also on leaving Off, where the rails come up again (Table PW-5). -/
def State.perstDeassert (s : State) : State :=
  if ¬ s.pilot.perst then s
  else if ¬ s.pilot.pwrok then s.setPilot (fun p => { p with perst := false })
  else
    let off := s.power.mode = 2
    let s := s.packageReset.setPilot (fun p => { p with perst := false, stage := 1, phase := if p.extest then 0 else 1, wakePin := false })
    if off then s.beginRails else s
def execPerstDeassert (s : State) : Host.Outcome State Fault Refusal := .next s.perstDeassert

/-- A group's power-good ends the start (R402, R412): it was counted at 0.2 ms, fails with DETAIL g, and the package starts over. -/
def State.railsFail (s : State) (g stage : Nat) : State :=
  (((s.countStart true).1.setPilot (fun p => { p with stage := stage })).startFails 5 g 0).beginRails

/-- pwr_pg of group `g` rises; the next enable follows (R402). -/
def State.pgRise (s : State) (g : Nat) : State :=
  let p := s.pilot
  if ¬ p.enables.getLsbD g then s else
  let s := s.setPilot (fun p => { p with pg := p.pg ||| BitVec.ofNat 5 (2 ^ g) })
  if p.enabling ≠ some g then s else
  match p.nextGroup g with
  | some h => s.setPilot (fun p => { p with enabling := some h, enables := p.enables ||| BitVec.ofNat 5 (2 ^ h) })
  | none => s.setPilot (fun p => { p with enabling := none, thermTrip := false })
def execPwrPgRise (g : Fin 5) (s : State) : Host.Outcome State Fault Refusal := .next (s.pgRise g)

/-- The group that is awaited has not risen in 2 ms; `stage` is the row of Table SE-1 that the start had begun. -/
def State.pgTimeout (s : State) (stage : Nat) : State :=
  match s.pilot.enabling with
  | some g => s.railsFail g stage
  | none => s
def execPwrPgTimeout (stage : Nat) (s : State) : Host.Outcome State Fault Refusal := .next (s.pgTimeout stage)

/-- The next enable is deasserted on entry to Off, from group 4 down (R403). -/
def State.dropNext (s : State) : State :=
  match s.pilot.dropping with
  | some (g + 1) => s.setPilot (fun p => { p with dropping := some g, enables := p.enables &&& ~~~ BitVec.ofNat 5 (2 ^ g) })
  | some 0 => s.setPilot (fun p => { p with dropping := none })
  | none => s

/-- pwr_pg of group `g` falls: the start fails during R402, the next enable follows on entry to Off, and at other times the Pilot does not sample it. -/
def State.pgFall (s : State) (g stage : Nat) : State :=
  if ¬ s.pilot.pg.getLsbD g then s
  else if s.pilot.enabling.isSome then s.railsFail g stage
  else
    let s := s.setPilot (fun p => { p with pg := p.pg &&& ~~~ BitVec.ofNat 5 (2 ^ g) })
    if s.pilot.dropping = some g then s.dropNext else s
def execPwrPgFall (g : Fin 5) (stage : Nat) (s : State) : Host.Outcome State Fault Refusal := .next (s.pgFall g stage)

/-- 2 ms after the previous enable the next one is deasserted without its power-good (R403). -/
def execEnableDeassertTimeout (s : State) : Host.Outcome State Fault Refusal := .next s.dropNext

end Sys2Proof.Machine
end

