-- ==== Sys2Proof/Machine/Sampling.lean ====
section
/-! DEFINITION. The serving program's pure functions: tokens and text (R209, R211), the generator (R218), sampling (R217) and the decision of a
verify round (R221). -/
namespace Sys2Proof.Machine

/-! ### Tokens (R209) -/

/-- The tables of an image: byte `i` of the byte, merge, class and vocabulary table. -/
structure TokTables where
  byteTab : Nat → Byte
  merge : Nat → Byte
  cls : Nat → Byte
  vocab : Nat → Byte

/-- A little-endian 32-bit field of a table. -/
def tabWord (f : Nat → Byte) (o : Nat) : Nat := ofLeBytes [f o, f (o + 1), f (o + 2), f (o + 3)]

def TokTables.buckets (t : TokTables) : Nat := tabWord t.merge 0

/-- `lookup` from bucket `h` on, over at most `k` buckets: MERGED and RANK. -/
def TokTables.probe (t : TokTables) (l r : Nat) : Nat → Nat → Option (Nat × Nat)
  | 0, _ => none
  | k + 1, h =>
    let o := 16 + 16 * h
    if tabWord t.merge o = 0xFFFFFFFF then none
    else if tabWord t.merge o = l ∧ tabWord t.merge (o + 4) = r then some (tabWord t.merge (o + 8), tabWord t.merge (o + 12))
    else t.probe l r k ((h + 1) % max 1 t.buckets)

def TokTables.lookup (t : TokTables) (l r : Nat) : Option (Nat × Nat) :=
  t.probe l r t.buckets ((l * 0x9E3779B1 + r) % 2 ^ 32 / 2 ^ (32 - Nat.log2 t.buckets))

/-- The best merge of a piece: RANK, position, MERGED; the first of equal ranks. -/
def TokTables.best (t : TokTables) : Nat → List Nat → Option (Nat × Nat × Nat) → Option (Nat × Nat × Nat)
  | j, a :: b :: r, best =>
    t.best (j + 1) (b :: r) (match t.lookup a b, best with
      | none, _ => best
      | some e, none => some (e.2, j, e.1)
      | some e, some x => if e.2 < x.1 then some (e.2, j, e.1) else best)
  | _, _, best => best

/-- Merges until none is left; each takes one token away. -/
def TokTables.merges (t : TokTables) : Nat → List Nat → List Nat
  | 0, ids => ids
  | k + 1, ids =>
    match t.best 0 ids none with
    | none => ids
    | some (_, j, m) => t.merges k (ids.take j ++ [m] ++ ids.drop (j + 2))

/-- A boundary falls between two adjacent bytes. -/
def TokTables.splits (t : TokTables) (a b : Byte) : Bool :=
  let i := 16 * ((t.cls a.toNat).toNat % 16) + (t.cls b.toNat).toNat % 16
  (t.cls (256 + i / 8)).getLsbD (i % 8)

/-- Pieces of a text: split by the class table, then every 1,024 bytes. -/
def TokTables.pieces (t : TokTables) : List Byte → List Byte → List (List Byte)
  | cur, [] => if cur.isEmpty then [] else [cur.reverse]
  | [], b :: r => t.pieces [b] r
  | c :: cs, b :: r => if t.splits c b ∨ 1024 ≤ (c :: cs).length then (c :: cs).reverse :: t.pieces [b] r else t.pieces (b :: c :: cs) r

def TokTables.tokenise (t : TokTables) (text : List Byte) : List Nat :=
  (t.pieces [] text).flatMap (fun p => t.merges p.length (p.map (fun b => tabWord t.byteTab (4 * b.toNat))))

/-! ### Text (R210, R211) -/

/-- FLAGS bit 0 of a vocabulary entry. -/
def TokTables.special (t : TokTables) (id : Nat) : Bool := (t.vocab (16 + 8 * id + 5)).getLsbD 0

/-- A token's bytes. -/
def TokTables.text (t : TokTables) (id : Nat) : List Byte :=
  let o := tabWord t.vocab 4 + tabWord t.vocab (16 + 8 * id)
  if t.special id then [] else (List.range (t.vocab (16 + 8 * id + 4)).toNat).map (fun k => t.vocab (o + k))

/-- Continuation bytes that a lead byte announces. -/
def announced (b : Byte) : Nat := if b.toNat / 32 = 6 then 1 else if b.toNat / 16 = 14 then 2 else if b.toNat / 8 = 30 then 3 else 0

/-- Length of the incomplete UTF-8 sequence that ends the bytes, read from the last backwards. -/
def incompleteTail (bs : List Byte) : Nat :=
  let r := bs.reverse
  let cont (i : Nat) : Bool := (r.getD i 0).toNat / 64 == 2
  let lead (i : Nat) : Bool := decide (i < r.length) && decide (i < announced (r.getD i 0))
  if lead 0 then 1 else if cont 0 && lead 1 then 2 else if cont 0 && cont 1 && lead 2 then 3 else 0

/-- Text of a completion and the bytes held back. -/
def fragment (held token : List Byte) (final : Bool) : List Byte × List Byte :=
  let bs := held ++ token
  let n := if final then 0 else incompleteTail bs
  (bs.take (bs.length - n), bs.drop (bs.length - n))

/-! ### Sampling (R217-R219) -/

def mix (x : BitVec 64) : BitVec 64 :=
  let x := x ^^^ (x >>> 31)
  let x := x * 0xd6e8feb86659fd93#64
  let x := x ^^^ (x >>> 32)
  let x := x * 0xd6e8feb86659fd93#64
  x ^^^ (x >>> 32)

def draw (seed : BitVec 64) (seq k : Nat) : Word :=
  let x := mix (seed ^^^ mix (BitVec.ofNat 64 (seq * 16 + k + 0x9e3779b97f4a7c15)))
  toF32 (.fin false (x >>> 40).toNat (-24))

/-- The lowest id among those of the greatest logit. -/
def argmax (logits : List Word) : Nat :=
  (logits.zipIdx.foldl (fun (m : Nat × Word) e => if ltV (f32 m.2) (f32 e.1) then (e.2, e.1) else m) (0, logits.headD 0)).1

/-- A candidate put in descending z, after those of equal z. -/
def insertCand (x : Nat × Word) : List (Nat × Word) → List (Nat × Word)
  | [] => [x]
  | y :: r => if ltV (f32 y.2) (f32 x.2) then x :: y :: r else y :: insertCand x r

/-- The `k` ids with the largest z, lowest id first among equals. -/
def candidates (k : Nat) (z : List Word) : List (Nat × Word) := z.zipIdx.foldl (fun c e => (insertCand (e.2, e.1) c).take k) []

/-- Running sums, rounded to FP32 at each step. -/
def cumulate : Word → List Word → List Word
  | _, [] => []
  | c, w :: r => f32Add c w :: cumulate (f32Add c w) r

def log2e : Word := 0x3FB8AA3B#32

/-- A request's settings (Table SV-3). -/
structure Settings where
  temp : Word
  topP : Word
  topK : Nat
  seed : BitVec 64

/-- Kept ids with their weights: the weights run to the least j that reaches TOP_P of the whole. -/
def keepTop (topP : Word) (c : List (Nat × Word)) : List (Nat × Word) :=
  let cum := cumulate 0 (c.map (·.2))
  let lim := f32Mul topP (cum.getLastD 0)
  let n := (cum.findIdx? (fun x => !ltV (f32 x) (f32 lim))).getD (c.length - 1)
  c.take (n + 1)

/-- Ids kept by a row of logits, with their weights w. -/
def keptOf (q : Settings) (logits : List Word) : List (Nat × Word) :=
  let r := rcpF q.temp
  let k := if q.topK = 0 ∨ 256 < q.topK then 256 else q.topK
  let c := candidates k (logits.map (fun l => f32Mul l r))
  let z0 := (c.headD (0, 0)).2
  keepTop q.topP (c.map (fun e => (e.1, exp2F (f32Mul (f32Sub e.2 z0) log2e))))

/-- The id that a draw `u` takes from kept ids. -/
def takeDraw (kept : List (Nat × Word)) (u : Word) : Nat :=
  let cum := cumulate 0 (kept.map (·.2))
  let t := f32Mul u (cum.getLastD 0)
  (kept.getD ((cum.findIdx? (fun x => ltV (f32 t) (f32 x))).getD (kept.length - 1)) (0, 0)).1

/-- TEMP is 0. -/
def Settings.greedy (q : Settings) : Bool := eqV (f32 q.temp) (.fin false 0 0)

def sample (q : Settings) (logits : List Word) (seq k : Nat) : Nat :=
  if q.greedy then argmax logits else takeDraw (keptOf q logits) (draw q.seed seq k)

/-- Kept ids with their probabilities q, the quotient as RCP gives it (R217). -/
def probabilities (q : Settings) (logits : List Word) : List (Nat × Word) :=
  let c := keptOf q logits
  let r := rcpF ((cumulate 0 (c.map (·.2))).getLastD 0)
  c.map (fun e => (e.1, f32Mul e.2 r))

def probOf (ps : List (Nat × Word)) (id : Nat) : Word := ((ps.find? (fun e => e.1 == id)).map (·.2)).getD 0

/-! ### The decision of a verify round (R221) -/

/-- The token drawn where a draft is refused: from what the target has over the draft, else from the target. -/
def residual (q : Settings) (pt pd : List (Nat × Word)) (row : List Word) (e : Nat) : Nat :=
  let res := (pt.map (fun x => (x.1, f32Max 0 (f32Sub x.2 (probOf pd x.1))))).filter (fun x => !eqV (f32 x.2) (.fin false 0 0))
  if res.isEmpty then sample q row e 3 else takeDraw (keepTop q.topP res) (draw q.seed e 3)

/-- Drafts accepted and the extra token: the drafts from number `i` on, each with the target's row that scores it. -/
def decideRound (q : Settings) (seq : Nat) : Nat → List (Nat × List (Nat × Word)) → List (List Word) → Nat × Nat
  | i, [], rows => (i, sample q (rows.headD []) (seq + i) 0)
  | i, (d, pd) :: ds, rows =>
    let row := rows.headD []
    let e := seq + i
    if q.greedy then (if d = argmax row then decideRound q seq (i + 1) ds rows.tail else (i, argmax row))
    else
      let pt := probabilities q row
      if ltV (f32 (f32Mul (draw q.seed e 2) (probOf pd d))) (f32 (probOf pt d)) then decideRound q seq (i + 1) ds rows.tail
      else (i, residual q pt pd row e)

end Sys2Proof.Machine
end

