-- ==== Sys2Proof/Machine/Serving.lean ====
section
/-! DEFINITION. The serving program of a Bay: rings, intake, rounds, pages, commits and completions (10_serving_and_speculation.md). -/
namespace Sys2Proof.Machine

def State.serve (s : State) (b : Nat) : Serving := s.serving.get {} b
def State.setServe (s : State) (b : Nat) (x : Serving) : State := { s with serving := s.serving.set {} b x }

/-- A field of the configuration block (Table SV-2). -/
def Serving.field (v : Serving) (o n : Nat) : Nat := ofLeBytes ((v.cfg.drop o).take n)
def Serving.vocab (v : Serving) : Nat := v.field 4 4
def Serving.maxCtx (v : Serving) : Nat := v.field 16 4
def Serving.slots (v : Serving) : Nat := v.field 20 2
def Serving.chunk (v : Serving) : Nat := v.field 22 2
def Serving.specMax (v : Serving) : Nat := v.field 24 1
def Serving.dbWord (v : Serving) : Nat := v.field 25 1
def Serving.decWord (v : Serving) : Nat := v.field 26 1
def Serving.hotPages (v : Serving) : Nat := v.field 28 4
def Serving.poolBase (v : Serving) : Nat := v.field 32 8
def Serving.poolPages (v : Serving) : Nat := v.field 40 4
def Serving.pageBytes (v : Serving) : Nat := v.field 44 4
def Serving.tagBase (v : Serving) : Nat := v.field 48 8
def Serving.seqBase (v : Serving) : Nat := v.field 56 8
def Serving.rqBase (v : Serving) : Nat := v.field 64 8
def Serving.rqHdr (v : Serving) : Nat := v.field 72 8
def Serving.rqEntries (v : Serving) : Nat := v.field 80 4
def Serving.crBase (v : Serving) (c : Nat) : Nat := v.field (88 + 24 * c) 8
def Serving.crHdr (v : Serving) (c : Nat) : Nat := v.field (96 + 24 * c) 8
def Serving.crEntries (v : Serving) (c : Nat) : Nat := v.field (104 + 24 * c) 4
def Serving.crVec (v : Serving) (c : Nat) : Nat := v.field (108 + 24 * c) 2

/-! ### Memory of the inst. -/

/-- Bytes written at a virtual address of the Bay's inst., where a backed page lies. -/
def State.virtPut (s : State) (b va : Nat) (bs : List Byte) : State :=
  let i := s.instOfBay b
  if (s.virtByte i va).isSome ∧ (s.virtByte i (va + bs.length - 1)).isSome then s.pokeVirtual i (bs.length / 4096 + 2) va bs else s

def State.virtNat (s : State) (b va n : Nat) : Nat := ofLeBytes (s.virtBytes (s.instOfBay b) va n)

/-- Address of a batch slot's sequence record (Table SV-6). -/
def Serving.record (v : Serving) (slot : Nat) : Nat := v.seqBase + 128 * slot

/-- A field of a sequence record. -/
def State.recGet (s : State) (b slot o n : Nat) : Nat := s.virtNat b ((s.serve b).record slot + o) n
def State.recPut (s : State) (b slot o n x : Nat) : State := s.virtPut b ((s.serve b).record slot + o) (leBytes n x)

def State.seqLen (s : State) (b slot : Nat) : Nat := s.recGet b slot 0 4
def State.seqGen (s : State) (b slot : Nat) : Nat := s.recGet b slot 4 2
def State.seqState (s : State) (b slot : Nat) : Nat := s.recGet b slot 6 1
def State.nextSeq (s : State) (b slot : Nat) : Nat := s.recGet b slot 16 4
def State.promptLen (s : State) (b slot : Nat) : Nat := s.recGet b slot 24 4

def State.sequence (s : State) (b slot : Nat) : Option Sequence := (s.serve b).seqs.get none slot
def State.setSequence (s : State) (b slot : Nat) (x : Option Sequence) : State :=
  s.setServe b { (s.serve b) with seqs := (s.serve b).seqs.set none slot x }

/-- The program's image is on the cores and runs (R202). -/
def State.servingOn (s : State) (b : Nat) : Bool :=
  match (s.serve b).img with
  | some j => (s.bay b).on && (s.bay b).cur == j && ((s.img b j).status == .running || (s.img b j).status == .stopping)
  | none => false

/-! ### The check at START (R203) -/

/-- Place of an image's serving table. -/
def State.tablePlace (s : State) (b k : Nat) : Option (Nat × Nat) :=
  match (s.serve b).img with
  | some j => ((s.img b j).served.find? (fun e => e.1 == k)).map (·.2)
  | none => none

def State.tokTables (s : State) (b : Nat) : TokTables :=
  let i := s.instOfBay b
  let f (k o : Nat) : Byte := ((s.virtByte i (((s.tablePlace b k).getD (0, 0)).1 + o)).getD (0, false)).1
  ⟨f 1, f 2, f 3, f 4⟩

/-- Every page of a range has a leaf. -/
def State.mappedRange (s : State) (b va len : Nat) : Bool :=
  len == 0 || (List.range ((va + len - 1) / 4096 + 1 - va / 4096)).all (fun k => (s.virtByte (s.instOfBay b) ((va / 4096 + k) * 4096)).isSome)

def powerIn (lo hi n : Nat) : Bool := (List.range 33).any (fun k => 2 ^ k == n && decide (lo ≤ n) && decide (n ≤ hi))

/-- Checks of the tables 1 to 4. -/
def State.tablesBad (s : State) (b : Nat) : Bool :=
  let t := s.tokTables b
  let size (k : Nat) : Nat := ((s.tablePlace b k).getD (0, 0)).2
  let vocab := (s.serve b).vocab
  decide (size 1 < 1024) || decide (size 2 < 16) || !powerIn 1024 16777216 t.buckets || decide (size 2 < 16 + 16 * t.buckets) ||
  (List.range 12).any (fun k => t.merge (4 + k) != 0) || decide (size 3 < 288) || decide (size 4 < 16 + 8 * vocab) || tabWord t.vocab 0 != vocab ||
  (List.range 8).any (fun k => t.vocab (8 + k) != 0) || (List.range vocab).any (fun k => decide (36 < (t.vocab (16 + 8 * k + 4)).toNat))

/-- Checks of completion ring `c` (log 40). -/
def State.ringChecks (s : State) (b c : Nat) : List (Bool × Nat) :=
  let v := s.serve b
  let on := v.crEntries c != 0
  [(on && (v.crBase c % 64 != 0 || !s.mappedRange b (v.crBase c) (64 * v.crEntries c)), 88 + 24 * c),
   (on && (v.crHdr c % 128 != 0 || !s.mappedRange b (v.crHdr c) 128), 96 + 24 * c),
   (on && !powerIn 64 65536 (v.crEntries c), 104 + 24 * c),
   (v.field (110 + 24 * c) 2 != 0, 110 + 24 * c)]

/-- Offset of the first field that fails, 255 for tables 1 to 4; `none` when all pass (R203, log 40). -/
def State.configCheck (s : State) (b : Nat) : Option Nat :=
  let v := s.serve b
  let checks : List (Bool × Nat) := [
    (v.field 0 2 != 1, 0), (decide (2 ≤ v.field 2 2), 2), (decide (16777216 < v.vocab), 4), (decide (v.vocab ≤ v.field 8 4), 8),
    (decide (v.vocab ≤ v.field 12 4), 12), (decide (v.slots < 1) || decide (1024 < v.slots), 20),
    (decide (v.chunk < 16) || decide (4096 < v.chunk) || v.chunk % 16 != 0, 22), (decide (8 < v.specMax), 24), (decide (15 < v.dbWord), 25),
    (decide (15 < v.decWord) || v.decWord == v.dbWord, 26), (decide (64 ≤ v.field 27 1) && v.field 27 1 != 255, 27),
    (s.cellarSize == 0 && v.hotPages != v.poolPages, 28), (!s.mappedRange b v.poolBase (v.poolPages * v.pageBytes), 32),
    (!s.mappedRange b v.tagBase (64 * v.poolPages), 48), (!s.mappedRange b v.seqBase (128 * v.slots), 56),
    (v.rqBase % 64 != 0 || !s.mappedRange b v.rqBase (64 * v.rqEntries), 64), (v.rqHdr % 128 != 0 || !s.mappedRange b v.rqHdr 128, 72),
    (!powerIn 64 65536 v.rqEntries, 80), (v.field 84 4 != 0, 84)] ++
    (List.range 4).flatMap (s.ringChecks b) ++ [((List.range 72).any (fun k => v.field (184 + k) 1 != 0), 184), (s.tablesBad b, 255)]
  (checks.find? (·.1)).map (·.2)

/-! ### Requests (Table SV-3) -/

/-- A field of a 64-byte entry. -/
def entryField (e : BitVec 512) (o n : Nat) : Nat := fieldOf e (8 * (o + n) - 1) (8 * o)

def Request.id (r : Request) : Nat := entryField r.raw 0 8
def Request.flag (r : Request) (k : Nat) : Bool := r.raw.getLsbD (64 + k)
def Request.ring (r : Request) : Nat := entryField r.raw 10 1
def Request.maxNew (r : Request) : Nat := max 1 (entryField r.raw 24 4)
def Request.temp (r : Request) : Word := BitVec.ofNat 32 (entryField r.raw 28 4)
def Request.settings (r : Request) : Settings :=
  ⟨r.temp, BitVec.ofNat 32 (entryField r.raw 32 4), entryField r.raw 36 2, BitVec.ofNat 64 (entryField r.raw 40 8)⟩
def Request.stream (r : Request) : Bool := r.flag 1
def Request.specN (r : Request) (v : Serving) : Nat := if v.field 2 2 % 2 = 1 then min (entryField r.raw 38 1) v.specMax else 0

/-- The entry breaks the form of Table SV-3 (R206). -/
def Request.malformed (r : Request) (v : Serving) : Bool :=
  let topP := f32 (BitVec.ofNat 32 (entryField r.raw 32 4))
  decide (64 ≤ entryField r.raw 8 2) || entryField r.raw 11 1 != 0 || entryField r.raw 39 1 != 0 || entryField r.raw 56 8 != 0 ||
  decide (3 < r.ring) || v.crEntries r.ring == 0 ||
  (match f32 r.temp with
    | .nan => true
    | .inf _ => true
    | x => ltV x (.fin false 0 0)) ||
  !ltV (.fin false 0 0) topP || ltV (.fin false 1 0) topP

/-- The input of a request as read: `none` where a byte cannot be read or is poisoned. -/
def State.readInput (s : State) (b va n : Nat) : Option (List Byte) :=
  (List.range n).reverse.foldl (fun m k => match m, s.virtByte (s.instOfBay b) (va + k) with
    | some bs, some (x, false) => some (x :: bs)
    | _, _ => none) (some [])

/-- A request with its input read and tokenised (R206, R209; statuses 5, 6 and 7 of Table SV-5). -/
def State.openRequest (s : State) (b : Nat) (r : Request) : Request :=
  let v := s.serve b
  let text := r.flag 0
  let n := entryField r.raw 12 4
  if r.malformed v then { r with status := 6 }
  else if text ∧ 1048576 < n then { r with status := 5 }
  else match s.readInput b (entryField r.raw 16 8) (if text then n else 4 * n) with
    | none => { r with status := 7 }
    | some bs =>
      let ids := if text then (s.tokTables b).tokenise bs else (List.range n).map (fun k => ofLeBytes ((bs.drop (4 * k)).take 4))
      let all := if r.flag 4 then v.field 12 4 :: ids else ids
      let st := if ids.isEmpty ∨ (¬ text ∧ ids.any (fun x => decide (v.vocab ≤ x))) then 6 else if v.maxCtx ≤ all.length then 5 else 0
      { r with ids := all, status := st }

/-! ### Completions (Table SV-4) -/

/-- A completion entry. -/
def entryOf (r : Request) (seq token : Nat) (final special drafted : Bool) (status : Nat) (text : List Byte) : BitVec 512 :=
  BitVec.ofNat 512 (r.id + seq % 2 ^ 32 * 2 ^ 64 + token % 2 ^ 32 * 2 ^ 96 +
    ((if final then 1 else 0) + (if special then 2 else 0) + (if drafted then 4 else 0)) * 2 ^ 128 + status * 2 ^ 144 + text.length * 2 ^ 152 +
    ofLeBytes (text.take 40) * 2 ^ 192)

def State.addPost (s : State) (b : Nat) (r : Request) (slot : Option Nat) (entry : BitVec 512) : State :=
  s.setServe b { (s.serve b) with due := (s.serve b).due ++ [⟨r.ring % 4, slot, r.ticket, r.flag 2, entry⟩] }

/-- A final completion that carries no token (R208). -/
def State.finish (s : State) (b : Nat) (r : Request) (slot : Option Nat) (seq status : Nat) (tail : List Byte) : State :=
  s.addPost b r slot (entryOf r seq 0xFFFFFFFF true false false status (if r.stream then tail else []))

/-! ### Pages (R214-R216, R222) -/

/-- Pages that no sequence holds. -/
def Serving.freePages (v : Serving) : List Nat :=
  (List.range v.poolPages).filter (fun p => v.seqs.all (fun e => match e.2 with
    | some q => q.pages.all (fun x => x.2 != p)
    | none => true))

/-- Pages in state 0. -/
def Serving.hotCount (v : Serving) : Nat :=
  v.seqs.foldl (fun n e => match e.2 with
    | some q => n + (q.pages.filter (fun x => x.1 == 0)).length
    | none => n) 0

/-- A range operation of the program over virtual memory, line by line. -/
def State.serveRange (s : State) (b op va len : Nat) : State :=
  let s := (List.range (ceilDiv (va % 128 + len) 128)).foldl (fun s k => match s.rangeAct (s.instOfBay b) op (va - va % 128 + 128 * k) with
    | .done s => s
    | _ => s) s
  s.instShelves (s.instOfBay b)

/-- Its lowest hot page of the sequence with the most hot pages, among pages below LEN; ties to the lowest slot: slot and page of the sequence. -/
def State.coldChoice (s : State) (b : Nat) : Option (Nat × Nat) :=
  (((s.serve b).seqs.foldl (fun (m : Option (Nat × Nat × Nat)) e => match e.2 with
    | none => m
    | some q =>
      let hot := (q.pages.filter (fun x => x.1 == 0)).length
      let first := (List.range q.pages.length).find? (fun t => (q.pages.getD t (1, 0)).1 == 0 && decide (16 * t + 16 ≤ s.seqLen b e.1))
      match first, m with
      | none, _ => m
      | some t, none => some (hot, e.1, t)
      | some t, some x => if x.1 < hot then some (hot, e.1, t) else m) none)).map (·.2)

/-- Entry `t` of a sequence's page table at PT_ADDR of its record: RES and page number (R215). -/
def State.putEntry (s : State) (b slot t res p : Nat) : State := s.virtPut b (s.recGet b slot 32 8 + 4 * t) (leBytes 4 (p % 2 ^ 30 + res * 2 ^ 30))

/-- A page turns cold: its lines and tags are written back and invalidated (R216). -/
def State.turnCold (s : State) (b slot t : Nat) : State :=
  match s.sequence b slot with
  | none => s
  | some q =>
    let v := s.serve b
    let p := (q.pages.getD t (0, 0)).2
    let s := (s.putEntry b slot t 2 p).serveRange b 3 (v.poolBase + p * v.pageBytes) v.pageBytes
    let s := (s.serveRange b 3 (v.tagBase + 64 * p) 64).putEntry b slot t 1 p
    s.setSequence b slot (some { q with pages := setAt q.pages t (1, p) })

/-- One more page for a sequence, if the pool has one; which free page is open. -/
def State.takePage (s : State) (b slot : Nat) : Option State :=
  let full := decide ((s.serve b).hotPages ≤ (s.serve b).hotCount)
  let s := match full, s.coldChoice b with
    | true, some (o, t) => s.turnCold b o t
    | _, _ => s
  let v := s.serve b
  match s.sequence b slot with
  | none => none
  | some q =>
    let free := v.freePages
    if free.isEmpty then none else
    let (k, s) := s.draw
    let p := free.getD (Config.pick k % free.length) 0
    let res := if v.hotPages ≤ v.hotCount then 1 else 0
    let s := s.setSequence b slot (some { q with pages := q.pages ++ [(res, p)] })
    some ((s.putEntry b slot q.pages.length res p).recPut b slot 28 4 (q.pages.length + 1))

/-- Pages until the sequence has `n`, as far as the pool goes. -/
def State.takePages (s : State) (b slot : Nat) : Nat → State
  | 0 => s
  | k + 1 => match s.takePage b slot with
    | some s => s.takePages b slot k
    | none => s

def State.pageCount (s : State) (b slot : Nat) : Nat := match s.sequence b slot with
  | some q => q.pages.length
  | none => 0

/-- Pages for `n` positions. -/
def State.growTo (s : State) (b slot n : Nat) : State := s.takePages b slot (ceilDiv n 16 - s.pageCount b slot)

/-- A sequence ends: STATE 4 until the next round boundary (R212 step 3). -/
def State.endSequence (s : State) (b slot : Nat) : State :=
  match s.sequence b slot with
  | none => s
  | some q => (s.setSequence b slot (some { q with inRound := false, rows := 0, drafts := [] })).recPut b slot 6 1 4

/-- Slot and pages of an ended sequence are freed; its pages take a DISCARD (R216). -/
def State.freeSlot (s : State) (b slot : Nat) : State :=
  match s.sequence b slot with
  | none => s
  | some q =>
    let v := s.serve b
    let s := q.pages.foldl (fun s x => s.serveRange b 4 (v.poolBase + x.2 * v.pageBytes) v.pageBytes) s
    (s.setSequence b slot none).recPut b slot 6 1 0

/-! ### The round boundary (R212) -/

/-- CANCEL (R213): the earliest-taken request with its REQ_ID, running or waiting. -/
def State.markCancel (s : State) (b id : Nat) : State :=
  let v := s.serve b
  let live := (v.intake.filter (fun r => r.id == id && !r.cancelled && r.status != 6)).map (·.ticket) ++
    v.seqs.filterMap (fun e => match e.2 with
      | some q => if q.req.id == id && !q.req.cancelled && s.seqState b e.1 != 4 then some q.req.ticket else none
      | none => none)
  match live.foldl (fun (m : Option Nat) t => match m with
    | none => some t
    | some x => some (min x t)) none with
  | none => s
  | some t =>
    let mark (r : Request) : Request := if r.ticket = t then { r with cancelled := true } else r
    s.setServe b { v with intake := v.intake.map mark,
                          seqs := v.seqs.map (fun e => (e.1, e.2.map (fun q => { q with req := mark q.req }))) }

/-- One entry is taken from the request ring: copied, with its input, and CONS advanced (R205). -/
def State.takeEntry (s : State) (b : Nat) (cons : Nat) : State :=
  let v := s.serve b
  let raw := BitVec.ofNat 512 (s.virtNat b (v.rqBase + 64 * (cons % max 1 v.rqEntries)) 64)
  let r : Request := { raw := raw, ticket := v.tickets }
  let s := s.setServe b { v with tickets := v.tickets + 1 }
  let s := if r.flag 5 then s.markCancel b r.id
    else let r := s.openRequest b r
         if r.status = 6 then s.finish b r none 0 6 [] else s.setServe b { (s.serve b) with intake := (s.serve b).intake ++ [r] }
  s.virtPut b (v.rqHdr + 64) (leBytes 4 (cons + 1))

/-- Entries up to PROD, while the intake queue has room. -/
def State.takeEntries (s : State) (b prod : Nat) : Nat → State
  | 0 => s
  | k + 1 =>
    let v := s.serve b
    let cons := s.virtNat b (v.rqHdr + 64) 4
    if cons = prod ∨ v.slots ≤ v.intake.length then s else (s.takeEntry b cons).takeEntries b prod k

/-- Step 1: the doorbell word, an acquire, the entries (R204, R205). -/
def State.takeRequests (s : State) (b : Nat) : State :=
  let v := s.serve b
  match (s.coresOf b).head? with
  | none => s
  | some n =>
    let s := s.acquire n 7
    let prod := s.pantryNat n (0x27FF80 + 8 * v.dbWord) 4
    let cons := s.virtNat b (v.rqHdr + 64) 4
    let count := (prod + 2 ^ 32 - cons) % 2 ^ 32
    if v.rqEntries < count then s else s.takeEntries b prod count

/-- Step 2: cancelled requests end with status 4, their completions not yet posted dropped (R213). -/
def State.cancelAll (s : State) (b : Nat) : State :=
  let v := s.serve b
  let waiting := v.intake.filter (·.cancelled)
  let s := s.setServe b { v with intake := v.intake.filter (fun r => !r.cancelled) }
  let s := waiting.foldl (fun s r => s.finish b r none 0 4 []) s
  v.seqs.foldl (fun s e => match e.2 with
    | some q =>
      if ¬ q.req.cancelled then s else
      let dropped := ((s.serve b).due.filter (fun p => p.ticket == q.req.ticket)).length
      let s := s.setServe b { (s.serve b) with due := (s.serve b).due.filter (fun p => p.ticket != q.req.ticket) }
      (s.finish b q.req none (s.nextSeq b e.1 - dropped) 4 q.tail).endSequence b e.1
    | none => s) s

/-- Step 3: ended sequences free their slots and pages. -/
def State.freeEnded (s : State) (b : Nat) : State :=
  (s.serve b).seqs.foldl (fun s e => if s.seqState b e.1 = 4 then s.freeSlot b e.1 else s) s

/-- A request enters a batch slot: its record and its pages (R212 step 4, Table SV-6). -/
def State.takeSlot (s : State) (b slot : Nat) (r : Request) : State :=
  let p := r.ids.length
  let pt := Config.pageTable b slot
  let s := s.setSequence b slot (some { req := r, order := r.ticket })
  let s := s.virtPut b ((s.serve b).record slot)
    (leBytes 4 0 ++ leBytes 2 (s.seqGen b slot) ++ leBytes 1 1 ++ leBytes 1 0 ++ leBytes 8 r.id ++ leBytes 4 0 ++ leBytes 4 0 ++ leBytes 4 p ++ leBytes 4 0 ++
     leBytes 8 pt ++ leBytes 4 0xFFFFFFFF ++ leBytes 20 0 ++ leBytes 64 r.raw.toNat)
  s.growTo b slot p

/-- Batch slots that hold no sequence. -/
def Serving.freeSlots (v : Serving) : List Nat := (List.range v.slots).filter (fun k => (v.seqs.get none k).isNone)

/-- One request of the intake queue, the first with LC set, else the first: admitted, or ended with status 5 or 7; `none` when it has to wait. -/
def State.admitOne (s : State) (b : Nat) (r : Request) : Option State :=
  let v := s.serve b
  let out := s.setServe b { v with intake := v.intake.filter (fun q => q.ticket != r.ticket) }
  let need := if r.status ≠ 0 then 0 else ceilDiv r.ids.length 16 + 1
  if v.freeSlots.isEmpty ∨ v.freePages.length < need then none
  else if r.status ≠ 0 then some (out.finish b r none 0 r.status [])
  else
    let (k, out) := out.draw
    some (out.takeSlot b (v.freeSlots.getD (Config.pick k % v.freeSlots.length) 0) r)

/-- Step 4, for requests of one class in ring order, until one has to wait. -/
def State.admitClass (s : State) (b : Nat) : List Request → State
  | [] => s
  | r :: rs => match s.admitOne b r with
    | some s => s.admitClass b rs
    | none => s

def State.admitAll (s : State) (b : Nat) : State :=
  let s := s.admitClass b ((s.serve b).intake.filter (fun r => r.flag 3))
  if (s.serve b).intake.any (fun r => r.flag 3) then s else s.admitClass b (s.serve b).intake

/-- A decoding sequence's rows: its pending token, if a page takes it, and its drafts are still to come (R222). -/
def State.batchDecode (s : State) (b slot : Nat) (q : Sequence) : State :=
  let len := s.seqLen b slot
  let s := s.growTo b slot (len + 1)
  if 16 * s.pageCount b slot < len + 1 then (s.finish b q.req (some slot) (s.nextSeq b slot) 9 q.tail).endSequence b slot
  else
    let q := (s.sequence b slot).getD q
    (s.setSequence b slot (some { q with inRound := true, rows := 1, drafts := [] })).recPut b slot 7 1 0

/-- Step 5: the batch (R212). The sequences in order of admission; `left` prompt tokens may still enter. -/
def State.batch (s : State) (b : Nat) : List Nat → Nat → State
  | [], _ => s
  | slot :: rest, left =>
    match s.sequence b slot with
    | none => s.batch b rest left
    | some q =>
      match s.seqState b slot with
      | 2 => (s.batchDecode b slot q).batch b rest left
      | 1 =>
        let n := min left (s.promptLen b slot - s.seqLen b slot)
        if n = 0 then s.batch b rest left
        else (s.setSequence b slot (some { q with inRound := true, rows := n })).batch b rest (left - n)
      | _ => s.batch b rest left

/-- Slots in order of admission. -/
def insertOrder (e : Nat × Nat) : List (Nat × Nat) → List (Nat × Nat)
  | [] => [e]
  | f :: r => if e.1 < f.1 then e :: f :: r else f :: insertOrder e r

def Serving.inOrder (v : Serving) : List Nat :=
  ((v.seqs.filterMap (fun e => e.2.map (fun q => (q.order, e.1)))).foldl (fun l e => insertOrder e l) []).map (·.2)

/-- Core 0 writes the round's decision into DEC_WORD (R205). -/
def State.writeDecision (s : State) (b : Nat) : State :=
  match (s.coresOf b).head? with
  | none => s
  | some n =>
    let (k, s) := s.draw
    (s.setPantry n (0x27FF80 + 8 * (s.serve b).decWord) (leBytes 8 (Config.roundDecision k).toNat) false).wakeSlots b (s.serve b).decWord

/-- A failed check halts every core with CODE 0x5C00 + offset (R203). -/
def State.haltAll (s : State) (b off : Nat) : State :=
  (s.coresOf b).foldl (fun s n => (s.haltHere n (BitVec.ofNat 16 (0x5C00 + off))).getD s) s

/-- A round of the program is not over: some sequence is in it. -/
def Serving.running (v : Serving) : Bool := v.seqs.any (fun e => match e.2 with
  | some q => q.inRound
  | none => false)

/-- A round boundary: at the program's first, its checks; then the five steps of R212. A round whose sequences have not all
committed has no boundary. -/
def State.roundBoundary (s : State) (b : Nat) : State :=
  let v := s.serve b
  if ¬ s.servingOn b ∨ v.running then s
  else match (if v.begun then none else s.configCheck b) with
    | some off => s.haltAll b off
    | none =>
      let s := s.setServe b { v with begun := true }
      let s := ((((s.takeRequests b).cancelAll b).freeEnded b).admitAll b)
      (s.batch b (s.serve b).inOrder v.chunk).writeDecision b

/-- ROUND_BOUNDARY; `seen` is what host memory holds where the program reads it. -/
def execRoundBoundary (b : BayId) (seen : List Host.Cell) (s : State) : Host.Outcome State Fault Refusal :=
  .next (s.keepPilot ((seen.foldl (fun s c => if regionOf c.1 = .host then s.setByte c.1 c.2 else s) s).roundBoundary b))

/-! ### Proposals (R220) -/

/-- The draft's record lies in its own Bay's array (R220). -/
def State.draftBay (s : State) (b : Nat) : Nat := let d := (s.serve b).field 27 1; if d = 255 then b else d

/-- Tokens to propose: n of R220, and what the pages take (R222). -/
def State.draftCount (s : State) (b slot : Nat) (q : Sequence) : Nat :=
  let v := s.serve b
  let len := s.seqLen b slot
  min (min (q.req.specN v) (v.maxCtx - len - 1)) (q.req.maxNew - s.nextSeq b slot - 1)

/-- DRAFT_PROPOSE: the draft, whose record is number `draft`, samples d1 to dn from the logits it computed. -/
def State.draftPropose (s : State) (b slot draft : Nat) (logits : List (List Word)) : State :=
  match s.sequence b slot with
  | none => s
  | some q =>
    if ¬ s.servingOn b ∨ ¬ q.inRound ∨ s.seqState b slot ≠ 2 ∨ ¬ q.drafts.isEmpty then s else
    let len := s.seqLen b slot
    let s := s.growTo b slot (len + 1 + s.draftCount b slot q)
    let n := min (min (s.draftCount b slot q) (16 * s.pageCount b slot - len - 1)) logits.length
    if n = 0 then s else
    let seq := s.nextSeq b slot
    let ds := (logits.take n).zipIdx.map (fun e => (⟨sample q.req.settings e.1 (seq + e.2) 1, probabilities q.req.settings e.1⟩ : Draft))
    let d := s.draftBay b
    let s := (s.recPut b slot 40 4 draft).recPut b slot 7 1 n
    let s := ((s.recPut d draft 0 4 len).recPut d draft 6 1 2).recPut d draft 8 8 q.req.id
    s.setSequence b slot (some { ((s.sequence b slot).getD q) with rows := n + 1, drafts := ds })

def execDraftPropose (b : BayId) (slot draft : Fin 1024) (logits : List (List Word)) (s : State) : Host.Outcome State Fault Refusal :=
  .next (s.keepPilot (s.draftPropose b slot draft logits))

/-! ### Commit (R221-R223, R225) -/

/-- Tags of the round's Landing rows: LANDING and GEN (R214, R222). -/
def State.writeTags (s : State) (b slot : Nat) (q : Sequence) : State :=
  let len := s.seqLen b slot
  let gen := s.seqGen b slot
  (List.range q.rows).foldl (fun s k =>
    let p := (q.pages.getD ((len + k) / 16) (0, 0)).2
    s.virtPut b ((s.serve b).tagBase + 64 * p + 4 * ((len + k) % 16)) (leBytes 4 (2 ^ 31 + gen))) s

/-- The status that a token ends its request with, 0 for none (Table SV-5). -/
def State.tokenStatus (s : State) (b : Nat) (r : Request) (seq token : Nat) (last : Bool) : Nat :=
  let v := s.serve b
  if token = v.field 8 4 then 1
  else if token = entryField r.raw 48 4 ∧ token ≠ 0xFFFFFFFF ∨ token = entryField r.raw 52 4 ∧ token ≠ 0xFFFFFFFF then 2
  else if r.maxNew ≤ seq + 1 then 3
  else if last then 10 else 0

/-- The round's tokens become completions; those after one that ends the request are dropped (R221). `full`: LEN has reached MAX_CTX. -/
def State.emit (s : State) (b slot : Nat) (full : Bool) : List (Nat × Bool) → State
  | [] => s
  | (tok, drafted) :: r =>
    match s.sequence b slot with
    | none => s
    | some q =>
      let seq := s.nextSeq b slot
      let st := s.tokenStatus b q.req seq tok (full && r.isEmpty)
      let t := s.tokTables b
      let (text, tail) := if q.req.stream then fragment q.tail (t.text tok) (st != 0) else ([], [])
      let s := s.addPost b q.req (some slot) (entryOf q.req seq tok (st != 0) (t.special tok) drafted st text)
      let s := (s.setSequence b slot (some { q with tail := tail })).recPut b slot 16 4 (seq + 1)
      if st ≠ 0 then s.endSequence b slot else s.emit b slot full r

/-- After the reads of the round, cold pages take a DISCARD (R216). -/
def State.discardCold (s : State) (b : Nat) (q : Sequence) : State :=
  let v := s.serve b
  (q.pages.filter (fun x => x.1 == 1)).foldl (fun s x => s.serveRange b 4 (v.poolBase + x.2 * v.pageBytes) v.pageBytes) s

/-- The commit of a sequence's rows: LEN by one atomic, GEN when a draft was refused, PENDING, the draft's record; then the completions. -/
def State.commitRound (s : State) (b slot : Nat) (q : Sequence) (logits : List (List Word)) : State :=
  let prefilling := s.seqState b slot == 1
  let len := s.seqLen b slot
  if prefilling then
    let s := s.recPut b slot 0 4 (len + q.rows)
    if len + q.rows < s.promptLen b slot then s else
    let tok := sample q.req.settings (logits.headD []) 0 0
    let s := (s.recPut b slot 6 1 2).recPut b slot 20 4 tok
    s.emit b slot (decide ((s.serve b).maxCtx ≤ len + q.rows)) [(tok, false)]
  else
    let n := q.drafts.length
    let s := s.writeTags b slot q
    let (j, extra) := decideRound q.req.settings (s.nextSeq b slot) 0 (q.drafts.map (fun d => (d.token, d.probs))) logits
    let s := s.recPut b slot 0 4 (len + j + 1)
    let s := if j < n then s.recPut b slot 4 2 (s.seqGen b slot + 1) else s
    let s := s.recPut b slot 20 4 extra
    let d := s.draftBay b
    let draft := s.recGet b slot 40 4
    let s := if n = 0 ∨ draft = 0xFFFFFFFF then s else
      let s := s.recPut d draft 0 4 (s.seqLen d draft + min (j + 1) n)
      if j < n then s.recPut d draft 4 2 (s.seqGen d draft + 1) else s
    let s := s.emit b slot (decide ((s.serve b).maxCtx ≤ len + j + 1)) (((q.drafts.take j).map (fun d => (d.token, true))) ++ [(extra, false)])
    s.recPut b slot 7 1 0

/-- ROUND_COMMIT of a sequence. `poison` 0: the Steps committed, with the target's logits rows. 1: a Step of the round was poisoned; 2: this
sequence has a row in the poisoned tile (R225). -/
def State.roundCommit (s : State) (b slot poison : Nat) (logits : List (List Word)) : State :=
  match s.sequence b slot with
  | none => s
  | some q =>
    if ¬ s.servingOn b ∨ ¬ q.inRound then s else
    let s := s.discardCold b q
    let s := s.setSequence b slot (some { q with inRound := false, rows := 0, drafts := [] })
    if poison = 0 then s.commitRound b slot q logits
    else
      let s := s.recPut b slot 4 2 (s.seqGen b slot + 1)
      if poison = 2 then (s.finish b q.req (some slot) (s.nextSeq b slot) 8 q.tail).endSequence b slot else s

def execRoundCommit (b : BayId) (slot : Fin 1024) (poison : Fin 3) (logits : List (List Word)) (s : State) : Host.Outcome State Fault Refusal :=
  .next (s.keepPilot (s.roundCommit b slot poison logits))

/-! ### Posting (R207, R313) -/

/-- CR_VEC of ring `c` is raised; a vector outside the inst.'s range leaves a contained record (R313). -/
def State.raiseRing (s : State) (b c : Nat) : State :=
  let i := s.instOfBay b
  let v := (s.serve b).crVec c
  if v = 0xFFFF then s
  else if (i = 0 ∧ 128 ≤ v ∧ v ≤ 255) ∨ (i ≠ 0 ∧ 1 ≤ v ∧ v ≤ 15) then s.raise i v
  else s.log { kind := 0x10, index := i, cls := .contained, address := v, bay := b, inst := i }

/-- A completion finds its ring full: its sequence is held (Table SV-6). -/
def State.holdPost (s : State) (b : Nat) (p : Post) : State :=
  match p.slot with
  | some k => if s.seqState b k = 2 then s.recPut b k 6 1 3 else s
  | none => s

/-- After a post: a held sequence with nothing left to post goes on. -/
def State.releasePost (s : State) (b : Nat) (p : Post) : State :=
  match p.slot with
  | some k => if s.seqState b k = 3 ∧ (s.serve b).due.all (fun q => q.ticket != p.ticket) then s.recPut b k 6 1 2 else s
  | none => s

/-- COMPLETION_POST: the oldest completion due on ring `c`. -/
def State.completionPost (s : State) (b c : Nat) : State :=
  let v := s.serve b
  match v.due.find? (fun p => p.ring == c) with
  | none => s
  | some p =>
    if ¬ s.servingOn b then s else
    let prod := s.virtNat b (v.crHdr c) 4
    let cons := s.virtNat b (v.crHdr c + 64) 4
    if v.crEntries c ≤ (prod + 2 ^ 32 - cons) % 2 ^ 32 then s.holdPost b p
    else
      let s := s.setServe b { v with due := dropFirst (fun q => q.ring == c) v.due }
      let s := s.virtPut b (v.crBase c + 64 * (prod % max 1 (v.crEntries c))) (leBytes 64 p.entry.toNat)
      let s := s.virtPut b (v.crHdr c) (leBytes 4 (prod + 1))
      let s := s.when p.irq (fun s => s.raiseRing b c)
      s.releasePost b p

/-- COMPLETION_POST; `seen` is what host memory holds where the program reads it (CONS of a ring there). -/
def execCompletionPost (b : BayId) (c : Fin 4) (seen : List Host.Cell) (s : State) : Host.Outcome State Fault Refusal :=
  .next (s.keepPilot ((seen.foldl (fun s e => if regionOf e.1 = .host then s.setByte e.1 e.2 else s) s).completionPost b c))

end Sys2Proof.Machine
end

