-- ==== Sys2Proof/Machine/Dispatch.lean ====
section
/-! DEFINITION. One arm per command; each calls its meaning (R1-R415 as the meanings cite). -/
namespace Sys2Proof.Machine

def exec (i : Instr) (s : State) : Host.Outcome State Fault Refusal :=
  match i with
  | .regWrite w off width v => Sys2Proof.Machine.execRegWrite w off width v s
  | .rcRead w off half => Sys2Proof.Machine.execRcRead w off half s
  | .tileFetch n e => Sys2Proof.Machine.execTileFetch n e s
  | .engineRowEntry n e sums shadows => Sys2Proof.Machine.execEngineRowEntry n e sums shadows s
  | .outputRowWrite n e shadowBad => Sys2Proof.Machine.execOutputRowWrite n e shadowBad s
  | .tileComplete n e => Sys2Proof.Machine.execTileComplete n e s
  | .stepCommit n => Sys2Proof.Machine.execStepCommit n s
  | .step n => Sys2Proof.Machine.execStep n s
  | .move n => Sys2Proof.Machine.execMove n s
  | .moveEnqueue n => Sys2Proof.Machine.execMoveEnqueue n s
  | .launch n => Sys2Proof.Machine.execLaunch n s
  | .launchStart n => Sys2Proof.Machine.execLaunchStart n s
  | .wait n => Sys2Proof.Machine.execWait n s
  | .waitTargetReached n => Sys2Proof.Machine.execWaitTargetReached n s
  | .sig n => Sys2Proof.Machine.execSig n s
  | .sigIssue n => Sys2Proof.Machine.execSigIssue n s
  | .fence n => Sys2Proof.Machine.execFence n s
  | .fenceComplete n => Sys2Proof.Machine.execFenceComplete n s
  | .loop n => Sys2Proof.Machine.execLoop n s
  | .endloop n => Sys2Proof.Machine.execEndloop n s
  | .call n => Sys2Proof.Machine.execCall n s
  | .ret n => Sys2Proof.Machine.execRet n s
  | .select n => Sys2Proof.Machine.execSelect n s
  | .cheap n => Sys2Proof.Machine.execCheap n s
  | .cheapStop n => Sys2Proof.Machine.execCheapStop n s
  | .yield n => Sys2Proof.Machine.execYield n s
  | .yieldStop n => Sys2Proof.Machine.execYieldStop n s
  | .halt n => Sys2Proof.Machine.execHalt n s
  | .haltStop n => Sys2Proof.Machine.execHaltStop n s
  | .prefetchMoveStart n => Sys2Proof.Machine.execPrefetchMoveStart n s
  | .load b j failAt => Sys2Proof.Machine.execLoad b j failAt s
  | .loadEnd b j => Sys2Proof.Machine.execLoadEnd b j s
  | .start b j => Sys2Proof.Machine.execStart b j s
  | .stop b j => Sys2Proof.Machine.execStop b j s
  | .abort b j => Sys2Proof.Machine.execAbort b j s
  | .unload b j => Sys2Proof.Machine.execUnload b j s
  | .vectorFpOp n g mism => Sys2Proof.Machine.execVectorFpOp n g mism s
  | .vectorIntOp n g mism => Sys2Proof.Machine.execVectorIntOp n g mism s
  | .vectorImmOp n g mism => Sys2Proof.Machine.execVectorImmOp n g mism s
  | .specialFunction n g mism => Sys2Proof.Machine.execSpecialFunction n g mism s
  | .vectorCompare n g => Sys2Proof.Machine.execVectorCompare n g s
  | .predicateLogic n g => Sys2Proof.Machine.execPredicateLogic n g s
  | .s2p n g => Sys2Proof.Machine.execS2p n g s
  | .p2s n g => Sys2Proof.Machine.execP2s n g s
  | .scalarOp n g => Sys2Proof.Machine.execScalarOp n g s
  | .shfl n g => Sys2Proof.Machine.execShfl n g s
  | .shflx n g => Sys2Proof.Machine.execShflx n g s
  | .shflu n g => Sys2Proof.Machine.execShflu n g s
  | .shfld n g => Sys2Proof.Machine.execShfld n g s
  | .bcast n g => Sys2Proof.Machine.execBcast n g s
  | .v2s n g => Sys2Proof.Machine.execV2s n g s
  | .s2v n g => Sys2Proof.Machine.execS2v n g s
  | .any n g => Sys2Proof.Machine.execAny n g s
  | .all n g => Sys2Proof.Machine.execAll n g s
  | .ballot n g => Sys2Proof.Machine.execBallot n g s
  | .radd n g mism => Sys2Proof.Machine.execRadd n g mism s
  | .rmin n g => Sys2Proof.Machine.execRmin n g s
  | .rmax n g => Sys2Proof.Machine.execRmax n g s
  | .ld n g => Sys2Proof.Machine.execLd n g s
  | .st n g => Sys2Proof.Machine.execSt n g s
  | .lds n g => Sys2Proof.Machine.execLds n g s
  | .shelfFill n line => Sys2Proof.Machine.execShelfFill n line s
  | .atomAdd n g mism => Sys2Proof.Machine.execAtomAdd n g mism s
  | .atomMin n g => Sys2Proof.Machine.execAtomMin n g s
  | .atomMax n g => Sys2Proof.Machine.execAtomMax n g s
  | .atomAnd n g => Sys2Proof.Machine.execAtomAnd n g s
  | .atomOr n g => Sys2Proof.Machine.execAtomOr n g s
  | .atomXor n g => Sys2Proof.Machine.execAtomXor n g s
  | .atomXchg n g => Sys2Proof.Machine.execAtomXchg n g s
  | .atomCas n g => Sys2Proof.Machine.execAtomCas n g s
  | .pk n g mism => Sys2Proof.Machine.execPk n g mism s
  | .unpk n g mism => Sys2Proof.Machine.execUnpk n g mism s
  | .nop n g => Sys2Proof.Machine.execNop n g s
  | .jmp n g => Sys2Proof.Machine.execJmp n g s
  | .brnz n g => Sys2Proof.Machine.execBrnz n g s
  | .brz n g => Sys2Proof.Machine.execBrz n g s
  | .split n g => Sys2Proof.Machine.execSplit n g s
  | .join n g => Sys2Proof.Machine.execJoin n g s
  | .lpush n g => Sys2Proof.Machine.execLpush n g s
  | .brk n g => Sys2Proof.Machine.execBrk n g s
  | .loopif n g => Sys2Proof.Machine.execLoopif n g s
  | .lpop n g => Sys2Proof.Machine.execLpop n g s
  | .waitsib n g => Sys2Proof.Machine.execWaitsib n g s
  | .wtally n g => Sys2Proof.Machine.execWtally n g s
  | .wtallyTargetReached n g => Sys2Proof.Machine.execWtallyTargetReached n g s
  | .sigt n g => Sys2Proof.Machine.execSigt n g s
  | .groupFence n g => Sys2Proof.Machine.execGroupFence n g s
  | .gbar n g => Sys2Proof.Machine.execGbar n g s
  | .exit n g => Sys2Proof.Machine.execExit n g s
  | .groupEnd n g => Sys2Proof.Machine.execGroupEnd n g s
  | .trap n g => Sys2Proof.Machine.execTrap n g s
  | .resume w n g => Sys2Proof.Machine.execResume w n g s
  | .resumeNext w n g => Sys2Proof.Machine.execResumeNext w n g s
  | .discard w n g => Sys2Proof.Machine.execDiscard w n g s
  | .groupStateWrite w n off v => Sys2Proof.Machine.execGroupStateWrite w n off v s
  | .qmapCmd w granule die => Sys2Proof.Machine.execQmapCmd w granule die s
  | .qmapChangeEnd => Sys2Proof.Machine.execQmapChangeEnd s
  | .tlbWalk g x va read write => Sys2Proof.Machine.execTlbWalk g x va read write s
  | .tlbInv w x size vpn => Sys2Proof.Machine.execTlbInv w x size vpn s
  | .tlbInvEnd => Sys2Proof.Machine.execTlbInvEnd s
  | .prefetch w x => Sys2Proof.Machine.execPrefetch w x s
  | .flush w x => Sys2Proof.Machine.execFlush w x s
  | .invalidate w x => Sys2Proof.Machine.execInvalidate w x s
  | .rangeDiscard w x => Sys2Proof.Machine.execRangeDiscard w x s
  | .rangeLine x fail => Sys2Proof.Machine.execRangeLine x fail s
  | .grantPin w way x => Sys2Proof.Machine.execGrantPin w way x s
  | .grantLocker w way x => Sys2Proof.Machine.execGrantLocker w way x s
  | .revoke w way x => Sys2Proof.Machine.execRevoke w way x s
  | .pinCmdEnd => Sys2Proof.Machine.execPinCmdEnd s
  | .rds g line => Sys2Proof.Machine.execRds g line s
  | .rdu g line => Sys2Proof.Machine.execRdu g line s
  | .upg g line => Sys2Proof.Machine.execUpg g line s
  | .wru g line data => Sys2Proof.Machine.execWru g line data s
  | .wbd g line => Sys2Proof.Machine.execWbd g line s
  | .evc g line => Sys2Proof.Machine.execEvc g line s
  | .rdn who line tag => Sys2Proof.Machine.execRdn who line tag s
  | .wrn who line tag data mask poison => Sys2Proof.Machine.execWrn who line tag data mask poison s
  | .red who line tag op => Sys2Proof.Machine.execRed who line tag op s
  | .atm who line tag op => Sys2Proof.Machine.execAtm who line tag op s
  | .snps g line => Sys2Proof.Machine.execSnps g line s
  | .snpc g line => Sys2Proof.Machine.execSnpc g line s
  | .snpi g line => Sys2Proof.Machine.execSnpi g line s
  | .fwd line => Sys2Proof.Machine.execFwd line s
  | .dat who line => Sys2Proof.Machine.execDat who line s
  | .gntm who line => Sys2Proof.Machine.execGntm who line s
  | .rsp die line => Sys2Proof.Machine.execRsp die line s
  | .cmp who line tag => Sys2Proof.Machine.execCmp who line tag s
  | .ack who line => Sys2Proof.Machine.execAck who line s
  | .larderFill line => Sys2Proof.Machine.execLarderFill line s
  | .redBind sl unit => Sys2Proof.Machine.execRedBind sl unit s
  | .redUnbind sl unit mism => Sys2Proof.Machine.execRedUnbind sl unit mism s
  | .mred line => Sys2Proof.Machine.execMred line s
  | .mack line => Sys2Proof.Machine.execMack line s
  | .enterOwner w reason => Sys2Proof.Machine.execEnterOwner w reason s
  | .exitOwner w => Sys2Proof.Machine.execExitOwner w s
  | .ownerOrderEntered => Sys2Proof.Machine.execOwnerOrderEntered s
  | .homeOrderResumed => Sys2Proof.Machine.execHomeOrderResumed s
  | .cstTallyWrite w n x v => Sys2Proof.Machine.execCstTallyWrite w n x v s
  | .cstTallyAdd w n x v => Sys2Proof.Machine.execCstTallyAdd w n x v s
  | .channelStart p c => Sys2Proof.Machine.execChannelStart p c s
  | .porterAccess p c => Sys2Proof.Machine.execPorterAccess p c s
  | .descriptorComplete p c => Sys2Proof.Machine.execDescriptorComplete p c s
  | .busError p => Sys2Proof.Machine.execBusError p s
  | .porterStopped p => Sys2Proof.Machine.execPorterStopped p s
  | .porterClear w p => Sys2Proof.Machine.execPorterClear w p s
  | .porterRetry w p => Sys2Proof.Machine.execPorterRetry w p s
  | .clearChannel w p c => Sys2Proof.Machine.execClearChannel w p c s
  | .retryChannel w p c => Sys2Proof.Machine.execRetryChannel w p c s
  | .ch0Post w g => Sys2Proof.Machine.execCh0Post w g s
  | .roundBoundary b seen => Sys2Proof.Machine.execRoundBoundary b seen s
  | .draftPropose b slot draft logits => Sys2Proof.Machine.execDraftPropose b slot draft logits s
  | .roundCommit b slot poison logits => Sys2Proof.Machine.execRoundCommit b slot poison logits s
  | .completionPost b c seen => Sys2Proof.Machine.execCompletionPost b c seen s
  | .bayForm w b inst ordered => Sys2Proof.Machine.execBayForm w b inst ordered s
  | .bayDissolve w b => Sys2Proof.Machine.execBayDissolve w b s
  | .controlWordWrite w b x v => Sys2Proof.Machine.execControlWordWrite w b x v s
  | .sliceEnd b => Sys2Proof.Machine.execSliceEnd b s
  | .coreResume n => Sys2Proof.Machine.execCoreResume n s
  | .slowWindowEnd b x => Sys2Proof.Machine.execSlowWindowEnd b x s
  | .tenantPost w v => Sys2Proof.Machine.execTenantPost w v s
  | .managerPost w v => Sys2Proof.Machine.execManagerPost w v s
  | .hatchConsWrite w v m2t cons => Sys2Proof.Machine.execHatchConsWrite w v m2t cons s
  | .deviceMessage v => Sys2Proof.Machine.execDeviceMessage v s
  | .enable w v => Sys2Proof.Machine.execEnable w v s
  | .quiesce w v => Sys2Proof.Machine.execQuiesce w v s
  | .quiesceForce v => Sys2Proof.Machine.execQuiesceForce v s
  | .quiesceComplete v => Sys2Proof.Machine.execQuiesceComplete v s
  | .instanceResume w v => Sys2Proof.Machine.execInstanceResume w v s
  | .freeze w v => Sys2Proof.Machine.execFreeze w v s
  | .save w v => Sys2Proof.Machine.execSave w v s
  | .saveEnd v fail => Sys2Proof.Machine.execSaveEnd v fail s
  | .restore w v => Sys2Proof.Machine.execRestore w v s
  | .restoreEnd v fail => Sys2Proof.Machine.execRestoreEnd v fail s
  | .reset w v => Sys2Proof.Machine.execReset w v s
  | .resetEnd v => Sys2Proof.Machine.execResetEnd v s
  | .remove w v => Sys2Proof.Machine.execRemove w v s
  | .vfFlr v => Sys2Proof.Machine.execVfFlr v s
  | .sharedRefetch line => Sys2Proof.Machine.execSharedRefetch line s
  | .sharedRefetchDone line host => Sys2Proof.Machine.execSharedRefetchDone line host s
  | .sharedRefetchFail line => Sys2Proof.Machine.execSharedRefetchFail line s
  | .joistFlitReceive k m flit => Sys2Proof.Machine.execJoistFlitReceive k m flit s
  | .joistAckTimeout k => Sys2Proof.Machine.execJoistAckTimeout k s
  | .joistMessageSend d who m => Sys2Proof.Machine.execJoistMessageSend d who m s
  | .prd d k => Sys2Proof.Machine.execPrd d k s
  | .pwr d k => Sys2Proof.Machine.execPwr d k s
  | .tinc d k => Sys2Proof.Machine.execTinc d k s
  | .pcmp d k => Sys2Proof.Machine.execPcmp d k s
  | .pdat d k => Sys2Proof.Machine.execPdat d k s
  | .cmpd d k => Sys2Proof.Machine.execCmpd d k s
  | .grd d k => Sys2Proof.Machine.execGrd d k s
  | .gwr d k => Sys2Proof.Machine.execGwr d k s
  | .gcmp d k => Sys2Proof.Machine.execGcmp d k s
  | .sevt d k => Sys2Proof.Machine.execSevt d k s
  | .moduleCrcWindow j => Sys2Proof.Machine.execModuleCrcWindow j s
  | .moduleRetrainEnd j ok lanes => Sys2Proof.Machine.execModuleRetrainEnd j ok lanes s
  | .linkSilence j d late => Sys2Proof.Machine.execLinkSilence j d late s
  | .supplyMonitorTrip rail => Sys2Proof.Machine.execSupplyMonitorTrip rail s
  | .rejoin w d => Sys2Proof.Machine.execRejoin w d s
  | .rejoinEnd d x => Sys2Proof.Machine.execRejoinEnd d x s
  | .chuteBlockReceive p corrected bad block => Sys2Proof.Machine.execChuteBlockReceive p corrected bad block s
  | .chuteAckTimeout p => Sys2Proof.Machine.execChuteAckTimeout p s
  | .laneLockLoss p lane => Sys2Proof.Machine.execLaneLockLoss p lane s
  | .chuteTrainingDone p peer level => Sys2Proof.Machine.execChuteTrainingDone p peer level s
  | .chuteTrainingRetry p => Sys2Proof.Machine.execChuteTrainingRetry p s
  | .chuteMessageSend k => Sys2Proof.Machine.execChuteMessageSend k s
  | .rwr k => Sys2Proof.Machine.execRwr k s
  | .rwrB k => Sys2Proof.Machine.execRwrB k s
  | .rwrP k => Sys2Proof.Machine.execRwrP k s
  | .rred k => Sys2Proof.Machine.execRred k s
  | .rredB k => Sys2Proof.Machine.execRredB k s
  | .rredP k => Sys2Proof.Machine.execRredP k s
  | .rtinc k => Sys2Proof.Machine.execRtinc k s
  | .rrd k => Sys2Proof.Machine.execRrd k s
  | .rcmp k => Sys2Proof.Machine.execRcmp k s
  | .rcmpd k => Sys2Proof.Machine.execRcmpd k s
  | .chuteForward k => Sys2Proof.Machine.execChuteForward k s
  | .spnPwr k => Sys2Proof.Machine.execSpnPwr k s
  | .spnCepoch k => Sys2Proof.Machine.execSpnCepoch k s
  | .spnFail k => Sys2Proof.Machine.execSpnFail k s
  | .messageTimeout k => Sys2Proof.Machine.execMessageTimeout k s
  | .retrain w p => Sys2Proof.Machine.execRetrain w p s
  | .restoreRoutes w => Sys2Proof.Machine.execRestoreRoutes w s
  | .xload w => Sys2Proof.Machine.execXload w s
  | .spanEnable w v => Sys2Proof.Machine.execSpanEnable w v s
  | .configRequest f op => Sys2Proof.Machine.execConfigRequest f op s
  | .hostRequest f bar off op peer ide => Sys2Proof.Machine.execHostRequest f bar off op peer ide s
  | .hostCompletion tag status data poison => Sys2Proof.Machine.execHostCompletion tag status data poison s
  | .completionTimeout tag => Sys2Proof.Machine.execCompletionTimeout tag s
  | .atsTranslation tag ok size => Sys2Proof.Machine.execAtsTranslation tag ok size s
  | .atsInvalidate f size page => Sys2Proof.Machine.execAtsInvalidate f size page s
  | .msixUnmask f v => Sys2Proof.Machine.execMsixUnmask f v s
  | .f0Flr x => Sys2Proof.Machine.execF0Flr x s
  | .vfEnableSet => Sys2Proof.Machine.execVfEnableSet s
  | .vfReady => Sys2Proof.Machine.execVfReady s
  | .vfEnableClear => Sys2Proof.Machine.execVfEnableClear s
  | .hostLinkDown => Sys2Proof.Machine.execHostLinkDown s
  | .hostLinkTrain speed width => Sys2Proof.Machine.execHostLinkTrain speed width s
  | .cellarRead line bad fixed => Sys2Proof.Machine.execCellarRead line bad fixed s
  | .cellarWrite line => Sys2Proof.Machine.execCellarWrite line s
  | .cellarRetrainTurn => Sys2Proof.Machine.execCellarRetrainTurn s
  | .retrainWindowEnd ok => Sys2Proof.Machine.execRetrainWindowEnd ok s
  | .cellarRetrainCmd w c => Sys2Proof.Machine.execCellarRetrainCmd w c s
  | .fold w p => Sys2Proof.Machine.execFold w p s
  | .foldEnd => Sys2Proof.Machine.execFoldEnd s
  | .assign w block x => Sys2Proof.Machine.execAssign w block x s
  | .keyClear w block => Sys2Proof.Machine.execKeyClear w block s
  | .rekey w x => Sys2Proof.Machine.execRekey w x s
  | .refclkCheck count => Sys2Proof.Machine.execRefclkCheck count s
  | .clkPllWrite w u p v => Sys2Proof.Machine.execClkPllWrite w u p v s
  | .pllReady u p => Sys2Proof.Machine.execPllReady u p s
  | .clkSelWrite w u v => Sys2Proof.Machine.execClkSelWrite w u v s
  | .clockSwitchDone u => Sys2Proof.Machine.execClockSwitchDone u s
  | .sscPeriodStart u => Sys2Proof.Machine.execSscPeriodStart u s
  | .throttleTick amps => Sys2Proof.Machine.execThrottleTick amps s
  | .throttleFrame d => Sys2Proof.Machine.execThrottleFrame d s
  | .temperatureSample d tc tu => Sys2Proof.Machine.execTemperatureSample d tc tu s
  | .clockGateTimer g => Sys2Proof.Machine.execClockGateTimer g s
  | .powerGateTimer g => Sys2Proof.Machine.execPowerGateTimer g s
  | .clusterWake g => Sys2Proof.Machine.execClusterWake g s
  | .wakeComplete g => Sys2Proof.Machine.execWakeComplete g s
  | .phaseSample => Sys2Proof.Machine.execPhaseSample s
  | .vregAck d => Sys2Proof.Machine.execVregAck d s
  | .vregTimeout d => Sys2Proof.Machine.execVregTimeout d s
  | .d3hotEntry => Sys2Proof.Machine.execD3hotEntry s
  | .d3coldEntry => Sys2Proof.Machine.execD3coldEntry s
  | .spanPeriodEnd => Sys2Proof.Machine.execSpanPeriodEnd s
  | .coldStart x => Sys2Proof.Machine.execColdStart x s
  | .warmRestart x => Sys2Proof.Machine.execWarmRestart x s
  | .startWatchdog stage detail => Sys2Proof.Machine.execStartWatchdog stage detail s
  | .newNonce w => Sys2Proof.Machine.execNewNonce w s
  | .applyToken w fails vendorSig ownerSig => Sys2Proof.Machine.execApplyToken w fails vendorSig ownerSig s
  | .debugClose w => Sys2Proof.Machine.execDebugClose w s
  | .commitSvn w => Sys2Proof.Machine.execCommitSvn w s
  | .retry w => Sys2Proof.Machine.execRetry w s
  | .recover w fails sig => Sys2Proof.Machine.execRecover w fails sig s
  | .getVersion f => Sys2Proof.Machine.execGetVersion f s
  | .getCapabilities f => Sys2Proof.Machine.execGetCapabilities f s
  | .negotiateAlgorithms f => Sys2Proof.Machine.execNegotiateAlgorithms f s
  | .getDigests f => Sys2Proof.Machine.execGetDigests f s
  | .getCertificate f => Sys2Proof.Machine.execGetCertificate f s
  | .challenge f => Sys2Proof.Machine.execChallenge f s
  | .getMeasurements f index signed => Sys2Proof.Machine.execGetMeasurements f index signed s
  | .keyExchange f => Sys2Proof.Machine.execKeyExchange f s
  | .finish f ok => Sys2Proof.Machine.execFinish f ok s
  | .heartbeat f => Sys2Proof.Machine.execHeartbeat f s
  | .keyUpdate f => Sys2Proof.Machine.execKeyUpdate f s
  | .endSession f => Sys2Proof.Machine.execEndSession f s
  | .chunkSend f chunk last => Sys2Proof.Machine.execChunkSend f chunk last s
  | .chunkGet f => Sys2Proof.Machine.execChunkGet f s
  | .setMigrationSecret v secret => Sys2Proof.Machine.execSetMigrationSecret v secret s
  | .ideKm f => Sys2Proof.Machine.execIdeKm f s
  | .lockInterfaceRequest v => Sys2Proof.Machine.execLockInterfaceRequest v s
  | .stopInterface v => Sys2Proof.Machine.execStopInterface v s
  | .getDeviceInterfaceReport v => Sys2Proof.Machine.execGetDeviceInterfaceReport v s
  | .extestEntry => Sys2Proof.Machine.execExtestEntry s
  | .extestExit => Sys2Proof.Machine.execExtestExit s
  | .regacc off write => Sys2Proof.Machine.execRegacc off write s
  | .vendorscan => Sys2Proof.Machine.execVendorscan s
  | .retirementWindow ways => Sys2Proof.Machine.execRetirementWindow ways s
  | .wayDeleteEnd unit set => Sys2Proof.Machine.execWayDeleteEnd unit set s
  | .pilotPwrokRise => Sys2Proof.Machine.execPilotPwrokRise s
  | .pilotPwrokFall => Sys2Proof.Machine.execPilotPwrokFall s
  | .perstDeassert => Sys2Proof.Machine.execPerstDeassert s
  | .pwrPgRise g => Sys2Proof.Machine.execPwrPgRise g s
  | .pwrPgTimeout stage => Sys2Proof.Machine.execPwrPgTimeout stage s
  | .vrAlert r => Sys2Proof.Machine.execVrAlert r s
  | .avsReadTimeout r => Sys2Proof.Machine.execAvsReadTimeout r s
  | .returnToD0 => Sys2Proof.Machine.execReturnToD0 s
  | .linkL12Entry => Sys2Proof.Machine.execLinkL12Entry s
  | .startInterfaceRequest v ok => Sys2Proof.Machine.execStartInterfaceRequest v ok s
  | .completerAbortTimeout k => Sys2Proof.Machine.execCompleterAbortTimeout k s
  | .cellarRefresh c temp => Sys2Proof.Machine.execCellarRefresh c temp s
  | .pwrPgFall g stage => Sys2Proof.Machine.execPwrPgFall g stage s
  | .enableDeassertTimeout => Sys2Proof.Machine.execEnableDeassertTimeout s
  | .perstAssert => Sys2Proof.Machine.execPerstAssert s
  | .inboundChuteRetrainRequest p => Sys2Proof.Machine.execInboundChuteRetrainRequest p s
  | .chuteAckInterval p => Sys2Proof.Machine.execChuteAckInterval p s
  | .regulatorTelemetryRead r mv => Sys2Proof.Machine.execRegulatorTelemetryRead r mv s

end Sys2Proof.Machine
end

