-- ==== Sys2Proof/Machine/Tick.lean ====
section
/-! DEFINITION. One cycle of the 100 MHz reference clock, which passes when no command waits (log 7): counts that rise with time, and requests that waited. -/
namespace Sys2Proof.Machine

/-- A stream is on the core. -/
def Seq.onCore (q : Seq) : Bool :=
  match q.status with
  | .running | .inWait | .stallStep | .stallChan => true
  | _ => false

/-- GAP of a core (R86). -/
def Seq.tick (q : Seq) : Seq := if q.onCore then { q with gap := min 0xFFFFFFFF (q.gap + 1) } else q

/-- ACLK cycles of die `d` in reference cycle `c`: ACLK_MHZ cycles in 100 reference cycles. -/
def State.aclkCycles (s : State) (d c : Nat) : Nat :=
  let m := s.fld Reg.PWR_DIE_STAT [d] F.PWR_DIE_STAT_ACLK_MHZ
  (c + 1) * m / 100 - c * m / 100

/-- Engines of a core with entries left in its Step. -/
def StepUnit.busyEngines (u : StepUnit) : Nat := popCount 4 (u.statWord % 16)

/-- CLK_REFCNT of every unit (R348). -/
def State.countRef (s : State) : State := (List.range 6).foldl (fun s u => s.wrapAdd Reg.CLK_REFCNT [u] F.CLK_REFCNT_COUNT 1) s

/-- BAY_ENG of the Bays whose engines have entries left (R239). -/
def State.countEngines (s : State) (c : Nat) : State :=
  s.steps.foldl (fun s e => s.account (s.bayOfCore e.1) Reg.BAY_ENG Reg.BAY_INST_ENG (e.2.busyEngines * s.aclkCycles (dieOfCore e.1) c)) s

/-- A reference cycle passes. -/
def State.tick (s : State) : State :=
  if s.power.mode = 2 then s else
  let c := (s.reg Reg.CLK_REFCNT [5]).toNat
  let s := s.keepPilot (s.countRef.countEngines c)
  let seqs : Tbl Seq := s.seqs.map (fun e => (e.1, e.2.tick))
  let bays : Tbl Bay := s.bays.map (fun e => (e.1, if e.2.on then { e.2 with winA := e.2.winA + 1 } else e.2))
  let s := { s with seqs := seqs, bays := bays, critA := s.critA + (s.seqs.filter (fun (e : Nat × Seq) => e.2.onCore)).length }
  (s.hostIn.map (fun (r : HostIn) => r.fn)).eraseDups.foldl (fun s f => s.hostRetry f) s

end Sys2Proof.Machine
end

