-- ==== Sys2Proof/Safety.lean ====
section
/-! DEFINITION. What counts as a safe step, the bounds that the Pilot's fields keep, and the counters of the flash that never go down. -/
namespace Sys2Proof

/-- The step from `s` neither faults nor is refused. -/
def Safe (s : Machine.State) : Prop := ∃ t, Machine.step s = .next t

/-- The Pilot's fields within their bounds: three life-cycle values (R380), four phases of a start, two image slots (R375), counts that follow
counter 0 (R371), a ring of 16 causes (R371), a list of 4,096 deletions (R393), and no rail awaited once the firmware runs (R402). -/
def Machine.Pilot.Ok (p : Machine.Pilot) : Prop :=
  p.lifeCycle ≤ 2 ∧ p.phase ≤ 3 ∧ p.active ≤ 1 ∧ p.lastTried ≤ 1 ∧ p.n ≤ p.rpmc0 ∧ p.good ≤ p.rpmc0 ∧ p.causes.length ≤ 16 ∧
  p.deletions.length ≤ 4096 ∧ (2 ≤ p.phase → p.enabling = none)

/-- None of the four replay-protected counters of the flash goes down: starts, SVN_MIN, life cycle, owner epoch (R375, R380, R383). -/
def Machine.Pilot.NoLower (p q : Machine.Pilot) : Prop :=
  p.rpmc0 ≤ q.rpmc0 ∧ p.svnMin ≤ q.svnMin ∧ p.lifeCycle ≤ q.lifeCycle ∧ p.ownerEpoch ≤ q.ownerEpoch

end Sys2Proof
end

