-- ==== Sys2Proof/Certificates/Slice0/Obligations.lean ====
section
/-! DEFINITION. The statements for the provers. Every clause that completes a command has hypotheses on the state and the
operands alone. -/
open Sys2Proof Sys2Proof.Machine

namespace Sys2Proof.Machine

/-- The sequencer of core `n` may move on, and the word at its PC is `i`, an instruction of opcode `op` that shows no fault (R57, R58, R71). -/
def AtS (s : State) (n op : Nat) (i : SInstr) : Prop :=
  (s.seq n).moving = true ∧ s.fetchS n (some op) (s.seq n).pc (s.seq n).loops.length (s.seq n).calls.length = .ok i

/-- The sequencer of core `n` may move on, and the word at its PC, in the stream's region and without poison, decodes to `i` (R57, R58). -/
def AtWord (s : State) (n : Nat) (i : SInstr) : Prop :=
  (s.seq n).moving = true ∧ ∃ r, s.region n = some r ∧ 8 * (s.seq n).pc.toNat + 8 ≤ r.len ∧ s.pantryPoison n (r.base + 8 * (s.seq n).pc.toNat) 8 = false ∧
    decodeS (BitVec.ofNat 64 (s.pantryNat n (r.base + 8 * (s.seq n).pc.toNat) 8)) = some i

/-- The sequencer of core `n` waits with `h` at the instruction `i`. -/
def HeldS (s : State) (n : Nat) (h : SeqHold) (i : SInstr) : Prop :=
  (s.seq n).hold = h ∧ s.fetchS n none (s.seq n).pc (if h = .step then 1 else (s.seq n).loops.length) (s.seq n).calls.length = .ok i

/-- An increment aimed at core `n` applies at once: its inst. is not FROZEN, its die not fenced, its cluster powered (R181, R257, R276). -/
def Open (s : State) (n : Nat) : Prop := s.frozenCore n = none ∧ s.dieDown (dieOfCore n) = false ∧ s.gated (clusterOf n) = false

/-- Group `g` of core `n` may issue, and the word at its PC is the legal instruction `w` of class `c` (R91, R92). -/
def AtV (s : State) (n g c : Nat) (w : VWord) : Prop :=
  (s.group n g).issues = true ∧ s.fetchV n (s.group n g).pc = .ok w ∧ w.legal = true ∧ w.cls = c

/-- The group's state at the next instruction when every executing thread receives a word. -/
def Group.vdSet (x : Group) (w : VWord) (f : Nat → Word) : Group := (x.writeV (x.exec w) w.vd f).next

/-- The `k`-th message that waits at die `d` is `m`, and `u` is the state with it taken. -/
def JoistAt (s : State) (d k : Nat) (m : JoistMsg) (u : State) : Prop :=
  (s.joistIn.filter (fun e => e.1 == d))[k]? = some (d, m) ∧ u = { s with joistIn := s.joistIn.erase (d, m) }

/-- The `k`-th message that the Chute ports have delivered is `m`, brought by port `p`. -/
def ChuteAt (s : State) (k p : Nat) (m : ChuteMsg) : Prop := s.chuteIn[k]? = some (p, m)

/-- `off` is an aligned offset below the peek aliases' Hatch rings that writer `w` reaches now, and it is not SEC_CMD (R4, R10, R252, R372). -/
def Reaches (s : State) (w : Writer) (off : Nat) : Prop :=
  s.inBoxroom = false ∧ s.closedFor w = false ∧ off % 8 = 0 ∧ off ≠ Reg.SEC_CMD.base ∧ isRingWord off = false ∧ (∀ i, tenantOf w = some i → s.tenantReaches i off = true)

/-- Writer `w` may write a plain register: the manager; or the inst. itself, the address and length of its range (R155). -/
def MayWrite (w : Writer) (r : RegSpec) (is : List Nat) : Prop :=
  isManager w = true ∨ ((r.base = Reg.LRD_RNG_ADDR.base ∨ r.base = Reg.LRD_RNG_LEN.base) ∧ mayRange w (is.headD 0) = true)

/-- `off` names a register outside the core windows and Hatch pages whose writes are by its fields' access types alone. -/
def Plain (s : State) (w : Writer) (off : Nat) (r : RegSpec) (is : List Nat) (v : DWord) : Prop :=
  findReg off = some (r, is) ∧ off < 0x10000000 ∧ ¬ (0x2000000 ≤ off ∧ off < 0x3000000) ∧ s.specialWrite w off r is v = none

/-- Function `f` serves memory requests now (R308, R309, R318, R319, R321). -/
def Serves (s : State) (f : InstId) (ide : Bool) : Prop :=
  s.hostUp = true ∧ s.pilot.phase = 3 ∧ s.power.d3hot = false ∧ (f.val = 0 ∨ s.inBoxroom = false ∧ s.vfOn = true ∧ s.vfReady = true ∧ (s.fld Reg.HST_TDI_STAT [f.val] F.HST_TDI_STAT_STATE ≠ 2 ∨ ide = true))

/-- A Cellar command of writer `w` is taken: there is a Cellar and no command of it runs (R336). -/
def CellarReady (s : State) (w : Writer) : Prop := isManager w = true ∧ s.hasCellar = true ∧ s.bit Reg.CEL_STAT [] F.CEL_STAT_BUSY = false

/-- The SPDM mailbox of function `f` answers now (R318, R319, R377). -/
def Mailbox (s : State) (f : InstId) : Prop := s.hostUp = true ∧ s.pilot.phase = 3 ∧ (f.val = 0 ∨ s.inBoxroom = false ∧ s.vfOn = true ∧ s.vfReady = true)

end Sys2Proof.Machine

/-- R66: LOOP pushes a frame, ENDLOOP raises INDEX and jumps or pops, CALL and RET push and pop the call stack, which the loop frames do not share; a full loop stack, an ENDLOOP with no frame, a full call stack and a RET with no entry each fault (codes of Table SQ-4). -/
def Obligations.LoopsAndCalls : Prop :=
  (∀ (n : CoreId) (s : State) (c : BitVec 16) (st : BitVec 32), AtS s n 0x10 (.loop c st) →
    exec (.loop n) s = .next (s.setSeq n { (s.seq n).goto ((s.seq n).pc + 1) with loops := ⟨(s.seq n).pc + 1, c.toNat, 0, st⟩ :: (s.seq n).loops })) ∧
  (∀ (n : CoreId) (s : State) (f : LoopFrame) (fs : List LoopFrame), AtS s n 0x11 .endloop → (s.seq n).loops = f :: fs → f.index < f.countM1 →
    exec (.endloop n) s = .next (s.setSeq n { (s.seq n).goto f.start with loops := { f with index := f.index + 1 } :: fs })) ∧
  (∀ (n : CoreId) (s : State) (f : LoopFrame) (fs : List LoopFrame), AtS s n 0x11 .endloop → (s.seq n).loops = f :: fs → f.countM1 ≤ f.index →
    exec (.endloop n) s = .next (s.setSeq n { (s.seq n).goto ((s.seq n).pc + 1) with loops := fs })) ∧
  (∀ (n : CoreId) (s : State) (t : BitVec 18), AtS s n 0x12 (.call t) →
    exec (.call n) s = .next (s.setSeq n { (s.seq n).goto t with calls := ((s.seq n).pc + 1) :: (s.seq n).calls })) ∧
  (∀ (n : CoreId) (s : State) (p : BitVec 18) (ps : List (BitVec 18)), AtS s n 0x13 .ret → (s.seq n).calls = p :: ps →
    exec (.ret n) s = .next (s.setSeq n { (s.seq n).goto p with calls := ps })) ∧
  (∀ (n : CoreId) (s : State) (c : BitVec 16) (st : BitVec 32), AtWord s n (.loop c st) → 8 ≤ (s.seq n).loops.length → exec (.loop n) s = .next (s.keepPilot (s.seqFault n 0x04))) ∧
  (∀ (n : CoreId) (s : State), AtWord s n .endloop → (s.seq n).loops = [] → exec (.endloop n) s = .next (s.keepPilot (s.seqFault n 0x04))) ∧
  (∀ (n : CoreId) (s : State) (t : BitVec 18), AtWord s n (.call t) → 8 ≤ (s.seq n).calls.length → exec (.call n) s = .next (s.keepPilot (s.seqFault n 0x05))) ∧
  (∀ (n : CoreId) (s : State), AtWord s n .ret → (s.seq n).calls = [] → exec (.ret n) s = .next (s.keepPilot (s.seqFault n 0x05)))

/-- SELECT, WAIT, SIG, FENCE, CHEAP, YIELD, HALT as they are reached (R63-R65, R67, R69, R70): the expectation register, GAP and MAX_GAP, and what the sequencer waits for. The order of faults and when a stop is taken follow logs 21 and 46, the model's choices. -/
def Obligations.SequencerInstructions : Prop :=
  (∀ (n : CoreId) (s : State) (tally : BitVec 12) (x : BitVec 4) (set : BitVec 1) (scope : BitVec 3) (imm e : Word), AtS s n 0x08 (.wait tally x set scope imm) →
    e = (if set = 1 then imm else (s.seq n).exps.getD x.toNat 0 + imm) →
    exec (.wait n) s = .next (s.setSeq n { (s.seq n) with exps := setAt (s.seq n).exps x.toNat e, status := .inWait, hold := .wait, waitTally := tally.toNat, waitExp := x.toNat, waitTarget := e, since := s.now })) ∧
  (∀ (n : CoreId) (s : State) (i : SInstr), AtS s n 0x09 i →
    exec (.sig n) s = .next (s.setSeq n { (s.seq n) with hold := .sig, status := .running })) ∧
  (∀ (n : CoreId) (s : State) (i : SInstr), AtS s n 0x0A i →
    exec (.fence n) s = .next (s.setSeq n { (s.seq n) with hold := .fence, status := .running })) ∧
  (∀ (n : CoreId) (s : State) (i : SInstr), AtS s n 0x18 i → s.stopPending n = false →
    exec (.cheap n) s = .next (s.setSeq n { (s.seq n).goto ((s.seq n).pc + 1) with maxGap := max (s.seq n).maxGap (s.seq n).gap, gap := 0 })) ∧
  (∀ (n : CoreId) (s : State) (i : SInstr), AtS s n 0x18 i → s.stopPending n = true →
    exec (.cheap n) s = .next (s.setSeq n { (s.seq n) with maxGap := max (s.seq n).maxGap (s.seq n).gap, gap := 0, hold := .cheap })) ∧
  (∀ (n : CoreId) (s : State) (i : SInstr) (b j : Nat), AtS s n 0x19 i → (s.seq n).stream = some (b, j) → s.stopPending n = false → s.peerReady b j = false →
    s.reg Reg.BAY_WAKE [b, j] = 0 → exec (.yield n) s = .next (s.setSeq n ((s.seq n).goto ((s.seq n).pc + 1)))) ∧
  (∀ (n : CoreId) (s : State) (i : SInstr), AtS s n 0x1F i → exec (.halt n) s = .next (s.setSeq n { (s.seq n) with hold := .halt })) ∧
  (∀ (n : CoreId) (s : State) (word : BitVec 4) (lo : BitVec 6) (widthM1 : BitVec 3) (table : BitVec 16) (b : Nat) (r : Region) (v e : Nat),
    AtS s n 0x14 (.select word lo widthM1 table) → s.bayOfCore n = some b → s.region n = some r →
    s.poisoned (s.ctlAddr b word.toNat) 8 = false → v = bitsOf (ofLeBytes (s.bytes (s.ctlAddr b word.toNat) 8)) (lo.toNat + widthM1.toNat) lo.toNat →
    32 * table.toNat + 8 * v + 8 ≤ r.len → s.pantryPoison n (r.base + (32 * table.toNat + 8 * v)) 8 = false →
    e = s.pantryNat n (r.base + (32 * table.toNat + 8 * v)) 8 → e < 2 ^ 18 →
    exec (.select n) s = .next (s.setSeq n ((s.seq n).goto (BitVec.ofNat 18 e))))

/-- STEP, MOVE, LAUNCH and the ends of their stalls (R58-R62, R72, R89): the descriptor goes to the Step unit, the channel's queue or the
group slots, the sequencer moves on, and nothing else changes. What a LAUNCH or MOVE checks beyond the rules is log 32; one PREFETCH_MOVE_START walks at most 4,096 words (log 22): the model's choices. -/
def Obligations.SequencerDescriptors : Prop :=
  (∀ (n : CoreId) (s : State) (slot : BitVec 16) (bank : Nat) (d : StepIssue) (r : StepIssue), AtS s n 0x01 (.step slot) →
    (s.stepUnit n).running = some r → (s.stepUnit n).queued = none → s.readStep n (s.seq n).pc slot.toNat (s.seq n).loops ((s.seq n).stepsIssued + 1) = .inr (bank, d) →
    ∃ t, exec (.step n) s = .next t ∧ t.stepUnit n = { s.stepUnit n with queued := some d } ∧ (t.seq n).pc = (s.seq n).pc + 1 ∧
      (t.seq n).bank = bank ∧ (t.seq n).stepsIssued = (s.seq n).stepsIssued + 1 ∧ t.regs = s.regs ∧ t.mem = s.mem) ∧
  (∀ (n : CoreId) (s : State) (slot : BitVec 16) (r k : StepIssue), AtS s n 0x01 (.step slot) →
    (s.stepUnit n).running = some r → (s.stepUnit n).queued = some k →
    exec (.step n) s = .next (s.setSeq n { (s.seq n) with hold := .step, status := .stallStep })) ∧
  (∀ (n : CoreId) (s : State) (slot : BitVec 16) (pf cl : BitVec 1) (chan : BitVec 4), AtS s n 0x02 (.move slot pf cl chan) → pf = 0 →
    s.queueRoom (movePorter n cl) chan.toNat = true →
    exec (.move n) s = .next ((s.setSeq n (s.seq n).advance).post (movePorter n cl) chan.toNat (s.moveDesc n slot.toNat))) ∧
  (∀ (n : CoreId) (s : State) (slot : BitVec 16) (pf cl : BitVec 1) (chan : BitVec 4), AtS s n 0x02 (.move slot pf cl chan) → pf = 0 →
    s.queueRoom (movePorter n cl) chan.toNat = false →
    exec (.move n) s = .next (s.setSeq n { (s.seq n) with hold := .move, status := .stallChan })) ∧
  (∀ (n : CoreId) (s : State) (slot : BitVec 16) (pf cl : BitVec 1) (chan : BitVec 4), HeldS s n .move (.move slot pf cl chan) → pf = 0 →
    s.queueRoom (movePorter n cl) chan.toNat = true →
    exec (.moveEnqueue n) s = .next ((s.setSeq n (s.seq n).advance).post (movePorter n cl) chan.toNat (s.moveDesc n slot.toNat))) ∧
  (∀ (n : CoreId) (s : State) (slot : BitVec 16) (g : BitVec 4) (en : BitVec 1) (tally : BitVec 12) (r : Region), AtS s n 0x03 (.launch slot g en tally) →
    g.toNat + 1 ≤ (s.freeSlots n).length → s.region n = some r →
    ∃ t, exec (.launch n) s = .next t ∧ t.seq n = (s.seq n).advance ∧
      t.kern n = { next := (s.kern n).next + 1, running := (s.kern n).running ++ [⟨(s.kern n).next, g.toNat + 1, en == 1, tally.toNat⟩] } ∧
      (∀ k, k ≤ g.toNat → t.group n ((s.freeSlots n).getD k 8) = Group.initial (BitVec.ofNat 18 (s.pantryNat n (r.base + 32 * slot.toNat) 4)) k (s.kern n).next
        [s.pantryNat n (r.base + 32 * slot.toNat + 4) 4, s.pantryNat n (r.base + 32 * slot.toNat + 8) 4, s.pantryNat n (r.base + 32 * slot.toNat + 12) 4]) ∧
      t.regs = s.regs ∧ t.mem = s.mem) ∧
  (∀ (n : CoreId) (s : State) (slot : BitVec 16) (g : BitVec 4) (en : BitVec 1) (tally : BitVec 12), AtS s n 0x03 (.launch slot g en tally) →
    (s.freeSlots n).length < g.toNat + 1 →
    exec (.launch n) s = .next (s.setSeq n { (s.seq n) with hold := .launch, status := .stallChan })) ∧
  (∀ (n : CoreId) (s : State) (slot : BitVec 16) (g : BitVec 4) (en : BitVec 1) (tally : BitVec 12) (r : Region), HeldS s n .launch (.launch slot g en tally) →
    g.toNat + 1 ≤ (s.freeSlots n).length → s.region n = some r →
    ∃ t, exec (.launchStart n) s = .next t ∧ t.seq n = (s.seq n).advance ∧
      t.kern n = { next := (s.kern n).next + 1, running := (s.kern n).running ++ [⟨(s.kern n).next, g.toNat + 1, en == 1, tally.toNat⟩] } ∧
      (∀ k, k ≤ g.toNat → t.group n ((s.freeSlots n).getD k 8) = Group.initial (BitVec.ofNat 18 (s.pantryNat n (r.base + 32 * slot.toNat) 4)) k (s.kern n).next
        [s.pantryNat n (r.base + 32 * slot.toNat + 4) 4, s.pantryNat n (r.base + 32 * slot.toNat + 8) 4, s.pantryNat n (r.base + 32 * slot.toNat + 12) 4]) ∧
      t.regs = s.regs ∧ t.mem = s.mem) ∧
  (∀ (n : CoreId) (s : State) (c : Scan) (p : Prefetch), (s.seq n).status = .running → s.scanWalk n scanFuel (s.scanStart n) = (c, some p) →
    exec (.prefetchMoveStart n) s =
      .next ((s.setSeq n { (s.seq n) with scan := c, started := p.number :: (s.seq n).started }).post p.porter p.chan p.desc))

/-- The ends of the sequencer's waits (R63-R65, R69, R70, R171, R177): WAIT at a Tally that reached its target, SIG and FENCE once the earlier
work is done, and the stops at CHEAP, YIELD and HALT with another core of the Bay still at work. Who stops when follows log 46, the model's choice. -/
def Obligations.SequencerEnds : Prop :=
  (∀ (n : CoreId) (s : State) (tally : BitVec 12) (x : BitVec 4) (set : BitVec 1) (scope : BitVec 3) (imm : Word),
    HeldS s n .wait (.wait tally x set scope imm) → reached (s.tally n tally.toNat) (s.seq n).waitTarget = true →
    ∃ t, exec (.waitTargetReached n) s = .next t ∧ t.seq n = (s.seq n).advance ∧ t.mem = s.mem) ∧
  (∀ (n : CoreId) (s : State) (scope : BitVec 3) (remote : BitVec 1) (dev : BitVec 11) (core : BitVec 9) (tally : BitVec 12) (amount : BitVec 16),
    HeldS s n .sig (.sig scope remote dev core tally amount) → remote = 0 → s.workDone n = true → s.frozenCore core.toNat = none →
    exec (.sigIssue n) s = .next ((s.setSeq n (s.seq n).advance).addTally core.toNat tally.toNat
      { amount := amount.toNat, kind := 1, scope := scope.toNat, core := n })) ∧
  (∀ (n : CoreId) (s : State) (scope : BitVec 3) (acq rel : BitVec 1),
    HeldS s n .fence (.fence scope acq rel) → (rel = 1 → s.workDone n = true) →
    exec (.fenceComplete n) s = .next ((if acq = 1 then s.acquire n scope.toNat else s).setSeq n (s.seq n).advance)) ∧
  (∀ (n : CoreId) (s : State) (live : BitVec 40) (b j : Nat) (m : State), HeldS s n .cheap (.cheap live) → s.workDone n = true → (s.seq n).stream = some (b, j) →
    ((s.undoRunAhead n).setSeq n { ((s.undoRunAhead n).seq n) with status := .stopped, hold := .free, live := live }).recordStop b j n live = .ok m →
    n.val ∉ (m.bay b).stopped → (m.setBay b { (m.bay b) with stopped := n :: (m.bay b).stopped }).allDone b = false →
    exec (.cheapStop n) s = .next (s.keepPilot (m.setBay b { (m.bay b) with stopped := n :: (m.bay b).stopped }))) ∧
  (∀ (n : CoreId) (s : State) (live : BitVec 40) (b j : Nat) (m : State), HeldS s n .yielding (.yield live) → s.workDone n = true → (s.seq n).stream = some (b, j) →
    ((s.undoRunAhead n).setSeq n { ((s.undoRunAhead n).seq n) with status := .stopped, hold := .free, live := live }).recordStop b j n live = .ok m →
    n.val ∉ (m.bay b).stopped → (m.setBay b { (m.bay b) with stopped := n :: (m.bay b).stopped }).allDone b = false →
    exec (.yieldStop n) s = .next (s.keepPilot (m.setBay b { (m.bay b) with stopped := n :: (m.bay b).stopped }))) ∧
  (∀ (n : CoreId) (s : State) (code : BitVec 16) (b j : Nat) (m : State), HeldS s n .halt (.halt code) → s.workDone n = true → (s.seq n).stream = some (b, j) →
    ((s.undoRunAhead n).setSeq n { ((s.undoRunAhead n).seq n) with status := .halted, hold := .free, haltCode := code }).recordStop b j n 0 = .ok m →
    n.val ∉ (m.img b j).haltedCores → (m.setImg b j { (m.img b j) with haltedCores := n :: (m.img b j).haltedCores }).allDone b = false →
    exec (.haltStop n) s = .next (s.keepPilot (m.setImg b j { (m.img b j) with haltedCores := n :: (m.img b j).haltedCores })))

/-- The matrix engines (R24, R33, R34, R36, R44, R51, R126): a tile entry fetched or skipped, a row through the array without a mismatch, an output
row, the end of a tile, and the commit of the running Step, which empties the core's Shelf; each changes what is named and nothing else. Which engine finds a fault, and a replay's start, follow logs 15, 16 and 20, the model's choices. -/
def Obligations.EngineWork : Prop :=
  (∀ (n : CoreId) (e : EngineId) (s : State) (x : Engine) (d : StepIssue) (t : BitVec 128), s.engine n e = x → (s.stepUnit n).running = some d →
    d.takes e = true → x.enter = none → x.stopped = false → (s.stepUnit n).failing = 0 → x.entry ≤ d.field 63 53 →
    s.tileEntry n d e x.entry = (t, false) → entryValid t = false →
    exec (.tileFetch n e) s = .next (s.setEngine n e { x with entry := x.entry + 1, done := x.done + 1 })) ∧
  (∀ (n : CoreId) (e : EngineId) (s : State) (x : Engine) (d : StepIssue) (t : BitVec 128) (tile : Tile), s.engine n e = x →
    (s.stepUnit n).running = some d → d.takes e = true → x.enter = none → x.drain = none → x.stopped = false → (s.stepUnit n).failing = 0 →
    x.entry ≤ d.field 63 53 → s.tileEntry n d e x.entry = (t, false) → entryValid t = true → fetchFault d t false = 0 → d.mRows ≤ 256 →
    tile = { entry := t, half := x.half, acc0 := if d.accIn then x.acc else [] } →
    exec (.tileFetch n e) s = .next (s.setEngine n e { x with entry := x.entry + 1, half := 1 - x.half, kept := none, enter := some tile, acc := tile.begin x.acc })) ∧
  (∀ (n : CoreId) (e : EngineId) (s : State) (sums : List SumError) (shadows : List ShadowError) (d : StepIssue) (t : Tile) (acc : Tbl Word) (poison : Bool),
    (s.stepUnit n).running = some d → (s.engine n e).enter = some t → entered d t = false →
    s.rowPass n d (s.engine n e) t sums shadows = (acc, false, false, poison) →
    exec (.engineRowEntry n e sums shadows) s = .next (s.setEngine n e
      (toDrain d { s.engine n e with acc := acc, enter := some { t.nextRow d with poison := t.poison || poison } }))) ∧
  (∀ (n : CoreId) (e : EngineId) (s : State) (d : StepIssue) (t : Tile), (s.stepUnit n).running = some d → (s.engine n e).drain = some t →
    d.accOut = false → t.outRow ≤ entryRows t.entry → t.checked = true →
    exec (.outputRowWrite n e false) s = .next (s.keepPilot ((s.writeRow n d (s.engine n e) t).setEngine n e { s.engine n e with drain := some { t with outRow := t.outRow + 1 } }))) ∧
  (∀ (n : CoreId) (e : EngineId) (s : State) (d : StepIssue) (t : Tile), (s.stepUnit n).running = some d → (s.engine n e).drain = some t →
    d.accOut = false → entryRows t.entry < t.outRow → opCopy d.op = false → (s.stepUnit n).failing = 0 →
    exec (.tileComplete n e) s = .next (s.setStep n ({ s.stepUnit n with poison := (s.stepUnit n).poison || t.poison }.setEngine e
      (toDrain d { s.engine n e with drain := none, done := (s.engine n e).done + 1 })))) ∧
  (∀ (n : CoreId) (s : State) (d : StepIssue), (s.stepUnit n).running = some d → (s.stepUnit n).queued = none → (s.stepUnit n).ready d = true →
    d.field 224 224 = 0 →
    exec (.stepCommit n) s = .next (s.keepPilot ((((s.setStep n { s.stepUnit n with running := none, lastSeq := d.seq, lastEnd := 0, lastPoison := (s.stepUnit n).poison, poison := false }).clearShelf n).setSeq n
      { s.seq n with stepsDone := max (s.seq n).stepsDone d.ord }).releaseHeld n))) ∧
  (∀ (n : CoreId) (s : State) (d : StepIssue), (s.stepUnit n).running = some d → (s.stepUnit n).queued = none → (s.stepUnit n).ready d = true →
    d.field 224 224 = 1 → Open s n →
    exec (.stepCommit n) s = .next (s.keepPilot (((((s.setStep n { s.stepUnit n with running := none, lastSeq := d.seq, lastEnd := 0, lastPoison := (s.stepUnit n).poison, poison := false }).clearShelf n).applyTally n
      (d.field 191 180) { amount := 1, kind := 2, scope := 2, core := n }).setSeq n { s.seq n with stepsDone := max (s.seq n).stepsDone d.ord }).releaseHeld n)))

/-- A mismatch of a row's checks on a tile that has not been replayed (R31, Table NM-9): the tile starts again from its first pass with the sums it began from, a corrected record is
written, and no other engine or core is touched. That a mismatch is an operand is log 15, the model's choice. -/
def Obligations.MismatchReplaysTile : Prop :=
  ∀ (n : CoreId) (e : EngineId) (s : State) (sums : List SumError) (shadows : List ShadowError) (d : StepIssue) (tile : Tile) (acc : Tbl Word) (residue shadow poison : Bool),
    (s.stepUnit n).running = some d → (s.engine n e).enter = some tile → entered d tile = false → tile.replay = false →
    s.rowPass n d (s.engine n e) tile sums shadows = (acc, residue, shadow, poison) → (residue || shadow) = true →
    ∃ t, exec (.engineRowEntry n e sums shadows) s = .next t ∧
      t.engine n e = { s.engine n e with acc := tile.begin (s.engine n e).acc, enter := some tile.again } ∧
      t.fld Reg.ERR_PROD [] F.ERR_PROD_PROD = (s.fld Reg.ERR_PROD [] F.ERR_PROD_PROD + 1) % 2 ^ 32 ∧
      t.replays.get 0 (4 * n + e) = s.replays.get 0 (4 * n + e) + 1 ∧
      (∀ m f, ¬ (m = n.val ∧ f = e.val) → t.engine m f = s.engine m f) ∧ (∀ m, t.seq m = s.seq m) ∧ t.mem = s.mem

/-- The slot commands of schedule images in the states that Table SQ-11 allows, with the inst. ACTIVE (R79, R82, R83, R252): the slot's status, its
ranges and the command register. A slot command that Table SQ-11 does not allow in the slot's state is discarded with a contained record (R82, R413), and the slot stays as it is. That a LOAD places all its sections at its end, and what a refused one leaves, is log 30, the model's choice. -/
def Obligations.ImageCommands : Prop :=
  (∀ (b : BayId) (j : ImgId) (f : Option Nat) (s : State), s.instActive (s.instOfBay b) = true → loadable (s.img b j).status = true →
    ∃ t, exec (.load b j f) s = .next t ∧ t.img b j = { status := .loading, failAt := f, refuse := (s.img b j).refuse } ∧
      t.reg Reg.BAY_IMG_CMD [b, j] = 1 ∧ (∀ b' j', 4 * b' + j' ≠ 4 * b.val + j.val → t.img b' j' = s.img b' j') ∧ t.mem = s.mem ∧ t.seqs = s.seqs) ∧
  (∀ (b : BayId) (j : ImgId) (s : State) (src : ImgSrc), (s.img b j).status = .loading → (s.bay b).switch ≠ 2 →
    src = { s := s, base := (s.reg Reg.BAY_IMG_ADDR [b, j]).toNat, len := s.fld Reg.BAY_IMG_LEN [b, j] F.BAY_IMG_LEN_LEN, failAt := (s.img b j).failAt } →
    src.reason b j = 0 → exec (.loadEnd b j) s = .next (s.keepPilot (s.place src b j))) ∧
  (∀ (b : BayId) (j : ImgId) (s : State) (src : ImgSrc), (s.img b j).status = .loading → (s.bay b).switch ≠ 2 →
    src = { s := s, base := (s.reg Reg.BAY_IMG_ADDR [b, j]).toNat, len := s.fld Reg.BAY_IMG_LEN [b, j] F.BAY_IMG_LEN_LEN, failAt := (s.img b j).failAt } →
    src.reason b j ≠ 0 → exec (.loadEnd b j) s = .next (s.keepPilot ((s.loadRefused src b j).setImg b j { status := .refused, refuse := src.reason b j }))) ∧
  (∀ (b : BayId) (j : ImgId) (s : State) (src : ImgSrc), src.early b j ≠ 0 → s.loadRefused src b j = s) ∧
  (∀ (b : BayId) (j : ImgId) (s : State), s.instActive (s.instOfBay b) = true → (s.img b j).status = .stopped →
    exec (.start b j) s = .next (s.keepPilot (((s.wrote Reg.BAY_IMG_CMD [b, j] 2).setImg b j
      { s.img b j with status := .running, dormant := false, fresh := false, later := 0 }).becameReady b j))) ∧
  (∀ (b : BayId) (j : ImgId) (s : State), s.instActive (s.instOfBay b) = true → (s.img b j).status = .loaded →
    exec (.start b j) s = .next (s.keepPilot ((((s.wrote Reg.BAY_IMG_CMD [b, j] 2).startServing b j).setImg b j
      { s.img b j with status := .running, dormant := false, fresh := true, later := 0, haltedCores := [] }).becameReady b j))) ∧
  (∀ (b : BayId) (j : ImgId) (s : State), s.instActive (s.instOfBay b) = true → (s.img b j).status = .running → s.resuming b j = false → s.onCores b j = true →
    exec (.stop b j) s = .next ((s.wrote Reg.BAY_IMG_CMD [b, j] 3).setImg b j { s.img b j with status := .stopping })) ∧
  (∀ (b : BayId) (j : ImgId) (s : State), s.instActive (s.instOfBay b) = true → (s.img b j).status = .running → s.resuming b j = false → s.onCores b j = false →
    exec (.stop b j) s = .next (s.keepPilot (((s.wrote Reg.BAY_IMG_CMD [b, j] 3).setImg b j { s.img b j with status := .stopped, dormant := false }).bayEvent b 1))) ∧
  (∀ (b : BayId) (j : ImgId) (s : State), s.instActive (s.instOfBay b) = true → (s.img b j).status = .running → s.resuming b j = false → s.onCores b j = false →
    exec (.abort b j) s = .next (s.keepPilot ((((s.wrote Reg.BAY_IMG_CMD [b, j] 4).setImg b j
      { s.img b j with status := .aborted, later := 0, dormant := false }).releaseRanges b j).spnSlot b))) ∧
  (∀ (b : BayId) (j : ImgId) (s : State), s.instActive (s.instOfBay b) = true → (s.img b j).status = .running → s.resuming b j = false →
    exec (.abort b j) s = .next (s.keepPilot ((s.wrote Reg.BAY_IMG_CMD [b, j] 4).abortSlot b j))) ∧
  (∀ (b : BayId) (j : ImgId) (s : State), s.instActive (s.instOfBay b) = true → (s.img b j).status ≠ .loading → (s.img b j).status ≠ .running →
    (s.img b j).status ≠ .stopping →
    ∃ t, exec (.unload b j) s = .next t ∧ t.img b j = { refuse := (s.img b j).refuse } ∧ t.reg Reg.BAY_IMG_CMD [b, j] = 5 ∧
      (∀ b' j', 4 * b' + j' ≠ 4 * b.val + j.val → t.img b' j' = s.img b' j') ∧ t.mem = s.mem ∧ t.seqs = s.seqs) ∧
  ∀ (b : BayId) (j : ImgId) (s : State), s.instActive (s.instOfBay b) = true → (s.img b j).status = .running →
    ∃ t, exec (.unload b j) s = .next t ∧ t.img b j = s.img b j ∧ t.fld Reg.ERR_PROD [] F.ERR_PROD_PROD = (s.fld Reg.ERR_PROD [] F.ERR_PROD_PROD + 1) % 2 ^ 32 ∧
      t.reg Reg.BAY_IMG_CMD [b, j] = s.reg Reg.BAY_IMG_CMD [b, j] ∧ t.imgs = s.imgs ∧ t.mem = s.mem

/-- The arithmetic, integer, immediate and special-function classes and the pack instructions without a residue mismatch (R28, R90, R93, R94): the executing threads of the group
receive the result, the others keep VD, the PC advances, and nothing else changes. Results that the manual bounds or leaves open are opaque (logs 18, 19), the model's choice. -/
def Obligations.VectorArithmetic : Prop :=
  (∀ (n : CoreId) (g : SlotId) (s : State) (w : VWord), AtV s n g 0 w → w.op ≠ 0x0B →
    exec (.vectorFpOp n g 0) s = .next (s.setGroup n g ((s.group n g).vdSet w (fun t => (fpResult (s.group n g) w t).1)))) ∧
  (∀ (n : CoreId) (g : SlotId) (s : State) (w : VWord), AtV s n g 0 w → w.op = 0x0B →
    exec (.vectorFpOp n g 0) s = .next (s.setGroup n g (((s.group n g).writeV ((s.group n g).exec w) w.vd (fun t => bf16ToF32 (lowHalf ((s.group n g).opA w t)))).writeV
      ((s.group n g).exec w) (w.vd + 1) (fun t => bf16ToF32 (highHalf ((s.group n g).opA w t)))).next)) ∧
  (∀ (n : CoreId) (g : SlotId) (s : State) (w : VWord), AtV s n g 1 w →
    exec (.vectorIntOp n g 0) s = .next (s.setGroup n g ((s.group n g).vdSet w (fun t => intOp w.op (w.ty == 3) t ((s.group n g).opA w t) ((s.group n g).opB w t))))) ∧
  (∀ (n : CoreId) (g : SlotId) (s : State) (w : VWord), AtV s n g 2 w →
    exec (.vectorImmOp n g 0) s = .next (s.setGroup n g ((s.group n g).vdSet w (fun t => immOp w.op ((s.group n g).vreg w.va t) w.imm)))) ∧
  (∀ (n : CoreId) (g : SlotId) (s : State) (w : VWord), AtV s n g 3 w →
    exec (.specialFunction n g 0) s = .next (s.setGroup n g ((s.group n g).vdSet w (fun t => specialFn w.op ((s.group n g).opA w t))))) ∧
  (∀ (n : CoreId) (g : SlotId) (s : State) (w : VWord), AtV s n g 10 w → 8 ≤ w.op →
    exec (.unpk n g 0) s = .next (s.setGroup n g ((s.group n g).vdSet w (fun t => unpkValue w.op ((s.group n g).opA w t) ((s.group n g).opB w t))))) ∧
  (∀ (n : CoreId) (g : SlotId) (s : State) (w : VWord) (lo hi : DWord) (y : Group), AtV s n g 10 w → w.op < 8 → lo = (s.group n g).exec w &&& 0xFFFFFFFF →
    hi = (s.group n g).exec w &&& ~~~ 0xFFFFFFFF → y = (if lo = 0 then s.group n g else (s.group n g).packBlock (s.group n g) w lo) →
    exec (.pk n g 0) s = .next (s.setGroup n g (if hi = 0 then y else (s.group n g).packBlock y w hi).next))

/-- Compares, predicate logic, moves between predicates and scalars, and the scalar class (R90, R93): whole-register results only when some thread executes. The cross-lane instructions (R99): moves and shuffles, votes, and the folds in ascending thread order. Operand orders of MOV, PANDN and folds are log 25, the model's reading. -/
def Obligations.PredicateScalarLane : Prop :=
  (∀ (n : CoreId) (g : SlotId) (s : State) (w : VWord), AtV s n g 4 w → w.op ≤ 5 →
    ∃ y, exec (.vectorCompare n g) s = .next (s.setGroup n g y) ∧ y = { s.group n g with pc := (s.group n g).pc + 1, p := y.p } ∧ (w.pdR = 0 → y.p = (s.group n g).p) ∧
      (w.pdR ≠ 0 → ∀ t, t < 64 → (y.preg w.pdR).getLsbD t = if ((s.group n g).exec w).getLsbD t then compareOp w.op w.ty ((s.group n g).opA w t) ((s.group n g).opB w t)
        else ((s.group n g).preg w.pdR).getLsbD t)) ∧
  (∀ (n : CoreId) (g : SlotId) (s : State) (w : VWord), AtV s n g 4 w → 0x10 ≤ w.op → w.op ≤ 0x13 →
    exec (.predicateLogic n g) s = .next (s.setGroup n g (if (s.group n g).exec w = 0 then (s.group n g).next
      else ((s.group n g).setP w.pdR (predOp w.op ((s.group n g).preg (w.va % 8)) ((s.group n g).preg (w.vb % 8)))).next))) ∧
  (∀ (n : CoreId) (g : SlotId) (s : State) (w : VWord), AtV s n g 4 w → w.op = 0x14 →
    exec (.s2p n g) s = .next (s.setGroup n g (if (s.group n g).exec w = 0 then (s.group n g).next else ((s.group n g).setP w.pdR ((s.group n g).sreg (w.va % 32))).next))) ∧
  (∀ (n : CoreId) (g : SlotId) (s : State) (w : VWord), AtV s n g 4 w → w.op = 0x15 →
    exec (.p2s n g) s = .next (s.setGroup n g (if (s.group n g).exec w = 0 then (s.group n g).next else ((s.group n g).setS (w.vd % 32) ((s.group n g).preg (w.va % 8))).next))) ∧
  (∀ (n : CoreId) (g : SlotId) (s : State) (w : VWord), AtV s n g 5 w →
    exec (.scalarOp n g) s = .next (s.setGroup n g (if (s.group n g).exec w = 0 then (s.group n g).next else ((s.group n g).setS w.sdS
      (scalarValue w.op ((s.group n g).sreg w.saS) (if w.im then BitVec.signExtend 64 w.imm else (s.group n g).sreg w.sbS))).next))) ∧
  (∀ (n : CoreId) (g : SlotId) (s : State) (w : VWord), AtV s n g 6 w → w.op = 0x00 →
    exec (.shfl n g) s = .next (s.setGroup n g ((s.group n g).vdSet w (fun t => (s.group n g).vreg w.va (((s.group n g).vreg w.vb t).toNat % 64))))) ∧
  (∀ (n : CoreId) (g : SlotId) (s : State) (w : VWord), AtV s n g 6 w → w.op = 0x01 →
    exec (.shflx n g) s = .next (s.setGroup n g ((s.group n g).vdSet w (fun t => (s.group n g).vreg w.va (t ^^^ w.laneX))))) ∧
  (∀ (n : CoreId) (g : SlotId) (s : State) (w : VWord), AtV s n g 6 w → w.op = 0x02 →
    exec (.shflu n g) s = .next (s.setGroup n g ((s.group n g).vdSet w (fun t => (s.group n g).vreg w.va (if w.laneX ≤ t then t - w.laneX else t))))) ∧
  (∀ (n : CoreId) (g : SlotId) (s : State) (w : VWord), AtV s n g 6 w → w.op = 0x03 →
    exec (.shfld n g) s = .next (s.setGroup n g ((s.group n g).vdSet w (fun t => (s.group n g).vreg w.va (if t + w.laneX < 64 then t + w.laneX else t))))) ∧
  (∀ (n : CoreId) (g : SlotId) (s : State) (w : VWord), AtV s n g 6 w → w.op = 0x04 →
    exec (.bcast n g) s = .next (s.setGroup n g ((s.group n g).vdSet w (fun _ => (s.group n g).vreg w.va w.laneX)))) ∧
  (∀ (n : CoreId) (g : SlotId) (s : State) (w : VWord), AtV s n g 6 w → w.op = 0x05 →
    exec (.v2s n g) s = .next (s.setGroup n g ((s.group n g).setS w.sdX (BitVec.ofNat 64 ((s.group n g).vreg w.va w.laneX).toNat)).next)) ∧
  (∀ (n : CoreId) (g : SlotId) (s : State) (w : VWord), AtV s n g 6 w → w.op = 0x06 →
    exec (.s2v n g) s = .next (s.setGroup n g ((s.group n g).vdSet w (fun _ => BitVec.ofNat 32 ((s.group n g).sreg w.sdX).toNat)))) ∧
  (∀ (n : CoreId) (g : SlotId) (s : State) (w : VWord), AtV s n g 6 w → w.op = 0x08 →
    exec (.any n g) s = .next (s.setGroup n g ((s.group n g).setP w.pdX (if (s.group n g).exec w &&& (s.group n g).preg w.psX = 0 then 0 else BitVec.allOnes 64)).next)) ∧
  (∀ (n : CoreId) (g : SlotId) (s : State) (w : VWord), AtV s n g 6 w → w.op = 0x09 →
    exec (.all n g) s = .next (s.setGroup n g ((s.group n g).setP w.pdX (if (s.group n g).exec w &&& ~~~ (s.group n g).preg w.psX = 0 then BitVec.allOnes 64 else 0)).next)) ∧
  (∀ (n : CoreId) (g : SlotId) (s : State) (w : VWord), AtV s n g 6 w → w.op = 0x0A →
    exec (.ballot n g) s = .next (s.setGroup n g ((s.group n g).setS w.sdX ((s.group n g).exec w &&& (s.group n g).preg w.psX)).next)) ∧
  (∀ (n : CoreId) (g : SlotId) (s : State) (w : VWord) (v : Word), AtV s n g 6 w → w.op = 0x10 →
    v = foldOf (foldElem 0x10 w) ((threads ((s.group n g).exec w)).map ((s.group n g).vreg w.va)) →
    exec (.radd n g 0) s = .next (s.setGroup n g ((s.group n g).setS w.sdX (BitVec.ofNat 64 (if w.ty = 0 then toF32 (f32 v) else v).toNat)).next)) ∧
  (∀ (n : CoreId) (g : SlotId) (s : State) (w : VWord) (v : Word), AtV s n g 6 w → w.op = 0x11 →
    v = foldOf (foldElem 0x11 w) ((threads ((s.group n g).exec w)).map ((s.group n g).vreg w.va)) →
    exec (.rmin n g) s = .next (s.setGroup n g ((s.group n g).setS w.sdX (BitVec.ofNat 64 (if w.ty = 0 then toF32 (f32 v) else v).toNat)).next)) ∧
  (∀ (n : CoreId) (g : SlotId) (s : State) (w : VWord) (v : Word), AtV s n g 6 w → w.op = 0x12 →
    v = foldOf (foldElem 0x12 w) ((threads ((s.group n g).exec w)).map ((s.group n g).vreg w.va)) →
    exec (.rmax n g) s = .next (s.setGroup n g ((s.group n g).setS w.sdX (BitVec.ofNat 64 (if w.ty = 0 then toF32 (f32 v) else v).toNat)).next))

/-- A residue mismatch of a checked instruction (Table NM-9, R28, R415): replayed without recurring it gives every group and memory the same result as no mismatch; with
executing threads the replay is counted and one corrected record written, and a second mismatch parks the group with fault 0x09. That a mismatch is an operand is log 15, the model's choice. -/
def Obligations.VectorReplay : Prop :=
  (∀ (n : CoreId) (g : SlotId) (s t : State) (c : Fin 3 → Instr), c ∈ [Instr.vectorFpOp n g, Instr.vectorIntOp n g, Instr.vectorImmOp n g, Instr.specialFunction n g,
      Instr.radd n g, Instr.pk n g, Instr.unpk n g] → exec (c 0) s = .next t →
    ∃ u, exec (c 1) s = .next u ∧ u.groups = t.groups ∧ u.mem = t.mem ∧ u.seqs = t.seqs) ∧
  (∀ (n : CoreId) (g : SlotId) (s : State) (w : VWord), AtV s n g 3 w → (s.group n g).exec w ≠ 0 →
    ∃ u, exec (.specialFunction n g 1) s = .next u ∧
      u.fld Reg.CST_ARITH_CNT [n] F.CST_ARITH_CNT_VEC_REPLAY = min 4095 (s.fld Reg.CST_ARITH_CNT [n] F.CST_ARITH_CNT_VEC_REPLAY + 1) ∧
      u.fld Reg.ERR_PROD [] F.ERR_PROD_PROD = (s.fld Reg.ERR_PROD [] F.ERR_PROD_PROD + 1) % 2 ^ 32) ∧
  (∀ (n : CoreId) (g : SlotId) (s : State) (w : VWord), AtV s n g 3 w → (s.group n g).exec w ≠ 0 →
    ∃ u, exec (.specialFunction n g 2) s = .next u ∧ (u.group n g).status = .parked ∧ (u.group n g).fault = 9 ∧ (u.group n g).pc = (s.group n g).pc ∧
      (u.group n g).v = (s.group n g).v ∧ (u.group n g).fmask = (s.group n g).exec w)

/-- Loads, stores and Shelf fills of thread groups whose addresses all pass R102's checks (R100-R104, R116, R125, R126, R171): every part is read or asked for, stores are made in ascending thread
order, and a fill feeds the loads that wait for it; a store with writes sent outside the device holds its group at the store until they are answered. That an access runs its whole coherence transaction
at once is log 8, and that the store holds its group log 89, the model's choices. -/
def Obligations.GroupLoadsStores : Prop :=
  (∀ (n : CoreId) (g : SlotId) (s u t : State) (c : Instr) (op : Nat) (w : VWord) (as : List Access) (ps : List LoadPart), (op, c) ∈ [(0, Instr.ld n g), (2, Instr.lds n g)] →
    AtV s n g 7 w → w.op = op → (s.group n g).exec w ≠ 0 →
    s.checkAddrs n w.spaceM w.bytes .read false (accesses (s.group n g) ((s.group n g).exec w) w.spaceM w.sbM w.va w.offset w.unif) = some (u, as, []) →
    (u.countReplays n w.spaceM as).loadParts n g w.bytes as = some (t, ps) →
    exec c s = .next (s.keepPilot ((t.setGroup n g { t.group n g with load := some { word := w, uniform := w.unif, parts := ps } }).finishLoad n g))) ∧
  (∀ (n : CoreId) (g : SlotId) (s : State) (c : Instr) (op : Nat) (w : VWord), (op, c) ∈ [(0, Instr.ld n g), (2, Instr.lds n g)] →
    AtV s n g 7 w → w.op = op → (s.group n g).exec w = 0 → w.ordM ≠ 1 → exec c s = .next (s.setGroup n g (s.group n g).next)) ∧
  (∀ (n : CoreId) (g : SlotId) (s u t : State) (w : VWord) (as : List Access), AtV s n g 7 w → w.op = 1 → (s.group n g).exec w ≠ 0 →
    (w.ordM = 2 → s.widen n w.scopeM < 6) → w.unif = false →
    s.checkAddrs n w.spaceM w.bytes .write false (accesses (s.group n g) ((s.group n g).exec w) w.spaceM w.sbM w.va w.offset w.unif) = some (u, as, []) →
    (u.countReplays n w.spaceM as).storeParts n g (s.group n g) w as = some t →
    exec (.st n g) s = .next (s.keepPilot (t.setGroup n g (if (t.group n g).sent = [] then { (t.group n g).next with wrote := true } else { t.group n g with storing := true })))) ∧
  (∀ (n : CoreId) (g : SlotId) (s u t : State) (w : VWord) (as bs : List Access), AtV s n g 7 w → w.op = 1 → (s.group n g).exec w ≠ 0 →
    (w.ordM = 2 → s.widen n w.scopeM < 6) → w.unif = true →
    s.checkAddrs n w.spaceM w.bytes .write false (accesses (s.group n g) ((s.group n g).exec w) w.spaceM w.sbM w.va w.offset w.unif) = some (u, as, []) →
    bs = as.map (fun a => { a with thread := (threads ((s.group n g).exec w)).getLastD 0 }) →
    (u.countReplays n w.spaceM bs).storeParts n g (s.group n g) w bs = some t →
    exec (.st n g) s = .next (s.keepPilot (t.setGroup n g (if (t.group n g).sent = [] then { (t.group n g).next with wrote := true } else { t.group n g with storing := true })))) ∧
  (∀ (n : CoreId) (l : Nat) (s u : State) (c : CupLine), (s.shelf n).fills.find? (fun f => f.1 == l) = some (l, false) →
    (s.countMiss (clusterOf n) l false).cupRead (clusterOf n) l (((((List.range 8).filterMap (fun g => (s.group n g).load)).flatMap (·.parts)).find?
      (fun p => p.got.isNone && p.pa / 128 == l && !p.ext)).bind (·.pin)) = some (u, c) →
    exec (.shelfFill n l) s = .next (s.keepPilot ((u.setShelf n { lines := shelfInstall (u.shelf n).lines ⟨l, c.data, c.poison⟩, fills := (u.shelf n).fills.filter (fun f => f.1 != l) }).feedLoads n (fun p => !p.ext && p.pa / 128 == l) (fun p k => ShelfLine.part ⟨l, c.data, c.poison⟩ p.pa k))))

/-- The eight atomics with every address checked (R107, R108, R162): the operations on Pantries at once in ascending thread order, the others sent to their homes, one for each
address where the threads combine. That an atomic in a Pantry acts at once and the others go to their homes follows logs 8 and 35, the model's choices. -/
def Obligations.GroupAtomics : Prop :=
  ∀ (n : CoreId) (g : SlotId) (s u t : State) (c : Instr) (op : Nat) (w : VWord) (as here away : List Access) (vs : List (Nat × Word)) (l : MemWait),
    (op, c) ∈ [(0, Instr.atomAdd n g 0), (1, Instr.atomMin n g), (2, Instr.atomMax n g), (3, Instr.atomAnd n g), (4, Instr.atomOr n g), (5, Instr.atomXor n g),
      (6, Instr.atomXchg n g), (7, Instr.atomCas n g)] →
    AtV s n g 8 w → w.op = op → (s.group n g).exec w ≠ 0 → (2 ≤ w.ordA → s.widen n w.scopeA < 6) →
    s.checkAddrs n w.spaceA 4 .both true (accesses (s.group n g) ((s.group n g).exec w) w.spaceA w.sbA w.va 0 false) = some (u, as, []) →
    here = as.filter (fun a => !hasHome a.pa) → away = as.filter (fun a => hasHome a.pa) → (∀ a ∈ here, u.poisoned a.pa 4 = false) →
    ((u.when (decide (op ≤ 5)) (fun u => u.bump Reg.CST_VEC_CNT [n] F.CST_VEC_CNT_ATOM_COMB (as.length - (byAddress as).length))).countReplays n w.spaceA as).atomPantry
      (s.group n g) w here = (t, vs) →
    l = { word := w, parts := as.map (fun a => { thread := a.thread, va := a.va, pa := a.pa }), left := (atomOps op away).length, vals := vs } →
    exec c s = .next (s.keepPilot (((atomOps op away).zipIdx.foldl (fun s' e => s'.sendAtom n g (s.group n g) w e.2 e.1)
      (t.setGroup n g { t.group n g with atom := some l })).finishAtom n g))

/-- LDS by Pantry offset (R100, R101): the scalar register takes the 8 bytes at base plus offset, least significant first, and memory stays. -/
def Obligations.PantryScalarLoad : Prop :=
  ∀ (n : CoreId) (g : SlotId) (s : State) (w : VWord) (a : Nat), AtV s n g 7 w → w.op = 2 → w.spaceM = false → w.ordM ≠ 1 → (s.group n g).exec w ≠ 0 →
    a = threadAddr false ((s.group n g).sreg w.sbM) 0 w.offset → a < pantrySize → a % 8 = 0 → s.pantryPoison n a 8 = false →
    ∃ t, exec (.lds n g) s = .next t ∧ (t.group n g).sreg (w.vd % 32) = BitVec.ofNat 64 (s.pantryNat n a 8) ∧ (t.group n g).pc = (s.group n g).pc + 1 ∧
      (t.group n g).v = (s.group n g).v ∧ (t.group n g).p = (s.group n g).p ∧ (∀ r, r ≠ w.vd % 32 → (t.group n g).sreg r = (s.group n g).sreg r) ∧ t.mem = s.mem ∧ t.seqs = s.seqs

/-- Control transfers and the mask stack of a group (R92, R95-R98, R114): each form of each instruction that does not fault. Small points are log 34, the model's readings. -/
def Obligations.GroupControl : Prop :=
  (∀ (n : CoreId) (g : SlotId) (s : State) (w : VWord), AtV s n g 9 w → w.op = 0x00 → exec (.nop n g) s = .next (s.setGroup n g (s.group n g).next)) ∧
  (∀ (n : CoreId) (g : SlotId) (s : State) (w : VWord), AtV s n g 9 w → w.op = 0x01 →
    exec (.jmp n g) s = .next (s.keepPilot (s.transfer n g (s.group n g) (s.group n g) w.target))) ∧
  (∀ (n : CoreId) (g : SlotId) (s : State) (w : VWord), AtV s n g 9 w → w.op = 0x02 →
    exec (.brnz n g) s = .next (s.keepPilot (if (s.group n g).sreg w.saC = 0 then s.setGroup n g (s.group n g).next
      else s.transfer n g (s.group n g) (s.group n g) w.target))) ∧
  (∀ (n : CoreId) (g : SlotId) (s : State) (w : VWord), AtV s n g 9 w → w.op = 0x03 →
    exec (.brz n g) s = .next (s.keepPilot (if (s.group n g).sreg w.saC = 0 then s.transfer n g (s.group n g) (s.group n g) w.target
      else s.setGroup n g (s.group n g).next))) ∧
  (∀ (n : CoreId) (g : SlotId) (s : State) (w : VWord), AtV s n g 9 w → w.op = 0x04 → (s.group n g).stack.length < 16 → (s.group n g).active &&& (s.group n g).preg w.pkC = 0 →
    exec (.split n g) s = .next (s.setGroup n g { s.group n g with stack := ⟨.split, (s.group n g).active, 0, 0, w.rpc⟩ :: (s.group n g).stack, active := (s.group n g).active &&& ~~~ ((s.group n g).preg w.pkC), pc := (s.group n g).pc + 1 })) ∧
  (∀ (n : CoreId) (g : SlotId) (s : State) (w : VWord), AtV s n g 9 w → w.op = 0x04 → (s.group n g).stack.length < 16 → (s.group n g).active &&& (s.group n g).preg w.pkC ≠ 0 →
    exec (.split n g) s = .next (s.keepPilot (s.transfer n g (s.group n g) { s.group n g with stack := ⟨.split, (s.group n g).active, (s.group n g).active &&& ~~~ ((s.group n g).preg w.pkC), (s.group n g).pc + 1, w.rpc⟩ :: (s.group n g).stack, active := (s.group n g).active &&& (s.group n g).preg w.pkC } w.target))) ∧
  (∀ (n : CoreId) (g : SlotId) (s : State) (w : VWord) (e : MaskEntry) (r : List MaskEntry), AtV s n g 9 w → w.op = 0x05 → (s.group n g).stack = e :: r → e.kind = .split →
    e.rpc = (s.group n g).pc → e.pend &&& (s.group n g).live ≠ 0 →
    exec (.join n g) s = .next (s.setGroup n g { s.group n g with stack := { e with pend := 0 } :: r, active := e.pend &&& (s.group n g).live, pc := e.ppc })) ∧
  (∀ (n : CoreId) (g : SlotId) (s : State) (w : VWord) (e : MaskEntry) (r : List MaskEntry), AtV s n g 9 w → w.op = 0x05 → (s.group n g).stack = e :: r → e.kind = .split →
    e.rpc = (s.group n g).pc → e.pend &&& (s.group n g).live = 0 →
    exec (.join n g) s = .next (s.setGroup n g ((s.group n g).pop e r))) ∧
  (∀ (n : CoreId) (g : SlotId) (s : State) (w : VWord), AtV s n g 9 w → w.op = 0x06 → (s.group n g).stack.length < 16 →
    exec (.lpush n g) s = .next (s.setGroup n g { s.group n g with stack := ⟨.loop, (s.group n g).active, 0, 0, w.rpc⟩ :: (s.group n g).stack, pc := (s.group n g).pc + 1 })) ∧
  (∀ (n : CoreId) (g : SlotId) (s : State) (w : VWord) (e : MaskEntry) (r : List MaskEntry) (a : DWord), AtV s n g 9 w → w.op = 0x07 → (s.group n g).stack = e :: r → e.kind = .loop →
    a = (s.group n g).active &&& ~~~ ((s.group n g).preg w.pkC) →
    exec (.brk n g) s = .next (s.setGroup n g { s.group n g with active := a, pc := if a = 0 then e.rpc else (s.group n g).pc + 1 })) ∧
  (∀ (n : CoreId) (g : SlotId) (s : State) (w : VWord) (e : MaskEntry) (r : List MaskEntry) (a : DWord), AtV s n g 9 w → w.op = 0x08 → (s.group n g).stack = e :: r → e.kind = .loop →
    a = (s.group n g).active &&& (s.group n g).preg w.pkC →
    exec (.loopif n g) s = .next (s.keepPilot (if a = 0 then s.setGroup n g { s.group n g with active := a, pc := e.rpc }
      else s.transfer n g (s.group n g) { s.group n g with active := a } w.target))) ∧
  (∀ (n : CoreId) (g : SlotId) (s : State) (w : VWord) (e : MaskEntry) (r : List MaskEntry), AtV s n g 9 w → w.op = 0x09 → (s.group n g).stack = e :: r → e.kind = .loop →
    e.rpc = (s.group n g).pc →
    exec (.lpop n g) s = .next (s.setGroup n g ((s.group n g).pop e r))) ∧
  (∀ (n : CoreId) (g : SlotId) (s : State) (w : VWord) (e : MaskEntry) (r : List MaskEntry), AtV s n g 9 w → w.op = 0x0A → (s.group n g).stack = e :: r → e.kind = .split →
    e.pend &&& (s.group n g).live ≠ 0 →
    exec (.waitsib n g) s = .next (s.setGroup n g { s.group n g with stack := { e with pend := (s.group n g).active, ppc := (s.group n g).pc + 1 } :: r, active := e.pend &&& (s.group n g).live, pc := e.ppc, spin := 0 })) ∧
  (∀ (n : CoreId) (g : SlotId) (s : State) (w : VWord), AtV s n g 9 w → w.op = 0x0A → (∀ e r, (s.group n g).stack = e :: r → e.kind ≠ .split ∨ e.pend &&& (s.group n g).live = 0) →
    exec (.waitsib n g) s = .next (s.setGroup n g { (s.group n g).next with spin := 0 }))

/-- Waiting, signalling and ending of groups (R62, R89, R98, R110-R113, R116): WTALLY and its end, SIGT, FENCE, GBAR, EXIT, the end of a group, and TRAP. The host's commands to a parked group and writes of its state (R117, R118), by a writer whose path is open and who reaches the core, with the cluster awake. Small points are logs 34 and 35, the model's readings. -/
def Obligations.GroupWaits : Prop :=
  (∀ (n : CoreId) (g : SlotId) (s : State) (w : VWord), AtV s n g 9 w → w.op = 0x0B →
    exec (.wtally n g) s = .next (s.setGroup n g { s.group n g with status := .waitTally w.tallyC (BitVec.ofNat 32 ((s.group n g).sreg w.saC).toNat) w.scopeC, spin := 0 })) ∧
  (∀ (n : CoreId) (g : SlotId) (s : State) (i scope : Nat) (target : Word), (s.group n g).status = .waitTally i target scope → reached (s.tally n i) target = true →
    exec (.wtallyTargetReached n g) s = .next (s.keepPilot (((s.audit n i scope).acquire n scope).setGroup n g { (s.group n g).next with status := .ready }))) ∧
  (∀ (n : CoreId) (g : SlotId) (s : State) (w : VWord), AtV s n g 9 w → w.op = 0x0C → s.sameBay n w.coreC = true → s.frozenCore w.coreC = none → s.widen n w.scopeC < 6 →
    exec (.sigt n g) s = .next (s.keepPilot ((s.setGroup n g (s.group n g).next).addTally w.coreC w.tallyC { amount := w.amountC, kind := 1, scope := w.scopeC, core := n }))) ∧
  (∀ (n : CoreId) (g : SlotId) (s : State) (w : VWord), AtV s n g 9 w → w.op = 0x0D → (w.relC = true → s.widen n w.scopeC < 6) →
    exec (.groupFence n g) s = .next (s.keepPilot (if w.acqC then (s.setGroup n g (s.group n g).next).acquire n w.scopeC else s.setGroup n g (s.group n g).next))) ∧
  (∀ (n : CoreId) (g : SlotId) (s : State) (w : VWord), AtV s n g 9 w → w.op = 0x0E → (s.group n g).active = (s.group n g).live →
    (∀ h ∈ s.kernelSlots n (s.group n g).kernel, ∀ id, (s.group n h).status = .waitBar id → id = w.idC) →
    exec (.gbar n g) s = .next (s.keepPilot ((s.setGroup n g { s.group n g with status := .waitBar w.idC, spin := 0 }).openBar n (s.group n g).kernel))) ∧
  (∀ (n : CoreId) (g : SlotId) (s : State) (w : VWord) (y : Group), AtV s n g 9 w → w.op = 0x0F →
    y = { s.group n g with live := (s.group n g).live &&& ~~~ (s.group n g).exec w, active := (s.group n g).active &&& ~~~ (s.group n g).exec w } →
    exec (.exit n g) s = .next (s.setGroup n g (if y.live = 0 then y else if y.active = 0 then y.leave else y.next))) ∧
  (∀ (n : CoreId) (g : SlotId) (s : State), (s.group n g).status = .ready → (s.group n g).live = 0 → (s.group n g).sent = [] → (s.group n g).load = none → (s.group n g).atom = none →
    exec (.groupEnd n g) s = .next (s.keepPilot (s.endGroup n g))) ∧
  (∀ (n : CoreId) (g : SlotId) (s : State) (w : VWord), AtV s n g 9 w → w.op = 0x10 → (s.group n g).exec w ≠ 0 →
    ∃ t, exec (.trap n g) s = .next t ∧ (t.group n g).status = .parked ∧ (t.group n g).fault = 0x0B ∧ (t.group n g).trapCode = w.codeC ∧ (t.group n g).pc = (s.group n g).pc ∧
      (t.group n g).fmask = (s.group n g).exec w ∧ (t.group n g).v = (s.group n g).v ∧ t.mem = s.mem ∧
      t.fld Reg.ERR_PROD [] F.ERR_PROD_PROD = (s.fld Reg.ERR_PROD [] F.ERR_PROD_PROD + 1) % 2 ^ 32) ∧
  (∀ (w : Writer) (n : CoreId) (g : SlotId) (s : State), s.closedFor w = false → s.mayCore w n = true → s.gated (clusterOf n) = false → (s.group n g).status = .parked →
    exec (.resume w n g) s = .next (s.keepPilot (((s.wantWake (clusterOf n)).wrote Reg.CST_GRP_CTL [n, g] 1).setGroup n g
      { s.group n g with spin := 0, status := .ready, fault := 0 }))) ∧
  (∀ (w : Writer) (n : CoreId) (g : SlotId) (s : State), s.closedFor w = false → s.mayCore w n = true → s.gated (clusterOf n) = false → (s.group n g).status = .parked →
    exec (.resumeNext w n g) s = .next (s.keepPilot (((s.wantWake (clusterOf n)).wrote Reg.CST_GRP_CTL [n, g] 2).setGroup n g
      { s.group n g with pc := (s.group n g).pc + 1, spin := 0, status := .ready, fault := 0 }))) ∧
  (∀ (w : Writer) (n : CoreId) (g : SlotId) (s : State), s.closedFor w = false → s.mayCore w n = true → s.gated (clusterOf n) = false → (s.group n g).status = .parked →
    exec (.discard w n g) s = .next (s.keepPilot ((((s.wantWake (clusterOf n)).wrote Reg.CST_GRP_CTL [n, g] 3).setGroup n g
      { s.group n g with spin := 0, status := .ready, fault := 0, live := 0, active := 0 }).endGroup n g))) ∧
  (∀ (w : Writer) (n : CoreId) (off : Nat) (v : DWord) (s : State) (x : Group), s.closedFor w = false → s.mayCore w n = true → s.gated (clusterOf n) = false →
    (s.wantWake (clusterOf n)).mayDebug w n = true → (s.group n (slotOfOffset off)).status = .parked → (s.group n (slotOfOffset off)).write (slotOfOffset off) off v = some x →
    exec (.groupStateWrite w n off v) s = .next (s.keepPilot ((s.wantWake (clusterOf n)).setGroup n (slotOfOffset off) x))) ∧
  (∀ (w : Writer) (n : CoreId) (g : SlotId) (s : State), s.closedFor w = false → s.mayCore w n = true → s.gated (clusterOf n) = false → (s.group n g).status ≠ .parked →
    ∃ t, exec (.resume w n g) s = .next t ∧ t.groups = s.groups ∧ t.fld Reg.ERR_PROD [] F.ERR_PROD_PROD = (s.fld Reg.ERR_PROD [] F.ERR_PROD_PROD + 1) % 2 ^ 32)

/-- Granules, TLBs and range operations (R131, R136-R138): a command taken, a line of a range operation done, and the ends. Granting and revoking ways (R140, R141): a command that no refusal of Table MH-8 meets, from the manager, and its end. The order of the pin refusals, and what waits in owner ordering, are logs 36 and 39, the model's readings. -/
def Obligations.LarderCommands : Prop :=
  (∀ (w : Writer) (gr : Fin 512) (d : DieId) (s : State), isManager w = true → s.larderCtl.qmap = none → s.quadrant = true →
    exec (.qmapCmd w gr d) s = .next (((s.wrote Reg.LRD_QMAP_CMD [] (gr + 512 * d)).setCtl (fun c => { c with qmap := some (gr, d) })).setFld Reg.LRD_MH_STAT [] F.LRD_MH_STAT_QMAP_BUSY 1)) ∧
  (∀ (s u : State) (g d : Nat) (ls : List Nat), s.order = 0 → s.larderCtl.qmap = some (g, d) → ls = (s.larder.map (·.1)).filter (inGranule g) →
    s.homes.any (fun e => inGranule g e.1 && !e.2.running.isEmpty) = false → ls.any s.heldLine = false →
    u = ((((ls.foldl (fun s l => s.evict l) s).shelvesDrop (inGranule g)).setFld Reg.LRD_QMAP [g / 32] ⟨2 * (g % 32) + 1, 2 * (g % 32)⟩ d).setCtl (fun c => { c with qmap := none })).setFld Reg.LRD_MH_STAT [] F.LRD_MH_STAT_QMAP_BUSY 0 →
    exec .qmapChangeEnd s = .next (s.keepPilot (((u.homes.map (·.1)).filter (inGranule g)).foldl (fun s l => s.wake l) u))) ∧
  (∀ (g : ClusterId) (i : InstId) (va : BitVec 48) (s u : State) (pa : Nat) (leaf : DWord), s.translate g i va.toNat .read = .ok u pa leaf →
    exec (.tlbWalk g i va true false) s = .next (s.keepPilot u)) ∧
  (∀ (g : ClusterId) (i : InstId) (va : BitVec 48) (rd : Bool) (s u : State) (pa : Nat) (leaf : DWord), s.translate g i va.toNat (if rd then .both else .write) = .ok u pa leaf →
    exec (.tlbWalk g i va rd true) s = .next (s.keepPilot u)) ∧
  (∀ (w : Writer) (i : Fin 64) (size : Fin 4) (vpn : BitVec 36) (s u : State), isManager w = true → u = s.tdiBreak i → u.bit Reg.LRD_TLB_STAT [] F.LRD_TLB_STAT_BUSY = false → i.val ≤ 32 →
    exec (.tlbInv w i size vpn) s = .next (s.keepPilot (((u.wrote Reg.LRD_TLB_INV [] (vpn.toNat + 2 ^ 54 * size + 2 ^ 56 * i)).tlbDrop i size vpn.toNat).setFld Reg.LRD_TLB_STAT [] F.LRD_TLB_STAT_BUSY 1))) ∧
  (∀ s : State, exec .tlbInvEnd s = .next (s.setFld Reg.LRD_TLB_STAT [] F.LRD_TLB_STAT_BUSY 0)) ∧
  (∀ (w : Writer) (i : InstId) (s : State) (c : Instr) (op va len : Nat), (op, c) ∈ [(1, Instr.prefetch w i), (2, Instr.flush w i), (3, Instr.invalidate w i), (4, Instr.rangeDiscard w i)] →
    s.closedFor w = false → mayRange w i = true → s.rangeOps.get none i = none → va = s.fld Reg.LRD_RNG_ADDR [i] F.LRD_RNG_ADDR_VA → len = s.fld Reg.LRD_RNG_LEN [i] F.LRD_RNG_LEN_LEN →
    va % 128 = 0 → len % 128 = 0 → len ≠ 0 →
    exec c s = .next ({ s.wrote Reg.LRD_RNG_CMD [i] op with rangeOps := s.rangeOps.set none i (some ⟨op, va, len⟩) }.setFld Reg.LRD_RNG_STAT [i] F.LRD_RNG_STAT_BUSY 1)) ∧
  (∀ (i : InstId) (s u : State) (r : RangeOp), s.rangeOps.get none i = some r → s.rangeAct i r.op r.va = .done u → 128 < r.left →
    exec (.rangeLine i false) s = .next (s.keepPilot { u with rangeOps := u.rangeOps.set none i (some ⟨r.op, (r.va + 128) % 2 ^ 48, r.left - 128⟩) })) ∧
  (∀ (i : InstId) (s u : State) (r : RangeOp), s.rangeOps.get none i = some r → s.rangeAct i r.op r.va = .done u → r.left ≤ 128 →
    exec (.rangeLine i false) s = .next (s.keepPilot (u.rangeOver i r.op 0 r.va))) ∧
  (∀ (w : Writer) (way : Fin 16) (i : Fin 64) (s u : State) (c : Instr) (op : Nat), (op, c) ∈ [(1, Instr.grantPin w way i), (2, Instr.grantLocker w way i)] →
    isManager w = true → u = s.tdiBreak i → u.larderCtl.pin = none → u.pinRefusal op way i = 0 →
    exec c s = .next (s.keepPilot (((u.wrote Reg.LRD_PIN_CMD [] (i + 256 * way + 4096 * op)).setCtl (fun c => { c with pin := some ⟨op, way, i⟩ })).setFld Reg.LRD_MH_STAT [] F.LRD_MH_STAT_PIN_BUSY 1))) ∧
  (∀ (w : Writer) (way : Fin 16) (i : Fin 64) (s u : State), isManager w = true → u = s.tdiBreak i → u.larderCtl.pin = none → u.pinRefusal 3 way i = 0 →
    (u.wrote Reg.LRD_PIN_CMD [] (i + 256 * way + 12288)).unitOfWay way = none →
    exec (.revoke w way i) s = .next (s.keepPilot (((u.wrote Reg.LRD_PIN_CMD [] (i + 256 * way + 12288)).setCtl (fun c => { c with pin := some ⟨3, way, u.wayOwner way⟩ })).setFld Reg.LRD_MH_STAT [] F.LRD_MH_STAT_PIN_BUSY 1))) ∧
  (∀ (s u : State) (p : PinCmd), s.order = 0 → s.larderCtl.pin = some p → p.op = 1 →
    (s.wayLines p.way).any (fun e => e.2.red || e.2.refetch || !(s.homeLine e.1).running.isEmpty) = false →
    u = (((s.wayLines p.way).foldl (fun s e => s.evict e.1) s).setCtl (fun c => { c with pin := none })).setFld Reg.LRD_MH_STAT [] F.LRD_MH_STAT_PIN_BUSY 0 →
    exec .pinCmdEnd s = .next (s.keepPilot (u.setPin F.LRD_PIN_CFG_WAYS p.way p.inst true))) ∧
  (∀ (w : Writer) (way : Fin 16) (i : Fin 64) (s u v : State) (k : Nat), isManager w = true → u = s.tdiBreak i → u.larderCtl.pin = none → u.pinRefusal 3 way i = 0 →
    (u.wrote Reg.LRD_PIN_CMD [] (i + 256 * way + 12288)).unitOfWay way = some k →
    v = ((u.wrote Reg.LRD_PIN_CMD [] (i + 256 * way + 12288)).setCtl (fun c => { c with pin := some ⟨4, way, u.wayOwner way⟩ })).setFld Reg.LRD_MH_STAT [] F.LRD_MH_STAT_PIN_BUSY 1 →
    exec (.revoke w way i) s = .next (s.keepPilot ((((v.setFld Reg.LRD_MH_STAT [] F.LRD_MH_STAT_UNITS (v.units - 1)).setFld Reg.LRD_LOCKER_MAP [] ⟨4 * (v.units - 1) + 3, 4 * (v.units - 1)⟩ 0).setPin F.LRD_PIN_CFG_WAYS way (u.wayOwner way) false).setPin F.LRD_PIN_CFG_LOCKER way (u.wayOwner way) false))) ∧
  (∀ (s u : State) (p : PinCmd), s.order = 0 → s.larderCtl.pin = some p → p.op = 2 →
    (s.wayLines p.way).any (fun e => e.2.red || e.2.refetch || !(s.homeLine e.1).running.isEmpty) = false →
    u = (((s.wayLines p.way).foldl (fun s e => s.evict e.1) s).setCtl (fun c => { c with pin := none })).setFld Reg.LRD_MH_STAT [] F.LRD_MH_STAT_PIN_BUSY 0 →
    exec .pinCmdEnd s = .next (s.keepPilot (((({ u with lockerLost := u.lockerLost.filter (fun e => e.1 / 4 != u.units) }.setPin F.LRD_PIN_CFG_WAYS p.way p.inst true).setPin F.LRD_PIN_CFG_LOCKER p.way p.inst true).setFld Reg.LRD_LOCKER_MAP [] ⟨4 * u.units + 3, 4 * u.units⟩ p.way).setFld Reg.LRD_MH_STAT [] F.LRD_MH_STAT_UNITS (u.units + 1)))) ∧
  (∀ (s : State) (p : PinCmd), s.order = 0 → s.larderCtl.pin = some p → p.op = 4 →
    (s.wayLines p.way).any (fun e => e.2.red || e.2.refetch || !(s.homeLine e.1).running.isEmpty) = false →
    exec .pinCmdEnd s = .next (s.keepPilot (((((s.wayLines p.way).filter (fun e => isLocker e.1)).foldl (fun s e => s.dropLine e.1) s).setCtl (fun c => { c with pin := none })).setFld Reg.LRD_MH_STAT [] F.LRD_MH_STAT_PIN_BUSY 0))) ∧
  (∀ (s u : State) (p : PinCmd), s.order = 0 → s.larderCtl.pin = some p → p.op = 3 →
    (s.wayLines p.way).any (fun e => e.2.red || e.2.refetch || !(s.homeLine e.1).running.isEmpty) = false →
    u = (((s.wayLines p.way).foldl (fun s e => s.evict e.1) s).setCtl (fun c => { c with pin := none })).setFld Reg.LRD_MH_STAT [] F.LRD_MH_STAT_PIN_BUSY 0 →
    exec .pinCmdEnd s = .next (s.keepPilot (u.setPin F.LRD_PIN_CFG_WAYS p.way p.inst false))) ∧
  (∀ (w : Writer) (way : Fin 16) (i : Fin 64) (s u : State) (c : Instr) (op r : Nat), (op, c) ∈ [(1, Instr.grantPin w way i), (2, Instr.grantLocker w way i), (3, Instr.revoke w way i)] →
    isManager w = true → u = s.tdiBreak i → u.larderCtl.pin = none → r = u.pinRefusal op way i → r ≠ 0 →
    ∃ t, exec c s = .next t ∧ t.larderCtl = u.larderCtl ∧ t.fld Reg.LRD_MH_STAT [] F.LRD_MH_STAT_REFUSE = r ∧
      t.fld Reg.ERR_PROD [] F.ERR_PROD_PROD = (u.fld Reg.ERR_PROD [] F.ERR_PROD_PROD + 1) % 2 ^ 32 ∧ t.larder = u.larder)

/-- The eight requests arriving at their home (R150, R151, R158, R161): charged to the Bay, then put to wait for the line's fill, carried on at once on a resident line, held behind the line's other requests, or,
for a reduction that finds the slice's queue full, held for admission and counted. Evictions, snoops and their responses (R148, R149, R153; Tables CO-4 and CO-5): what a Cupboard or a home that takes the message does. Which requests of a line run together is log 38, and that every message is a command of its own is log 8: the model's choices. -/
def Obligations.CoherenceRequests : Prop :=
  (∀ (g : ClusterId) (who : Agent) (l tag : Nat) (data : Line) (mask : BitVec 128) (poison : Bool) (op : RedOp) (at_ : AtomOp) (c : Instr) (r : CohReq) (s u : State),
    (c, r) ∈ [(Instr.rds g l, { kind := .rds, who := .cluster g, line := l }), (Instr.rdu g l, { kind := .rdu, who := .cluster g, line := l }),
      (Instr.upg g l, { kind := .upg, who := .cluster g, line := l }), (Instr.wru g l data, { kind := .wru, who := .cluster g, line := l, data := data }),
      (Instr.rdn who l tag, { kind := .rdn, who := who, line := l, tag := tag }),
      (Instr.wrn who l tag data mask poison, { kind := .wrn, who := who, line := l, tag := tag, data := data, mask := mask, poison := poison }),
      (Instr.red who l tag op, { kind := .red, who := who, line := l, tag := tag, red := some op }),
      (Instr.atm who l tag at_, { kind := .atm, who := who, line := l, tag := tag, atm := some at_ })] →
    u = s.countLrd (s.bayOfAgent r.who) r.charge →
    (u.mayStart r = true → u.order ≠ 1 → u.forwards r = false → u.larderLine l = none →
      exec c s = .next (s.keepPilot (u.setHome l { u.homeLine l with running := (u.homeLine l).running ++ [{ req := r, filling := true }] }))) ∧
    (∀ v, u.mayStart r = true → u.order ≠ 1 → u.forwards r = false → (u.larderLine l).isSome = true →
      (u.setHome l { u.homeLine l with running := (u.homeLine l).running ++ [{ req := r }] }).proceed { req := r } = some v → exec c s = .next (s.keepPilot v)) ∧
    (u.mayStart r = true → u.order = 1 → exec c s = .next (s.keepPilot ((u.setHome l { u.homeLine l with running := (u.homeLine l).running ++ [{ req := r, acking := true }] }).send (.fwd r)))) ∧
    (u.mayStart r = false → u.queueFull r = false → exec c s = .next (s.keepPilot (u.setHome l { u.homeLine l with waiting := (u.homeLine l).waiting ++ [r] }))) ∧
    (u.queueFull r = true → exec c s = .next (s.keepPilot ((u.setSlice (u.home l).1 { u.slice (u.home l).1 with waiting := (u.slice (u.home l).1).waiting ++ [r] }).bump Reg.LRD_SL_CNT [(u.home l).1] F.LRD_SL_CNT_HOT 1)))) ∧
  (∀ (g : ClusterId) (l : Nat) (s : State) (c : CupLine), s.cupLine g l = some c → c.st = .m ∨ c.st = .o → exec (.wbd g l) s = .next (s.keepPilot ((s.cupEvict g l).wake l))) ∧
  (∀ (g : ClusterId) (l : Nat) (s : State) (c : CupLine), s.cupLine g l = some c → c.st = .e ∨ c.st = .s → exec (.evc g l) s = .next (s.keepPilot ((s.cupEvict g l).wake l))) ∧
  (∀ (g : ClusterId) (l : Nat) (s u : State) (c : CupLine) (t : Txn), s.receive (.snoop .snpS g l) = some u → u.cupLine g l = some c → c.st ≠ .s → u.snooping l = some t →
    exec (.snps g l) s = .next (s.keepPilot ((((u.snoopCup .snpS g l).send (.dat t.req.who l c.data c.poison .s)).setHome l
      { u.homeLine l with running := (u.homeLine l).running.map (fun v => if v = t then { v with served := true } else v) }).answered g l))) ∧
  (∀ (g : ClusterId) (l : Nat) (s u : State) (c : CupLine), s.receive (.snoop .snpS g l) = some u → u.cupLine g l = some c → c.st = .s → exec (.snps g l) s = .next (s.keepPilot (u.answered g l))) ∧
  (∀ (g : ClusterId) (l : Nat) (s u : State), s.receive (.snoop .snpC g l) = some u → exec (.snpc g l) s = .next (s.keepPilot ((u.snoopCup .snpC g l).answered g l))) ∧
  (∀ (g : ClusterId) (l : Nat) (s u : State), s.receive (.snoop .snpI g l) = some u → exec (.snpi g l) s = .next (s.keepPilot ((u.snoopCup .snpI g l).answered g l))) ∧
  (∀ (d : DieId) (l : Nat) (s u v w : State) (t t' : Txn), s.receive (.rsp d l) = some u → s.snooping l = some t → t' = { t with dies := t.dies.erase d } →
    v = (u.setHome l { u.homeLine l with running := (u.homeLine l).running.map (fun x => if x = t then t' else x) }).setPres l → v.grant t' = some w →
    exec (.rsp d l) s = .next (s.keepPilot (if t'.dies.isEmpty then w.wake l else v)))

/-- Data, ownership and acknowledgement, forwarded requests, completions and fills (R150, R151, R154, R155). That every message is a command of its own is log 8, the model's choice. -/
def Obligations.CoherenceGrants : Prop :=
  (∀ (g : ClusterId) (l : Nat) (s : State) (d : Line) (p : BitVec 16) (st : CupState) , s.net.find? (CohMsg.isDat (.cluster g) l) = some (.dat (.cluster g) l d p st) →
    exec (.dat (.cluster g) l) s = .next (s.keepPilot (({ s with net := s.net.erase (.dat (.cluster g) l d p st) }.cupInstall g l ⟨st, d, p⟩).send (.ack (.cluster g) l)))) ∧
  (∀ (g : ClusterId) (l : Nat) (s u : State) (c : CupLine), s.receive (.gntM (.cluster g) l) = some u →
    (u.homeLine l).running.find? (fun t => t.req.who == .cluster g && t.req.kind == .wru) = none → u.cupLine g l = some c →
    exec (.gntm (.cluster g) l) s = .next (s.keepPilot (((u.setCup g l (some { c with st := .m })).setPres l).send (.ack (.cluster g) l)))) ∧
  (∀ (g : ClusterId) (l : Nat) (s u : State) (t : Txn), s.receive (.gntM (.cluster g) l) = some u →
    (u.homeLine l).running.find? (fun t => t.req.who == .cluster g && t.req.kind == .wru) = some t →
    exec (.gntm (.cluster g) l) s = .next (s.keepPilot ((u.cupInstall g l ⟨.m, t.req.data, 0⟩).send (.ack (.cluster g) l)))) ∧
  (∀ (who : Agent) (l : Nat) (s u : State), s.receive (.ack who l) = some u →
    exec (.ack who l) s = .next (s.keepPilot (((u.setHome l { u.homeLine l with running := dropFirst (fun t => t.acking && t.req.who == who) (u.homeLine l).running }).setPres l).wake l))) ∧
  (∀ (l : Nat) (s u : State) (r : CohReq), s.net.find? (CohMsg.isFwd l) = some (.fwd r) →
    { s with net := s.net.erase (.fwd r) }.resident l none = some u → r.kind = .rdu →
    exec (.fwd l) s = .next (s.keepPilot ((u.snoopAll l none).send (.dat r.who l (u.lineValue l).1 (u.lineValue l).2 .m)))) ∧
  (∀ (l : Nat) (s u : State) (r : CohReq), s.net.find? (CohMsg.isFwd l) = some (.fwd r) →
    { s with net := s.net.erase (.fwd r) }.resident l none = some u → r.kind = .wru →
    exec (.fwd l) s = .next (s.keepPilot ((u.snoopAll l none).send (.gntM r.who l)))) ∧
  (∀ (l : Nat) (s u : State) (r : CohReq), s.net.find? (CohMsg.isFwd l) = some (.fwd r) →
    { s with net := s.net.erase (.fwd r) }.resident l none = some u → r.kind = .rds → u.ownerOf l = none →
    exec (.fwd l) s = .next (s.keepPilot (u.send (.dat r.who l (u.lineValue l).1 (u.lineValue l).2 (if (u.holders l).isEmpty then .e else .s))))) ∧
  (∀ (n g l tag t : Nat) (s : State) (d : Line) (p : Bool) (vs : List (Nat × Word)), s.net.find? (isCmp (.group n g) l tag) = some (.cmp (.group n g) l t d p vs) →
    exec (.cmp (.group n g) l tag) s = .next (s.keepPilot ({ s with net := s.net.erase (.cmp (.group n g) l t d p vs) }.atomDone n g p vs))) ∧
  (∀ (q c l tag t : Nat) (s : State) (d : Line) (p : Bool) (vs : List (Nat × Word)), s.net.find? (isCmp (.porter q c) l tag) = some (.cmp (.porter q c) l t d p vs) →
    exec (.cmp (.porter q c) l tag) s = .next (s.keepPilot ({ s with net := s.net.erase (.cmp (.porter q c) l t d p vs) }.porterAnswer q c tag false true 0 0 p))) ∧
  (∀ (l : Nat) (s u v : State) (t : Txn), (s.homeLine l).running.find? (·.filling) = some t → s.resident l none = some u → u.proceed t = some v →
    exec (.larderFill l) s = .next (s.keepPilot v))

/-- Reduction units, the memory side, and the two ordering modes (R155, R156, R158-R160). What waits in owner ordering is log 39, the model's reading. -/
def Obligations.ReductionsAndOrder : Prop :=
  (∀ (sl : SliceId) (u : SlotId) (s : State) (r : CohReq), (s.slice sl).offline.getLsbD u = false → (s.slice sl).units.get none u = none →
    (s.slice sl).queue.find? (fun r => !((s.slice sl).units.filterMap (·.2)).contains r.line) = some r →
    exec (.redBind sl u) s = .next (s.setSlice sl { s.slice sl with units := (s.slice sl).units.set none u (some r.line) })) ∧
  (∀ (sl : SliceId) (u : SlotId) (s v : State) (l : Nat) (y : LarderLine) (rs left : List CohReq), (s.slice sl).units.get none u = some l → s.larderLine l = some y →
    rs = bindTake l (s.fld Reg.LRD_RED_CFG [] F.LRD_RED_CFG_BIND_MAX) (s.slice sl).queue → left = rs.foldl List.erase (s.slice sl).queue →
    s.larderPut l { y with data := (bindRun rs y.data).1, red := left.any (fun r => r.line == l) } = some v →
    exec (.redUnbind sl u 0) s = .next (s.keepPilot ((((v.setSlice sl { v.slice sl with queue := left.filter (fun r => r.line != l) ++ left.filter (fun r => r.line == l), units := (v.slice sl).units.set none u none }).sends
      ((rs.zip (bindRun rs y.data).2).map (fun e => .cmp e.1.who l e.1.tag 0 y.poison e.2))).admitMany sl rs.length).wake l))) ∧
  (∀ (sl : SliceId) (u : SlotId) (s : State) (l : Nat) (off : BitVec 8), (s.slice sl).units.get none u = some l → off = (s.slice sl).offline ||| BitVec.ofNat 8 (2 ^ u.val) → off ≠ 0xFF →
    exec (.redUnbind sl u 2) s = .next (s.keepPilot ((s.setSlice sl { s.slice sl with offline := off, units := (s.slice sl).units.set none u none }).log
      { kind := 0x09, index := 8 * sl + u, cls := .contained, retired := true }))) ∧
  (∀ (l : Nat) (s : State) (r : CohReq), s.cellarWaits l = false → s.net.find? (CohMsg.isMred l) = some (.mred r) →
    exec (.mred l) s = .next (s.keepPilot (({ s with net := s.net.erase (.mred r) }.cellarPut l (bindRun [r] (s.cellarGet l).1).1 false (s.cellarGet l).2.2).send
      (.mack r.who l r.tag (s.cellarGet l).2.2 ((bindRun [r] (s.cellarGet l).1).2.headD []))))) ∧
  (∀ (w : Writer) (reason : Fin 4) (s : State), w = .storekeeper → s.order = 0 →
    exec (.enterOwner w reason) s = .next (((s.wrote Reg.LRD_COH_CMD [] 1).setFld Reg.LRD_COH_STAT [] F.LRD_COH_STAT_ORDER 2).setFld Reg.LRD_COH_STAT [] F.LRD_COH_STAT_REASON reason)) ∧
  (∀ (w : Writer) (s : State), w = .storekeeper → s.order = 1 →
    exec (.exitOwner w) s = .next ((s.wrote Reg.LRD_COH_CMD [] 2).setFld Reg.LRD_COH_STAT [] F.LRD_COH_STAT_ORDER 3)) ∧
  (∀ s : State, s.order = 2 → s.drained = true → exec .ownerOrderEntered s = .next (s.setFld Reg.LRD_COH_STAT [] F.LRD_COH_STAT_ORDER 1)) ∧
  (∀ s : State, s.order = 3 → exec .homeOrderResumed s = .next (s.keepPilot s.homeOrder)) ∧
  (∀ (l t sl : Nat) (s : State) (w : Agent) (p : Bool) (vs : List (Nat × Word)), s.net.find? (CohMsg.isMack l) = some (.mack w l t p vs) → sl = (s.home l).1 →
    exec (.mack l) s = .next (s.keepPilot ((({ s with net := s.net.erase (.mack w l t p vs) }.setSlice sl { s.slice sl with fwd := (s.slice sl).fwd.set 0 l ((s.slice sl).fwd.get 0 l - 1) }).send (.cmp w l t 0 p vs)).wake l)))

/-- A write to a Tally and to its adder, by a writer whose path is open and who reaches the core, with the cluster awake (R176, R181, R186; Table MM-5): VALUE becomes the value written, or grows by AMOUNT as an increment of kind 6 at system scope. -/
def Obligations.TallyWrites : Prop :=
  (∀ (w : Writer) (n : CoreId) (i : Fin 4096) (v : DWord) (s : State), s.closedFor w = false → s.mayCore w n = true → s.fld Reg.PWR_CL [clusterOf n] F.PWR_CL_STATE = 0 →
    ∃ t, exec (.cstTallyWrite w n i v) s = .next t ∧ t.tally n i = BitVec.ofNat 32 (fieldOf v 31 0) ∧ fieldOf (t.reg Reg.CST_TALLY [n, i]) 63 32 = fieldOf (s.reg Reg.CST_TALLY [n, i]) 63 32 ∧
      (∀ k, k < 4096 → k ≠ i.val → t.tally n k = s.tally n k) ∧ t.mem = s.mem ∧ t.seqs = s.seqs ∧ t.groups = s.groups) ∧
  (∀ (w : Writer) (n : CoreId) (i : Fin 4096) (v : DWord) (s : State), s.closedFor w = false → s.mayCore w n = true → s.fld Reg.PWR_CL [clusterOf n] F.PWR_CL_STATE = 0 → fieldOf v 31 0 ≠ 0 →
    ∃ t, exec (.cstTallyAdd w n i v) s = .next t ∧ t.tally n i = s.tally n i + BitVec.ofNat 32 (fieldOf v 31 0) ∧ fieldOf (t.reg Reg.CST_TALLY [n, i]) 55 53 = 6 ∧
      fieldOf (t.reg Reg.CST_TALLY [n, i]) 63 61 = 7 ∧ t.mem = s.mem ∧ t.seqs = s.seqs ∧ t.groups = s.groups) ∧
  (∀ (w : Writer) (n : CoreId) (i : Fin 4096) (v : DWord) (s : State), s.closedFor w = false → s.mayCore w n = true → s.fld Reg.PWR_CL [clusterOf n] F.PWR_CL_STATE = 0 → fieldOf v 31 0 = 0 →
    ∃ t, exec (.cstTallyAdd w n i v) s = .next t ∧ t.tally n i = s.tally n i ∧ t.fld Reg.ERR_PROD [] F.ERR_PROD_PROD = (s.fld Reg.ERR_PROD [] F.ERR_PROD_PROD + 1) % 2 ^ 32)

/-- A Porter channel: a well-formed descriptor taken from its queue, an access performed at once, a line of a RANGE descriptor, and the end of a descriptor with nothing held (R188, R191, R195-R197). Bus errors and recovery of a Porter (R198, R199, R201; Table PT-5), and CH0_POST of the manager (Table PT-6). One descriptor at a time in a channel and one access per command are log 43, the order of codes log 44, held increments log 45: the model's choices. -/
def Obligations.PorterCommands : Prop :=
  (∀ (p : Fin 1024) (c : Fin 16) (s t : State) (d : PDesc) (q : List PDesc), c.val < chanCount p → (s.porter p).status = 0 → (s.chan p c).act = none →
    (s.chan p c).status = .idle ∨ (s.chan p c).status = .holding → (s.chan p c).queue = d :: q →
    t = s.setChan p c { s.chan p c with queue := q, act := some { desc := d }, status := .active, prog := 0, tag := d.tag, poison := false, partials := false } → t.descCode p c d = 0 →
    exec (.channelStart p c) s = .next t) ∧
  (∀ (p : Fin 1024) (c : Fin 16) (s t u v w : State) (a b : Active) (g : Gathered) (n : Nat) (bs : List Byte) (poison : Bool), (s.porter p).status = 0 → (s.chan p c).status = .active → (s.chan p c).act = some a →
    a.desc.kind ≠ 4 → a.pos < a.desc.dlen → n = a.desc.nextLen a.pos → (a.src.getD {}).missing = [] → s.fetchFor (regIo (porterWriter p)) p c a.desc (a.src.getD {}) a.pos n = .ok t g → g.missing = [] →
    poison = (a.desc.kind != 2 && g.poisoned (a.desc.needs a.pos n)) →
    (s.keepPilot t).undefinedBytes a.desc (a.desc.dstAddr a.pos) (if a.desc.kind = 2 then a.desc.fillBytes (a.desc.dstAddr a.pos) n else a.desc.bytesFrom g.byte a.pos n) = (u, bs) →
    v = (s.keepPilot t).keepPilot u → v.putBytes (regIo (porterWriter p)) p c a n bs poison = .done w → b = { a with pos := a.pos + n, src := none } →
    exec (.porterAccess p c) s = .next (w.keepPilot ((((w.setChan p c { w.chan p c with act := some b, poison := (w.chan p c).poison || poison }).countBytes p n).account (w.porterBay p) Reg.BAY_XFR Reg.BAY_INST_XFR n).progress p c))) ∧
  (∀ (p : Fin 1024) (c : Fin 16) (s t : State) (a : Active), (s.porter p).status = 0 → (s.chan p c).status = .active → (s.chan p c).act = some a → a.desc.kind = 4 → a.pos < a.desc.slen → a.desc.dst + a.pos < 2 ^ 48 →
    s.rangeAct (s.porterInst p c) a.desc.rangeOp (a.desc.dst + a.pos) = .done t →
    exec (.porterAccess p c) s = .next (s.keepPilot (t.setChan p c { t.chan p c with act := some { a with pos := a.pos + 128 } }))) ∧
  (∀ (p : Fin 1024) (c : Fin 16) (s : State) (a : Active), (s.chan p c).status = .active → (s.chan p c).act = some a → (if a.desc.kind = 4 then a.desc.slen else a.desc.dlen) ≤ a.pos → a.out = [] → a.desc.sys = false →
    a.desc.tmode ≠ 3 → a.desc.kind ≠ 4 → a.held = 0 →
    exec (.descriptorComplete p c) s = .next (s.setChan p c { s.chan p c with act := none, done := (s.chan p c).done + 1, status := if (s.chan p c).holds.isEmpty then .idle else .holding })) ∧
  (∀ (p : Fin 1024) (s : State) (cause addr : Nat) (r : List (Nat × Nat)), (s.porter p).errors = (cause, addr) :: r → (s.porter p).status = 0 →
    ∃ t, exec (.busError p) s = .next t ∧ t.porter p = { s.porter p with errors := r, status := 1, cause := cause % 256, errAddr := addr } ∧
      t.fld Reg.ERR_PROD [] F.ERR_PROD_PROD = (s.fld Reg.ERR_PROD [] F.ERR_PROD_PROD + 1) % 2 ^ 32 ∧ t.mem = s.mem ∧ t.seqs = s.seqs) ∧
  (∀ (p : Fin 1024) (s : State), (s.porter p).status = 1 → (s.porter p).errors = [] → (s.porter p).chans.any (fun e => e.2.flying) = false →
    exec (.porterStopped p) s = .next (s.keepPilot (((s.setPorter p { s.porter p with status := 2 }).mapChans p Chan.halt).moveFaults (((s.porter p).descs.filterMap (·.core)).eraseDups)))) ∧
  (∀ (w : Writer) (p : Fin 1024) (s : State), mayPorter w p = true → (s.porter p).status = 2 → exec (.porterClear w p) s = .next (s.keepPilot ((s.wroteCtl p 1).porterClear p))) ∧
  (∀ (w : Writer) (p : Fin 1024) (s t : State), mayPorter w p = true → (s.porter p).status = 2 → (s.porter p).chans.all (fun e => !(e.2.partials && e.2.status == .stopped)) = true → t = s.wroteCtl p 2 →
    exec (.porterRetry w p) s = .next (s.keepPilot ((t.setPorter p { t.porter p with status := 0, cause := 0 }).mapChans p (fun x => if x.status = .stopped then x.restart else x)))) ∧
  (∀ (w : Writer) (p : Fin 1024) (c : Fin 16) (s t : State), mayPorter w p = true → (s.chan p c).status = .error → t = s.wroteCtl p (3 + 16 * c) →
    exec (.clearChannel w p c) s = .next (s.keepPilot (t.setChan p c { t.chan p c with queue := [], act := none, holds := [], status := .idle }))) ∧
  (∀ (w : Writer) (p : Fin 1024) (c : Fin 16) (s t : State), mayPorter w p = true → (s.chan p c).status = .error → t = s.wroteCtl p (4 + 16 * c) →
    exec (.retryChannel w p c) s = .next (s.keepPilot (t.setChan p c (t.chan p c).restart))) ∧
  (∀ (w : Writer) (g : ClusterId) (s t u v : State) (a pa : Nat) (leaf : DWord) (bs : List Byte), isManager w = true → s.queueRoom (512 + g) 0 = true → t = s.wrote Reg.PTR_CL_CH0_POST [g] 1 →
    a = (s.reg Reg.PTR_CL_CH0_DESC [g]).toNat / 128 * 128 → t.placeGlobal (512 + g) 0 a 0 = .ok u pa leaf → u.readGlobal (.cupboard g) none a 128 = .done v (bs, false) →
    exec (.ch0Post w g) s = .next (s.keepPilot (v.post (512 + g) 0 { raw := lineOfBytes bs }))) ∧
  (∀ (w : Writer) (p : Fin 1024) (s : State), mayPorter w p = true → (s.porter p).status ≠ 2 → exec (.porterClear w p) s = .next (s.keepPilot (s.refuse w (porterCtl p) causeState)))

/-- Bays (R226-R228, R230-R232, R236, R240): forming, dissolving, control words, the end of a slice, the resume of a core, and the slow-down window. The serving program of a Bay on its cores (R203, R204, R208-R211, R213, R220-R223, R225, R207): a round's start, a draft's proposals, a commit of a sequence's rows, and the oldest completion posted to its ring. Scheduling points are log 46, serving choices log 40: the model's choices. -/
def Obligations.BaysAndServing : Prop :=
  (∀ (w : Writer) (b : BayId) (inst : Fin 64) (ordered : Bool) (s u v : State), isManager w = true → u = s.tdiBreak (s.instOfBay b) → u.bit Reg.BAY_CFG [b] F.BAY_CFG_EN = false → inst.val ≤ 32 →
    v = ((u.setFld Reg.BAY_CFG [b] F.BAY_CFG_INSTANCE inst).tdiBreak inst).setFld Reg.BAY_CFG [b] F.BAY_CFG_ORDERED (if ordered then 1 else 0) → v.mayForm b inst = true →
    exec (.bayForm w b inst ordered) s = .next (s.keepPilot (((v.setFld Reg.BAY_CFG [b] F.BAY_CFG_EN 1).setBay b {}).clearWords b))) ∧
  (∀ (w : Writer) (b : BayId) (s u : State), isManager w = true → u = s.tdiBreak (s.instOfBay b) → (∀ j, j < 4 → (u.img b j).status = .empty) →
    exec (.bayDissolve w b) s = .next (s.keepPilot (u.setFld Reg.BAY_CFG [b] F.BAY_CFG_EN 0))) ∧
  (∀ (w : Writer) (b : BayId) (s u : State) (j : Nat), isManager w = true → u = s.tdiBreak (s.instOfBay b) → j < 4 → (u.img b j).status ≠ .empty →
    exec (.bayDissolve w b) s = .next (s.keepPilot (u.refuse w (Reg.BAY_CFG.addr [b]) causeState))) ∧
  (∀ (w : Writer) (b : BayId) (i : Fin 16) (v : DWord) (s : State) (n : Nat), s.closedFor w = false → s.mayWord w b = true → s.bit Reg.BAY_CFG [b] F.BAY_CFG_EN = true → (s.coresOf b).head? = some n →
    s.gated (clusterOf n) = false →
    exec (.controlWordWrite w b i v) s = .next (s.keepPilot (((s.wantWake (clusterOf n)).setPantry n (0x27FF80 + 8 * i) (leBytes 8 v.toNat) false).wakeSlots b i))) ∧
  (∀ (b : BayId) (s : State) (t : Nat), (s.bay b).on = true → (s.bay b).switch = 0 → s.chooseNext b = some t → (s.critical b (s.bay b).cur = true → s.critical b t = true) →
    exec (.sliceEnd b) s = .next (s.setBay b { s.bay b with switch := 1, target := some t, sliceOver := some s.now })) ∧
  (∀ (b : BayId) (s : State), (s.bay b).on = true → (s.bay b).switch = 0 → s.chooseNext b = none →
    exec (.sliceEnd b) s = .next (s.setBay b { s.bay b with sliceLen := s.sliceOf b (s.bay b).cur })) ∧
  (∀ (n : CoreId) (s s1 s2 u v : State) (b j : Nat), s.bayOfCore n = some b → j = (s.bay b).cur → (s.bay b).switch = 2 → n.val ∈ (s.bay b).resuming → s.gated (clusterOf n) = false →
    s.spillOthers b j n (onesOf 40 (s.reg Reg.BAY_CLAIM [b, j]).toNat) = .ok s1 → s1.restoreOwn b j n (onesOf 40 ((s1.range n).saved.get 0 j).toNat) = .ok s2 → s2.reloadSeq b j n = some u →
    v = u.when (!(u.bay b).on) (fun u => u.beginSlice b j) →
    exec (.coreResume n) s = .next (s.keepPilot (if ((v.bay b).resuming.erase n).isEmpty then (v.setBay b { v.bay b with resuming := (v.bay b).resuming.erase n }).endSwitch b j
      else v.setBay b { v.bay b with resuming := (v.bay b).resuming.erase n }))) ∧
  (∀ (b : BayId) (s : State), slowOf (s.bay b).winA 0 ≤ s.fld Reg.BAY_SLOW [b] F.BAY_SLOW_LIMIT →
    exec (.slowWindowEnd b 0) s = .next ((s.setBay b { s.bay b with winA := 0 }).setFld Reg.BAY_SLOW [b] F.BAY_SLOW_SLOW 0x100)) ∧
  (∀ (b : BayId) (i : Fin 131072) (s u : State), u = (s.setBay b { s.bay b with winA := 0 }).setFld Reg.BAY_SLOW [b] F.BAY_SLOW_SLOW (slowOf (s.bay b).winA i) → i ≠ 0 →
    exec (.slowWindowEnd b i) s = .next (s.keepPilot (if (u.satCount Reg.BAY_INTF [b] b i).fld Reg.BAY_SLOW [b] F.BAY_SLOW_LIMIT < slowOf (s.bay b).winA i then (u.satCount Reg.BAY_INTF [b] b i).bayEvent b 0x10
      else u.satCount Reg.BAY_INTF [b] b i))) ∧
  (∀ (b : BayId) (s : State), s.servingOn b = true → (s.serve b).running = false → (s.serve b).begun = true →
    exec (.roundBoundary b []) s = .next (s.keepPilot (((((((s.setServe b { s.serve b with begun := true }).takeRequests b).cancelAll b).freeEnded b).admitAll b).batch b
      ((((((s.setServe b { s.serve b with begun := true }).takeRequests b).cancelAll b).freeEnded b).admitAll b).serve b).inOrder (s.serve b).chunk).writeDecision b))) ∧
  (∀ (b : BayId) (s : State) (off : Nat), s.servingOn b = true → (s.serve b).running = false → (s.serve b).begun = false → s.configCheck b = some off →
    exec (.roundBoundary b []) s = .next (s.keepPilot (s.haltAll b off))) ∧
  (∀ (b : BayId) (slot draft : Fin 1024) (logits : List (List Word)) (s u : State) (q : Sequence) (len n d : Nat) (ds : List Draft), s.sequence b slot = some q → s.servingOn b = true → q.inRound = true →
    s.seqState b slot = 2 → q.drafts = [] → len = s.seqLen b slot → u = s.growTo b slot (len + 1 + s.draftCount b slot q) → n = min (min (u.draftCount b slot q) (16 * u.pageCount b slot - len - 1)) logits.length → n ≠ 0 →
    ds = (logits.take n).zipIdx.map (fun e => (⟨sample q.req.settings e.1 (u.nextSeq b slot + e.2) 1, probabilities q.req.settings e.1⟩ : Draft)) → d = u.draftBay b →
    ∃ v, exec (.draftPropose b slot draft logits) s = .next (s.keepPilot (v.setSequence b slot (some { (v.sequence b slot).getD q with rows := n + 1, drafts := ds }))) ∧
      v = ((((u.recPut b slot 40 4 draft).recPut b slot 7 1 n).recPut d draft 0 4 len).recPut d draft 6 1 2).recPut d draft 8 8 q.req.id) ∧
  (∀ (b : BayId) (slot : Fin 1024) (logits : List (List Word)) (s : State) (q : Sequence), s.sequence b slot = some q → s.servingOn b = true → q.inRound = true →
    exec (.roundCommit b slot 0 logits) s = .next (s.keepPilot (((s.discardCold b q).setSequence b slot (some { q with inRound := false, rows := 0, drafts := [] })).commitRound b slot q logits))) ∧
  (∀ (b : BayId) (slot : Fin 1024) (logits : List (List Word)) (s u : State) (q : Sequence), s.sequence b slot = some q → s.servingOn b = true → q.inRound = true →
    u = (s.discardCold b q).setSequence b slot (some { q with inRound := false, rows := 0, drafts := [] }) →
    exec (.roundCommit b slot 1 logits) s = .next (s.keepPilot (u.recPut b slot 4 2 (u.seqGen b slot + 1)))) ∧
  (∀ (b : BayId) (c : Fin 4) (s : State) (p : Post) (prod : Nat), (s.serve b).due.find? (fun p => p.ring == c.val) = some p → s.servingOn b = true → prod = s.virtNat b ((s.serve b).crHdr c) 4 →
    (prod + 2 ^ 32 - s.virtNat b ((s.serve b).crHdr c + 64) 4) % 2 ^ 32 < (s.serve b).crEntries c →
    exec (.completionPost b c []) s = .next (s.keepPilot (((((s.setServe b { s.serve b with due := dropFirst (fun q => q.ring == c.val) (s.serve b).due }).virtPut b
      ((s.serve b).crBase c + 64 * (prod % max 1 ((s.serve b).crEntries c))) (leBytes 64 p.entry.toNat)).virtPut b ((s.serve b).crHdr c) (leBytes 4 (prod + 1))).when p.irq (fun s => s.raiseRing b c)).releasePost b p)))

/-- The Hatch (R247-R249): posts of both sides, which in Off assert wake_n (R405), consumer indices, and device messages. The cause that a refused post shows is log 49, the model's reading. -/
def Obligations.Hatches : Prop :=
  (∀ (w : Writer) (v : VfId) (s u : State) (ws : List Nat), isTenant w (v + 1) = true → s.power.mode ≠ 2 → u = s.wrote Reg.HAT_TPOST [v.val] 1 → ws = (List.range 8).map (fun k => (u.reg Reg.HAT_TSTAGE [v.val, k]).toNat) →
    u.postCause (v + 1) 0 (bitsOf (ws.headD 0) 47 32) = 0 → exec (.tenantPost w v) s = .next (s.keepPilot (u.hatPut (v + 1) 0 0 ws))) ∧
  (∀ (w : Writer) (v : VfId) (s u : State) (ws : List Nat), isManager w = true → s.power.mode ≠ 2 → u = s.wrote Reg.HAT_MPOST [v.val] 1 → ws = (List.range 8).map (fun k => (u.reg Reg.HAT_MSTAGE [v.val, k]).toNat) →
    u.postCause (v + 1) 1 (bitsOf (ws.headD 0) 47 32) = 0 → exec (.managerPost w v) s = .next (s.keepPilot (u.hatPut (v + 1) 1 1 ws))) ∧
  (∀ (w : Writer) (v : VfId) (s u : State) (ws : List Nat) (c : Nat), isTenant w (v + 1) = true → s.power.mode ≠ 2 → u = s.wrote Reg.HAT_TPOST [v.val] 1 → ws = (List.range 8).map (fun k => (u.reg Reg.HAT_TSTAGE [v.val, k]).toNat) →
    c = u.postCause (v + 1) 0 (bitsOf (ws.headD 0) 47 32) → c ≠ 0 →
    exec (.tenantPost w v) s = .next ((u.setFld Reg.HAT_STAT [v.val] F.HAT_STAT_TREFUSED 1).setFld Reg.HAT_STAT [v.val] F.HAT_STAT_TCAUSE c)) ∧
  (∀ (i : Instr) (w : Writer) (v : VfId) (s : State), i ∈ [Instr.tenantPost w v, .managerPost w v] → s.power.mode = 2 → exec i s = .next { s with pilot := { s.pilot with wakePin := true } }) ∧
  (∀ (w : Writer) (v : VfId) (c : Word) (s : State), isManager w = true →
    (c.toNat + 2 ^ 32 - s.ringCons (v + 1) 0) % 2 ^ 32 ≤ (s.ringProd (v + 1) 0 + 2 ^ 32 - s.ringCons (v + 1) 0) % 2 ^ 32 →
    exec (.hatchConsWrite w v false c) s = .next (s.setReg Reg.HAT_T2M_IDX [v.val] (withField (s.reg Reg.HAT_T2M_IDX [v.val]) 63 32 c.toNat))) ∧
  (∀ (w : Writer) (v : VfId) (c : Word) (s : State), isTenant w (v + 1) = true →
    (c.toNat + 2 ^ 32 - s.ringCons (v + 1) 1) % 2 ^ 32 ≤ (s.ringProd (v + 1) 1 + 2 ^ 32 - s.ringCons (v + 1) 1) % 2 ^ 32 →
    exec (.hatchConsWrite w v true c) s = .next (s.setReg Reg.HAT_M2T_IDX [v.val] (withField (s.reg Reg.HAT_M2T_IDX [v.val]) 63 32 c.toNat))) ∧
  (∀ (v : VfId) (s : State) (m : HatMsg) (r : List HatMsg), s.hatRoom (v + 1) = true → s.hatQueue.get [] (v + 1) = [] → s.hatLost.get 0 (v + 1) = 0 → s.hatOut.get [] (v + 1) = m :: r →
    exec (.deviceMessage v) s = .next (s.keepPilot { s.hatPut (v + 1) 1 2 m.words with hatOut := s.hatOut.set [] (v + 1) r })) ∧
  (∀ (v : VfId) (s : State) (m : HatMsg) (r : List HatMsg), s.hatRoom (v + 1) = false → (s.hatQueue.get [] (v + 1)).length < 16 → s.hatOut.get [] (v + 1) = m :: r →
    exec (.deviceMessage v) s = .next { s with hatOut := s.hatOut.set [] (v + 1) r, hatQueue := s.hatQueue.set [] (v + 1) (s.hatQueue.get [] (v + 1) ++ [m]) })

/-- The commands of the instance state machine in the states that Table TN-6 allows, given by the manager (R251-R258, R321). That an effect waits for its end's command, and ENABLE without VF Enable, are log 50, the model's reading. -/
def Obligations.InstanceCommands : Prop :=
  (∀ (w : Writer) (v : VfId) (s u t : State), isManager w = true → u = s.tdiBreak (v + 1) → u.inst (v + 1) = 0 → t = u.wrote Reg.HAT_INST_CMD [v + 1] 1 → t.fld Reg.SEC_STATE [] F.SEC_STATE_LC ≠ 2 → t.vfOn = true → t.vfReady = true →
    exec (.enable w v) s = .next (s.keepPilot ({ t.hatReset (v + 1) false with measLog := t.measLog.set (0, 0) (v + 1) (0, 0) }.setInst (v + 1) 1))) ∧
  (∀ (w : Writer) (v : VfId) (s : State), isManager w = true → s.inst (v + 1) = 1 → exec (.quiesce w v) s = .next (s.keepPilot ((s.wrote Reg.HAT_INST_CMD [v + 1] 2).quiesce (v + 1)))) ∧
  (∀ (w : Writer) (v : VfId) (s u : State), isManager w = true → u = s.tdiBreak (v + 1) → u.inst (v + 1) = 3 ∨ u.inst (v + 1) = 4 →
    exec (.instanceResume w v) s = .next (s.keepPilot ((u.wrote Reg.HAT_INST_CMD [v + 1] 3).setInst (v + 1) 1))) ∧
  (∀ (w : Writer) (v : VfId) (s u t : State), isManager w = true → u = s.tdiBreak (v + 1) → u.inst (v + 1) = 3 → t = u.wrote Reg.HAT_INST_CMD [v + 1] 4 →
    exec (.freeze w v) s = .next (s.keepPilot ((((t.baysOf (v + 1)).flatMap t.clustersOf).foldl (fun s g => s.flushCupboard g) t).setInst (v + 1) 4))) ∧
  (∀ (w : Writer) (v : VfId) (s u t : State), isManager w = true → u = s.tdiBreak (v + 1) → u.inst (v + 1) = 4 → t = u.wrote Reg.HAT_INST_CMD [v + 1] 5 → t.saveReason (v + 1) = 0 →
    exec (.save w v) s = .next (s.keepPilot (t.setInst (v + 1) 5))) ∧
  (∀ (w : Writer) (v : VfId) (s u t : State), isManager w = true → u = s.tdiBreak (v + 1) → u.inst (v + 1) = 4 → t = u.wrote Reg.HAT_INST_CMD [v + 1] 6 → t.saveAddr (v + 1) % 64 = 0 →
    t.storeBacked (t.saveAddr (v + 1)) 256 = true → exec (.restore w v) s = .next (s.keepPilot (t.setInst (v + 1) 6))) ∧
  (∀ (w : Writer) (v : VfId) (s u : State), isManager w = true → u = s.tdiBreak (v + 1) → u.inst (v + 1) = 3 →
    exec (.reset w v) s = .next (s.keepPilot ((u.wrote Reg.HAT_INST_CMD [v + 1] 7).setInst (v + 1) 7))) ∧
  (∀ (w : Writer) (v : VfId) (s u t : State), isManager w = true → u = s.tdiBreak (v + 1) → u.inst (v + 1) = 3 → t = u.wrote Reg.HAT_INST_CMD [v + 1] 8 → t.removable (v + 1) = true →
    exec (.remove w v) s = .next (s.keepPilot ((t.clearInst (v + 1)).setInst (v + 1) 0)))

/-- A command that Table TN-6 does not allow in the instance's state (R251, R252): nothing of the instance changes, REASON is 1 and one contained record is written. -/
def Obligations.InstanceCommandRefused : Prop :=
  ∀ (w : Writer) (v : VfId) (s : State) (c : Instr) (ok : List Nat), isManager w = true → s.fld Reg.HST_TDI_STAT [v + 1] F.HST_TDI_STAT_STATE = 0 →
    (c, ok) ∈ [(Instr.enable w v, [0]), (Instr.quiesce w v, [1]), (Instr.instanceResume w v, [3, 4]), (Instr.freeze w v, [3]), (Instr.save w v, [4]), (Instr.restore w v, [4]), (Instr.reset w v, [3]), (Instr.remove w v, [3])] →
    s.inst (v + 1) ∉ ok →
    ∃ t, exec c s = .next t ∧ t.inst (v + 1) = s.inst (v + 1) ∧ t.fld Reg.HAT_INST_STAT [v + 1] F.HAT_INST_STAT_REASON = 1 ∧
      t.fld Reg.ERR_PROD [] F.ERR_PROD_PROD = (s.fld Reg.ERR_PROD [] F.ERR_PROD_PROD + 1) % 2 ^ 32 ∧ t.mem = s.mem ∧ t.imgs = s.imgs ∧ t.keyGen = s.keyGen ∧ t.measLog = s.measLog

/-- The ends of the instance's changes of state (R253-R255, R257, R258) and the refetches of shared ranges (R259, R260). The record's layout inside a section is log 41, the moments of a refetch are log 51: the model's choices. -/
def Obligations.InstanceEnds : Prop :=
  (∀ (v : VfId) (s : State), s.inst (v + 1) = 2 → s.fld Reg.HAT_INST_QCFG [v + 1] F.HAT_INST_QCFG_FORCE_US ≠ 0 →
    exec (.quiesceForce v) s = .next (s.keepPilot (s.quiesceSlots (v + 1) true))) ∧
  (∀ (v : VfId) (s : State), s.inst (v + 1) = 2 → s.quiet (v + 1) = true → s.flr.get 0 (v + 1) = 0 → exec (.quiesceComplete v) s = .next (s.keepPilot (s.setInst (v + 1) 3))) ∧
  (∀ (v : VfId) (s : State), s.inst (v + 1) = 2 → s.quiet (v + 1) = true → s.flr.get 0 (v + 1) ≠ 0 →
    exec (.quiesceComplete v) s = .next (s.keepPilot ((s.setInst (v + 1) 3).setInst (v + 1) 7))) ∧
  (∀ (v : VfId) (s u : State) (bs : List Byte), s.inst (v + 1) = 5 → u = { s with free := s.free + 1 } → bs = u.saveRecord (v + 1) s.free →
    exec (.saveEnd v false) s = .next (s.keepPilot (((u.poke (u.saveAddr (v + 1)) bs false).setUsed (v + 1) bs.length).setInst (v + 1) 4))) ∧
  (∀ (v : VfId) (s : State) (x : SaveSrc), s.inst (v + 1) = 6 → x = { s := s, base := s.saveAddr (v + 1) } →
    exec (.restoreEnd v 0) s = .next (s.keepPilot (
      if x.reason (v + 1) = 0 then ((x.place s (v + 1)).setUsed (v + 1) x.total).setInst (v + 1) 4 else s.moveFailed (v + 1) (x.reason (v + 1))))) ∧
  (∀ (v : VfId) (s : State), s.inst (v + 1) = 7 → (s.clearInst (v + 1)).flr.get 0 (v + 1) = 0 →
    exec (.resetEnd v) s = .next (s.keepPilot ({ s.clearInst (v + 1) with flr := (s.clearInst (v + 1)).flr.set 0 (v + 1) 0 }.setInst (v + 1) 3))) ∧
  (∀ (v : VfId) (s : State), s.inst (v + 1) ≠ 0 → exec (.vfFlr v) s = .next (s.keepPilot (s.abortReset (v + 1) 1))) ∧
  (∀ (l k : Nat) (s : State) (x : LarderLine), s.larderLine l = some x → s.sharedRange l = some k → x.refetch = false →
    exec (.sharedRefetch l) s = .next { s with larder := s.larder.set none l (some { x with refetch := true }) }) ∧
  (∀ (l k : Nat) (host : Line) (s u : State) (x : LarderLine) (d : Line), s.larderLine l = some x → s.sharedRange l = some k → x.refetch = true → s.backing k l host = (d, false) →
    u = ({ s with larder := s.larder.set none l (some { x with refetch := false, poison := false, data := d, enc := encodingOf d x.pinned s.compress }) }.log
      { kind := 0x08, index := (s.home l).1, cls := .corrected, address := 128 * l, sub := x.way, aux := (s.home l).2 }) →
    exec (.sharedRefetchDone l host) s = .next (s.keepPilot (((u.bump Reg.HAT_SHR_CNT [k] F.HAT_SHR_CNT_REFETCH 1).wake l).beginDelete
      (((u.bump Reg.HAT_SHR_CNT [k] F.HAT_SHR_CNT_REFETCH 1).wake l).home l).1 (((u.bump Reg.HAT_SHR_CNT [k] F.HAT_SHR_CNT_REFETCH 1).wake l).home l).2 x.way))) ∧
  (∀ (l k : Nat) (s : State) (x : LarderLine), s.larderLine l = some x → s.sharedRange l = some k → x.refetch = true →
    ∃ u : State, exec (.sharedRefetchFail l) s = .next (s.keepPilot ((u.tellSharers k 4 l).wake l)) ∧ u.larderLine l = some { x with refetch := false, poison := true } ∧
      u.fld Reg.ERR_PROD [] F.ERR_PROD_PROD = (s.fld Reg.ERR_PROD [] F.ERR_PROD_PROD + 1) % 2 ^ 32)

/-- Joist messages at their destination (R267, R268, R276): a Pantry read or write answered, an increment, a register access answered by the die, completions that meet their requests, and an event report. AUX is read through open functions (log 53), the model's choice. -/
def Obligations.JoistMessages : Prop :=
  (∀ (d : DieId) (k : Nat) (s u : State) (m : JoistMsg) (c off n : Nat), JoistAt s d k m u → m.type = 0x0A → regionOf m.addr = .pantry c off → n = min 256 (Config.joistAux 0 m.aux) → u.backed m.addr = true → off + n ≤ pantrySize →
    exec (.prd d k) s = .next { u with joistOut := u.joistOut ++ [(d.val, m.answer 0x32 n (s.pantryNat c off n) (s.pantryPoison c off n) false false)] }) ∧
  (∀ (d : DieId) (k : Nat) (s u : State) (m : JoistMsg) (c off n : Nat), JoistAt s d k m u → m.type = 0x0B → regionOf m.addr = .pantry c off → n = min (16 * m.dslots) (Config.joistAux 1 m.aux) → u.backed m.addr = true → off + n ≤ pantrySize →
    exec (.pwr d k) s = .next (s.keepPilot (((u.setPantry c off (leBytes n m.data) m.poison).stored m.addr n).joistReply d (m.answer 0x27 0 0 false false false)))) ∧
  (∀ (d : DieId) (k : Nat) (s u : State) (m : JoistMsg), JoistAt s d k m u → m.type = 0x0A → (∀ c off, regionOf m.addr ≠ .pantry c off) →
    exec (.prd d k) s = .next (s.keepPilot (u.joistReply d (m.answer 0x32 (min 256 (Config.joistAux 0 m.aux)) 0 false true false)))) ∧
  (∀ (d : DieId) (k : Nat) (s u : State) (m : JoistMsg), JoistAt s d k m u → m.type = 0x0C → m.dagent < 16 →
    exec (.tinc d k) s = .next (s.keepPilot (u.addTally (8 * (16 * d + m.dagent) + Config.joistAux 7 m.aux % 8) (Config.joistAux 2 m.aux % 4096)
      { amount := Config.joistAux 3 m.aux % 2 ^ 32, kind := Config.joistAux 4 m.aux % 8, scope := Config.joistAux 5 m.aux % 8, core := Config.joistAux 6 m.aux % 512 }))) ∧
  (∀ (d : Fin 6) (k : Nat) (s u : State) (m : JoistMsg), JoistAt s d k m u → m.type = 0x27 → exec (.pcmp d k) s = .next (s.keepPilot (u.joistDone m false))) ∧
  (∀ (d : Fin 6) (k : Nat) (s u : State) (m : JoistMsg), JoistAt s d k m u → m.type = 0x32 → exec (.pdat d k) s = .next (s.keepPilot (u.joistDone m true))) ∧
  (∀ (d : Fin 6) (k : Nat) (s u : State) (m : JoistMsg), JoistAt s d k m u → m.type = 0x31 → exec (.cmpd d k) s = .next (s.keepPilot (u.joistDone m true))) ∧
  (∀ (d : Fin 6) (k : Nat) (s u : State) (m : JoistMsg), JoistAt s d k m u → m.type = 0x42 →
    exec (.gcmp d k) s = .next (s.keepPilot { u.joistDone m true with replies := { who := .storekeeper, status := if m.err then 2 else 0, len := 8, data := m.data % 2 ^ 64 } :: (u.joistDone m true).replies })) ∧
  (∀ (d : Fin 6) (k : Nat) (s u : State) (m : JoistMsg), JoistAt s d k m u → m.type = 0x43 → exec (.sevt d k) s = .next u)

/-- Joist links (R265, R266, R269, R272, R274-R278): flits, sending, modules, silence, a die lost through its supply, and rejoining. Filler slots and reassembly are log 53, die loss in one step is log 55: the model's choices. -/
def Obligations.JoistLinks : Prop :=
  (∀ (k : Fin 16) (m : Fin 24) (f : BitVec 2048) (s u : State) (j : Nat), j = k.val / 2 → s.linkState j = 2 → (s.fld Reg.JST_LINK_STAT [j] F.JST_LINK_STAT_MODULES).testBit m = true → flitGood f = false →
    u = (s.bump Reg.JST_LINK_CNT [j] F.JST_LINK_CNT_CRC_ERR 1).setJoistLink j { s.joistLink j with crc := (s.joistLink j).crc.set 0 m ((s.joistLink j).crc.get 0 m + 1) } →
    exec (.joistFlitReceive k m f) s = .next (u.setJoist k { u.joist k with naking := true })) ∧
  (∀ (k : Fin 16) (m : Fin 24) (f : BitVec 2048) (s t u : State) (j back : Nat), j = k.val / 2 → s.linkState j = 2 → (s.fld Reg.JST_LINK_STAT [j] F.JST_LINK_STAT_MODULES).testBit m = true → flitGood f = true →
    t = s.setJoistLink j { s.joistLink j with silent := (s.joistLink j).silent.erase (wireFrom k) } → back = 2 * j + (1 - k.val % 2) →
    u = (t.setJoist back ((t.joist back).told joistKind f)).when (flitField f joistKind.nak 1 == 1) (fun s => s.bump Reg.JST_LINK_CNT [j] F.JST_LINK_CNT_REPLAY 1) →
    exec (.joistFlitReceive k m f) s = .next (s.keepPilot (if flitField f joistKind.kindLo 2 ≠ 0 then u else
      (splitSlots (fun h => 1 + fieldOf h 85 81) (((u.joist k).takeData joistKind f).partials.length + 1) ((u.joist k).takeData joistKind f).partials).1.foldl (fun s ss => s.joistDeliver k ss)
        (u.setJoist k { (u.joist k).takeData joistKind f with partials := (splitSlots (fun h => 1 + fieldOf h 85 81) (((u.joist k).takeData joistKind f).partials.length + 1) ((u.joist k).takeData joistKind f).partials).2 })))) ∧
  (∀ (k : Fin 16) (s : State), (s.joist k).buf ≠ [] → exec (.joistAckTimeout k) s = .next (s.keepPilot (s.linkFails (k.val / 2)))) ∧
  (∀ (d : Fin 6) (who : Agent) (m : JoistMsg) (s u : State) (j ch back : Nat) (w b : Wire), m.legal = true → m.slots.length = m.dslots → m.ddie ≠ d.val → m.sdie = d.val → s.routeOf d m.ddie = some j → ch = (joistChannel m.type).getD 0 →
    s.openLink j = true → (s.joist (wireOf j d)).room joistKind ch (1 + m.dslots) = true → back = 2 * j + (1 - wireOf j d % 2) → (s.joist (wireOf j d)).sendSlots joistKind (s.joist back) ch (m.hdr :: m.slots) = (w, b) →
    u = ({ s with joistOut := s.joistOut.erase (d.val, m) }.setJoist (wireOf j d) w).setJoist back b →
    exec (.joistMessageSend d who m) s = .next (if (completionType m.type).isSome then { u with joistLive := u.joistLive ++ [(m, who)] } else u)) ∧
  (∀ (j : LinkId) (s : State) (x : JoistLink), s.linkState j = 2 → x = s.joistLink j →
    exec (.moduleCrcWindow j) s = .next (s.keepPilot ((s.setJoistLink j { x with crc := [], waiting := x.waiting ++ (x.crc.filter (fun e => s.fld Reg.JST_LINK_CFG [j] F.JST_LINK_CFG_THRESH < e.2 && some e.1 != x.retraining && !x.waiting.contains e.1)).map (·.1) }).nextRetrain j))) ∧
  (∀ (j : LinkId) (lanes : Fin 9) (s u v : State) (m : Nat), (s.joistLink j).retraining = some m → u = s.setJoistLink j { s.joistLink j with retraining := none } →
    v = u.when (decide (0 < lanes.val)) (fun s => s.bump Reg.JST_LINK_STAT [j] F.JST_LINK_STAT_REPAIRED lanes) →
    exec (.moduleRetrainEnd j true lanes) s = .next (s.keepPilot ((v.setModules j (u.fld Reg.JST_LINK_STAT [j] F.JST_LINK_STAT_MODULES ||| 2 ^ m)).nextRetrain j))) ∧
  (∀ (j : LinkId) (d : Fin 6) (s u : State), s.linkState j = 2 → (farEnd j d).isSome = true → d.val ∉ (s.joistLink j).silent → u = s.setJoistLink j { s.joistLink j with silent := d.val :: (s.joistLink j).silent } →
    (List.range 8).all (fun k => (farEnd k d).isNone || u.linkState k != 2 || (u.joistLink k).silent.contains d.val) = false → exec (.linkSilence j d false) s = .next u) ∧
  (∀ (j : LinkId) (d : Fin 6) (s u : State), s.linkState j = 2 → (farEnd j d).isSome = true → d.val ∉ (s.joistLink j).silent → u = s.setJoistLink j { s.joistLink j with silent := d.val :: (s.joistLink j).silent } →
    (List.range 8).all (fun k => (farEnd k d).isNone || u.linkState k != 2 || (u.joistLink k).silent.contains d.val) = true → d.val < 4 → exec (.linkSilence j d false) s = .next (u.keepPilot (u.loseDie d 1))) ∧
  (∀ (r : Fin 12) (s : State), r.val < 4 → exec (.supplyMonitorTrip r) s = .next (s.keepPilot (s.loseDie r 2))) ∧
  (∀ (r : Fin 12) (s : State), r.val = 8 ∨ r.val = 9 → exec (.supplyMonitorTrip r) s = .next (s.pilotReset (r.val - 4))) ∧
  (∀ (w : Writer) (d : DieId) (s : State), isManager w = true → s.quadrant = true → s.dieState d = 3 → cool (s.fld Reg.PWR_DIE_STAT [d] F.PWR_DIE_STAT_TC) = true → cool (s.fld Reg.PWR_DIE_STAT [d] F.PWR_DIE_STAT_TU) = true →
    exec (.rejoin w d) s = .next (s.keepPilot ((s.wrote Reg.JST_DIE_CMD [] (1 + 16 * d)).setDieState d 4))) ∧
  (∀ (d : DieId) (x : Bringup) (s : State), s.dieState d = 4 → x.dies.getLsbD d = false → exec (.rejoinEnd d x) s = .next (s.keepPilot (s.setDieState d 3))) ∧
  (∀ (d : DieId) (x : Bringup) (s u v : State) (lost : Nat), s.dieState d = 4 → x.dies.getLsbD d = true → x.undercrofts.getLsbD d = true → u = (s.resetClocks d).bringDie x d →
    v = ((List.range 8).foldl (fun s j => s.relink x d j) u).installRoutes → lost = v.fld Reg.LRD_COH_STAT [] F.LRD_COH_STAT_LOST →
    exec (.rejoinEnd d x) s = .next (s.keepPilot ((List.range 16).foldl (fun s k => s.setFld Reg.PWR_CL [16 * d + k] F.PWR_CL_STATE 0) (v.setFld Reg.LRD_COH_STAT [] F.LRD_COH_STAT_LOST (if lost.testBit d then lost - 2 ^ d.val else lost)))))

/-- Requests of a Chute port at their destination, with every check passed (R290, R291, R294, R295; Table CH-6): writes and reads at the inbound map's place, reductions at their home, increments; each answered with status 0, and a request of an unused epoch refused with status 1 and counted. Completions at the device that waits for them, forwarding at a transit device, a message that times out, and span management (R291, R298, R301, R303, R364). The order of the checks is log 56, the port that serves a message in transit log 58: the model's readings. -/
def Obligations.ChuteMessages : Prop :=
  (∀ (k : Nat) (s u : State) (p a : Nat) (m : ChuteMsg), ChuteAt s k p m → m.ddev = s.spanId → m.kind = 1 → s.chuteCheck m = 0 → s.inbound m true (m.len + 1) = some a → s.servedDown a = false →
    s.homeWrite a (leBytes (m.len + 1) m.data) m.poison = some u → exec (.rwr k) s = .next (s.keepPilot ((State.dropIn k u).chuteFinish (.chute p) m 0 0 false))) ∧
  (∀ (k : Nat) (s u : State) (p a : Nat) (m : ChuteMsg), ChuteAt s k p m → m.ddev = s.spanId → m.kind = 2 → s.chuteCheck m = 0 → s.inbound m true (m.len + 1) = some a → s.servedDown a = false →
    s.homeWrite a (leBytes (m.len + 1) m.data) m.poison = some u → exec (.rwrB k) s = .next (s.keepPilot (((State.dropIn k u).chuteCount m (m.len + 1) 5).chuteFinish (.chute p) m 0 0 false))) ∧
  (∀ (k : Nat) (s u : State) (p a : Nat) (m : ChuteMsg), ChuteAt s k p m → m.ddev = s.spanId → m.kind = 3 → s.chuteCheck m = 0 → s.inbound m true (m.len + 1) = some a → s.servedDown a = false →
    s.homeWrite a (leBytes (m.len + 1) m.data) m.poison = some u → exec (.rwrP k) s = .next (s.keepPilot (((State.dropIn k u).chuteCount m 1 5).chuteFinish (.chute p) m 0 0 false))) ∧
  (∀ (c : Instr) (k kind : Nat) (s t : State) (p a : Nat) (m : ChuteMsg), (c, kind) ∈ [(Instr.rred k, 4), (.rredB k, 5), (.rredP k, 6)] → ChuteAt s k p m → m.ddev = s.spanId → m.kind = kind → s.chuteCheck m = 0 →
    s.inbound { m with addr := m.addr / 128 * 128 } true 128 = some a → s.servedDown a = false → hasHome a = true → t = { State.dropIn k s with chuteReds := s.chuteReds ++ [(s.redTag, (⟨m, .chute p, none⟩ : ChuteItem))] } →
    exec c s = .next (s.keepPilot (t.arrive { kind := .red, who := .chute p, line := a / 128, tag := s.redTag, red := some (chuteRed m), poison := m.poison }))) ∧
  (∀ (k : Nat) (s : State) (p : Nat) (m : ChuteMsg), ChuteAt s k p m → m.ddev = s.spanId → m.kind = 7 → s.chuteCheck m = 0 →
    exec (.rtinc k) s = .next (s.keepPilot (((State.dropIn k s).chuteCount m (m.addr % 65536) 6).chuteFinish (.chute p) m 0 0 false))) ∧
  (∀ (k : Nat) (s u : State) (p a : Nat) (m : ChuteMsg) (bs : List Byte) (q : Bool), ChuteAt s k p m → m.ddev = s.spanId → m.kind = 8 → s.chuteCheck m = 0 → s.inbound m false (m.len + 1) = some a → s.servedDown a = false →
    s.homeRead a (m.len + 1) = some (u, bs, q) → exec (.rrd k) s = .next (s.keepPilot ((State.dropIn k u).chuteFinish (.chute p) m 0 (ofLeBytes bs) q))) ∧
  (∀ (c : Instr) (k kind : Nat) (s t : State) (p : Nat) (m : ChuteMsg), (c, kind) ∈ [(Instr.rwr k, 1), (.rwrB k, 2), (.rwrP k, 3), (.rred k, 4), (.rredB k, 5), (.rredP k, 6), (.rtinc k, 7), (.rrd k, 8)] → ChuteAt s k p m →
    m.ddev = s.spanId → m.kind = kind → s.chuteCheck m = 1 → t = (State.dropIn k s).bump Reg.CHU_DROP [] F.CHU_DROP_STALE 1 → exec c s = .next (s.keepPilot (t.chuteFinish (.chute p) m 1 0 false))) ∧
  (∀ (k : Nat) (s t : State) (p : Nat) (m : ChuteMsg) (e : Nat × ChuteMsg × Agent), ChuteAt s k p m → m.ddev = s.spanId → m.kind = 0x10 → t = State.dropIn k s →
    s.chuteLive.find? (fun e => e.1 == p && e.2.1.score == m.score && e.2.1.tag == m.tag) = some e →
    exec (.rcmp k) s = .next (s.keepPilot (({ t with chuteLive := t.chuteLive.erase e }).chuteDone e.2.2 e.2.1 m.len m.data m.poison))) ∧
  (∀ (k : Nat) (s t : State) (p : Nat) (m : ChuteMsg) (e : Nat × ChuteMsg × Agent), ChuteAt s k p m → m.ddev = s.spanId → m.kind = 0x11 → t = State.dropIn k s →
    s.chuteLive.find? (fun e => e.1 == p && e.2.1.score == m.score && e.2.1.tag == m.tag) = some e →
    exec (.rcmpd k) s = .next (s.keepPilot (({ t with chuteLive := t.chuteLive.erase e }).chuteDone e.2.2 e.2.1 0 m.data m.poison))) ∧
  (∀ (c : Instr) (k kind : Nat) (s : State) (p : Nat) (m : ChuteMsg), (c, kind) ∈ [(Instr.rcmp k, 0x10), (.rcmpd k, 0x11)] → ChuteAt s k p m → m.ddev = s.spanId → m.kind = kind →
    s.chuteLive.find? (fun e => e.1 == p && e.2.1.score == m.score && e.2.1.tag == m.tag) = none → exec c s = .next ((State.dropIn k s).bump Reg.CHU_DROP [] F.CHU_DROP_LATE 1)) ∧
  (∀ (k : Nat) (s t : State) (p q : Nat) (m : ChuteMsg), ChuteAt s k p m → m.ddev ≠ s.spanId → m.channel = some 0 ∨ m.channel = some 2 → t = State.dropIn k s →
    t.chutePort (.chute p) m (t.fld Reg.CHU_RSTAT [] F.CHU_RSTAT_ALT) = some q → exec (.chuteForward k) s = .next (s.keepPilot (t.chutePush m (.chute p) (some q)))) ∧
  (∀ (k : Nat) (s t : State) (p : Nat) (m : ChuteMsg) (e : Nat × Nat × ChuteMsg), ChuteAt s k p m → m.ddev ≠ s.spanId → m.channel = some 1 → t = State.dropIn k s →
    s.chuteFwd.find? (fun e => e.1 == p && e.2.2.sdev == m.ddev && e.2.2.score == m.score && e.2.2.tag == m.tag) = some e →
    exec (.chuteForward k) s = .next (s.keepPilot (({ t with chuteFwd := t.chuteFwd.erase e }).chutePush m (.chute p) (some e.2.1)))) ∧
  (∀ (k : Nat) (s : State) (e : Nat × ChuteMsg × Agent), s.chuteLive[k]? = some e → exec (.messageTimeout k) s = .next (s.keepPilot (({ s with chuteLive := s.chuteLive.eraseIdx k }).chuteDone e.2.2 e.2.1 6 0 false))) ∧
  (∀ (k : Nat) (s t : State) (p : Nat) (m : ChuteMsg), ChuteAt s k p m → m.ddev = s.spanId → m.kind = 0x18 → m.data % 256 = 1 → m.data / 65536 % 65536 = s.spanId → t = State.dropIn k s →
    exec (.spnPwr k) s = .next (t.takeCap (m.data / 2 ^ 160 % 2 ^ 32))) ∧
  (∀ (k : Nat) (s t : State) (p : Nat) (m : ChuteMsg), ChuteAt s k p m → m.ddev = s.spanId → m.kind = 0x19 → t = State.dropIn k s →
    exec (.spnCepoch k) s = .next (s.keepPilot ((t.setFld Reg.CHU_SPAN [] F.CHU_SPAN_CEPOCH (m.data % 2 ^ 32)).chuEvent 2))) ∧
  (∀ (k : Nat) (s : State) (p : Nat) (m : ChuteMsg), ChuteAt s k p m → m.ddev = s.spanId → m.kind = 0x1A → s.fld Reg.CHU_SPAN [] F.CHU_SPAN_MASTER = s.spanId →
    exec (.spnFail k) s = .next (s.keepPilot (State.dropIn k s).raiseEpoch))

/-- Chute ports (R284, R285, R287, R289, R293, R297, R299, R300, R302, R405): blocks, acknowledgements, sending, failures, training, the manager's commands. What a failing port does to queued answers, and what training yields, is log 57, the model's reading. -/
def Obligations.ChutePorts : Prop :=
  (∀ (p : PortId) (corrected : Nat) (bad : Fin 7) (block : BitVec 30840) (s t : State), s.portState p = 2 → 0 < bad.val →
    t = (s.bump Reg.CHU_PORT_FEC [p] F.CHU_PORT_FEC_CORR corrected).bump Reg.CHU_PORT_CNT [p] F.CHU_PORT_CNT_UNCORR bad →
    exec (.chuteBlockReceive p corrected bad block) s = .next (t.setPorts p (t.portTx p) { t.portRx p with naking := true })) ∧
  (∀ (p : PortId) (corrected : Nat) (block : BitVec 30840) (s t : State), s.portState p = 2 → t = (s.bump Reg.CHU_PORT_FEC [p] F.CHU_PORT_FEC_CORR corrected).bump Reg.CHU_PORT_CNT [p] F.CHU_PORT_CNT_UNCORR 0 →
    exec (.chuteBlockReceive p corrected 0 block) s = .next (s.keepPilot ((List.range 15).foldl (fun s k => s.chuteFlit p (BitVec.ofNat 2048 (block.toNat >>> (120 + 2048 * k)))) t))) ∧
  (∀ (p : PortId) (s : State), exec (.chuteAckInterval p) s = .next (s.setPorts p (s.portTx p) { s.portRx p with unacked := 0, returns := (s.portRx p).returns.drop 1 })) ∧
  (∀ (k : Nat) (s u : State) (p t : Nat) (x : ChuteItem) (m : ChuteMsg) (tx rx : Wire), s.chuteOut[k]? = some x → x.msg.ddev ≠ s.spanId ∨ x.port.isSome → isReq x.msg = true → (∀ i, x.who ≠ .chute i) →
    x.port.or (s.chutePort x.who x.msg (s.fld Reg.CHU_RSTAT [] F.CHU_RSTAT_ALT)) = some p → s.portState p = 2 → s.freeTag p x.msg.score = some t → m = { x.msg with tag := t } →
    (s.portTx p).room chuteKind 0 m.slots.length = true → (s.portTx p).sendSlots chuteKind (s.portRx p) 0 m.slots = (tx, rx) →
    u = (({ s with chuteOut := s.chuteOut.eraseIdx k }).setPorts p tx rx).account (s.bayOfCore m.score) Reg.BAY_CHU Reg.BAY_INST_CHU m.bytes →
    exec (.chuteMessageSend k) s = .next (s.keepPilot { u with chuteLive := u.chuteLive ++ [(p, m, x.who)] })) ∧
  (∀ (p : PortId) (s : State), (s.portTx p).buf ≠ [] → exec (.chuteAckTimeout p) s = .next (s.keepPilot (s.portFails p))) ∧
  (∀ (p : PortId) (lane : Fin 12) (s : State) (v : Nat), v = s.fld Reg.CHU_PORT_STAT [p] F.CHU_PORT_STAT_LANES → v.testBit lane = true → s.portState p = 2 →
    exec (.laneLockLoss p lane) s = .next (s.keepPilot ((s.setFld Reg.CHU_PORT_STAT [p] F.CHU_PORT_STAT_LANES (v - 2 ^ lane.val)).portFails p))) ∧
  (∀ (p : PortId) (peer : Fin 2048) (level : Fin 256) (s t : State), s.portState p = 1 → s.bit Reg.CHU_PORT_CFG [p] F.CHU_PORT_CFG_EN = true → peer.val ≠ s.spanId →
    t = ((((s.setPortState p 2).setPorts p {} {}).setFld Reg.CHU_PORT_STAT [p] F.CHU_PORT_STAT_PEER peer).setFld Reg.CHU_PORT_STAT [p] F.CHU_PORT_STAT_LANES 0xFFF) →
    exec (.chuteTrainingDone p peer level) s = .next (t.setFld Reg.CHU_PORT_STAT [p] F.CHU_PORT_STAT_LEVEL (min level.val (t.fld Reg.DEV_FEATURE [] F.DEV_FEATURE_EFFECTIVE)))) ∧
  (∀ (p : PortId) (peer : Fin 2048) (level : Fin 256) (s : State), s.portState p = 1 → s.bit Reg.CHU_PORT_CFG [p] F.CHU_PORT_CFG_EN = true → peer.val = s.spanId →
    exec (.chuteTrainingDone p peer level) s = .next (s.keepPilot (s.chuEvent 1))) ∧
  (∀ (p : PortId) (s : State), s.portState p = 1 → s.bit Reg.CHU_PORT_CFG [p] F.CHU_PORT_CFG_EN = true → exec (.chuteTrainingRetry p) s = .next (s.setFld Reg.CHU_PORT_STAT [p] F.CHU_PORT_STAT_LANES 0)) ∧
  (∀ (w : Writer) (p : PortId) (s t : State), isManager w = true → t = s.wrote Reg.CHU_CMD [] (1 + 16 * p) → t.portState p = 3 →
    exec (.retrain w p) s = .next ((t.setPortState p 1).setFld Reg.CHU_PORT_STAT [p] F.CHU_PORT_STAT_LANES 0)) ∧
  (∀ (w : Writer) (s t : State), isManager w = true → t = s.wrote Reg.CHU_CMD [] 2 → (∀ p < 8, (t.fld Reg.CHU_RSTAT [] F.CHU_RSTAT_FAILED).testBit p = true → t.portState p = 2) →
    exec (.restoreRoutes w) s = .next ((t.setFld Reg.CHU_RSTAT [] F.CHU_RSTAT_FAILED 0).setFld Reg.CHU_RSTAT [] F.CHU_RSTAT_ALT 0)) ∧
  (∀ (w : Writer) (s t : State) (bs : List (Byte × Bool)), isManager w = true → t = s.wrote Reg.CHU_CMD [] 3 → bs = (List.range 36864).map (fun i => t.peekByte (t.fld Reg.CHU_XADDR [] F.CHU_XADDR_ADDR * 64 + i)) →
    t.storeBacked (t.fld Reg.CHU_XADDR [] F.CHU_XADDR_ADDR * 64) 36864 = true → bs.any (·.2) = false →
    exec (.xload w) s = .next { t with transit := (List.range 9).map (fun i => ⟨i, ((bs.drop (4096 * i)).take 4096).map (·.1)⟩) }) ∧
  (∀ (w : Writer) (v : DWord) (s t : State), isManager w = true → s.bit Reg.CHU_SPAN [] F.CHU_SPAN_EN = false → t = s.setFld Reg.CHU_SPAN [] F.CHU_SPAN_EN (fieldOf v F.CHU_SPAN_EN.hi F.CHU_SPAN_EN.lo) →
    exec (.spanEnable w v) s = .next ((t.setFld Reg.CHU_SPAN [] F.CHU_SPAN_ID (fieldOf v F.CHU_SPAN_ID.hi F.CHU_SPAN_ID.lo)).setFld Reg.CHU_SPAN [] F.CHU_SPAN_MASTER (fieldOf v F.CHU_SPAN_MASTER.hi F.CHU_SPAN_MASTER.lo))) ∧
  (∀ (p : PortId) (s : State), s.power.mode = 2 → exec (.inboundChuteRetrainRequest p) s = .next { s with pilot := { s.pilot with wakePin := true } })

/-- A 64-bit register write by someone who reaches the register, and the command's effect by the kind of register (R3-R6, R311): plain fields, a register with rules of its own, a Hatch page, a core window, SEC_CMD; and an offset with no register, which a record tells of. What a writer of a read-only or aliased register sees is logs 11 and 12, the model's reading. -/
def Obligations.RegisterWrites : Prop :=
  (∀ (w : Writer) (off : Nat) (v : DWord) (s u : State) (r : RegSpec) (is : List Nat) (bad : List Fld), Reaches s w off → MayWrite w r is → Plain s w off r is v → r.readOnly = false →
    u = (if r.base = Reg.BAY_CLUSTERS.base then s.tdiBreak (s.instOfBay (is.headD 0)) else s) → u.stateCause r is v = 0 → bad = ((u.linkRules r is v ++ u.powerRules r v).filter (fun e => !e.2)).map (·.1) →
    exec (.regWrite w off 8 v) s = .next (s.keepPilot (((u.setReg r is (r.written (u.reg r is) v bad)).when (!bad.isEmpty) (fun s => s.refuse w off causeReserved)).afterWrite r is (u.reg r is)))) ∧
  (∀ (w : Writer) (off : Nat) (v : DWord) (s u : State) (r : RegSpec) (is : List Nat), Reaches s w off → MayWrite w r is → Plain s w off r is v → r.readOnly = false →
    u = (if r.base = Reg.BAY_CLUSTERS.base then s.tdiBreak (s.instOfBay (is.headD 0)) else s) → u.stateCause r is v ≠ 0 → exec (.regWrite w off 8 v) s = .next (s.keepPilot (u.refuse w off (u.stateCause r is v)))) ∧
  (∀ (w : Writer) (off : Nat) (v : DWord) (s : State) (r : RegSpec) (is : List Nat), Reaches s w off → isManager w = true → Plain s w off r is v → r.readOnly = true → r.base ≠ Reg.LRD_RNG_ADDR.base → r.base ≠ Reg.LRD_RNG_LEN.base → strictBlock off = false → exec (.regWrite w off 8 v) s = .next s) ∧
  (∀ (w : Writer) (off : Nat) (v : DWord) (s : State) (r : RegSpec) (is : List Nat), Reaches s w off → isManager w = false → ¬ MayWrite w r is → Plain s w off r is v → exec (.regWrite w off 8 v) s = .next (s.keepPilot (s.refuse w off causeActor))) ∧
  (∀ (w : Writer) (off : Nat) (v : DWord) (s t : State) (r : RegSpec) (is : List Nat), Reaches s w off → findReg off = some (r, is) → off < 0x10000000 → ¬ (0x2000000 ≤ off ∧ off < 0x3000000) → s.specialWrite w off r is v = some t →
    exec (.regWrite w off 8 v) s = .next (s.keepPilot t)) ∧
  (∀ (w : Writer) (off : Nat) (v : DWord) (s : State) (r : RegSpec) (is : List Nat), Reaches s w off → findReg off = some (r, is) → 0x2000000 ≤ off → off < 0x3000000 → exec (.regWrite w off 8 v) s = .next (s.keepPilot (s.hatchWrite w r is v))) ∧
  (∀ (w : Writer) (off : Nat) (v : DWord) (s : State) (r : RegSpec) (is : List Nat), Reaches s w off → findReg off = some (r, is) → 0x10000000 ≤ off → exec (.regWrite w off 8 v) s = .next (s.keepPilot (s.windowWrite w off r is v))) ∧
  (∀ (w : Writer) (v : DWord) (s : State), tenantOf w = none → s.closedFor w = false → exec (.regWrite w Reg.SEC_CMD.base 8 v) s = .next (s.secWrite w v)) ∧
  (∀ (w : Writer) (off : Nat) (v : DWord) (s : State), Reaches s w off → findReg off = none → aliasOf off = none → windowOf off = none → exec (.regWrite w off 8 v) s = .next (s.keepPilot (s.refuse w off causeNoReg)))

/-- A write narrower than 64 bits changes no register and leaves one contained record (R4): the producer count grows by one and nothing but the record, its counts and its interrupt change. -/
def Obligations.NarrowWriteRefused : Prop :=
  ∀ (w : Writer) (off width : Nat) (v : DWord) (s : State), s.inBoxroom = false → s.closedFor w = false → width ≠ 8 →
    ∃ t, exec (.regWrite w off width v) s = .next t ∧ t.fld Reg.ERR_PROD [] F.ERR_PROD_PROD = (s.fld Reg.ERR_PROD [] F.ERR_PROD_PROD + 1) % 2 ^ 32 ∧
      t.mem = s.mem ∧ t.seqs = s.seqs ∧ t.groups = s.groups ∧ t.porters = s.porters ∧ t.larder = s.larder ∧ t.imgs = s.imgs ∧ t.pilot = s.pilot ∧ t.pending = s.pending

/-- What a register write leaves in each bit (R5): an RW bit takes the value written, a one clears an RW1C bit, every other bit stays. -/
def Obligations.FieldAccessTypes : Prop :=
  ∀ (r : RegSpec) (old v : DWord) (k : Nat), k < 64 →
    (r.written old v []).getLsbD k = (if r.w1cMask.testBit k && v.getLsbD k then false else if r.rwMask.testBit k then v.getLsbD k else old.getLsbD k)

/-- Register reads with their side effects, by the manager's side, through the debug port and over the Joist, and a register write over each (R4-R6, R267, R382). How several words are read in turn is log 63, the model's reading. -/
def Obligations.RegisterReads : Prop :=
  (∀ (w : Writer) (off : Nat) (h : Half) (s u : State) (v : DWord), tenantOf w = none → (∀ n o, windowOf off = some (n, o) → s.gated (clusterOf n) = false) → s.regRead off h = (u, v) →
    exec (.rcRead w off h) s = .next (s.keepPilot (u.reply { who := w, len := (halfHi h + 1 - halfLo h) / 8, data := v.toNat }))) ∧
  (∀ (off : Nat) (h : Half) (s : State) (r : RegSpec) (is : List Nat), s.inBoxroom = false → findReg off = some (r, is) → (s.regRead off h).1 = s.clearRead r is h) ∧
  (∀ (off : Nat) (v : DWord) (s : State), s.power.mode = 0 → 2 ≤ s.debug → exec (.regacc off (some v)) s = .next (s.regWrite .tap off 8 v)) ∧
  (∀ (off : Nat) (s u : State) (v : DWord), s.power.mode = 0 → 2 ≤ s.debug → s.gatedWindow off = none → s.regRead off .whole = (u, v) → exec (.regacc off none) s = .next (s.keepPilot (u.reply { who := .tap, len := 8, data := v.toNat }))) ∧
  (∀ (off : Nat) (x : Option DWord) (s : State), s.power.mode ≠ 2 → (s.debug < 2 ∨ s.power.mode = 1 ∧ s.unpowered off = true) → exec (.regacc off x) s = .next (s.reply { who := .tap, len := 8 })) ∧
  (∀ (d : Fin 6) (k : Nat) (s t u : State) (m : JoistMsg) (v : DWord), JoistAt s d k m t → m.type = 0x40 → t.regRead m.addr .whole = (u, v) →
    exec (.grd d k) s = .next (s.keepPilot (u.joistReply d (m.answer 0x42 8 v.toNat false false false)))) ∧
  (∀ (d : Fin 6) (k : Nat) (s t u : State) (m : JoistMsg), JoistAt s d k m t → m.type = 0x41 → u = t.regWrite (joistWriter m) m.addr 8 (BitVec.ofNat 64 m.data) →
    exec (.gwr d k) s = .next (u.keepPilot (u.joistReply d (m.answer 0x42 0 0 false false false))))

/-- VENDORSCAN stops while a chain is shifted, in the Vendor state alone (R382): what an internal chain holds the spec does not give. In every other state it shifts nothing and changes nothing. -/
def Obligations.VendorScanStops : Prop :=
  (∀ s : State, s.debug = 3 → s.power.mode ≠ 2 → exec .vendorscan s = .fault .internalChain) ∧
  (∀ s : State, s.debug ≠ 3 ∨ s.power.mode = 2 → exec .vendorscan s = .next s)

/-- Requests through the host port (R307-R309, R315, R317-R319, R321): configuration requests, memory requests of the functions that serve them, and those that are Unsupported Requests. What a configuration read returns is open (log 61), sizes of accesses are log 63: the model's readings. -/
def Obligations.HostRequests : Prop :=
  (∀ (f : InstId) (op : CfgOp) (s t : State), s.hostUp = true → s.pilot.phase = 2 → (f.val = 0 ∨ s.vfOn = true ∧ s.vfReady = true ∧ s.inBoxroom = false) → t = s.startSucceeds →
    exec (.configRequest f op) s = .next (t.keepPilot ((t.configAct f op).reply { who := .fn 0, tag := tagDrs }))) ∧
  (∀ (f : InstId) (op : CfgOp) (s : State), s.hostUp = true → s.pilot.phase = 3 → (f.val = 0 ∨ s.vfOn = true ∧ s.vfReady = true ∧ s.inBoxroom = false) → exec (.configRequest f op) s = .next (s.keepPilot (s.configAct f op))) ∧
  (∀ (f : InstId) (op : CfgOp) (s : State), s.hostUp = true → s.pilot.phase < 2 → exec (.configRequest f op) s = .next (s.reply { who := .fn f, status := stRrs })) ∧
  (∀ (f : InstId) (bar : Fin 6) (off n : Nat) (peer ide : Bool) (s : State), Serves s f ide → (bar.val = 0 ∨ s.inBoxroom = false) → 0 < n → off + n ≤ s.barBytes f bar →
    exec (.hostRequest f bar off (.read n) peer ide) s = .next (s.hostAdmit { fn := f.val, bar := bar, addr := off, len := n, write := none, poison := false, peer := peer })) ∧
  (∀ (f : InstId) (bar : Fin 6) (off : Nat) (bs : List Byte) (peer ide : Bool) (s : State), Serves s f ide → (bar.val = 0 ∨ s.inBoxroom = false) → bs ≠ [] → off + bs.length ≤ s.barBytes f bar →
    exec (.hostRequest f bar off (.write bs false) peer ide) s = .next (s.hostAdmit { fn := f.val, bar := bar, addr := off, len := bs.length, write := some bs, poison := false, peer := peer })) ∧
  (∀ (f : InstId) (bar : Fin 6) (off n : Nat) (peer ide : Bool) (s : State), Serves s f ide → s.barBytes f bar < off + n → exec (.hostRequest f bar off (.read n) peer ide) s = .next (s.reply { who := .fn (Fin.ofNat 33 f.val), status := stUr, len := n })) ∧
  (∀ (f : InstId) (bar : Fin 6) (off : Nat) (peer ide : Bool) (s : State), Serves s f ide → exec (.hostRequest f bar off .atomic peer ide) s = .next (s.reply { who := .fn (Fin.ofNat 33 f.val), status := stUr, len := 8 })) ∧
  (∀ (k : Nat) (r : HostIn) (s t : State), s.hostIn[k]? = some r → r.write = none → t = { s with hostIn := s.hostIn.eraseIdx k } →
    exec (.completerAbortTimeout k) s = .next (s.keepPilot ((t.reply { who := .fn (Fin.ofNat 33 r.fn), status := stCa, len := r.len }).logHost r.fn r.addr)))

/-- The device's own requests to the host and its interrupts (R312-R316): completions, their time limit, translations, invalidations, unmasking a vector. Functions and the link (R307, R317-R320): VF Enable, readiness, function 0's reset, link down and training. Late completions, translation sizes and the cache's victim are log 62, the model's reading. -/
def Obligations.HostTraffic : Prop :=
  (∀ (tag : Nat) (data : Nat) (poison : Bool) (r : HostReq) (s : State), s.issued tag = some r → exec (.hostCompletion tag 0 data poison) s = .next (s.keepPilot ((s.dropReq r).answerReq r true (data % 2 ^ (8 * r.len)) poison))) ∧
  (∀ (tag : Nat) (status : Fin 3) (data : Nat) (poison : Bool) (r : HostReq) (s : State), s.issued tag = some r → status ≠ 0 → exec (.hostCompletion tag status data poison) s = .next (s.keepPilot (s.failReq r))) ∧
  (∀ (tag : Nat) (status : Fin 3) (data : Nat) (poison : Bool) (s : State), s.issued tag = none → exec (.hostCompletion tag status data poison) s = .next (s.bump Reg.HST_ERR [] F.HST_ERR_LATE 1)) ∧
  (∀ (tag : Nat) (r : HostReq) (s : State), s.hostOut.find? (fun r => r.tag == tag) = some r → exec (.completionTimeout tag) s = .next (s.keepPilot ((s.bump Reg.HST_ERR [] F.HST_ERR_CTO 1).failReq r))) ∧
  (∀ (tag : Nat) (size : Fin 64) (r : HostReq) (s t : State) (k : Nat), s.hostOut.find? (fun r => r.tag == tag && r.waits) = some r → r.write = none → k = max 12 (min 30 size.val) → t = s.atcPut (r.fn, k, r.addr / 2 ^ k) →
    exec (.atsTranslation tag true size) s = .next (s.keepPilot { t with hostOut := t.hostOut.map (fun q => if q = r then { r with waits := false } else q) })) ∧
  (∀ (tag : Nat) (size : Fin 64) (r : HostReq) (s : State), s.hostOut.find? (fun r => r.tag == tag && r.waits) = some r → exec (.atsTranslation tag false size) s = .next (s.keepPilot (s.failReq r))) ∧
  (∀ (f : InstId) (size : Fin 64) (page : Nat) (s : State), s.hostUp = true → s.atsInval.length < 32 → ∃ t, exec (.atsInvalidate f size page) s = .next t ∧
    (∀ e ∈ t.atc, e ∈ s.atc ∧ ¬ (e.1 = f.val ∧ e.2.2 * 2 ^ e.2.1 < (page + 1) * 2 ^ size.val ∧ page * 2 ^ size.val < (e.2.2 + 1) * 2 ^ e.2.1)) ∧ t.hostOut = s.hostOut ∧ t.mem = s.mem ∧ t.regs = s.regs) ∧
  (∀ (f : InstId) (v : Fin 256) (s : State), v.val < vectorsOf f.val → s.msixPend.get false (vecKey f v) = true → s.hostUp = true → ∃ t, exec (.msixUnmask f v) s = .next t ∧ t.msixSent = (f.val, v.val) :: s.msixSent ∧
    t.msixPend.get false (vecKey f v) = false ∧ t.msixOpen.get false (vecKey f v) = true ∧ t.mem = s.mem ∧ t.regs = s.regs) ∧
  (∀ (x : Bringup) (s : State), s.hostUp = true → exec (.f0Flr x) s = .next (s.warmRestart x)) ∧
  (∀ s : State, s.hostUp = true → s.pilot.phase = 3 → s.vfOn = false → s.inBoxroom = false → exec .vfEnableSet s = .next { s with vfOn := true, vfReady := false }) ∧
  (∀ s : State, s.vfOn = true → s.vfReady = false → ∃ t, exec .vfReady s = .next t ∧ t.vfReady = true ∧ t.replies.length = s.replies.length + 32 ∧ t.regs = s.regs ∧ t.mem = s.mem) ∧
  (∀ s : State, s.hostUp = true → s.vfOn = true → exec .vfEnableClear s = .next (s.keepPilot ((List.range 32).foldl (fun s k => s.quiesceNow (k + 1)) { s with vfOn := false, vfReady := false, flr := s.flr.map (fun e => (e.1, 2)) }))) ∧
  (∀ s t : State, s.hostUp = true → t = s.hostOut.foldl (fun s r => s.failReq r) (s.setReg Reg.HST_LINK_STAT [] 0) → exec .hostLinkDown s = .next (s.keepPilot { t with hostIn := t.hostIn.filter (fun r => r.write.isSome) })) ∧
  (∀ (speed : Fin 8) (width : Fin 33) (s : State), 2 ≤ s.pilot.phase → speed ≠ 0 → width ≠ 0 → s.inBoxroom = false → s.msixPend = [] → ∃ t, exec (.hostLinkTrain speed width) s = .next t ∧ t.hostUp = true ∧
    t.fld Reg.HST_LINK_STAT [] F.HST_LINK_STAT_SPEED = min speed.val (s.fld Reg.HST_LINK_CFG [] F.HST_LINK_CFG_MAX_SPEED) ∧ t.fld Reg.HST_LINK_STAT [] F.HST_LINK_STAT_WIDTH = trainWidth width.val ∧ t.mem = s.mem ∧ t.hostOut = s.hostOut) ∧
  (∀ (speed : Fin 8) (width : Fin 33) (s : State), 2 ≤ s.pilot.phase → speed ≠ 0 → width ≠ 0 → s.inBoxroom = true → s.msixPend = [] → ∃ t, exec (.hostLinkTrain speed width) s = .next t ∧
    t.fld Reg.HST_LINK_STAT [] F.HST_LINK_STAT_SPEED = 1 ∧ t.fld Reg.HST_LINK_STAT [] F.HST_LINK_STAT_WIDTH = 1)

/-- The Cellar's channels: reads by how many tries fail, write-backs, refresh, retraining windows (R327-R332). That the outcome of the tries is an operand is log 66, the model's reading. -/
def Obligations.CellarChannels : Prop :=
  (∀ (l : Nat) (s u : State), s.isCellarLine l = true → s.larderLine l = none → s.fill l none = some u → u.packageFailed (u.channelOf l / 4) = false → exec (.cellarRead l 0 false) s = .next (s.keepPilot (u.bump Reg.CEL_CH_CNT [u.channelOf l] F.CEL_CH_CNT_RETRY 0))) ∧
  (∀ (l : Nat) (s u v : State), s.isCellarLine l = true → s.larderLine l = none → s.fill l none = some u → u.packageFailed (u.channelOf l / 4) = false →
    v = ((u.setFld Reg.CEL_EVT [] F.CEL_EVT_RETRY 1).bump Reg.CEL_CH_CNT [u.channelOf l] F.CEL_CH_CNT_RETRY 2) →
    exec (.cellarRead l 2 true) s = .next (s.keepPilot ((v.bump Reg.CEL_CH_CNT [u.channelOf l] F.CEL_CH_CNT_CORR 1).log { kind := 0x0E, index := u.channelOf l, cls := .corrected, address := 128 * l }))) ∧
  (∀ (l : Nat) (s : State) (x : LarderLine), s.isCellarLine l = true → s.cellarWaits l = false → s.lineBusy l = false → s.larderLine l = some x → x.dead = false → x.st = 2 →
    exec (.cellarWrite l) s = .next (s.keepPilot { s.cellarPut l x.data false x.poison with larder := s.larder.set none l (some { x with st := 1 }) })) ∧
  (∀ (c : ChanId) (temp : Byte) (s : State), s.chanState c = 2 ∨ s.chanState c = 3 → exec (.cellarRefresh c temp) s = .next (s.setFld Reg.CEL_CH_STAT [c] F.CEL_CH_STAT_TEMP temp.toNat)) ∧
  (∀ (c : Nat) (s t : State), s.hasCellar = true → s.bit Reg.CEL_STAT [] F.CEL_STAT_RETRAINING = false → s.cellarCtl.fold = none → s.turnChannel = some c →
    t = { s with cellarCtl := if s.cellarCtl.asked.contains c then { s.cellarCtl with asked := s.cellarCtl.asked.erase c } else { s.cellarCtl with turn := (c + 1) % 32 } } →
    exec .cellarRetrainTurn s = .next (((t.setFld Reg.CEL_STAT [] F.CEL_STAT_RETRAINING 1).setFld Reg.CEL_STAT [] F.CEL_STAT_RETRAIN_CH c).setChanState c 3)) ∧
  (∀ (c : Nat) (s t : State), s.bit Reg.CEL_STAT [] F.CEL_STAT_RETRAINING = true → c = s.fld Reg.CEL_STAT [] F.CEL_STAT_RETRAIN_CH → t = { s with cellarCtl := { s.cellarCtl with fails := s.cellarCtl.fails.set 0 c 0 } } →
    exec (.retrainWindowEnd true) s = .next ((t.setFld Reg.CEL_STAT [] F.CEL_STAT_RETRAINING 0).setChanState c 2)) ∧
  (∀ (c : Nat) (s t : State), s.bit Reg.CEL_STAT [] F.CEL_STAT_RETRAINING = true → c = s.fld Reg.CEL_STAT [] F.CEL_STAT_RETRAIN_CH → s.cellarCtl.fails.get 0 c = 2 → t = { s with cellarCtl := { s.cellarCtl with fails := s.cellarCtl.fails.set 0 c 3 } } →
    exec (.retrainWindowEnd false) s = .next (s.keepPilot (((t.setFld Reg.CEL_STAT [] F.CEL_STAT_RETRAINING 0).setChanState c 2).channelFails c)))

/-- Cellar commands of the manager, with a Cellar and no command running (R331, R333, R335, R336), and their refusals in the order the model checks them. That order is log 65, the model's reading. -/
def Obligations.CellarCommands : Prop :=
  (∀ (w : Writer) (c : ChanId) (s : State), CellarReady s w → exec (.cellarRetrainCmd w c) s = .next (s.keepPilot ((s.wrote Reg.CEL_CMD [] (2 + 2048 * c)).askRetrain c))) ∧
  (∀ (w : Writer) (p : Fin 8) (s u : State), CellarReady s w → s.foldCode p = 0 → u = (s.wrote Reg.CEL_CMD [] (1 + 256 * p)).flushAll →
    exec (.fold w p) s = .next (s.keepPilot { (u.setFld Reg.CEL_STAT [] F.CEL_STAT_STATE 3).setFld Reg.CEL_STAT [] F.CEL_STAT_BUSY 1 with cellarCtl := { u.cellarCtl with fold := some p.val } })) ∧
  (∀ (p : Nat) (s t : State), s.cellarCtl.fold = some p → (∀ q < 8, q ≠ p → s.packageFailed q = false) →
    t = (s.foldCellar p (s.fld Reg.CEL_CAP [] F.CEL_CAP_PKG_GIB) (s.fld Reg.DEV_INV_DIE [] F.DEV_INV_DIE_CELLAR_PKG)).setFld Reg.CEL_STAT [] F.CEL_STAT_BUSY 0 →
    exec .foldEnd s = .next (s.keepPilot { t.setFld Reg.CEL_STAT [] F.CEL_STAT_STATE 2 with cellarCtl := { t.cellarCtl with dead := false } })) ∧
  (∀ (w : Writer) (block : Fin 262144) (i : Fin 64) (s t : State), CellarReady s w → s.blockOk block = true → i.val ≤ 32 → t = s.wrote Reg.CEL_KEY_CMD [] (2 ^ 38 + 2 ^ 32 * i + block) →
    exec (.assign w block i) s = .next { t with keyOwner := t.keyOwner.set none block (some i.val) }) ∧
  (∀ (w : Writer) (block : Fin 262144) (s t : State), CellarReady s w → s.blockOk block = true → t = s.wrote Reg.CEL_KEY_CMD [] (2 * 2 ^ 38 + block) → exec (.keyClear w block) s = .next { t with keyOwner := t.keyOwner.set none block none }) ∧
  (∀ (w : Writer) (i : Fin 64) (s t : State), CellarReady s w → i.val ≤ 32 → t = s.wrote Reg.CEL_KEY_CMD [] (3 * 2 ^ 38 + 2 ^ 32 * i) → exec (.rekey w i) s = .next { t with keyGen := t.keyGen.set 0 i (t.keyGen.get 0 i + 1) }) ∧
  (∀ (w : Writer) (p : Fin 8) (s : State), isManager w = true → s.hasCellar = false → exec (.fold w p) s = .next (s.keepPilot (s.cellarRefuse w Reg.CEL_CMD.base causeState 4))) ∧
  (∀ (w : Writer) (p : Fin 8) (s : State), isManager w = true → s.hasCellar = true → s.bit Reg.CEL_STAT [] F.CEL_STAT_BUSY = true → exec (.fold w p) s = .next (s.keepPilot (s.cellarRefuse w Reg.CEL_CMD.base causeBusy 5)))

/-- Clocks (R339, R341-R348): the reference watch, PLL writes and starts, source switches, the spread's period, and the writes that the clock block refuses. Which code a refused write shows is log 68, the model's reading. -/
def Obligations.ClockCommands : Prop :=
  (∀ (count : Nat) (s : State), s.power.mode ≠ 2 → count < 10000 ∨ 16000 < count → exec (.refclkCheck count) s = .next ((s.keepPilot ((s.setFld Reg.CLK_REF [] F.CLK_REF_REF_OK 0).setFld Reg.CLK_EVT [] F.CLK_EVT_REF_BAD 1)).pilotReset 0)) ∧
  (∀ (u : Fin 6) (p : Fin 5) (v new : DWord) (s t : State), p.val < pllCount u → p.val ∉ selected u (s.reg Reg.CLK_SEL [u]) → 560 ≤ fieldOf v F.CLK_PLL_FBDIV.hi F.CLK_PLL_FBDIV.lo → fieldOf v F.CLK_PLL_FBDIV.hi F.CLK_PLL_FBDIV.lo ≤ 1120 →
    fieldOf v F.CLK_PLL_POSTDIV.hi F.CLK_PLL_POSTDIV.lo ≠ 0 → new = [F.CLK_PLL_FRAC, F.CLK_PLL_POSTDIV, F.CLK_PLL_FBDIV, F.CLK_PLL_EN].foldl (fun x f => withField x f.hi f.lo (fieldOf v f.hi f.lo)) (s.reg Reg.CLK_PLL [u, p]) →
    t = (s.setReg Reg.CLK_PLL [u, p] new).setReady u p false → exec (.clkPllWrite .storekeeper u p v) s =
      .next { t with clocks := { t.clocks with started := t.clocks.started.set none (8 * u.val + p.val) (if bitAt new F.CLK_PLL_EN.lo then some (t.reg Reg.CLK_REFCNT [u]).toNat else none) } }) ∧
  (∀ (u : Fin 6) (p : Fin 5) (s t : State) (c : Nat), s.clocks.started.get none (8 * u.val + p.val) = some c → 4096 ≤ ((s.reg Reg.CLK_REFCNT [u]).toNat + 2 ^ 64 - c) % 2 ^ 64 → t = s.setReady u p true →
    exec (.pllReady u p) s = .next { t with clocks := { s.clocks with started := s.clocks.started.set none (8 * u.val + p.val) none } }) ∧
  (∀ (u : Fin 6) (v new : DWord) (s : State), (∀ f ∈ selFields u, fieldOf v f.1.hi f.1.lo < f.2) → new = (selFields u).foldl (fun x f => withField x f.1.hi f.1.lo (fieldOf v f.1.hi f.1.lo)) (s.reg Reg.CLK_SEL [u]) → new ≠ s.reg Reg.CLK_SEL [u] →
    (∀ p ∈ selected u new, s.pllReady u p = true) → s.bit Reg.CLK_STAT [u] F.CLK_STAT_SWITCHING = false →
    exec (.clkSelWrite .storekeeper u v) s = .next ((s.setReg Reg.CLK_SEL [u] new).setFld Reg.CLK_STAT [u] F.CLK_STAT_SWITCHING 1)) ∧
  (∀ (u : Fin 6) (s : State), exec (.clockSwitchDone u) s = .next (s.setFld Reg.CLK_STAT [u] F.CLK_STAT_SWITCHING 0)) ∧
  (∀ (u : Fin 6) (s : State), ∃ t, exec (.sscPeriodStart u) s = .next t ∧ t.clocks.spread.get (resetOf Reg.CLK_SSC.fields 0) u = s.reg Reg.CLK_SSC [u] ∧ t.regs = s.regs ∧ t.mem = s.mem) ∧
  (∀ (w : Writer) (u : Fin 6) (v : DWord) (s : State), w ≠ .storekeeper → exec (.clkSelWrite w u v) s = .next (s.keepPilot (s.refuse w (Reg.CLK_SEL.addr [u]) causeActor))) ∧
  (∀ (u : Fin 6) (v : DWord) (p : Nat) (s : State), (∀ f ∈ selFields u, fieldOf v f.1.hi f.1.lo < f.2) → p ∈ selected u ((selFields u).foldl (fun x f => withField x f.1.hi f.1.lo (fieldOf v f.1.hi f.1.lo)) (s.reg Reg.CLK_SEL [u])) → s.pllReady u p = false →
    exec (.clkSelWrite .storekeeper u v) s = .next (s.keepPilot (s.clockRefuse u 1 (Reg.CLK_SEL.addr [u]))))

/-- Samples and throttling (R351-R356): one accumulator's step, a level taken at a frame, hard throttling of a hot die, a die lost to heat. Windows not yet full and reasons without a limit are log 69, the model's reading. -/
def Obligations.ThrottleAndHeat : Prop :=
  (∀ (amps : List Nat) (s : State), s.power.mode ≠ 2 → ∃ t, exec (.throttleTick amps) s = .next t ∧ t.mem = s.mem ∧ t.seqs = s.seqs ∧ t.groups = s.groups ∧ t.pilot = s.pilot ∧
    (∀ r < railCount, t.power.amps.get [] r = (amps.getD r 0 :: s.power.amps.get [] r).take 10000)) ∧
  (∀ (d : DieId) (s : State), exec (.throttleFrame d) s = .next (s.setFld Reg.PWR_DIE_STAT [d] F.PWR_DIE_STAT_LEVEL (s.power.level.get 0 d))) ∧
  (∀ (d : Fin 6) (tc tu : Byte) (s t : State), s.power.mode ≠ 2 → s.sampleHeat d tc tu = (t, false) → exec (.temperatureSample d tc tu) s = .next (s.keepPilot t)) ∧
  (∀ (d : Fin 6) (tc tu : Byte) (s t : State), s.power.mode ≠ 2 → s.sampleHeat d tc tu = (t, true) →
    exec (.temperatureSample d tc tu) s = .next (((s.keepPilot t).setPilot (fun p => { p with thermTrip := true })).dieLost d 3)) ∧
  (∀ (d : Fin 6) (tc tu : Byte) (s : State), d.val < 4 → s.dieUp d = true → 105 ≤ tc.toNat → tc ≠ 0xFF → tc.toNat < 112 → tu.toNat < 93 → s.power.hard.get 0 d = 0 →
    ∃ t, s.sampleHeat d tc tu = (t, false) ∧ t.fld Reg.PWR_DIE_STAT [d] F.PWR_DIE_STAT_HARD = 1 ∧ t.fld Reg.PWR_DIE_STAT [d] F.PWR_DIE_STAT_TC = tc.toNat) ∧
  (∀ (acc e : Rat) (gain len : Nat), 0 < len → 0 ≤ acc → acc ≤ 63 → 0 ≤ accNext acc e gain len ∧ accNext acc e gain len ≤ 63)

/-- Sleep, wake and operating points (R357-R361): the two gating timers, a wake and its end, the phase sample, the regulator's answers. When a change of point takes its clocks and voltage is log 70, the model's reading. -/
def Obligations.SleepAndPoints : Prop :=
  (∀ (g : ClusterId) (s : State), s.power.mode = 0 → s.clusterUp g = true → s.clState g = 0 → s.fld Reg.PWR_CL [g] F.PWR_CL_MODE ≠ 1 → s.fld Reg.PWR_GATE [] F.PWR_GATE_CG_DELAY_US ≠ 0 → s.clusterIdle g = true →
    exec (.clockGateTimer g) s = .next (s.setClState g 1)) ∧
  (∀ (g : ClusterId) (s : State), s.power.mode = 0 → s.clState g = 1 → s.fld Reg.PWR_CL [g] F.PWR_CL_MODE = 0 → s.fld Reg.PWR_GATE [] F.PWR_GATE_PG_DELAY_US ≠ 0 → s.clusterIdle g = true → s.holdsWords g = false →
    exec (.powerGateTimer g) s = .next (s.keepPilot (s.powerGate g (s.bit Reg.PWR_CL [g] F.PWR_CL_RETAIN)))) ∧
  (∀ (g : ClusterId) (s : State), s.power.mode = 0 → s.clState g = 2 → s.wakeReq.getLsbD g = true → exec (.clusterWake g) s = .next { s.setClState g 3 with wakeReq := s.wakeReq &&& ~~~ BitVec.ofNat 64 (2 ^ g.val) }) ∧
  (∀ (g : ClusterId) (s : State), s.clState g = 3 → exec (.wakeComplete g) s = .next ((s.keepPilot (((s.setClState g 0).setDom (clusterDom g) true).replayAdds g)).replayWrites g)) ∧
  (∀ s : State, s.power.mode = 0 → 2 ≤ s.pilot.phase → exec .phaseSample s = .next (s.keepPilot ((List.range 4).foldl (fun s d => s.sampleDie d) s))) ∧
  (∀ (d : DieId) (s t : State) (c : PointChange), s.power.change.get none d = some c → c.raising = true → t = (s.endChange d).setFld Reg.PWR_DIE_STAT [d] F.PWR_DIE_STAT_VDD_MV (s.pointVdd c.point) →
    t.bit Reg.PWR_DIE_STAT [d] F.PWR_DIE_STAT_HARD = false → exec (.vregAck d) s = .next (s.keepPilot ((t.setPoint d c.point).setDividers d))) ∧
  (∀ (d : DieId) (s : State) (c : PointChange), s.power.change.get none d = some c → c.raising = false → exec (.vregAck d) s = .next ((s.endChange d).setFld Reg.PWR_DIE_STAT [d] F.PWR_DIE_STAT_VDD_MV (s.pointVdd c.point))) ∧
  (∀ (d : DieId) (s : State) (c : PointChange), s.power.change.get none d = some c → exec (.vregTimeout d) s = .next (s.keepPilot ((((s.endChange d).setPoint d c.old).setDividers d).powerEvent 1)))

/-- Device power states, the regulators' telemetry and alert, and a span's power period (R352, R362-R365, R404). What each state takes down is log 71, span periods log 72: the model's readings. -/
def Obligations.PowerStates : Prop :=
  (∀ (r : Fin 13) (mv : BitVec 16) (s : State), s.power.mode ≠ 2 → ∃ t, exec (.regulatorTelemetryRead r mv) s = .next t ∧ t.railVolts r = mv.toNat ∧ t.regs = s.regs ∧ t.mem = s.mem) ∧
  (∀ (r : Fin 13) (s : State), s.power.mode ≠ 2 → exec (.avsReadTimeout r) s = .next (s.keepPilot ((s.setPower (fun x => { x with volts := x.volts.set none r none })).powerEvent 1))) ∧
  (∀ (r : Fin 13) (s : State), s.power.mode ≠ 2 → 2 ≤ s.pilot.phase → exec (.vrAlert r) s = .next (s.keepPilot (s.log { kind := 0x15, index := 8 + r, cls := .corrected }))) ∧
  (∀ s : State, s.hostUp = true → s.power.mode = 1 → s.power.d3hot = false → s.pilot.phase = 3 → s.bit Reg.SEC_STATE [] F.SEC_STATE_BOXROOM = false → exec .d3hotEntry s = .next (s.setPower (fun x => { x with d3hot := true }))) ∧
  (∀ s : State, s.hostUp = true → s.power.mode = 0 → s.power.d3hot = false → s.pilot.phase = 3 → s.bit Reg.SEC_STATE [] F.SEC_STATE_BOXROOM = false → (∀ b < 64, s.bit Reg.BAY_CFG [b] F.BAY_CFG_EN = false) → exec .d3hotEntry s = .next (s.keepPilot (s.enterStandby true))) ∧
  (∀ s : State, s.hostUp = true → s.power.mode = 0 → s.pilot.phase = 3 → s.bit Reg.SEC_STATE [] F.SEC_STATE_BOXROOM = false → (∀ e ∈ s.bays, e.2.on = false) → exec .linkL12Entry s = .next (s.keepPilot (s.enterStandby false))) ∧
  (∀ s : State, s.power.mode = 1 → ∃ t, exec .returnToD0 s = .next t ∧ t.power.mode = 0 ∧ t.power.d3hot = false ∧ t.mem = s.mem ∧ (∀ p < 8, s.bit Reg.CHU_PORT_CFG [p] F.CHU_PORT_CFG_EN = true → t.portState p = 1)) ∧
  (∀ s : State, s.power.mode ≠ 2 → 2 ≤ s.pilot.phase → ∃ t, exec .d3coldEntry s = .next t ∧ t.power.mode = 2 ∧ t.pilot.phase = 0 ∧ t.pilot.enables = 0x0F ∧ t.pilot.dropping = some 4 ∧ t.seqs = [] ∧ t.groups = [] ∧ t.pending = s.pending) ∧
  (∀ s : State, s.bit Reg.CHU_SPAN [] F.CHU_SPAN_EN = false → ∃ t, exec .spanPeriodEnd s = .next t ∧ t.critR = 0 ∧ t.critA = 0 ∧ t.fld Reg.PWR_CRIT [] F.PWR_CRIT_WEIGHT = weightOf s.critR s.critA ∧ t.mem = s.mem ∧ t.chuteOut = s.chuteOut) ∧
  (∀ r a : Nat, r ≤ a → weightOf r a ≤ 0xFFFF ∧ (0 < r → r < a → weightOf r a * a ≤ (a - r) * 65536))

/-- Starts (R369-R373, R375, R376; Tables SE-1, SE-2): a cold start that brings the package up, one that enters Boxroom mode, one whose images both fail, a warm restart, the watchdog, EXTEST. That a bring-up's outcome is an operand is log 76, the model's choice. -/
def Obligations.Starts : Prop :=
  (∀ (x : Bringup) (s : State) (k v : Nat) (m : BitVec 512), s.pilot.phase = 1 → s.pilot.enabling = none → s.pilot.uncounted = false → s.pilot.perst = false → s.pilot.extest = false →
    s.pilot.fails < 3 → s.pilot.rpmc0 - (if x.goodReads then s.pilot.good else 0) < 3 → x.flashOk = true → x.pufOk = true → s.chooseImage x = some (k, v, m) → x.fatal = 0 → x.dies &&& x.undercrofts ≠ 0 →
    ∃ t, exec (.coldStart x) s = .next t ∧ t.pilot.phase = 2 ∧ t.pilot.rpmc0 = s.pilot.rpmc0 + 1 ∧ t.pilot.n = s.pilot.rpmc0 + 1 ∧ t.pilot.fails = s.pilot.fails + 1 ∧ t.pilot.lastTried = k ∧ t.pilot.good = s.pilot.good ∧
      t.pilot.svnMin = s.pilot.svnMin ∧ t.pilot.lifeCycle = s.pilot.lifeCycle ∧ t.seqs = [] ∧ t.groups = [] ∧ t.bays = [] ∧ t.pending = s.pending) ∧
  (∀ (x : Bringup) (s : State), s.pilot.phase = 1 → s.pilot.enabling = none → s.pilot.uncounted = false → 3 ≤ max s.pilot.fails (s.pilot.rpmc0 - (if x.goodReads then s.pilot.good else 0)) →
    ∃ t, exec (.coldStart x) s = .next t ∧ t.inBoxroom = true ∧ t.pilot.phase = 3 ∧ t.pilot.rpmc0 = s.pilot.rpmc0 + 1 ∧ t.pilot.enables = 0x13 ∧ t.seqs = [] ∧ t.pending = s.pending) ∧
  (∀ (x : Bringup) (s : State), s.pilot.phase = 1 → s.pilot.enabling = none → s.pilot.uncounted = false → s.pilot.fails < 3 → s.pilot.rpmc0 - (if x.goodReads then s.pilot.good else 0) < 3 → x.flashOk = true → x.pufOk = true →
    s.chooseImage x = none → ∃ t, exec (.coldStart x) s = .next t ∧ t.pilot.causes = (causeRecord (s.pilot.rpmc0 + 1) 0 7 2 0 x.pclk :: s.pilot.causes).take 16 ∧ t.pilot.rpmc0 = s.pilot.rpmc0 + 1 ∧ t.seqs = [] ∧ t.pending = s.pending) ∧
  (∀ (x : Bringup) (s u : State), 2 ≤ s.pilot.phase → s.countStart x.goodReads = (u, false) → x.fatal = 0 → x.dies &&& x.undercrofts ≠ 0 →
    exec (.warmRestart x) s = .next ((u.setPilot (fun p => { p with warm := true, stage := 9 })).warmReset.bringUp x true)) ∧
  (∀ (stage detail : Nat) (s : State), s.pilot.phase = 1 ∨ s.pilot.phase = 2 → ∃ t, exec (.startWatchdog stage detail) s = .next t ∧
    t.pilot.causes = (causeRecord s.pilot.n (if s.pilot.warm then 1 else 0) stage 1 detail 80000000 :: s.pilot.causes).take 16 ∧ t.pilot.uncounted = false ∧ t.pending = s.pending) ∧
  (∀ s : State, s.power.mode ≠ 2 → s.pilot.pwrok = true → s.pilot.extest = false → ∃ t, exec .extestEntry s = .next t ∧ t.pilot.extest = true ∧ t.pilot.fails = 0 ∧ t.pilot.good = s.pilot.rpmc0 ∧ t.pilot.phase = 0 ∧ t.seqs = [] ∧ t.pending = s.pending) ∧
  (∀ s : State, s.pilot.extest = true → exec .extestExit s = .next { s with pilot := { s.pilot with extest := false, uncounted := true, phase := if s.pilot.perst ∨ ¬ s.pilot.pwrok then 0 else 1, stage := 1 } })

/-- The board's pins (R369, R402, R403, R412): auxiliary power, PERST, and the enables that follow the power-good inputs group by group. -/
def Obligations.BoardPins : Prop :=
  (∀ s : State, s.pilot.pwrok = false → s.pilot.perst = false → s.pilot.extest = false → ∃ t, exec .pilotPwrokRise s = .next t ∧ t.pilot.pwrok = true ∧ t.pilot.fails = 0 ∧ t.pilot.phase = 1 ∧ t.pilot.enables = 1 ∧ t.pilot.pg = 0 ∧ t.pilot.enabling = some 0 ∧ t.regs = s.regs) ∧
  (∀ s : State, s.pilot.pwrok = true → ∃ t, exec .pilotPwrokFall s = .next t ∧ t.pilot.pwrok = false ∧ t.pilot.enables = 0 ∧ t.pilot.enabling = none ∧ t.pilot.phase = 0 ∧ t.pilot.rpmc0 = s.pilot.rpmc0 ∧ t.pilot.causes = s.pilot.causes ∧ t.seqs = [] ∧ t.larder = [] ∧ t.pending = s.pending) ∧
  (∀ s : State, s.pilot.perst = false → s.pilot.pwrok = true → s.power.mode ≠ 2 → ∃ t, exec .perstAssert s = .next t ∧ t.pilot.perst = true ∧ t.pilot.phase = 0 ∧ t.pilot.enables = s.pilot.enables ∧ t.seqs = [] ∧ t.pending = s.pending) ∧
  (∀ s : State, s.pilot.perst = true → s.pilot.pwrok = true → s.pilot.extest = false → s.power.mode ≠ 2 → ∃ t, exec .perstDeassert s = .next t ∧ t.pilot.perst = false ∧ t.pilot.phase = 1 ∧ t.pilot.enables = s.pilot.enables ∧ t.seqs = [] ∧ t.pending = s.pending) ∧
  (∀ s : State, s.pilot.perst = true → s.pilot.pwrok = true → s.pilot.extest = false → s.power.mode = 2 → ∃ t, exec .perstDeassert s = .next t ∧ t.pilot.perst = false ∧ t.pilot.phase = 1 ∧ t.pilot.enables = 1 ∧ t.pilot.enabling = some 0 ∧ t.pilot.wakePin = false ∧ t.pending = s.pending) ∧
  (∀ (g : Fin 5) (h : Nat) (s : State), s.pilot.enables.getLsbD g = true → s.pilot.enabling = some g.val → s.pilot.nextGroup g = some h → h < 5 → ∃ t, exec (.pwrPgRise g) s = .next t ∧ t.pilot.pg.getLsbD g = true ∧ t.pilot.enables.getLsbD h = true ∧
    t.pilot.enabling = some h ∧ t.regs = s.regs) ∧
  (∀ s : State, s.pilot.enables.getLsbD 4 = true → s.pilot.enabling = some 4 → ∃ t, exec (.pwrPgRise 4) s = .next t ∧ t.pilot.pg.getLsbD 4 = true ∧ t.pilot.enabling = none ∧ t.pilot.thermTrip = false ∧ t.regs = s.regs) ∧
  (∀ (stage g : Nat) (s : State), s.pilot.enabling = some g → s.pilot.uncounted = false → s.pilot.warm = false → ∃ t, exec (.pwrPgTimeout stage) s = .next t ∧ t.pilot.rpmc0 = s.pilot.rpmc0 + 1 ∧
    t.pilot.causes = (causeRecord (s.pilot.rpmc0 + 1) 0 stage 5 g 0 :: s.pilot.causes).take 16 ∧ t.pilot.enables = 1 ∧ t.pilot.enabling = some 0) ∧
  (∀ (g : Fin 5) (stage : Nat) (s : State), s.pilot.pg.getLsbD g = true → s.pilot.enabling = none → s.pilot.dropping ≠ some g.val → ∃ t, exec (.pwrPgFall g stage) s = .next t ∧ t.pilot.pg.getLsbD g = false ∧ t.pilot.enables = s.pilot.enables ∧ t.pilot.rpmc0 = s.pilot.rpmc0 ∧ t.regs = s.regs) ∧
  (∀ (g stage : Nat) (s : State) (hg : g + 1 < 5), s.pilot.pg.getLsbD (g + 1) = true → s.pilot.enabling = none → s.pilot.dropping = some (g + 1) →
    ∃ t, exec (.pwrPgFall ⟨g + 1, hg⟩ stage) s = .next t ∧ t.pilot.dropping = some g ∧ t.pilot.enables.getLsbD g = false ∧ t.regs = s.regs) ∧
  (∀ (g : Nat) (s : State), g < 4 → s.pilot.dropping = some (g + 1) → ∃ t, exec .enableDeassertTimeout s = .next t ∧ t.pilot.dropping = some g ∧ t.pilot.enables.getLsbD g = false ∧ t.regs = s.regs)

/-- Commands of SEC_CMD where they are allowed (R375, R380-R384; Table SE-8): a nonce, a token accepted by its KIND, closing debug, SVN_MIN, RETRY and RECOVER; and where they are not, result 5. That signatures and reads are operands, and the order of a token's checks, are log 73, the model's choices. -/
def Obligations.SecurityCommands : Prop :=
  (∀ (w : Writer) (s u : State) (k : Nat), isManager w = true → (s.keepPilot (s.wrote Reg.SEC_CMD [] 1)).draw = (k, u) → exec (.newNonce w) s = .next (s.keepPilot ((u.setNonce (Config.random k) true).setFld Reg.SEC_CMD_STAT [] F.SEC_CMD_STAT_RESULT 0))) ∧
  (∀ (w : Writer) (vendorSig ownerSig : Bool) (s t u : State) (a : Nat), isManager w = true → t = s.keepPilot (s.wrote Reg.SEC_CMD [] 2) → a = t.fld Reg.SEC_TOKEN_ADDR [] F.SEC_TOKEN_ADDR_ADDR → t.tokenResult false vendorSig ownerSig = 0 →
    u = t.keepPilot ((t.setNonce 0 false).setFld Reg.SEC_CMD_STAT [] F.SEC_CMD_STAT_RESULT 0) → exec (.applyToken w false vendorSig ownerSig) s = .next (u.tokenAct (t.peekNat (a + 4) 1) (t.peekNat (a + 56) 64))) ∧
  (∀ (w : Writer) (s t : State), isManager w = true → s.inBoxroom = false → t = s.keepPilot (s.wrote Reg.SEC_CMD [] 3) → exec (.debugClose w) s = .next (s.keepPilot ((t.setDebug 0).setFld Reg.SEC_CMD_STAT [] F.SEC_CMD_STAT_RESULT 0))) ∧
  (∀ (w : Writer) (s : State), isManager w = true → s.inBoxroom = false → s.pilot.lifeCycle = 1 → ∃ t, exec (.commitSvn w) s = .next t ∧ t.pilot = { s.pilot with svnMin := max s.pilot.svnMin (s.fld Reg.SEC_STATE [] F.SEC_STATE_SVN) } ∧
    t.fld Reg.SEC_CMD_STAT [] F.SEC_CMD_STAT_RESULT = 0 ∧ t.mem = s.mem ∧ t.seqs = s.seqs) ∧
  (∀ (w : Writer) (s : State), isManager w = true → s.inBoxroom = true → ∃ t, exec (.retry w) s = .next t ∧ t.pilot.good = s.pilot.n ∧ t.pilot.fails = 0 ∧ t.inBoxroom = false ∧ t.pilot.rpmc0 = s.pilot.rpmc0 ∧ t.seqs = [] ∧ t.pending = s.pending) ∧
  (∀ (w : Writer) (s u : State) (a n : Nat), isManager w = true → s.inBoxroom = true → u = s.keepPilot (s.wrote Reg.SEC_CMD [] 6) → a = u.fld Reg.SEC_TOKEN_ADDR [] F.SEC_TOKEN_ADDR_ADDR → n = u.fld Reg.SEC_TOKEN_LEN [] F.SEC_TOKEN_LEN_LEN →
    u.unreadable a n = false → u.peekNat a 4 = 0x4B53564F → u.peekNat (a + 8) 4 ≤ 14680064 → n = 128 + u.peekNat (a + 8) 4 + 29792 → s.pilot.svnMin ≤ u.peekNat (a + 4) 2 →
    ∃ t, exec (.recover w false true) s = .next t ∧ t.pilot.active = 1 - s.pilot.lastTried ∧ t.pilot.fails = 0 ∧ t.inBoxroom = false ∧
      ((if 1 - s.pilot.lastTried = 0 then t.pilot.slotA else t.pilot.slotB).map (·.1) = some (u.peekNat (a + 4) 2))) ∧
  (∀ (c : Instr) (w : Writer) (s : State), c ∈ [Instr.debugClose w, .commitSvn w] → isManager w = true → s.inBoxroom = true → ∃ t, exec c s = .next t ∧ t.fld Reg.SEC_CMD_STAT [] F.SEC_CMD_STAT_RESULT = 5 ∧ t.pilot = s.pilot ∧
    t.fld Reg.ERR_PROD [] F.ERR_PROD_PROD = (s.fld Reg.ERR_PROD [] F.ERR_PROD_PROD + 1) % 2 ^ 32)

/-- SPDM on a function's mailbox (R377): the negotiation in order, the requests it opens, one session per function and what a session carries. What a session on a virtual function sets: its migration secret, its IDE keys, and the states of its TDI (R321, R376, R378, R379). Message codes and contents beyond the manual are log 27, TDISP log 75: presumed from the standards, the model's choices. -/
def Obligations.SpdmMessages : Prop :=
  (∀ (f : InstId) (s : State), Mailbox s f → exec (.getVersion f) s = .next ((s.toStage f 1).respond f 0x04)) ∧
  (∀ (f : InstId) (s : State), Mailbox s f → 1 ≤ (s.spdmOf f).stage → exec (.getCapabilities f) s = .next ((s.toStage f 2).respond f 0x61)) ∧
  (∀ (f : InstId) (s : State), Mailbox s f → 2 ≤ (s.spdmOf f).stage → exec (.negotiateAlgorithms f) s = .next ((s.toStage f 3).respond f 0x63)) ∧
  (∀ (c : Instr) (code : Nat) (f : InstId) (s : State), (c, code) ∈ [(Instr.getDigests f, 0x01), (.getCertificate f, 0x02), (.challenge f, 0x03), (.chunkGet f, 0x06)] → Mailbox s f → 3 ≤ (s.spdmOf f).stage → exec c s = .next (s.respond f code)) ∧
  (∀ (f : InstId) (index : Fin 256) (s : State) (b : Nat), Mailbox s f → 3 ≤ (s.spdmOf f).stage → index.val ≠ 0 → index.val ≠ 0xFF → s.block f index = some b →
    exec (.getMeasurements f index false) s = .next (s.reply { who := .fn f, tag := 0x160, len := 64, data := b })) ∧
  (∀ (f : InstId) (s : State) (x : Spdm), Mailbox s f → x = s.spdmOf f → 3 ≤ x.stage → x.session = 0 → exec (.keyExchange f) s = .next ((s.setSpdm f { x with session := 1, number := x.number + 1, updates := 0 }).respond f 0x64)) ∧
  (∀ (f : InstId) (s : State) (x : Spdm), Mailbox s f → x = s.spdmOf f → x.session = 1 → exec (.finish f true) s = .next ((s.setSpdm f { x with session := 2 }).respond f 0x65)) ∧
  (∀ (f : InstId) (s : State), Mailbox s f → (s.spdmOf f).session = 2 → exec (.heartbeat f) s = .next (s.respond f 0x68)) ∧
  (∀ (f : InstId) (s : State) (x : Spdm), Mailbox s f → x = s.spdmOf f → x.session = 2 → exec (.keyUpdate f) s = .next ((s.setSpdm f { x with updates := x.updates + 1 }).respond f 0x69)) ∧
  (∀ (f : InstId) (s : State) (x : Spdm), Mailbox s f → x = s.spdmOf f → x.session = 2 → exec (.endSession f) s = .next ((s.setSpdm f { x with session := 0 }).respond f 0x6C)) ∧
  (∀ (f : InstId) (chunk : List Byte) (s : State) (x : Spdm), Mailbox s f → x = s.spdmOf f → 3 ≤ x.stage → chunk.length ≤ 4096 → (x.chunks.map List.length).foldl (· + ·) chunk.length ≤ 65536 →
    exec (.chunkSend f chunk false) s = .next ((s.setSpdm f { x with chunks := x.chunks ++ [chunk] }).respond f 0x05)) ∧
  (∀ (f : InstId) (s : State) (x : Spdm), Mailbox s f → x = s.spdmOf f → 3 ≤ x.stage → x.session ≠ 0 → exec (.keyExchange f) s = .next (s.spdmError f 0x0A)) ∧
  (∀ (v : VfId) (x : BitVec 256) (s : State), Mailbox s v.succ → (s.spdmOf v.succ).session = 2 →
    exec (.setMigrationSecret v x) s = .next (s.keepPilot (({ s with migSecret := s.migSecret.set 0 (v.val + 1) x }.extendLog (v.val + 1) (Config.secretMeas x)).respond v.succ 0x7E))) ∧
  (∀ (f : InstId) (s : State), Mailbox s f → (s.spdmOf f).session = 2 → exec (.ideKm f) s = .next (s.keepPilot (({ s with ide := s.ide.set false f.val true }).respond f 0x7E))) ∧
  (∀ (v : VfId) (s : State), Mailbox s v.succ → (s.spdmOf v.succ).session = 2 → s.tdi (v + 1) = 0 → s.lockRefused (v + 1) = false → exec (.lockInterfaceRequest v) s = .next (s.keepPilot ((s.setTdi (v + 1) 1).tdisp v 0x03))) ∧
  (∀ (v : VfId) (s : State), Mailbox s v.succ → (s.spdmOf v.succ).session = 2 → s.tdi (v + 1) = 1 → exec (.startInterfaceRequest v true) s = .next (s.keepPilot ((s.setTdi (v + 1) 2).tdisp v 0x06))) ∧
  (∀ (v : VfId) (s t : State), Mailbox s v.succ → (s.spdmOf v.succ).session = 2 → s.inst (v + 1) ≠ 0 → t = s.abortReset (v + 1) (if s.flr.get 0 (v + 1) = 1 then 1 else 2) →
    exec (.stopInterface v) s = .next (s.keepPilot ((t.setTdi (v + 1) 0).tdisp v 0x07))) ∧
  (∀ (v : VfId) (s : State), Mailbox s v.succ → (s.spdmOf v.succ).session = 2 → s.tdi (v + 1) = 1 ∨ s.tdi (v + 1) = 2 →
    ∃ t, exec (.getDeviceInterfaceReport v) s = .next t ∧ t.replies.length = s.replies.length + 8 ∧ t.regs = s.regs ∧ t.mem = s.mem ∧ t.spdm = s.spdm) ∧
  (∀ (v : VfId) (s : State), Mailbox s v.succ → (s.spdmOf v.succ).session = 2 → s.pilot.lifeCycle ≠ 1 → ∃ t, exec (.lockInterfaceRequest v) s = .next t ∧ t.regs = s.regs ∧ t.mem = s.mem ∧ t.replies.length = s.replies.length + 1)

/-- Retirement (R142, R392, R393): a window with no count above its threshold retires nothing and starts the counts anew; the end of a Larder way's deletion counts it and enters it in the flash list. The counts of ways are an operand (log 15), the model's choice. -/
def Obligations.Retirement : Prop :=
  (∀ (ways : List WayCount) (s : State), s.fld Reg.ERR_THR [] F.ERR_THR_ENGINE = 0 → s.fld Reg.ERR_THR [] F.ERR_THR_CUPBOARD = 0 → s.fld Reg.ERR_THR [] F.ERR_THR_LARDER = 0 → exec (.retirementWindow ways) s = .next { s with replays := [] }) ∧
  (∀ (w : WayCount) (s : State), w.unit.val < 64 → s.overThreshold F.ERR_THR_LARDER w.count = true → s.replays = [] → exec (.retirementWindow [w]) s = .next (s.keepPilot (s.beginDelete w.unit w.set w.way))) ∧
  (∀ (u : Fin 128) (st way : Nat) (s : State), u.val < 64 → s.larderCtl.deleting.find? (fun e => e.1 == u.val && e.2.1 == st) = some (u.val, st, way) → s.mayLeave u st way = true → s.pilot.deletions.length < 4096 →
    ∃ t, exec (.wayDeleteEnd u st) s = .next t ∧ t.pilot.deletions = s.pilot.deletions ++ [(u.val, st, way)] ∧ t.pilot.rpmc0 = s.pilot.rpmc0 ∧ t.pending = s.pending)

/-- One step (log 7; the queue is the model's own): with command `c` at the front of the queue, step is exec of `c` on the state with the queue's rest; on an empty queue a reference cycle passes. -/
def Obligations.StepTakesTheFrontCommand : Prop :=
  (∀ (c : Instr) (rest : List Instr) (s : State), step { s with pending := c :: rest } = exec c { s with pending := rest }) ∧ (∀ s : State, s.pending = [] → step s = .next s.tick)

/-- The state after reset: reset values that the register tables state (R7), and units with nothing in them. -/
def Obligations.ResetValues : Prop :=
  (∀ f ∈ [(Reg.BAY_SLICE, [0], F.BAY_SLICE_BE_SLICE, 2000), (Reg.BAY_SLICE, [63], F.BAY_SLICE_LC_SLICE, 500), (Reg.BAY_EVT_EN, [5], F.BAY_EVT_EN_EN, 0xFF), (Reg.LRD_RED_CFG, [], F.LRD_RED_CFG_BIND_MAX, 64),
      (Reg.JST_LINK_CFG, [7], F.JST_LINK_CFG_THRESH, 64), (Reg.CHU_CFG, [], F.CHU_CFG_TIMEOUT_US, 1000), (Reg.HST_LINK_CFG, [], F.HST_LINK_CFG_MAX_SPEED, 7), (Reg.CEL_CFG, [], F.CEL_CFG_RETRAIN_MS, 100),
      (Reg.CLK_PLL, [0, 0], F.CLK_PLL_FBDIV, 560), (Reg.CLK_SSC, [5], F.CLK_SSC_RATE, 32), (Reg.PWR_CTL, [], F.PWR_CTL_GAIN, 64), (Reg.PWR_PKG, [], F.PWR_PKG_PEAK_W, 3200), (Reg.PWR_PKG, [], F.PWR_PKG_SUST_W, 2400),
      (Reg.PWR_THERM, [], F.PWR_THERM_CD_START, 100), (Reg.PWR_THERM, [], F.PWR_THERM_UC_START, 90), (Reg.PWR_CL, [63], F.PWR_CL_RETAIN, 1), (Reg.ERR_CTL, [], F.ERR_CTL_IRQ, 6), (Reg.ERR_THR, [], F.ERR_THR_ENGINE, 8),
      (Reg.ERR_THR, [], F.ERR_THR_LARDER, 2), (Reg.ERR_PROD, [], F.ERR_PROD_PROD, 0), (Reg.BAY_CFG, [0], F.BAY_CFG_EN, 0), (Reg.HAT_INST_STAT, [1], F.HAT_INST_STAT_STATE, 0)], State.reset.fld f.1 f.2.1 f.2.2.1 = f.2.2.2) ∧
  (∀ n g : Nat, (State.reset.group n g).status = .free) ∧ (∀ n : Nat, (State.reset.seq n).stream = none) ∧ (∀ k : Nat, (State.reset.imgs.get {} k).status = .empty) ∧ State.reset.larder = [] ∧ State.reset.cups = [] ∧
  State.reset.net = [] ∧ State.reset.hostOut = [] ∧ State.reset.pending = [] ∧ Memory.wf State.reset.mem = true

/-- The Pilot's fields lie within their bounds after reset (R371, R375, R380, R402). -/
def Obligations.PilotLegalAtReset : Prop :=
  State.reset.pilot.Ok

/-- Every step keeps the Pilot's fields within their bounds: three life-cycle values (R380), four phases of a start, two image slots (R375), counts that follow counter 0 and a ring of 16 causes (R371), a list of 4,096 deletions (R393), no rail awaited once the firmware runs (R402). -/
def Obligations.PilotStaysLegal : Prop :=
  ∀ s t : State, s.pilot.Ok → step s = .next t → t.pilot.Ok

/-- No step lowers a replay-protected counter of the flash: starts, SVN_MIN, the life-cycle value, the owner epoch (R371, R375, R380, R383). -/
def Obligations.FlashCountersNeverDecrease : Prop :=
  ∀ s t : State, step s = .next t → s.pilot.NoLower t.pilot

/-- No command touches the commands that wait behind it; a cycle of the reference clock on an empty queue leaves it empty. -/
def Obligations.QueueLeftAlone : Prop :=
  (∀ (c : Instr) (s t : State), exec c s = .next t → t.pending = s.pending) ∧ (∀ s : State, s.pending = [] → s.tick.pending = [])

/-- Lemgus-S words (R57; Tables SQ-2, SQ-3): decoding the word of an instruction without reserved codes gives the instruction with every operand, and the word of one with a reserved code is refused. -/
def Obligations.LemgusSEncoding : Prop :=
  (∀ i : SInstr, i.legal = true → decodeS (encodeS i) = some i) ∧ (∀ i : SInstr, i.legal = false → decodeS (encodeS i) = none)

/-- Addressed memory behind the caches (R10, R127): bytes written read back, every other byte stays, and the list of cells keeps its canonical form; the same of a Pantry. -/
def Obligations.MemoryWrites : Prop :=
  (∀ (s : State) (a i : Nat) (bs : List Byte) (h : i < bs.length), (s.setBytes a bs).byte (a + i) = bs[i]) ∧
  (∀ (s : State) (a c : Nat) (bs : List Byte), c < a ∨ a + bs.length ≤ c → (s.setBytes a bs).byte c = s.byte c) ∧
  (∀ (s : State) (a : Nat) (bs : List Byte), Memory.wf s.mem = true → Memory.wf (s.setBytes a bs).mem = true) ∧
  (∀ (s : State) (n m off : Nat) (bs : List Byte) (p : Bool) (k : Nat), n < 512 → m < 512 → off + bs.length ≤ pantrySize → k < pantrySize →
    (s.setPantry n off bs p).byte (pantryAddr m k) = if m = n ∧ off ≤ k ∧ k < off + bs.length then bs.getD (k - off) 0 else s.byte (pantryAddr m k)) ∧
  (∀ (s : State) (n off : Nat) (bs : List Byte) (p : Bool), Memory.wf s.mem = true → Memory.wf (s.setPantry n off bs p).mem = true)

/-- An error record (R386-R388): PROD grows by one, record SEQ lies in slot SEQ mod 1,024 with its words, a ring that is full sets OVF, a fatal record is also kept in ERR_FATAL, and only registers and interrupts change. -/
def Obligations.ErrorRecords : Prop :=
  (∀ (s : State) (r : ErrRec), (s.log r).fld Reg.ERR_PROD [] F.ERR_PROD_PROD = (s.fld Reg.ERR_PROD [] F.ERR_PROD_PROD + 1) % 2 ^ 32) ∧
  (∀ (s : State) (r : ErrRec) (seq k : Nat), seq = s.fld Reg.ERR_PROD [] F.ERR_PROD_PROD → k < 8 →
    (s.log r).reg Reg.ERR_REC [seq % 1024, k] = BitVec.ofNat 64 ((r.words seq (s.reg Reg.CLK_REFCNT [5]).toNat).getD k 0)) ∧
  (∀ (s : State) (r : ErrRec), 1024 ≤ (s.fld Reg.ERR_PROD [] F.ERR_PROD_PROD + 2 ^ 32 - s.fld Reg.ERR_CONS [] F.ERR_CONS_CONS) % 2 ^ 32 → (s.log r).fld Reg.ERR_STAT [] F.ERR_STAT_OVF = 1) ∧
  (∀ (s : State) (r : ErrRec) (k : Nat), r.cls = .fatal → k < 8 →
    (s.log r).reg Reg.ERR_FATAL [k] = BitVec.ofNat 64 ((r.words (s.fld Reg.ERR_PROD [] F.ERR_PROD_PROD) (s.reg Reg.CLK_REFCNT [5]).toNat).getD k 0)) ∧
  (∀ (s t : State) (r : ErrRec), t = s.log r → t = { s with regs := t.regs, msixPend := t.msixPend, msixSent := t.msixSent })

/-- R177: when a Tally has reached a target, and what WAIT and WTALLY do with it: each ends when its Tally has reached its target and stays as it is until then. -/
def Obligations.TallyReached : Prop :=
  (∀ t e : Word, reached t e = decide ((t.toNat + 2 ^ 32 - e.toNat) % 2 ^ 32 < 2 ^ 31)) ∧
  (∀ (n : CoreId) (s : State) (tally : BitVec 12) (x : BitVec 4) (set : BitVec 1) (scope : BitVec 3) (imm : Word), HeldS s n .wait (.wait tally x set scope imm) →
    (reached (s.tally n tally.toNat) (s.seq n).waitTarget = true → ∃ t, exec (.waitTargetReached n) s = .next t ∧ t.seq n = (s.seq n).advance) ∧
    (reached (s.tally n tally.toNat) (s.seq n).waitTarget = false → exec (.waitTargetReached n) s = .next s)) ∧
  (∀ (n : CoreId) (g : SlotId) (s : State) (i scope : Nat) (target : Word), (s.group n g).status = .waitTally i target scope →
    (reached (s.tally n i) target = true → ∃ t, exec (.wtallyTargetReached n g) s = .next t ∧ t.group n g = { (s.group n g).next with status := .ready }) ∧
    (reached (s.tally n i) target = false → exec (.wtallyTargetReached n g) s = .next s))

/-- R243: a bit of BAY_EVT that is newly set and that BAY_EVT_EN enables raises Bay b's vector of function 0: its message goes out where the vector is open and the link is up, else its pending bit is set; bits that are set already raise nothing more. -/
def Obligations.BayEventsRaiseOnce : Prop :=
  (∀ (s : State) (b : BayId) (bits k : Nat), bits < 256 → k < 8 → (s.bayEvent b bits).fld Reg.BAY_EVT [b] ⟨k, k⟩ = if bits.testBit k then 1 else s.fld Reg.BAY_EVT [b] ⟨k, k⟩) ∧
  (∀ (s : State) (b : BayId) (bits k : Nat), bits < 256 → k < 8 → bits.testBit k = true → s.fld Reg.BAY_EVT [b] ⟨k, k⟩ = 0 → (s.fld Reg.BAY_EVT_EN [b] F.BAY_EVT_EN_EN).testBit k = true →
    if s.msixOpen.get false (vecKey 0 b) ∧ s.hostUp then (s.bayEvent b bits).msixSent = (0, b.val) :: s.msixSent ∧ (s.bayEvent b bits).msixPend = s.msixPend
    else (s.bayEvent b bits).msixPend.get false (vecKey 0 b) = true ∧ (s.bayEvent b bits).msixSent = s.msixSent) ∧
  (∀ (s : State) (b : BayId) (bits : Nat), bits < 256 → (∀ k < 8, bits.testBit k = true → s.fld Reg.BAY_EVT [b] ⟨k, k⟩ = 1 ∨ (s.fld Reg.BAY_EVT_EN [b] F.BAY_EVT_EN_EN).testBit k = false) →
    (s.bayEvent b bits).msixSent = s.msixSent ∧ (s.bayEvent b bits).msixPend = s.msixPend)

/-- The frame of a group's arithmetic, predicate, scalar, cross-lane and pack instructions, completed, replayed or parked (R91-R99, R116): memory, caches, Porters, sequencers, Step units, Tallies' set bits and every other group stay as they are. -/
def Obligations.GroupArithmeticFrame : Prop :=
  ∀ (c : Instr) (n : CoreId) (g : SlotId) (m : Fin 3) (s t : State),
    c ∈ [Instr.vectorFpOp n g m, .vectorIntOp n g m, .vectorImmOp n g m, .specialFunction n g m, .vectorCompare n g, .predicateLogic n g, .s2p n g, .p2s n g, .scalarOp n g, .shfl n g, .shflx n g, .shflu n g, .shfld n g, .bcast n g, .v2s n g, .s2v n g,
      .any n g, .all n g, .ballot n g, .radd n g m, .rmin n g, .rmax n g, .pk n g m, .unpk n g m] → exec c s = .next t →
    t.mem = s.mem ∧ t.poison = s.poison ∧ t.larder = s.larder ∧ t.cups = s.cups ∧ t.shelves = s.shelves ∧ t.porters = s.porters ∧ t.seqs = s.seqs ∧ t.steps = s.steps ∧ t.kernels = s.kernels ∧ t.tallySet = s.tallySet ∧ t.imgs = s.imgs ∧
      (∀ (k : CoreId) (h : SlotId), k ≠ n ∨ h ≠ g → t.group k h = s.group k h)
end

