-- ==== Sys2Proof/Laws/Bits.lean ====
section
/-! SUPPORT. Bit fields: a field that is written reads back, and bits outside it are left alone. -/
namespace Sys2Proof.Machine

/-- A number cut at a field: above it, the field, below it. -/
theorem field_cut (n hi lo : Nat) (_h : lo ≤ hi) :
    n - ((n >>> lo) % 2 ^ (hi + 1 - lo)) * 2 ^ lo = 2 ^ lo * (2 ^ (hi + 1 - lo) * (n >>> lo / 2 ^ (hi + 1 - lo))) + n % 2 ^ lo := by
  have h1 := Nat.div_add_mod n (2 ^ lo)
  have h2 := Nat.div_add_mod (n / 2 ^ lo) (2 ^ (hi + 1 - lo))
  rw [Nat.shiftRight_eq_div_pow]
  generalize hq : n / 2 ^ lo / 2 ^ (hi + 1 - lo) = q at *
  generalize hf : n / 2 ^ lo % 2 ^ (hi + 1 - lo) = f at *
  generalize hd : n / 2 ^ lo = d at *
  generalize hr : n % 2 ^ lo = r at *
  subst h2
  have : n = 2 ^ lo * (2 ^ (hi + 1 - lo) * q) + f * 2 ^ lo + r := by rw [← h1]; ring
  omega

theorem testBit_bitsOf (x hi lo i : Nat) : (bitsOf x hi lo).testBit i = (decide (i < hi + 1 - lo) && x.testBit (lo + i)) := by
  simp [bitsOf, Nat.testBit_mod_two_pow, Nat.testBit_shiftRight]

/-- Each bit of a word whose field is replaced. -/
theorem getLsbD_withField {w : Nat} (x : BitVec w) (hi lo v i : Nat) (h : lo ≤ hi) :
    (withField x hi lo v).getLsbD i = (decide (i < w) && if lo ≤ i ∧ i ≤ hi then v.testBit (i - lo) else x.getLsbD i) := by
  have hlt : x.toNat % 2 ^ lo < 2 ^ lo := Nat.mod_lt _ (Nat.two_pow_pos lo)
  have hv : v % 2 ^ (hi + 1 - lo) < 2 ^ (hi + 1 - lo) := Nat.mod_lt _ (Nat.two_pow_pos _)
  have key : x.toNat - ((x.toNat >>> lo) % 2 ^ (hi + 1 - lo)) * 2 ^ lo + (v % 2 ^ (hi + 1 - lo)) * 2 ^ lo =
      2 ^ lo * (2 ^ (hi + 1 - lo) * (x.toNat >>> lo / 2 ^ (hi + 1 - lo)) + v % 2 ^ (hi + 1 - lo)) + x.toNat % 2 ^ lo := by
    rw [field_cut _ hi lo h]; ring
  simp only [withField, BitVec.getLsbD_ofNat]
  rw [key]
  rw [Nat.testBit_two_pow_mul_add _ hlt]
  by_cases h1 : i < lo
  · have : ¬(lo ≤ i ∧ i ≤ hi) := by omega
    simp [h1, this, Nat.testBit_mod_two_pow, BitVec.getLsbD]
  · rw [if_neg h1, Nat.testBit_two_pow_mul_add _ hv]
    by_cases h2 : i ≤ hi
    · have h3 : i - lo < hi + 1 - lo := by omega
      have h4 : lo ≤ i ∧ i ≤ hi := by omega
      rw [if_pos h3, if_pos h4, Nat.testBit_mod_two_pow]; simp [h3]
    · have h3 : ¬(i - lo < hi + 1 - lo) := by omega
      have h4 : ¬(lo ≤ i ∧ i ≤ hi) := by omega
      have h5 : lo + (hi + 1 - lo + (i - lo - (hi + 1 - lo))) = i := by omega
      rw [if_neg h3, if_neg h4, ← Nat.shiftRight_eq_div_pow, Nat.testBit_shiftRight, Nat.testBit_shiftRight, h5]; rfl

/-- A field reads back as what was written to it. -/
@[simp] theorem fieldOf_withField_self {w : Nat} (x : BitVec w) (hi lo v : Nat) (h : lo ≤ hi) (hw : hi < w) :
    fieldOf (withField x hi lo v) hi lo = v % 2 ^ (hi + 1 - lo) := by
  apply Nat.eq_of_testBit_eq
  intro i
  rw [fieldOf, testBit_bitsOf, Nat.testBit_mod_two_pow]
  by_cases hi' : i < hi + 1 - lo
  · have := getLsbD_withField x hi lo v (lo + i) h
    simp only [BitVec.getLsbD] at this
    rw [this]
    have h4 : lo ≤ lo + i ∧ lo + i ≤ hi := by omega
    have h5 : lo + i < w := by omega
    simp [hi', h4, h5]
  · simp [hi']

/-- Another field is left alone. -/
theorem fieldOf_withField_ne {w : Nat} (x : BitVec w) (hi lo v a b : Nat) (h : lo ≤ hi) (hd : a < lo ∨ hi < b) :
    fieldOf (withField x hi lo v) a b = fieldOf x a b := by
  apply Nat.eq_of_testBit_eq
  intro i
  rw [fieldOf, fieldOf, testBit_bitsOf, testBit_bitsOf]
  by_cases hi' : i < a + 1 - b
  · have := getLsbD_withField x hi lo v (b + i) h
    simp only [BitVec.getLsbD] at this
    rw [this]
    have h4 : ¬(lo ≤ b + i ∧ b + i ≤ hi) := by omega
    rw [if_neg h4]
    by_cases hw : b + i < w
    · simp [hi', hw]
    · have : x.toNat.testBit (b + i) = false := Nat.testBit_lt_two_pow (Nat.lt_of_lt_of_le x.isLt (Nat.pow_le_pow_right (by omega) (by omega)))
      simp [hw, this]
  · simp [hi']

theorem bitsOf_lt (x hi lo : Nat) : bitsOf x hi lo < 2 ^ (hi + 1 - lo) := Nat.mod_lt _ (Nat.two_pow_pos _)

theorem fieldOf_lt {w : Nat} (x : BitVec w) (hi lo : Nat) : fieldOf x hi lo < 2 ^ (hi + 1 - lo) := bitsOf_lt _ _ _

end Sys2Proof.Machine
end

