-- ==== Sys2Proof/Laws/State.lean ====
section
/-! SUPPORT. What each named update of one field leaves alone, field by field. -/
namespace Sys2Proof.Machine

variable (s t : State)

/-! ### setReg -/
@[simp] theorem State.setReg_pending (r : RegSpec) (is : List Nat) (v : DWord) : (s.setReg r is v).pending = s.pending := rfl
@[simp] theorem State.setReg_free (r : RegSpec) (is : List Nat) (v : DWord) : (s.setReg r is v).free = s.free := rfl
@[simp] theorem State.setReg_mem (r : RegSpec) (is : List Nat) (v : DWord) : (s.setReg r is v).mem = s.mem := rfl
@[simp] theorem State.setReg_poison (r : RegSpec) (is : List Nat) (v : DWord) : (s.setReg r is v).poison = s.poison := rfl
@[simp] theorem State.setReg_msixOpen (r : RegSpec) (is : List Nat) (v : DWord) : (s.setReg r is v).msixOpen = s.msixOpen := rfl
@[simp] theorem State.setReg_msixPend (r : RegSpec) (is : List Nat) (v : DWord) : (s.setReg r is v).msixPend = s.msixPend := rfl
@[simp] theorem State.setReg_msixSent (r : RegSpec) (is : List Nat) (v : DWord) : (s.setReg r is v).msixSent = s.msixSent := rfl
@[simp] theorem State.setReg_seqs (r : RegSpec) (is : List Nat) (v : DWord) : (s.setReg r is v).seqs = s.seqs := rfl
@[simp] theorem State.setReg_steps (r : RegSpec) (is : List Nat) (v : DWord) : (s.setReg r is v).steps = s.steps := rfl
@[simp] theorem State.setReg_groups (r : RegSpec) (is : List Nat) (v : DWord) : (s.setReg r is v).groups = s.groups := rfl
@[simp] theorem State.setReg_kernels (r : RegSpec) (is : List Nat) (v : DWord) : (s.setReg r is v).kernels = s.kernels := rfl
@[simp] theorem State.setReg_porters (r : RegSpec) (is : List Nat) (v : DWord) : (s.setReg r is v).porters = s.porters := rfl
@[simp] theorem State.setReg_bays (r : RegSpec) (is : List Nat) (v : DWord) : (s.setReg r is v).bays = s.bays := rfl
@[simp] theorem State.setReg_imgs (r : RegSpec) (is : List Nat) (v : DWord) : (s.setReg r is v).imgs = s.imgs := rfl
@[simp] theorem State.setReg_serving (r : RegSpec) (is : List Nat) (v : DWord) : (s.setReg r is v).serving = s.serving := rfl
@[simp] theorem State.setReg_ranges (r : RegSpec) (is : List Nat) (v : DWord) : (s.setReg r is v).ranges = s.ranges := rfl
@[simp] theorem State.setReg_larder (r : RegSpec) (is : List Nat) (v : DWord) : (s.setReg r is v).larder = s.larder := rfl
@[simp] theorem State.setReg_cups (r : RegSpec) (is : List Nat) (v : DWord) : (s.setReg r is v).cups = s.cups := rfl
@[simp] theorem State.setReg_shelves (r : RegSpec) (is : List Nat) (v : DWord) : (s.setReg r is v).shelves = s.shelves := rfl
@[simp] theorem State.setReg_cellar (r : RegSpec) (is : List Nat) (v : DWord) : (s.setReg r is v).cellar = s.cellar := rfl
@[simp] theorem State.setReg_keyOwner (r : RegSpec) (is : List Nat) (v : DWord) : (s.setReg r is v).keyOwner = s.keyOwner := rfl
@[simp] theorem State.setReg_keyGen (r : RegSpec) (is : List Nat) (v : DWord) : (s.setReg r is v).keyGen = s.keyGen := rfl
@[simp] theorem State.setReg_homes (r : RegSpec) (is : List Nat) (v : DWord) : (s.setReg r is v).homes = s.homes := rfl
@[simp] theorem State.setReg_net (r : RegSpec) (is : List Nat) (v : DWord) : (s.setReg r is v).net = s.net := rfl
@[simp] theorem State.setReg_slices (r : RegSpec) (is : List Nat) (v : DWord) : (s.setReg r is v).slices = s.slices := rfl
@[simp] theorem State.setReg_tlbs (r : RegSpec) (is : List Nat) (v : DWord) : (s.setReg r is v).tlbs = s.tlbs := rfl
@[simp] theorem State.setReg_rangeOps (r : RegSpec) (is : List Nat) (v : DWord) : (s.setReg r is v).rangeOps = s.rangeOps := rfl
@[simp] theorem State.setReg_larderCtl (r : RegSpec) (is : List Nat) (v : DWord) : (s.setReg r is v).larderCtl = s.larderCtl := rfl
@[simp] theorem State.setReg_replays (r : RegSpec) (is : List Nat) (v : DWord) : (s.setReg r is v).replays = s.replays := rfl
@[simp] theorem State.setReg_tallySet (r : RegSpec) (is : List Nat) (v : DWord) : (s.setReg r is v).tallySet = s.tallySet := rfl
@[simp] theorem State.setReg_heldAdds (r : RegSpec) (is : List Nat) (v : DWord) : (s.setReg r is v).heldAdds = s.heldAdds := rfl
@[simp] theorem State.setReg_heldWrites (r : RegSpec) (is : List Nat) (v : DWord) : (s.setReg r is v).heldWrites = s.heldWrites := rfl
@[simp] theorem State.setReg_wakeReq (r : RegSpec) (is : List Nat) (v : DWord) : (s.setReg r is v).wakeReq = s.wakeReq := rfl
@[simp] theorem State.setReg_critR (r : RegSpec) (is : List Nat) (v : DWord) : (s.setReg r is v).critR = s.critR := rfl
@[simp] theorem State.setReg_critA (r : RegSpec) (is : List Nat) (v : DWord) : (s.setReg r is v).critA = s.critA := rfl
@[simp] theorem State.setReg_hatOut (r : RegSpec) (is : List Nat) (v : DWord) : (s.setReg r is v).hatOut = s.hatOut := rfl
@[simp] theorem State.setReg_hatQueue (r : RegSpec) (is : List Nat) (v : DWord) : (s.setReg r is v).hatQueue = s.hatQueue := rfl
@[simp] theorem State.setReg_hatLost (r : RegSpec) (is : List Nat) (v : DWord) : (s.setReg r is v).hatLost = s.hatLost := rfl
@[simp] theorem State.setReg_chuteOut (r : RegSpec) (is : List Nat) (v : DWord) : (s.setReg r is v).chuteOut = s.chuteOut := rfl
@[simp] theorem State.setReg_chuteLive (r : RegSpec) (is : List Nat) (v : DWord) : (s.setReg r is v).chuteLive = s.chuteLive := rfl
@[simp] theorem State.setReg_chuteIn (r : RegSpec) (is : List Nat) (v : DWord) : (s.setReg r is v).chuteIn = s.chuteIn := rfl
@[simp] theorem State.setReg_chuteReds (r : RegSpec) (is : List Nat) (v : DWord) : (s.setReg r is v).chuteReds = s.chuteReds := rfl
@[simp] theorem State.setReg_chuteFwd (r : RegSpec) (is : List Nat) (v : DWord) : (s.setReg r is v).chuteFwd = s.chuteFwd := rfl
@[simp] theorem State.setReg_ports (r : RegSpec) (is : List Nat) (v : DWord) : (s.setReg r is v).ports = s.ports := rfl
@[simp] theorem State.setReg_origins (r : RegSpec) (is : List Nat) (v : DWord) : (s.setReg r is v).origins = s.origins := rfl
@[simp] theorem State.setReg_transit (r : RegSpec) (is : List Nat) (v : DWord) : (s.setReg r is v).transit = s.transit := rfl
@[simp] theorem State.setReg_joists (r : RegSpec) (is : List Nat) (v : DWord) : (s.setReg r is v).joists = s.joists := rfl
@[simp] theorem State.setReg_joistLinks (r : RegSpec) (is : List Nat) (v : DWord) : (s.setReg r is v).joistLinks = s.joistLinks := rfl
@[simp] theorem State.setReg_lockerLost (r : RegSpec) (is : List Nat) (v : DWord) : (s.setReg r is v).lockerLost = s.lockerLost := rfl
@[simp] theorem State.setReg_joistIn (r : RegSpec) (is : List Nat) (v : DWord) : (s.setReg r is v).joistIn = s.joistIn := rfl
@[simp] theorem State.setReg_joistOut (r : RegSpec) (is : List Nat) (v : DWord) : (s.setReg r is v).joistOut = s.joistOut := rfl
@[simp] theorem State.setReg_joistLive (r : RegSpec) (is : List Nat) (v : DWord) : (s.setReg r is v).joistLive = s.joistLive := rfl
@[simp] theorem State.setReg_pilot (r : RegSpec) (is : List Nat) (v : DWord) : (s.setReg r is v).pilot = s.pilot := rfl
@[simp] theorem State.setReg_cellarCtl (r : RegSpec) (is : List Nat) (v : DWord) : (s.setReg r is v).cellarCtl = s.cellarCtl := rfl
@[simp] theorem State.setReg_clocks (r : RegSpec) (is : List Nat) (v : DWord) : (s.setReg r is v).clocks = s.clocks := rfl
@[simp] theorem State.setReg_power (r : RegSpec) (is : List Nat) (v : DWord) : (s.setReg r is v).power = s.power := rfl
@[simp] theorem State.setReg_spdm (r : RegSpec) (is : List Nat) (v : DWord) : (s.setReg r is v).spdm = s.spdm := rfl
@[simp] theorem State.setReg_ide (r : RegSpec) (is : List Nat) (v : DWord) : (s.setReg r is v).ide = s.ide := rfl
@[simp] theorem State.setReg_hostIn (r : RegSpec) (is : List Nat) (v : DWord) : (s.setReg r is v).hostIn = s.hostIn := rfl
@[simp] theorem State.setReg_replies (r : RegSpec) (is : List Nat) (v : DWord) : (s.setReg r is v).replies = s.replies := rfl
@[simp] theorem State.setReg_apsel (r : RegSpec) (is : List Nat) (v : DWord) : (s.setReg r is v).apsel = s.apsel := rfl
@[simp] theorem State.setReg_msixTable (r : RegSpec) (is : List Nat) (v : DWord) : (s.setReg r is v).msixTable = s.msixTable := rfl
@[simp] theorem State.setReg_bar2 (r : RegSpec) (is : List Nat) (v : DWord) : (s.setReg r is v).bar2 = s.bar2 := rfl
@[simp] theorem State.setReg_hostOut (r : RegSpec) (is : List Nat) (v : DWord) : (s.setReg r is v).hostOut = s.hostOut := rfl
@[simp] theorem State.setReg_atsOn (r : RegSpec) (is : List Nat) (v : DWord) : (s.setReg r is v).atsOn = s.atsOn := rfl
@[simp] theorem State.setReg_atc (r : RegSpec) (is : List Nat) (v : DWord) : (s.setReg r is v).atc = s.atc := rfl
@[simp] theorem State.setReg_atsInval (r : RegSpec) (is : List Nat) (v : DWord) : (s.setReg r is v).atsInval = s.atsInval := rfl
@[simp] theorem State.setReg_dropTold (r : RegSpec) (is : List Nat) (v : DWord) : (s.setReg r is v).dropTold = s.dropTold := rfl
@[simp] theorem State.setReg_migSecret (r : RegSpec) (is : List Nat) (v : DWord) : (s.setReg r is v).migSecret = s.migSecret := rfl
@[simp] theorem State.setReg_flr (r : RegSpec) (is : List Nat) (v : DWord) : (s.setReg r is v).flr = s.flr := rfl
@[simp] theorem State.setReg_nonceLive (r : RegSpec) (is : List Nat) (v : DWord) : (s.setReg r is v).nonceLive = s.nonceLive := rfl
@[simp] theorem State.setReg_vfOn (r : RegSpec) (is : List Nat) (v : DWord) : (s.setReg r is v).vfOn = s.vfOn := rfl
@[simp] theorem State.setReg_vfReady (r : RegSpec) (is : List Nat) (v : DWord) : (s.setReg r is v).vfReady = s.vfReady := rfl
@[simp] theorem State.setReg_measLog (r : RegSpec) (is : List Nat) (v : DWord) : (s.setReg r is v).measLog = s.measLog := rfl

/-! ### setFld -/
@[simp] theorem State.setFld_pending (r : RegSpec) (is : List Nat) (f : Fld) (v : Nat) : (s.setFld r is f v).pending = s.pending := rfl
@[simp] theorem State.setFld_free (r : RegSpec) (is : List Nat) (f : Fld) (v : Nat) : (s.setFld r is f v).free = s.free := rfl
@[simp] theorem State.setFld_mem (r : RegSpec) (is : List Nat) (f : Fld) (v : Nat) : (s.setFld r is f v).mem = s.mem := rfl
@[simp] theorem State.setFld_poison (r : RegSpec) (is : List Nat) (f : Fld) (v : Nat) : (s.setFld r is f v).poison = s.poison := rfl
@[simp] theorem State.setFld_msixOpen (r : RegSpec) (is : List Nat) (f : Fld) (v : Nat) : (s.setFld r is f v).msixOpen = s.msixOpen := rfl
@[simp] theorem State.setFld_msixPend (r : RegSpec) (is : List Nat) (f : Fld) (v : Nat) : (s.setFld r is f v).msixPend = s.msixPend := rfl
@[simp] theorem State.setFld_msixSent (r : RegSpec) (is : List Nat) (f : Fld) (v : Nat) : (s.setFld r is f v).msixSent = s.msixSent := rfl
@[simp] theorem State.setFld_seqs (r : RegSpec) (is : List Nat) (f : Fld) (v : Nat) : (s.setFld r is f v).seqs = s.seqs := rfl
@[simp] theorem State.setFld_steps (r : RegSpec) (is : List Nat) (f : Fld) (v : Nat) : (s.setFld r is f v).steps = s.steps := rfl
@[simp] theorem State.setFld_groups (r : RegSpec) (is : List Nat) (f : Fld) (v : Nat) : (s.setFld r is f v).groups = s.groups := rfl
@[simp] theorem State.setFld_kernels (r : RegSpec) (is : List Nat) (f : Fld) (v : Nat) : (s.setFld r is f v).kernels = s.kernels := rfl
@[simp] theorem State.setFld_porters (r : RegSpec) (is : List Nat) (f : Fld) (v : Nat) : (s.setFld r is f v).porters = s.porters := rfl
@[simp] theorem State.setFld_bays (r : RegSpec) (is : List Nat) (f : Fld) (v : Nat) : (s.setFld r is f v).bays = s.bays := rfl
@[simp] theorem State.setFld_imgs (r : RegSpec) (is : List Nat) (f : Fld) (v : Nat) : (s.setFld r is f v).imgs = s.imgs := rfl
@[simp] theorem State.setFld_serving (r : RegSpec) (is : List Nat) (f : Fld) (v : Nat) : (s.setFld r is f v).serving = s.serving := rfl
@[simp] theorem State.setFld_ranges (r : RegSpec) (is : List Nat) (f : Fld) (v : Nat) : (s.setFld r is f v).ranges = s.ranges := rfl
@[simp] theorem State.setFld_larder (r : RegSpec) (is : List Nat) (f : Fld) (v : Nat) : (s.setFld r is f v).larder = s.larder := rfl
@[simp] theorem State.setFld_cups (r : RegSpec) (is : List Nat) (f : Fld) (v : Nat) : (s.setFld r is f v).cups = s.cups := rfl
@[simp] theorem State.setFld_shelves (r : RegSpec) (is : List Nat) (f : Fld) (v : Nat) : (s.setFld r is f v).shelves = s.shelves := rfl
@[simp] theorem State.setFld_cellar (r : RegSpec) (is : List Nat) (f : Fld) (v : Nat) : (s.setFld r is f v).cellar = s.cellar := rfl
@[simp] theorem State.setFld_keyOwner (r : RegSpec) (is : List Nat) (f : Fld) (v : Nat) : (s.setFld r is f v).keyOwner = s.keyOwner := rfl
@[simp] theorem State.setFld_keyGen (r : RegSpec) (is : List Nat) (f : Fld) (v : Nat) : (s.setFld r is f v).keyGen = s.keyGen := rfl
@[simp] theorem State.setFld_homes (r : RegSpec) (is : List Nat) (f : Fld) (v : Nat) : (s.setFld r is f v).homes = s.homes := rfl
@[simp] theorem State.setFld_net (r : RegSpec) (is : List Nat) (f : Fld) (v : Nat) : (s.setFld r is f v).net = s.net := rfl
@[simp] theorem State.setFld_slices (r : RegSpec) (is : List Nat) (f : Fld) (v : Nat) : (s.setFld r is f v).slices = s.slices := rfl
@[simp] theorem State.setFld_tlbs (r : RegSpec) (is : List Nat) (f : Fld) (v : Nat) : (s.setFld r is f v).tlbs = s.tlbs := rfl
@[simp] theorem State.setFld_rangeOps (r : RegSpec) (is : List Nat) (f : Fld) (v : Nat) : (s.setFld r is f v).rangeOps = s.rangeOps := rfl
@[simp] theorem State.setFld_larderCtl (r : RegSpec) (is : List Nat) (f : Fld) (v : Nat) : (s.setFld r is f v).larderCtl = s.larderCtl := rfl
@[simp] theorem State.setFld_replays (r : RegSpec) (is : List Nat) (f : Fld) (v : Nat) : (s.setFld r is f v).replays = s.replays := rfl
@[simp] theorem State.setFld_tallySet (r : RegSpec) (is : List Nat) (f : Fld) (v : Nat) : (s.setFld r is f v).tallySet = s.tallySet := rfl
@[simp] theorem State.setFld_heldAdds (r : RegSpec) (is : List Nat) (f : Fld) (v : Nat) : (s.setFld r is f v).heldAdds = s.heldAdds := rfl
@[simp] theorem State.setFld_heldWrites (r : RegSpec) (is : List Nat) (f : Fld) (v : Nat) : (s.setFld r is f v).heldWrites = s.heldWrites := rfl
@[simp] theorem State.setFld_wakeReq (r : RegSpec) (is : List Nat) (f : Fld) (v : Nat) : (s.setFld r is f v).wakeReq = s.wakeReq := rfl
@[simp] theorem State.setFld_critR (r : RegSpec) (is : List Nat) (f : Fld) (v : Nat) : (s.setFld r is f v).critR = s.critR := rfl
@[simp] theorem State.setFld_critA (r : RegSpec) (is : List Nat) (f : Fld) (v : Nat) : (s.setFld r is f v).critA = s.critA := rfl
@[simp] theorem State.setFld_hatOut (r : RegSpec) (is : List Nat) (f : Fld) (v : Nat) : (s.setFld r is f v).hatOut = s.hatOut := rfl
@[simp] theorem State.setFld_hatQueue (r : RegSpec) (is : List Nat) (f : Fld) (v : Nat) : (s.setFld r is f v).hatQueue = s.hatQueue := rfl
@[simp] theorem State.setFld_hatLost (r : RegSpec) (is : List Nat) (f : Fld) (v : Nat) : (s.setFld r is f v).hatLost = s.hatLost := rfl
@[simp] theorem State.setFld_chuteOut (r : RegSpec) (is : List Nat) (f : Fld) (v : Nat) : (s.setFld r is f v).chuteOut = s.chuteOut := rfl
@[simp] theorem State.setFld_chuteLive (r : RegSpec) (is : List Nat) (f : Fld) (v : Nat) : (s.setFld r is f v).chuteLive = s.chuteLive := rfl
@[simp] theorem State.setFld_chuteIn (r : RegSpec) (is : List Nat) (f : Fld) (v : Nat) : (s.setFld r is f v).chuteIn = s.chuteIn := rfl
@[simp] theorem State.setFld_chuteReds (r : RegSpec) (is : List Nat) (f : Fld) (v : Nat) : (s.setFld r is f v).chuteReds = s.chuteReds := rfl
@[simp] theorem State.setFld_chuteFwd (r : RegSpec) (is : List Nat) (f : Fld) (v : Nat) : (s.setFld r is f v).chuteFwd = s.chuteFwd := rfl
@[simp] theorem State.setFld_ports (r : RegSpec) (is : List Nat) (f : Fld) (v : Nat) : (s.setFld r is f v).ports = s.ports := rfl
@[simp] theorem State.setFld_origins (r : RegSpec) (is : List Nat) (f : Fld) (v : Nat) : (s.setFld r is f v).origins = s.origins := rfl
@[simp] theorem State.setFld_transit (r : RegSpec) (is : List Nat) (f : Fld) (v : Nat) : (s.setFld r is f v).transit = s.transit := rfl
@[simp] theorem State.setFld_joists (r : RegSpec) (is : List Nat) (f : Fld) (v : Nat) : (s.setFld r is f v).joists = s.joists := rfl
@[simp] theorem State.setFld_joistLinks (r : RegSpec) (is : List Nat) (f : Fld) (v : Nat) : (s.setFld r is f v).joistLinks = s.joistLinks := rfl
@[simp] theorem State.setFld_lockerLost (r : RegSpec) (is : List Nat) (f : Fld) (v : Nat) : (s.setFld r is f v).lockerLost = s.lockerLost := rfl
@[simp] theorem State.setFld_joistIn (r : RegSpec) (is : List Nat) (f : Fld) (v : Nat) : (s.setFld r is f v).joistIn = s.joistIn := rfl
@[simp] theorem State.setFld_joistOut (r : RegSpec) (is : List Nat) (f : Fld) (v : Nat) : (s.setFld r is f v).joistOut = s.joistOut := rfl
@[simp] theorem State.setFld_joistLive (r : RegSpec) (is : List Nat) (f : Fld) (v : Nat) : (s.setFld r is f v).joistLive = s.joistLive := rfl
@[simp] theorem State.setFld_pilot (r : RegSpec) (is : List Nat) (f : Fld) (v : Nat) : (s.setFld r is f v).pilot = s.pilot := rfl
@[simp] theorem State.setFld_cellarCtl (r : RegSpec) (is : List Nat) (f : Fld) (v : Nat) : (s.setFld r is f v).cellarCtl = s.cellarCtl := rfl
@[simp] theorem State.setFld_clocks (r : RegSpec) (is : List Nat) (f : Fld) (v : Nat) : (s.setFld r is f v).clocks = s.clocks := rfl
@[simp] theorem State.setFld_power (r : RegSpec) (is : List Nat) (f : Fld) (v : Nat) : (s.setFld r is f v).power = s.power := rfl
@[simp] theorem State.setFld_spdm (r : RegSpec) (is : List Nat) (f : Fld) (v : Nat) : (s.setFld r is f v).spdm = s.spdm := rfl
@[simp] theorem State.setFld_ide (r : RegSpec) (is : List Nat) (f : Fld) (v : Nat) : (s.setFld r is f v).ide = s.ide := rfl
@[simp] theorem State.setFld_hostIn (r : RegSpec) (is : List Nat) (f : Fld) (v : Nat) : (s.setFld r is f v).hostIn = s.hostIn := rfl
@[simp] theorem State.setFld_replies (r : RegSpec) (is : List Nat) (f : Fld) (v : Nat) : (s.setFld r is f v).replies = s.replies := rfl
@[simp] theorem State.setFld_apsel (r : RegSpec) (is : List Nat) (f : Fld) (v : Nat) : (s.setFld r is f v).apsel = s.apsel := rfl
@[simp] theorem State.setFld_msixTable (r : RegSpec) (is : List Nat) (f : Fld) (v : Nat) : (s.setFld r is f v).msixTable = s.msixTable := rfl
@[simp] theorem State.setFld_bar2 (r : RegSpec) (is : List Nat) (f : Fld) (v : Nat) : (s.setFld r is f v).bar2 = s.bar2 := rfl
@[simp] theorem State.setFld_hostOut (r : RegSpec) (is : List Nat) (f : Fld) (v : Nat) : (s.setFld r is f v).hostOut = s.hostOut := rfl
@[simp] theorem State.setFld_atsOn (r : RegSpec) (is : List Nat) (f : Fld) (v : Nat) : (s.setFld r is f v).atsOn = s.atsOn := rfl
@[simp] theorem State.setFld_atc (r : RegSpec) (is : List Nat) (f : Fld) (v : Nat) : (s.setFld r is f v).atc = s.atc := rfl
@[simp] theorem State.setFld_atsInval (r : RegSpec) (is : List Nat) (f : Fld) (v : Nat) : (s.setFld r is f v).atsInval = s.atsInval := rfl
@[simp] theorem State.setFld_dropTold (r : RegSpec) (is : List Nat) (f : Fld) (v : Nat) : (s.setFld r is f v).dropTold = s.dropTold := rfl
@[simp] theorem State.setFld_migSecret (r : RegSpec) (is : List Nat) (f : Fld) (v : Nat) : (s.setFld r is f v).migSecret = s.migSecret := rfl
@[simp] theorem State.setFld_flr (r : RegSpec) (is : List Nat) (f : Fld) (v : Nat) : (s.setFld r is f v).flr = s.flr := rfl
@[simp] theorem State.setFld_nonceLive (r : RegSpec) (is : List Nat) (f : Fld) (v : Nat) : (s.setFld r is f v).nonceLive = s.nonceLive := rfl
@[simp] theorem State.setFld_vfOn (r : RegSpec) (is : List Nat) (f : Fld) (v : Nat) : (s.setFld r is f v).vfOn = s.vfOn := rfl
@[simp] theorem State.setFld_vfReady (r : RegSpec) (is : List Nat) (f : Fld) (v : Nat) : (s.setFld r is f v).vfReady = s.vfReady := rfl
@[simp] theorem State.setFld_measLog (r : RegSpec) (is : List Nat) (f : Fld) (v : Nat) : (s.setFld r is f v).measLog = s.measLog := rfl

/-! ### bump -/
@[simp] theorem State.bump_pending (r : RegSpec) (is : List Nat) (f : Fld) (v : Nat) : (s.bump r is f v).pending = s.pending := rfl
@[simp] theorem State.bump_free (r : RegSpec) (is : List Nat) (f : Fld) (v : Nat) : (s.bump r is f v).free = s.free := rfl
@[simp] theorem State.bump_mem (r : RegSpec) (is : List Nat) (f : Fld) (v : Nat) : (s.bump r is f v).mem = s.mem := rfl
@[simp] theorem State.bump_poison (r : RegSpec) (is : List Nat) (f : Fld) (v : Nat) : (s.bump r is f v).poison = s.poison := rfl
@[simp] theorem State.bump_msixOpen (r : RegSpec) (is : List Nat) (f : Fld) (v : Nat) : (s.bump r is f v).msixOpen = s.msixOpen := rfl
@[simp] theorem State.bump_msixPend (r : RegSpec) (is : List Nat) (f : Fld) (v : Nat) : (s.bump r is f v).msixPend = s.msixPend := rfl
@[simp] theorem State.bump_msixSent (r : RegSpec) (is : List Nat) (f : Fld) (v : Nat) : (s.bump r is f v).msixSent = s.msixSent := rfl
@[simp] theorem State.bump_seqs (r : RegSpec) (is : List Nat) (f : Fld) (v : Nat) : (s.bump r is f v).seqs = s.seqs := rfl
@[simp] theorem State.bump_steps (r : RegSpec) (is : List Nat) (f : Fld) (v : Nat) : (s.bump r is f v).steps = s.steps := rfl
@[simp] theorem State.bump_groups (r : RegSpec) (is : List Nat) (f : Fld) (v : Nat) : (s.bump r is f v).groups = s.groups := rfl
@[simp] theorem State.bump_kernels (r : RegSpec) (is : List Nat) (f : Fld) (v : Nat) : (s.bump r is f v).kernels = s.kernels := rfl
@[simp] theorem State.bump_porters (r : RegSpec) (is : List Nat) (f : Fld) (v : Nat) : (s.bump r is f v).porters = s.porters := rfl
@[simp] theorem State.bump_bays (r : RegSpec) (is : List Nat) (f : Fld) (v : Nat) : (s.bump r is f v).bays = s.bays := rfl
@[simp] theorem State.bump_imgs (r : RegSpec) (is : List Nat) (f : Fld) (v : Nat) : (s.bump r is f v).imgs = s.imgs := rfl
@[simp] theorem State.bump_serving (r : RegSpec) (is : List Nat) (f : Fld) (v : Nat) : (s.bump r is f v).serving = s.serving := rfl
@[simp] theorem State.bump_ranges (r : RegSpec) (is : List Nat) (f : Fld) (v : Nat) : (s.bump r is f v).ranges = s.ranges := rfl
@[simp] theorem State.bump_larder (r : RegSpec) (is : List Nat) (f : Fld) (v : Nat) : (s.bump r is f v).larder = s.larder := rfl
@[simp] theorem State.bump_cups (r : RegSpec) (is : List Nat) (f : Fld) (v : Nat) : (s.bump r is f v).cups = s.cups := rfl
@[simp] theorem State.bump_shelves (r : RegSpec) (is : List Nat) (f : Fld) (v : Nat) : (s.bump r is f v).shelves = s.shelves := rfl
@[simp] theorem State.bump_cellar (r : RegSpec) (is : List Nat) (f : Fld) (v : Nat) : (s.bump r is f v).cellar = s.cellar := rfl
@[simp] theorem State.bump_keyOwner (r : RegSpec) (is : List Nat) (f : Fld) (v : Nat) : (s.bump r is f v).keyOwner = s.keyOwner := rfl
@[simp] theorem State.bump_keyGen (r : RegSpec) (is : List Nat) (f : Fld) (v : Nat) : (s.bump r is f v).keyGen = s.keyGen := rfl
@[simp] theorem State.bump_homes (r : RegSpec) (is : List Nat) (f : Fld) (v : Nat) : (s.bump r is f v).homes = s.homes := rfl
@[simp] theorem State.bump_net (r : RegSpec) (is : List Nat) (f : Fld) (v : Nat) : (s.bump r is f v).net = s.net := rfl
@[simp] theorem State.bump_slices (r : RegSpec) (is : List Nat) (f : Fld) (v : Nat) : (s.bump r is f v).slices = s.slices := rfl
@[simp] theorem State.bump_tlbs (r : RegSpec) (is : List Nat) (f : Fld) (v : Nat) : (s.bump r is f v).tlbs = s.tlbs := rfl
@[simp] theorem State.bump_rangeOps (r : RegSpec) (is : List Nat) (f : Fld) (v : Nat) : (s.bump r is f v).rangeOps = s.rangeOps := rfl
@[simp] theorem State.bump_larderCtl (r : RegSpec) (is : List Nat) (f : Fld) (v : Nat) : (s.bump r is f v).larderCtl = s.larderCtl := rfl
@[simp] theorem State.bump_replays (r : RegSpec) (is : List Nat) (f : Fld) (v : Nat) : (s.bump r is f v).replays = s.replays := rfl
@[simp] theorem State.bump_tallySet (r : RegSpec) (is : List Nat) (f : Fld) (v : Nat) : (s.bump r is f v).tallySet = s.tallySet := rfl
@[simp] theorem State.bump_heldAdds (r : RegSpec) (is : List Nat) (f : Fld) (v : Nat) : (s.bump r is f v).heldAdds = s.heldAdds := rfl
@[simp] theorem State.bump_heldWrites (r : RegSpec) (is : List Nat) (f : Fld) (v : Nat) : (s.bump r is f v).heldWrites = s.heldWrites := rfl
@[simp] theorem State.bump_wakeReq (r : RegSpec) (is : List Nat) (f : Fld) (v : Nat) : (s.bump r is f v).wakeReq = s.wakeReq := rfl
@[simp] theorem State.bump_critR (r : RegSpec) (is : List Nat) (f : Fld) (v : Nat) : (s.bump r is f v).critR = s.critR := rfl
@[simp] theorem State.bump_critA (r : RegSpec) (is : List Nat) (f : Fld) (v : Nat) : (s.bump r is f v).critA = s.critA := rfl
@[simp] theorem State.bump_hatOut (r : RegSpec) (is : List Nat) (f : Fld) (v : Nat) : (s.bump r is f v).hatOut = s.hatOut := rfl
@[simp] theorem State.bump_hatQueue (r : RegSpec) (is : List Nat) (f : Fld) (v : Nat) : (s.bump r is f v).hatQueue = s.hatQueue := rfl
@[simp] theorem State.bump_hatLost (r : RegSpec) (is : List Nat) (f : Fld) (v : Nat) : (s.bump r is f v).hatLost = s.hatLost := rfl
@[simp] theorem State.bump_chuteOut (r : RegSpec) (is : List Nat) (f : Fld) (v : Nat) : (s.bump r is f v).chuteOut = s.chuteOut := rfl
@[simp] theorem State.bump_chuteLive (r : RegSpec) (is : List Nat) (f : Fld) (v : Nat) : (s.bump r is f v).chuteLive = s.chuteLive := rfl
@[simp] theorem State.bump_chuteIn (r : RegSpec) (is : List Nat) (f : Fld) (v : Nat) : (s.bump r is f v).chuteIn = s.chuteIn := rfl
@[simp] theorem State.bump_chuteReds (r : RegSpec) (is : List Nat) (f : Fld) (v : Nat) : (s.bump r is f v).chuteReds = s.chuteReds := rfl
@[simp] theorem State.bump_chuteFwd (r : RegSpec) (is : List Nat) (f : Fld) (v : Nat) : (s.bump r is f v).chuteFwd = s.chuteFwd := rfl
@[simp] theorem State.bump_ports (r : RegSpec) (is : List Nat) (f : Fld) (v : Nat) : (s.bump r is f v).ports = s.ports := rfl
@[simp] theorem State.bump_origins (r : RegSpec) (is : List Nat) (f : Fld) (v : Nat) : (s.bump r is f v).origins = s.origins := rfl
@[simp] theorem State.bump_transit (r : RegSpec) (is : List Nat) (f : Fld) (v : Nat) : (s.bump r is f v).transit = s.transit := rfl
@[simp] theorem State.bump_joists (r : RegSpec) (is : List Nat) (f : Fld) (v : Nat) : (s.bump r is f v).joists = s.joists := rfl
@[simp] theorem State.bump_joistLinks (r : RegSpec) (is : List Nat) (f : Fld) (v : Nat) : (s.bump r is f v).joistLinks = s.joistLinks := rfl
@[simp] theorem State.bump_lockerLost (r : RegSpec) (is : List Nat) (f : Fld) (v : Nat) : (s.bump r is f v).lockerLost = s.lockerLost := rfl
@[simp] theorem State.bump_joistIn (r : RegSpec) (is : List Nat) (f : Fld) (v : Nat) : (s.bump r is f v).joistIn = s.joistIn := rfl
@[simp] theorem State.bump_joistOut (r : RegSpec) (is : List Nat) (f : Fld) (v : Nat) : (s.bump r is f v).joistOut = s.joistOut := rfl
@[simp] theorem State.bump_joistLive (r : RegSpec) (is : List Nat) (f : Fld) (v : Nat) : (s.bump r is f v).joistLive = s.joistLive := rfl
@[simp] theorem State.bump_pilot (r : RegSpec) (is : List Nat) (f : Fld) (v : Nat) : (s.bump r is f v).pilot = s.pilot := rfl
@[simp] theorem State.bump_cellarCtl (r : RegSpec) (is : List Nat) (f : Fld) (v : Nat) : (s.bump r is f v).cellarCtl = s.cellarCtl := rfl
@[simp] theorem State.bump_clocks (r : RegSpec) (is : List Nat) (f : Fld) (v : Nat) : (s.bump r is f v).clocks = s.clocks := rfl
@[simp] theorem State.bump_power (r : RegSpec) (is : List Nat) (f : Fld) (v : Nat) : (s.bump r is f v).power = s.power := rfl
@[simp] theorem State.bump_spdm (r : RegSpec) (is : List Nat) (f : Fld) (v : Nat) : (s.bump r is f v).spdm = s.spdm := rfl
@[simp] theorem State.bump_ide (r : RegSpec) (is : List Nat) (f : Fld) (v : Nat) : (s.bump r is f v).ide = s.ide := rfl
@[simp] theorem State.bump_hostIn (r : RegSpec) (is : List Nat) (f : Fld) (v : Nat) : (s.bump r is f v).hostIn = s.hostIn := rfl
@[simp] theorem State.bump_replies (r : RegSpec) (is : List Nat) (f : Fld) (v : Nat) : (s.bump r is f v).replies = s.replies := rfl
@[simp] theorem State.bump_apsel (r : RegSpec) (is : List Nat) (f : Fld) (v : Nat) : (s.bump r is f v).apsel = s.apsel := rfl
@[simp] theorem State.bump_msixTable (r : RegSpec) (is : List Nat) (f : Fld) (v : Nat) : (s.bump r is f v).msixTable = s.msixTable := rfl
@[simp] theorem State.bump_bar2 (r : RegSpec) (is : List Nat) (f : Fld) (v : Nat) : (s.bump r is f v).bar2 = s.bar2 := rfl
@[simp] theorem State.bump_hostOut (r : RegSpec) (is : List Nat) (f : Fld) (v : Nat) : (s.bump r is f v).hostOut = s.hostOut := rfl
@[simp] theorem State.bump_atsOn (r : RegSpec) (is : List Nat) (f : Fld) (v : Nat) : (s.bump r is f v).atsOn = s.atsOn := rfl
@[simp] theorem State.bump_atc (r : RegSpec) (is : List Nat) (f : Fld) (v : Nat) : (s.bump r is f v).atc = s.atc := rfl
@[simp] theorem State.bump_atsInval (r : RegSpec) (is : List Nat) (f : Fld) (v : Nat) : (s.bump r is f v).atsInval = s.atsInval := rfl
@[simp] theorem State.bump_dropTold (r : RegSpec) (is : List Nat) (f : Fld) (v : Nat) : (s.bump r is f v).dropTold = s.dropTold := rfl
@[simp] theorem State.bump_migSecret (r : RegSpec) (is : List Nat) (f : Fld) (v : Nat) : (s.bump r is f v).migSecret = s.migSecret := rfl
@[simp] theorem State.bump_flr (r : RegSpec) (is : List Nat) (f : Fld) (v : Nat) : (s.bump r is f v).flr = s.flr := rfl
@[simp] theorem State.bump_nonceLive (r : RegSpec) (is : List Nat) (f : Fld) (v : Nat) : (s.bump r is f v).nonceLive = s.nonceLive := rfl
@[simp] theorem State.bump_vfOn (r : RegSpec) (is : List Nat) (f : Fld) (v : Nat) : (s.bump r is f v).vfOn = s.vfOn := rfl
@[simp] theorem State.bump_vfReady (r : RegSpec) (is : List Nat) (f : Fld) (v : Nat) : (s.bump r is f v).vfReady = s.vfReady := rfl
@[simp] theorem State.bump_measLog (r : RegSpec) (is : List Nat) (f : Fld) (v : Nat) : (s.bump r is f v).measLog = s.measLog := rfl

/-! ### wrote -/
@[simp] theorem State.wrote_pending (r : RegSpec) (is : List Nat) (v : Nat) : (s.wrote r is v).pending = s.pending := rfl
@[simp] theorem State.wrote_free (r : RegSpec) (is : List Nat) (v : Nat) : (s.wrote r is v).free = s.free := rfl
@[simp] theorem State.wrote_mem (r : RegSpec) (is : List Nat) (v : Nat) : (s.wrote r is v).mem = s.mem := rfl
@[simp] theorem State.wrote_poison (r : RegSpec) (is : List Nat) (v : Nat) : (s.wrote r is v).poison = s.poison := rfl
@[simp] theorem State.wrote_msixOpen (r : RegSpec) (is : List Nat) (v : Nat) : (s.wrote r is v).msixOpen = s.msixOpen := rfl
@[simp] theorem State.wrote_msixPend (r : RegSpec) (is : List Nat) (v : Nat) : (s.wrote r is v).msixPend = s.msixPend := rfl
@[simp] theorem State.wrote_msixSent (r : RegSpec) (is : List Nat) (v : Nat) : (s.wrote r is v).msixSent = s.msixSent := rfl
@[simp] theorem State.wrote_seqs (r : RegSpec) (is : List Nat) (v : Nat) : (s.wrote r is v).seqs = s.seqs := rfl
@[simp] theorem State.wrote_steps (r : RegSpec) (is : List Nat) (v : Nat) : (s.wrote r is v).steps = s.steps := rfl
@[simp] theorem State.wrote_groups (r : RegSpec) (is : List Nat) (v : Nat) : (s.wrote r is v).groups = s.groups := rfl
@[simp] theorem State.wrote_kernels (r : RegSpec) (is : List Nat) (v : Nat) : (s.wrote r is v).kernels = s.kernels := rfl
@[simp] theorem State.wrote_porters (r : RegSpec) (is : List Nat) (v : Nat) : (s.wrote r is v).porters = s.porters := rfl
@[simp] theorem State.wrote_bays (r : RegSpec) (is : List Nat) (v : Nat) : (s.wrote r is v).bays = s.bays := rfl
@[simp] theorem State.wrote_imgs (r : RegSpec) (is : List Nat) (v : Nat) : (s.wrote r is v).imgs = s.imgs := rfl
@[simp] theorem State.wrote_serving (r : RegSpec) (is : List Nat) (v : Nat) : (s.wrote r is v).serving = s.serving := rfl
@[simp] theorem State.wrote_ranges (r : RegSpec) (is : List Nat) (v : Nat) : (s.wrote r is v).ranges = s.ranges := rfl
@[simp] theorem State.wrote_larder (r : RegSpec) (is : List Nat) (v : Nat) : (s.wrote r is v).larder = s.larder := rfl
@[simp] theorem State.wrote_cups (r : RegSpec) (is : List Nat) (v : Nat) : (s.wrote r is v).cups = s.cups := rfl
@[simp] theorem State.wrote_shelves (r : RegSpec) (is : List Nat) (v : Nat) : (s.wrote r is v).shelves = s.shelves := rfl
@[simp] theorem State.wrote_cellar (r : RegSpec) (is : List Nat) (v : Nat) : (s.wrote r is v).cellar = s.cellar := rfl
@[simp] theorem State.wrote_keyOwner (r : RegSpec) (is : List Nat) (v : Nat) : (s.wrote r is v).keyOwner = s.keyOwner := rfl
@[simp] theorem State.wrote_keyGen (r : RegSpec) (is : List Nat) (v : Nat) : (s.wrote r is v).keyGen = s.keyGen := rfl
@[simp] theorem State.wrote_homes (r : RegSpec) (is : List Nat) (v : Nat) : (s.wrote r is v).homes = s.homes := rfl
@[simp] theorem State.wrote_net (r : RegSpec) (is : List Nat) (v : Nat) : (s.wrote r is v).net = s.net := rfl
@[simp] theorem State.wrote_slices (r : RegSpec) (is : List Nat) (v : Nat) : (s.wrote r is v).slices = s.slices := rfl
@[simp] theorem State.wrote_tlbs (r : RegSpec) (is : List Nat) (v : Nat) : (s.wrote r is v).tlbs = s.tlbs := rfl
@[simp] theorem State.wrote_rangeOps (r : RegSpec) (is : List Nat) (v : Nat) : (s.wrote r is v).rangeOps = s.rangeOps := rfl
@[simp] theorem State.wrote_larderCtl (r : RegSpec) (is : List Nat) (v : Nat) : (s.wrote r is v).larderCtl = s.larderCtl := rfl
@[simp] theorem State.wrote_replays (r : RegSpec) (is : List Nat) (v : Nat) : (s.wrote r is v).replays = s.replays := rfl
@[simp] theorem State.wrote_tallySet (r : RegSpec) (is : List Nat) (v : Nat) : (s.wrote r is v).tallySet = s.tallySet := rfl
@[simp] theorem State.wrote_heldAdds (r : RegSpec) (is : List Nat) (v : Nat) : (s.wrote r is v).heldAdds = s.heldAdds := rfl
@[simp] theorem State.wrote_heldWrites (r : RegSpec) (is : List Nat) (v : Nat) : (s.wrote r is v).heldWrites = s.heldWrites := rfl
@[simp] theorem State.wrote_wakeReq (r : RegSpec) (is : List Nat) (v : Nat) : (s.wrote r is v).wakeReq = s.wakeReq := rfl
@[simp] theorem State.wrote_critR (r : RegSpec) (is : List Nat) (v : Nat) : (s.wrote r is v).critR = s.critR := rfl
@[simp] theorem State.wrote_critA (r : RegSpec) (is : List Nat) (v : Nat) : (s.wrote r is v).critA = s.critA := rfl
@[simp] theorem State.wrote_hatOut (r : RegSpec) (is : List Nat) (v : Nat) : (s.wrote r is v).hatOut = s.hatOut := rfl
@[simp] theorem State.wrote_hatQueue (r : RegSpec) (is : List Nat) (v : Nat) : (s.wrote r is v).hatQueue = s.hatQueue := rfl
@[simp] theorem State.wrote_hatLost (r : RegSpec) (is : List Nat) (v : Nat) : (s.wrote r is v).hatLost = s.hatLost := rfl
@[simp] theorem State.wrote_chuteOut (r : RegSpec) (is : List Nat) (v : Nat) : (s.wrote r is v).chuteOut = s.chuteOut := rfl
@[simp] theorem State.wrote_chuteLive (r : RegSpec) (is : List Nat) (v : Nat) : (s.wrote r is v).chuteLive = s.chuteLive := rfl
@[simp] theorem State.wrote_chuteIn (r : RegSpec) (is : List Nat) (v : Nat) : (s.wrote r is v).chuteIn = s.chuteIn := rfl
@[simp] theorem State.wrote_chuteReds (r : RegSpec) (is : List Nat) (v : Nat) : (s.wrote r is v).chuteReds = s.chuteReds := rfl
@[simp] theorem State.wrote_chuteFwd (r : RegSpec) (is : List Nat) (v : Nat) : (s.wrote r is v).chuteFwd = s.chuteFwd := rfl
@[simp] theorem State.wrote_ports (r : RegSpec) (is : List Nat) (v : Nat) : (s.wrote r is v).ports = s.ports := rfl
@[simp] theorem State.wrote_origins (r : RegSpec) (is : List Nat) (v : Nat) : (s.wrote r is v).origins = s.origins := rfl
@[simp] theorem State.wrote_transit (r : RegSpec) (is : List Nat) (v : Nat) : (s.wrote r is v).transit = s.transit := rfl
@[simp] theorem State.wrote_joists (r : RegSpec) (is : List Nat) (v : Nat) : (s.wrote r is v).joists = s.joists := rfl
@[simp] theorem State.wrote_joistLinks (r : RegSpec) (is : List Nat) (v : Nat) : (s.wrote r is v).joistLinks = s.joistLinks := rfl
@[simp] theorem State.wrote_lockerLost (r : RegSpec) (is : List Nat) (v : Nat) : (s.wrote r is v).lockerLost = s.lockerLost := rfl
@[simp] theorem State.wrote_joistIn (r : RegSpec) (is : List Nat) (v : Nat) : (s.wrote r is v).joistIn = s.joistIn := rfl
@[simp] theorem State.wrote_joistOut (r : RegSpec) (is : List Nat) (v : Nat) : (s.wrote r is v).joistOut = s.joistOut := rfl
@[simp] theorem State.wrote_joistLive (r : RegSpec) (is : List Nat) (v : Nat) : (s.wrote r is v).joistLive = s.joistLive := rfl
@[simp] theorem State.wrote_pilot (r : RegSpec) (is : List Nat) (v : Nat) : (s.wrote r is v).pilot = s.pilot := rfl
@[simp] theorem State.wrote_cellarCtl (r : RegSpec) (is : List Nat) (v : Nat) : (s.wrote r is v).cellarCtl = s.cellarCtl := rfl
@[simp] theorem State.wrote_clocks (r : RegSpec) (is : List Nat) (v : Nat) : (s.wrote r is v).clocks = s.clocks := rfl
@[simp] theorem State.wrote_power (r : RegSpec) (is : List Nat) (v : Nat) : (s.wrote r is v).power = s.power := rfl
@[simp] theorem State.wrote_spdm (r : RegSpec) (is : List Nat) (v : Nat) : (s.wrote r is v).spdm = s.spdm := rfl
@[simp] theorem State.wrote_ide (r : RegSpec) (is : List Nat) (v : Nat) : (s.wrote r is v).ide = s.ide := rfl
@[simp] theorem State.wrote_hostIn (r : RegSpec) (is : List Nat) (v : Nat) : (s.wrote r is v).hostIn = s.hostIn := rfl
@[simp] theorem State.wrote_replies (r : RegSpec) (is : List Nat) (v : Nat) : (s.wrote r is v).replies = s.replies := rfl
@[simp] theorem State.wrote_apsel (r : RegSpec) (is : List Nat) (v : Nat) : (s.wrote r is v).apsel = s.apsel := rfl
@[simp] theorem State.wrote_msixTable (r : RegSpec) (is : List Nat) (v : Nat) : (s.wrote r is v).msixTable = s.msixTable := rfl
@[simp] theorem State.wrote_bar2 (r : RegSpec) (is : List Nat) (v : Nat) : (s.wrote r is v).bar2 = s.bar2 := rfl
@[simp] theorem State.wrote_hostOut (r : RegSpec) (is : List Nat) (v : Nat) : (s.wrote r is v).hostOut = s.hostOut := rfl
@[simp] theorem State.wrote_atsOn (r : RegSpec) (is : List Nat) (v : Nat) : (s.wrote r is v).atsOn = s.atsOn := rfl
@[simp] theorem State.wrote_atc (r : RegSpec) (is : List Nat) (v : Nat) : (s.wrote r is v).atc = s.atc := rfl
@[simp] theorem State.wrote_atsInval (r : RegSpec) (is : List Nat) (v : Nat) : (s.wrote r is v).atsInval = s.atsInval := rfl
@[simp] theorem State.wrote_dropTold (r : RegSpec) (is : List Nat) (v : Nat) : (s.wrote r is v).dropTold = s.dropTold := rfl
@[simp] theorem State.wrote_migSecret (r : RegSpec) (is : List Nat) (v : Nat) : (s.wrote r is v).migSecret = s.migSecret := rfl
@[simp] theorem State.wrote_flr (r : RegSpec) (is : List Nat) (v : Nat) : (s.wrote r is v).flr = s.flr := rfl
@[simp] theorem State.wrote_nonceLive (r : RegSpec) (is : List Nat) (v : Nat) : (s.wrote r is v).nonceLive = s.nonceLive := rfl
@[simp] theorem State.wrote_vfOn (r : RegSpec) (is : List Nat) (v : Nat) : (s.wrote r is v).vfOn = s.vfOn := rfl
@[simp] theorem State.wrote_vfReady (r : RegSpec) (is : List Nat) (v : Nat) : (s.wrote r is v).vfReady = s.vfReady := rfl
@[simp] theorem State.wrote_measLog (r : RegSpec) (is : List Nat) (v : Nat) : (s.wrote r is v).measLog = s.measLog := rfl

/-! ### setByte -/
@[simp] theorem State.setByte_pending (a : Nat) (b : Byte) : (s.setByte a b).pending = s.pending := rfl
@[simp] theorem State.setByte_free (a : Nat) (b : Byte) : (s.setByte a b).free = s.free := rfl
@[simp] theorem State.setByte_regs (a : Nat) (b : Byte) : (s.setByte a b).regs = s.regs := rfl
@[simp] theorem State.setByte_poison (a : Nat) (b : Byte) : (s.setByte a b).poison = s.poison := rfl
@[simp] theorem State.setByte_msixOpen (a : Nat) (b : Byte) : (s.setByte a b).msixOpen = s.msixOpen := rfl
@[simp] theorem State.setByte_msixPend (a : Nat) (b : Byte) : (s.setByte a b).msixPend = s.msixPend := rfl
@[simp] theorem State.setByte_msixSent (a : Nat) (b : Byte) : (s.setByte a b).msixSent = s.msixSent := rfl
@[simp] theorem State.setByte_seqs (a : Nat) (b : Byte) : (s.setByte a b).seqs = s.seqs := rfl
@[simp] theorem State.setByte_steps (a : Nat) (b : Byte) : (s.setByte a b).steps = s.steps := rfl
@[simp] theorem State.setByte_groups (a : Nat) (b : Byte) : (s.setByte a b).groups = s.groups := rfl
@[simp] theorem State.setByte_kernels (a : Nat) (b : Byte) : (s.setByte a b).kernels = s.kernels := rfl
@[simp] theorem State.setByte_porters (a : Nat) (b : Byte) : (s.setByte a b).porters = s.porters := rfl
@[simp] theorem State.setByte_bays (a : Nat) (b : Byte) : (s.setByte a b).bays = s.bays := rfl
@[simp] theorem State.setByte_imgs (a : Nat) (b : Byte) : (s.setByte a b).imgs = s.imgs := rfl
@[simp] theorem State.setByte_serving (a : Nat) (b : Byte) : (s.setByte a b).serving = s.serving := rfl
@[simp] theorem State.setByte_ranges (a : Nat) (b : Byte) : (s.setByte a b).ranges = s.ranges := rfl
@[simp] theorem State.setByte_larder (a : Nat) (b : Byte) : (s.setByte a b).larder = s.larder := rfl
@[simp] theorem State.setByte_cups (a : Nat) (b : Byte) : (s.setByte a b).cups = s.cups := rfl
@[simp] theorem State.setByte_shelves (a : Nat) (b : Byte) : (s.setByte a b).shelves = s.shelves := rfl
@[simp] theorem State.setByte_cellar (a : Nat) (b : Byte) : (s.setByte a b).cellar = s.cellar := rfl
@[simp] theorem State.setByte_keyOwner (a : Nat) (b : Byte) : (s.setByte a b).keyOwner = s.keyOwner := rfl
@[simp] theorem State.setByte_keyGen (a : Nat) (b : Byte) : (s.setByte a b).keyGen = s.keyGen := rfl
@[simp] theorem State.setByte_homes (a : Nat) (b : Byte) : (s.setByte a b).homes = s.homes := rfl
@[simp] theorem State.setByte_net (a : Nat) (b : Byte) : (s.setByte a b).net = s.net := rfl
@[simp] theorem State.setByte_slices (a : Nat) (b : Byte) : (s.setByte a b).slices = s.slices := rfl
@[simp] theorem State.setByte_tlbs (a : Nat) (b : Byte) : (s.setByte a b).tlbs = s.tlbs := rfl
@[simp] theorem State.setByte_rangeOps (a : Nat) (b : Byte) : (s.setByte a b).rangeOps = s.rangeOps := rfl
@[simp] theorem State.setByte_larderCtl (a : Nat) (b : Byte) : (s.setByte a b).larderCtl = s.larderCtl := rfl
@[simp] theorem State.setByte_replays (a : Nat) (b : Byte) : (s.setByte a b).replays = s.replays := rfl
@[simp] theorem State.setByte_tallySet (a : Nat) (b : Byte) : (s.setByte a b).tallySet = s.tallySet := rfl
@[simp] theorem State.setByte_heldAdds (a : Nat) (b : Byte) : (s.setByte a b).heldAdds = s.heldAdds := rfl
@[simp] theorem State.setByte_heldWrites (a : Nat) (b : Byte) : (s.setByte a b).heldWrites = s.heldWrites := rfl
@[simp] theorem State.setByte_wakeReq (a : Nat) (b : Byte) : (s.setByte a b).wakeReq = s.wakeReq := rfl
@[simp] theorem State.setByte_critR (a : Nat) (b : Byte) : (s.setByte a b).critR = s.critR := rfl
@[simp] theorem State.setByte_critA (a : Nat) (b : Byte) : (s.setByte a b).critA = s.critA := rfl
@[simp] theorem State.setByte_hatOut (a : Nat) (b : Byte) : (s.setByte a b).hatOut = s.hatOut := rfl
@[simp] theorem State.setByte_hatQueue (a : Nat) (b : Byte) : (s.setByte a b).hatQueue = s.hatQueue := rfl
@[simp] theorem State.setByte_hatLost (a : Nat) (b : Byte) : (s.setByte a b).hatLost = s.hatLost := rfl
@[simp] theorem State.setByte_chuteOut (a : Nat) (b : Byte) : (s.setByte a b).chuteOut = s.chuteOut := rfl
@[simp] theorem State.setByte_chuteLive (a : Nat) (b : Byte) : (s.setByte a b).chuteLive = s.chuteLive := rfl
@[simp] theorem State.setByte_chuteIn (a : Nat) (b : Byte) : (s.setByte a b).chuteIn = s.chuteIn := rfl
@[simp] theorem State.setByte_chuteReds (a : Nat) (b : Byte) : (s.setByte a b).chuteReds = s.chuteReds := rfl
@[simp] theorem State.setByte_chuteFwd (a : Nat) (b : Byte) : (s.setByte a b).chuteFwd = s.chuteFwd := rfl
@[simp] theorem State.setByte_ports (a : Nat) (b : Byte) : (s.setByte a b).ports = s.ports := rfl
@[simp] theorem State.setByte_origins (a : Nat) (b : Byte) : (s.setByte a b).origins = s.origins := rfl
@[simp] theorem State.setByte_transit (a : Nat) (b : Byte) : (s.setByte a b).transit = s.transit := rfl
@[simp] theorem State.setByte_joists (a : Nat) (b : Byte) : (s.setByte a b).joists = s.joists := rfl
@[simp] theorem State.setByte_joistLinks (a : Nat) (b : Byte) : (s.setByte a b).joistLinks = s.joistLinks := rfl
@[simp] theorem State.setByte_lockerLost (a : Nat) (b : Byte) : (s.setByte a b).lockerLost = s.lockerLost := rfl
@[simp] theorem State.setByte_joistIn (a : Nat) (b : Byte) : (s.setByte a b).joistIn = s.joistIn := rfl
@[simp] theorem State.setByte_joistOut (a : Nat) (b : Byte) : (s.setByte a b).joistOut = s.joistOut := rfl
@[simp] theorem State.setByte_joistLive (a : Nat) (b : Byte) : (s.setByte a b).joistLive = s.joistLive := rfl
@[simp] theorem State.setByte_pilot (a : Nat) (b : Byte) : (s.setByte a b).pilot = s.pilot := rfl
@[simp] theorem State.setByte_cellarCtl (a : Nat) (b : Byte) : (s.setByte a b).cellarCtl = s.cellarCtl := rfl
@[simp] theorem State.setByte_clocks (a : Nat) (b : Byte) : (s.setByte a b).clocks = s.clocks := rfl
@[simp] theorem State.setByte_power (a : Nat) (b : Byte) : (s.setByte a b).power = s.power := rfl
@[simp] theorem State.setByte_spdm (a : Nat) (b : Byte) : (s.setByte a b).spdm = s.spdm := rfl
@[simp] theorem State.setByte_ide (a : Nat) (b : Byte) : (s.setByte a b).ide = s.ide := rfl
@[simp] theorem State.setByte_hostIn (a : Nat) (b : Byte) : (s.setByte a b).hostIn = s.hostIn := rfl
@[simp] theorem State.setByte_replies (a : Nat) (b : Byte) : (s.setByte a b).replies = s.replies := rfl
@[simp] theorem State.setByte_apsel (a : Nat) (b : Byte) : (s.setByte a b).apsel = s.apsel := rfl
@[simp] theorem State.setByte_msixTable (a : Nat) (b : Byte) : (s.setByte a b).msixTable = s.msixTable := rfl
@[simp] theorem State.setByte_bar2 (a : Nat) (b : Byte) : (s.setByte a b).bar2 = s.bar2 := rfl
@[simp] theorem State.setByte_hostOut (a : Nat) (b : Byte) : (s.setByte a b).hostOut = s.hostOut := rfl
@[simp] theorem State.setByte_atsOn (a : Nat) (b : Byte) : (s.setByte a b).atsOn = s.atsOn := rfl
@[simp] theorem State.setByte_atc (a : Nat) (b : Byte) : (s.setByte a b).atc = s.atc := rfl
@[simp] theorem State.setByte_atsInval (a : Nat) (b : Byte) : (s.setByte a b).atsInval = s.atsInval := rfl
@[simp] theorem State.setByte_dropTold (a : Nat) (b : Byte) : (s.setByte a b).dropTold = s.dropTold := rfl
@[simp] theorem State.setByte_migSecret (a : Nat) (b : Byte) : (s.setByte a b).migSecret = s.migSecret := rfl
@[simp] theorem State.setByte_flr (a : Nat) (b : Byte) : (s.setByte a b).flr = s.flr := rfl
@[simp] theorem State.setByte_nonceLive (a : Nat) (b : Byte) : (s.setByte a b).nonceLive = s.nonceLive := rfl
@[simp] theorem State.setByte_vfOn (a : Nat) (b : Byte) : (s.setByte a b).vfOn = s.vfOn := rfl
@[simp] theorem State.setByte_vfReady (a : Nat) (b : Byte) : (s.setByte a b).vfReady = s.vfReady := rfl
@[simp] theorem State.setByte_measLog (a : Nat) (b : Byte) : (s.setByte a b).measLog = s.measLog := rfl

/-! ### markWord -/
@[simp] theorem State.markWord_pending (w : Nat) (p : Bool) : (s.markWord w p).pending = s.pending := rfl
@[simp] theorem State.markWord_free (w : Nat) (p : Bool) : (s.markWord w p).free = s.free := rfl
@[simp] theorem State.markWord_regs (w : Nat) (p : Bool) : (s.markWord w p).regs = s.regs := rfl
@[simp] theorem State.markWord_mem (w : Nat) (p : Bool) : (s.markWord w p).mem = s.mem := rfl
@[simp] theorem State.markWord_msixOpen (w : Nat) (p : Bool) : (s.markWord w p).msixOpen = s.msixOpen := rfl
@[simp] theorem State.markWord_msixPend (w : Nat) (p : Bool) : (s.markWord w p).msixPend = s.msixPend := rfl
@[simp] theorem State.markWord_msixSent (w : Nat) (p : Bool) : (s.markWord w p).msixSent = s.msixSent := rfl
@[simp] theorem State.markWord_seqs (w : Nat) (p : Bool) : (s.markWord w p).seqs = s.seqs := rfl
@[simp] theorem State.markWord_steps (w : Nat) (p : Bool) : (s.markWord w p).steps = s.steps := rfl
@[simp] theorem State.markWord_groups (w : Nat) (p : Bool) : (s.markWord w p).groups = s.groups := rfl
@[simp] theorem State.markWord_kernels (w : Nat) (p : Bool) : (s.markWord w p).kernels = s.kernels := rfl
@[simp] theorem State.markWord_porters (w : Nat) (p : Bool) : (s.markWord w p).porters = s.porters := rfl
@[simp] theorem State.markWord_bays (w : Nat) (p : Bool) : (s.markWord w p).bays = s.bays := rfl
@[simp] theorem State.markWord_imgs (w : Nat) (p : Bool) : (s.markWord w p).imgs = s.imgs := rfl
@[simp] theorem State.markWord_serving (w : Nat) (p : Bool) : (s.markWord w p).serving = s.serving := rfl
@[simp] theorem State.markWord_ranges (w : Nat) (p : Bool) : (s.markWord w p).ranges = s.ranges := rfl
@[simp] theorem State.markWord_larder (w : Nat) (p : Bool) : (s.markWord w p).larder = s.larder := rfl
@[simp] theorem State.markWord_cups (w : Nat) (p : Bool) : (s.markWord w p).cups = s.cups := rfl
@[simp] theorem State.markWord_shelves (w : Nat) (p : Bool) : (s.markWord w p).shelves = s.shelves := rfl
@[simp] theorem State.markWord_cellar (w : Nat) (p : Bool) : (s.markWord w p).cellar = s.cellar := rfl
@[simp] theorem State.markWord_keyOwner (w : Nat) (p : Bool) : (s.markWord w p).keyOwner = s.keyOwner := rfl
@[simp] theorem State.markWord_keyGen (w : Nat) (p : Bool) : (s.markWord w p).keyGen = s.keyGen := rfl
@[simp] theorem State.markWord_homes (w : Nat) (p : Bool) : (s.markWord w p).homes = s.homes := rfl
@[simp] theorem State.markWord_net (w : Nat) (p : Bool) : (s.markWord w p).net = s.net := rfl
@[simp] theorem State.markWord_slices (w : Nat) (p : Bool) : (s.markWord w p).slices = s.slices := rfl
@[simp] theorem State.markWord_tlbs (w : Nat) (p : Bool) : (s.markWord w p).tlbs = s.tlbs := rfl
@[simp] theorem State.markWord_rangeOps (w : Nat) (p : Bool) : (s.markWord w p).rangeOps = s.rangeOps := rfl
@[simp] theorem State.markWord_larderCtl (w : Nat) (p : Bool) : (s.markWord w p).larderCtl = s.larderCtl := rfl
@[simp] theorem State.markWord_replays (w : Nat) (p : Bool) : (s.markWord w p).replays = s.replays := rfl
@[simp] theorem State.markWord_tallySet (w : Nat) (p : Bool) : (s.markWord w p).tallySet = s.tallySet := rfl
@[simp] theorem State.markWord_heldAdds (w : Nat) (p : Bool) : (s.markWord w p).heldAdds = s.heldAdds := rfl
@[simp] theorem State.markWord_heldWrites (w : Nat) (p : Bool) : (s.markWord w p).heldWrites = s.heldWrites := rfl
@[simp] theorem State.markWord_wakeReq (w : Nat) (p : Bool) : (s.markWord w p).wakeReq = s.wakeReq := rfl
@[simp] theorem State.markWord_critR (w : Nat) (p : Bool) : (s.markWord w p).critR = s.critR := rfl
@[simp] theorem State.markWord_critA (w : Nat) (p : Bool) : (s.markWord w p).critA = s.critA := rfl
@[simp] theorem State.markWord_hatOut (w : Nat) (p : Bool) : (s.markWord w p).hatOut = s.hatOut := rfl
@[simp] theorem State.markWord_hatQueue (w : Nat) (p : Bool) : (s.markWord w p).hatQueue = s.hatQueue := rfl
@[simp] theorem State.markWord_hatLost (w : Nat) (p : Bool) : (s.markWord w p).hatLost = s.hatLost := rfl
@[simp] theorem State.markWord_chuteOut (w : Nat) (p : Bool) : (s.markWord w p).chuteOut = s.chuteOut := rfl
@[simp] theorem State.markWord_chuteLive (w : Nat) (p : Bool) : (s.markWord w p).chuteLive = s.chuteLive := rfl
@[simp] theorem State.markWord_chuteIn (w : Nat) (p : Bool) : (s.markWord w p).chuteIn = s.chuteIn := rfl
@[simp] theorem State.markWord_chuteReds (w : Nat) (p : Bool) : (s.markWord w p).chuteReds = s.chuteReds := rfl
@[simp] theorem State.markWord_chuteFwd (w : Nat) (p : Bool) : (s.markWord w p).chuteFwd = s.chuteFwd := rfl
@[simp] theorem State.markWord_ports (w : Nat) (p : Bool) : (s.markWord w p).ports = s.ports := rfl
@[simp] theorem State.markWord_origins (w : Nat) (p : Bool) : (s.markWord w p).origins = s.origins := rfl
@[simp] theorem State.markWord_transit (w : Nat) (p : Bool) : (s.markWord w p).transit = s.transit := rfl
@[simp] theorem State.markWord_joists (w : Nat) (p : Bool) : (s.markWord w p).joists = s.joists := rfl
@[simp] theorem State.markWord_joistLinks (w : Nat) (p : Bool) : (s.markWord w p).joistLinks = s.joistLinks := rfl
@[simp] theorem State.markWord_lockerLost (w : Nat) (p : Bool) : (s.markWord w p).lockerLost = s.lockerLost := rfl
@[simp] theorem State.markWord_joistIn (w : Nat) (p : Bool) : (s.markWord w p).joistIn = s.joistIn := rfl
@[simp] theorem State.markWord_joistOut (w : Nat) (p : Bool) : (s.markWord w p).joistOut = s.joistOut := rfl
@[simp] theorem State.markWord_joistLive (w : Nat) (p : Bool) : (s.markWord w p).joistLive = s.joistLive := rfl
@[simp] theorem State.markWord_pilot (w : Nat) (p : Bool) : (s.markWord w p).pilot = s.pilot := rfl
@[simp] theorem State.markWord_cellarCtl (w : Nat) (p : Bool) : (s.markWord w p).cellarCtl = s.cellarCtl := rfl
@[simp] theorem State.markWord_clocks (w : Nat) (p : Bool) : (s.markWord w p).clocks = s.clocks := rfl
@[simp] theorem State.markWord_power (w : Nat) (p : Bool) : (s.markWord w p).power = s.power := rfl
@[simp] theorem State.markWord_spdm (w : Nat) (p : Bool) : (s.markWord w p).spdm = s.spdm := rfl
@[simp] theorem State.markWord_ide (w : Nat) (p : Bool) : (s.markWord w p).ide = s.ide := rfl
@[simp] theorem State.markWord_hostIn (w : Nat) (p : Bool) : (s.markWord w p).hostIn = s.hostIn := rfl
@[simp] theorem State.markWord_replies (w : Nat) (p : Bool) : (s.markWord w p).replies = s.replies := rfl
@[simp] theorem State.markWord_apsel (w : Nat) (p : Bool) : (s.markWord w p).apsel = s.apsel := rfl
@[simp] theorem State.markWord_msixTable (w : Nat) (p : Bool) : (s.markWord w p).msixTable = s.msixTable := rfl
@[simp] theorem State.markWord_bar2 (w : Nat) (p : Bool) : (s.markWord w p).bar2 = s.bar2 := rfl
@[simp] theorem State.markWord_hostOut (w : Nat) (p : Bool) : (s.markWord w p).hostOut = s.hostOut := rfl
@[simp] theorem State.markWord_atsOn (w : Nat) (p : Bool) : (s.markWord w p).atsOn = s.atsOn := rfl
@[simp] theorem State.markWord_atc (w : Nat) (p : Bool) : (s.markWord w p).atc = s.atc := rfl
@[simp] theorem State.markWord_atsInval (w : Nat) (p : Bool) : (s.markWord w p).atsInval = s.atsInval := rfl
@[simp] theorem State.markWord_dropTold (w : Nat) (p : Bool) : (s.markWord w p).dropTold = s.dropTold := rfl
@[simp] theorem State.markWord_migSecret (w : Nat) (p : Bool) : (s.markWord w p).migSecret = s.migSecret := rfl
@[simp] theorem State.markWord_flr (w : Nat) (p : Bool) : (s.markWord w p).flr = s.flr := rfl
@[simp] theorem State.markWord_nonceLive (w : Nat) (p : Bool) : (s.markWord w p).nonceLive = s.nonceLive := rfl
@[simp] theorem State.markWord_vfOn (w : Nat) (p : Bool) : (s.markWord w p).vfOn = s.vfOn := rfl
@[simp] theorem State.markWord_vfReady (w : Nat) (p : Bool) : (s.markWord w p).vfReady = s.vfReady := rfl
@[simp] theorem State.markWord_measLog (w : Nat) (p : Bool) : (s.markWord w p).measLog = s.measLog := rfl

/-! ### setSeq -/
@[simp] theorem State.setSeq_pending (n : Nat) (q : Seq) : (s.setSeq n q).pending = s.pending := rfl
@[simp] theorem State.setSeq_free (n : Nat) (q : Seq) : (s.setSeq n q).free = s.free := rfl
@[simp] theorem State.setSeq_regs (n : Nat) (q : Seq) : (s.setSeq n q).regs = s.regs := rfl
@[simp] theorem State.setSeq_mem (n : Nat) (q : Seq) : (s.setSeq n q).mem = s.mem := rfl
@[simp] theorem State.setSeq_poison (n : Nat) (q : Seq) : (s.setSeq n q).poison = s.poison := rfl
@[simp] theorem State.setSeq_msixOpen (n : Nat) (q : Seq) : (s.setSeq n q).msixOpen = s.msixOpen := rfl
@[simp] theorem State.setSeq_msixPend (n : Nat) (q : Seq) : (s.setSeq n q).msixPend = s.msixPend := rfl
@[simp] theorem State.setSeq_msixSent (n : Nat) (q : Seq) : (s.setSeq n q).msixSent = s.msixSent := rfl
@[simp] theorem State.setSeq_steps (n : Nat) (q : Seq) : (s.setSeq n q).steps = s.steps := rfl
@[simp] theorem State.setSeq_groups (n : Nat) (q : Seq) : (s.setSeq n q).groups = s.groups := rfl
@[simp] theorem State.setSeq_kernels (n : Nat) (q : Seq) : (s.setSeq n q).kernels = s.kernels := rfl
@[simp] theorem State.setSeq_porters (n : Nat) (q : Seq) : (s.setSeq n q).porters = s.porters := rfl
@[simp] theorem State.setSeq_bays (n : Nat) (q : Seq) : (s.setSeq n q).bays = s.bays := rfl
@[simp] theorem State.setSeq_imgs (n : Nat) (q : Seq) : (s.setSeq n q).imgs = s.imgs := rfl
@[simp] theorem State.setSeq_serving (n : Nat) (q : Seq) : (s.setSeq n q).serving = s.serving := rfl
@[simp] theorem State.setSeq_ranges (n : Nat) (q : Seq) : (s.setSeq n q).ranges = s.ranges := rfl
@[simp] theorem State.setSeq_larder (n : Nat) (q : Seq) : (s.setSeq n q).larder = s.larder := rfl
@[simp] theorem State.setSeq_cups (n : Nat) (q : Seq) : (s.setSeq n q).cups = s.cups := rfl
@[simp] theorem State.setSeq_shelves (n : Nat) (q : Seq) : (s.setSeq n q).shelves = s.shelves := rfl
@[simp] theorem State.setSeq_cellar (n : Nat) (q : Seq) : (s.setSeq n q).cellar = s.cellar := rfl
@[simp] theorem State.setSeq_keyOwner (n : Nat) (q : Seq) : (s.setSeq n q).keyOwner = s.keyOwner := rfl
@[simp] theorem State.setSeq_keyGen (n : Nat) (q : Seq) : (s.setSeq n q).keyGen = s.keyGen := rfl
@[simp] theorem State.setSeq_homes (n : Nat) (q : Seq) : (s.setSeq n q).homes = s.homes := rfl
@[simp] theorem State.setSeq_net (n : Nat) (q : Seq) : (s.setSeq n q).net = s.net := rfl
@[simp] theorem State.setSeq_slices (n : Nat) (q : Seq) : (s.setSeq n q).slices = s.slices := rfl
@[simp] theorem State.setSeq_tlbs (n : Nat) (q : Seq) : (s.setSeq n q).tlbs = s.tlbs := rfl
@[simp] theorem State.setSeq_rangeOps (n : Nat) (q : Seq) : (s.setSeq n q).rangeOps = s.rangeOps := rfl
@[simp] theorem State.setSeq_larderCtl (n : Nat) (q : Seq) : (s.setSeq n q).larderCtl = s.larderCtl := rfl
@[simp] theorem State.setSeq_replays (n : Nat) (q : Seq) : (s.setSeq n q).replays = s.replays := rfl
@[simp] theorem State.setSeq_tallySet (n : Nat) (q : Seq) : (s.setSeq n q).tallySet = s.tallySet := rfl
@[simp] theorem State.setSeq_heldAdds (n : Nat) (q : Seq) : (s.setSeq n q).heldAdds = s.heldAdds := rfl
@[simp] theorem State.setSeq_heldWrites (n : Nat) (q : Seq) : (s.setSeq n q).heldWrites = s.heldWrites := rfl
@[simp] theorem State.setSeq_wakeReq (n : Nat) (q : Seq) : (s.setSeq n q).wakeReq = s.wakeReq := rfl
@[simp] theorem State.setSeq_critR (n : Nat) (q : Seq) : (s.setSeq n q).critR = s.critR := rfl
@[simp] theorem State.setSeq_critA (n : Nat) (q : Seq) : (s.setSeq n q).critA = s.critA := rfl
@[simp] theorem State.setSeq_hatOut (n : Nat) (q : Seq) : (s.setSeq n q).hatOut = s.hatOut := rfl
@[simp] theorem State.setSeq_hatQueue (n : Nat) (q : Seq) : (s.setSeq n q).hatQueue = s.hatQueue := rfl
@[simp] theorem State.setSeq_hatLost (n : Nat) (q : Seq) : (s.setSeq n q).hatLost = s.hatLost := rfl
@[simp] theorem State.setSeq_chuteOut (n : Nat) (q : Seq) : (s.setSeq n q).chuteOut = s.chuteOut := rfl
@[simp] theorem State.setSeq_chuteLive (n : Nat) (q : Seq) : (s.setSeq n q).chuteLive = s.chuteLive := rfl
@[simp] theorem State.setSeq_chuteIn (n : Nat) (q : Seq) : (s.setSeq n q).chuteIn = s.chuteIn := rfl
@[simp] theorem State.setSeq_chuteReds (n : Nat) (q : Seq) : (s.setSeq n q).chuteReds = s.chuteReds := rfl
@[simp] theorem State.setSeq_chuteFwd (n : Nat) (q : Seq) : (s.setSeq n q).chuteFwd = s.chuteFwd := rfl
@[simp] theorem State.setSeq_ports (n : Nat) (q : Seq) : (s.setSeq n q).ports = s.ports := rfl
@[simp] theorem State.setSeq_origins (n : Nat) (q : Seq) : (s.setSeq n q).origins = s.origins := rfl
@[simp] theorem State.setSeq_transit (n : Nat) (q : Seq) : (s.setSeq n q).transit = s.transit := rfl
@[simp] theorem State.setSeq_joists (n : Nat) (q : Seq) : (s.setSeq n q).joists = s.joists := rfl
@[simp] theorem State.setSeq_joistLinks (n : Nat) (q : Seq) : (s.setSeq n q).joistLinks = s.joistLinks := rfl
@[simp] theorem State.setSeq_lockerLost (n : Nat) (q : Seq) : (s.setSeq n q).lockerLost = s.lockerLost := rfl
@[simp] theorem State.setSeq_joistIn (n : Nat) (q : Seq) : (s.setSeq n q).joistIn = s.joistIn := rfl
@[simp] theorem State.setSeq_joistOut (n : Nat) (q : Seq) : (s.setSeq n q).joistOut = s.joistOut := rfl
@[simp] theorem State.setSeq_joistLive (n : Nat) (q : Seq) : (s.setSeq n q).joistLive = s.joistLive := rfl
@[simp] theorem State.setSeq_pilot (n : Nat) (q : Seq) : (s.setSeq n q).pilot = s.pilot := rfl
@[simp] theorem State.setSeq_cellarCtl (n : Nat) (q : Seq) : (s.setSeq n q).cellarCtl = s.cellarCtl := rfl
@[simp] theorem State.setSeq_clocks (n : Nat) (q : Seq) : (s.setSeq n q).clocks = s.clocks := rfl
@[simp] theorem State.setSeq_power (n : Nat) (q : Seq) : (s.setSeq n q).power = s.power := rfl
@[simp] theorem State.setSeq_spdm (n : Nat) (q : Seq) : (s.setSeq n q).spdm = s.spdm := rfl
@[simp] theorem State.setSeq_ide (n : Nat) (q : Seq) : (s.setSeq n q).ide = s.ide := rfl
@[simp] theorem State.setSeq_hostIn (n : Nat) (q : Seq) : (s.setSeq n q).hostIn = s.hostIn := rfl
@[simp] theorem State.setSeq_replies (n : Nat) (q : Seq) : (s.setSeq n q).replies = s.replies := rfl
@[simp] theorem State.setSeq_apsel (n : Nat) (q : Seq) : (s.setSeq n q).apsel = s.apsel := rfl
@[simp] theorem State.setSeq_msixTable (n : Nat) (q : Seq) : (s.setSeq n q).msixTable = s.msixTable := rfl
@[simp] theorem State.setSeq_bar2 (n : Nat) (q : Seq) : (s.setSeq n q).bar2 = s.bar2 := rfl
@[simp] theorem State.setSeq_hostOut (n : Nat) (q : Seq) : (s.setSeq n q).hostOut = s.hostOut := rfl
@[simp] theorem State.setSeq_atsOn (n : Nat) (q : Seq) : (s.setSeq n q).atsOn = s.atsOn := rfl
@[simp] theorem State.setSeq_atc (n : Nat) (q : Seq) : (s.setSeq n q).atc = s.atc := rfl
@[simp] theorem State.setSeq_atsInval (n : Nat) (q : Seq) : (s.setSeq n q).atsInval = s.atsInval := rfl
@[simp] theorem State.setSeq_dropTold (n : Nat) (q : Seq) : (s.setSeq n q).dropTold = s.dropTold := rfl
@[simp] theorem State.setSeq_migSecret (n : Nat) (q : Seq) : (s.setSeq n q).migSecret = s.migSecret := rfl
@[simp] theorem State.setSeq_flr (n : Nat) (q : Seq) : (s.setSeq n q).flr = s.flr := rfl
@[simp] theorem State.setSeq_nonceLive (n : Nat) (q : Seq) : (s.setSeq n q).nonceLive = s.nonceLive := rfl
@[simp] theorem State.setSeq_vfOn (n : Nat) (q : Seq) : (s.setSeq n q).vfOn = s.vfOn := rfl
@[simp] theorem State.setSeq_vfReady (n : Nat) (q : Seq) : (s.setSeq n q).vfReady = s.vfReady := rfl
@[simp] theorem State.setSeq_measLog (n : Nat) (q : Seq) : (s.setSeq n q).measLog = s.measLog := rfl

/-! ### setStep -/
@[simp] theorem State.setStep_pending (n : Nat) (u : StepUnit) : (s.setStep n u).pending = s.pending := rfl
@[simp] theorem State.setStep_free (n : Nat) (u : StepUnit) : (s.setStep n u).free = s.free := rfl
@[simp] theorem State.setStep_regs (n : Nat) (u : StepUnit) : (s.setStep n u).regs = s.regs := rfl
@[simp] theorem State.setStep_mem (n : Nat) (u : StepUnit) : (s.setStep n u).mem = s.mem := rfl
@[simp] theorem State.setStep_poison (n : Nat) (u : StepUnit) : (s.setStep n u).poison = s.poison := rfl
@[simp] theorem State.setStep_msixOpen (n : Nat) (u : StepUnit) : (s.setStep n u).msixOpen = s.msixOpen := rfl
@[simp] theorem State.setStep_msixPend (n : Nat) (u : StepUnit) : (s.setStep n u).msixPend = s.msixPend := rfl
@[simp] theorem State.setStep_msixSent (n : Nat) (u : StepUnit) : (s.setStep n u).msixSent = s.msixSent := rfl
@[simp] theorem State.setStep_seqs (n : Nat) (u : StepUnit) : (s.setStep n u).seqs = s.seqs := rfl
@[simp] theorem State.setStep_groups (n : Nat) (u : StepUnit) : (s.setStep n u).groups = s.groups := rfl
@[simp] theorem State.setStep_kernels (n : Nat) (u : StepUnit) : (s.setStep n u).kernels = s.kernels := rfl
@[simp] theorem State.setStep_porters (n : Nat) (u : StepUnit) : (s.setStep n u).porters = s.porters := rfl
@[simp] theorem State.setStep_bays (n : Nat) (u : StepUnit) : (s.setStep n u).bays = s.bays := rfl
@[simp] theorem State.setStep_imgs (n : Nat) (u : StepUnit) : (s.setStep n u).imgs = s.imgs := rfl
@[simp] theorem State.setStep_serving (n : Nat) (u : StepUnit) : (s.setStep n u).serving = s.serving := rfl
@[simp] theorem State.setStep_ranges (n : Nat) (u : StepUnit) : (s.setStep n u).ranges = s.ranges := rfl
@[simp] theorem State.setStep_larder (n : Nat) (u : StepUnit) : (s.setStep n u).larder = s.larder := rfl
@[simp] theorem State.setStep_cups (n : Nat) (u : StepUnit) : (s.setStep n u).cups = s.cups := rfl
@[simp] theorem State.setStep_shelves (n : Nat) (u : StepUnit) : (s.setStep n u).shelves = s.shelves := rfl
@[simp] theorem State.setStep_cellar (n : Nat) (u : StepUnit) : (s.setStep n u).cellar = s.cellar := rfl
@[simp] theorem State.setStep_keyOwner (n : Nat) (u : StepUnit) : (s.setStep n u).keyOwner = s.keyOwner := rfl
@[simp] theorem State.setStep_keyGen (n : Nat) (u : StepUnit) : (s.setStep n u).keyGen = s.keyGen := rfl
@[simp] theorem State.setStep_homes (n : Nat) (u : StepUnit) : (s.setStep n u).homes = s.homes := rfl
@[simp] theorem State.setStep_net (n : Nat) (u : StepUnit) : (s.setStep n u).net = s.net := rfl
@[simp] theorem State.setStep_slices (n : Nat) (u : StepUnit) : (s.setStep n u).slices = s.slices := rfl
@[simp] theorem State.setStep_tlbs (n : Nat) (u : StepUnit) : (s.setStep n u).tlbs = s.tlbs := rfl
@[simp] theorem State.setStep_rangeOps (n : Nat) (u : StepUnit) : (s.setStep n u).rangeOps = s.rangeOps := rfl
@[simp] theorem State.setStep_larderCtl (n : Nat) (u : StepUnit) : (s.setStep n u).larderCtl = s.larderCtl := rfl
@[simp] theorem State.setStep_replays (n : Nat) (u : StepUnit) : (s.setStep n u).replays = s.replays := rfl
@[simp] theorem State.setStep_tallySet (n : Nat) (u : StepUnit) : (s.setStep n u).tallySet = s.tallySet := rfl
@[simp] theorem State.setStep_heldAdds (n : Nat) (u : StepUnit) : (s.setStep n u).heldAdds = s.heldAdds := rfl
@[simp] theorem State.setStep_heldWrites (n : Nat) (u : StepUnit) : (s.setStep n u).heldWrites = s.heldWrites := rfl
@[simp] theorem State.setStep_wakeReq (n : Nat) (u : StepUnit) : (s.setStep n u).wakeReq = s.wakeReq := rfl
@[simp] theorem State.setStep_critR (n : Nat) (u : StepUnit) : (s.setStep n u).critR = s.critR := rfl
@[simp] theorem State.setStep_critA (n : Nat) (u : StepUnit) : (s.setStep n u).critA = s.critA := rfl
@[simp] theorem State.setStep_hatOut (n : Nat) (u : StepUnit) : (s.setStep n u).hatOut = s.hatOut := rfl
@[simp] theorem State.setStep_hatQueue (n : Nat) (u : StepUnit) : (s.setStep n u).hatQueue = s.hatQueue := rfl
@[simp] theorem State.setStep_hatLost (n : Nat) (u : StepUnit) : (s.setStep n u).hatLost = s.hatLost := rfl
@[simp] theorem State.setStep_chuteOut (n : Nat) (u : StepUnit) : (s.setStep n u).chuteOut = s.chuteOut := rfl
@[simp] theorem State.setStep_chuteLive (n : Nat) (u : StepUnit) : (s.setStep n u).chuteLive = s.chuteLive := rfl
@[simp] theorem State.setStep_chuteIn (n : Nat) (u : StepUnit) : (s.setStep n u).chuteIn = s.chuteIn := rfl
@[simp] theorem State.setStep_chuteReds (n : Nat) (u : StepUnit) : (s.setStep n u).chuteReds = s.chuteReds := rfl
@[simp] theorem State.setStep_chuteFwd (n : Nat) (u : StepUnit) : (s.setStep n u).chuteFwd = s.chuteFwd := rfl
@[simp] theorem State.setStep_ports (n : Nat) (u : StepUnit) : (s.setStep n u).ports = s.ports := rfl
@[simp] theorem State.setStep_origins (n : Nat) (u : StepUnit) : (s.setStep n u).origins = s.origins := rfl
@[simp] theorem State.setStep_transit (n : Nat) (u : StepUnit) : (s.setStep n u).transit = s.transit := rfl
@[simp] theorem State.setStep_joists (n : Nat) (u : StepUnit) : (s.setStep n u).joists = s.joists := rfl
@[simp] theorem State.setStep_joistLinks (n : Nat) (u : StepUnit) : (s.setStep n u).joistLinks = s.joistLinks := rfl
@[simp] theorem State.setStep_lockerLost (n : Nat) (u : StepUnit) : (s.setStep n u).lockerLost = s.lockerLost := rfl
@[simp] theorem State.setStep_joistIn (n : Nat) (u : StepUnit) : (s.setStep n u).joistIn = s.joistIn := rfl
@[simp] theorem State.setStep_joistOut (n : Nat) (u : StepUnit) : (s.setStep n u).joistOut = s.joistOut := rfl
@[simp] theorem State.setStep_joistLive (n : Nat) (u : StepUnit) : (s.setStep n u).joistLive = s.joistLive := rfl
@[simp] theorem State.setStep_pilot (n : Nat) (u : StepUnit) : (s.setStep n u).pilot = s.pilot := rfl
@[simp] theorem State.setStep_cellarCtl (n : Nat) (u : StepUnit) : (s.setStep n u).cellarCtl = s.cellarCtl := rfl
@[simp] theorem State.setStep_clocks (n : Nat) (u : StepUnit) : (s.setStep n u).clocks = s.clocks := rfl
@[simp] theorem State.setStep_power (n : Nat) (u : StepUnit) : (s.setStep n u).power = s.power := rfl
@[simp] theorem State.setStep_spdm (n : Nat) (u : StepUnit) : (s.setStep n u).spdm = s.spdm := rfl
@[simp] theorem State.setStep_ide (n : Nat) (u : StepUnit) : (s.setStep n u).ide = s.ide := rfl
@[simp] theorem State.setStep_hostIn (n : Nat) (u : StepUnit) : (s.setStep n u).hostIn = s.hostIn := rfl
@[simp] theorem State.setStep_replies (n : Nat) (u : StepUnit) : (s.setStep n u).replies = s.replies := rfl
@[simp] theorem State.setStep_apsel (n : Nat) (u : StepUnit) : (s.setStep n u).apsel = s.apsel := rfl
@[simp] theorem State.setStep_msixTable (n : Nat) (u : StepUnit) : (s.setStep n u).msixTable = s.msixTable := rfl
@[simp] theorem State.setStep_bar2 (n : Nat) (u : StepUnit) : (s.setStep n u).bar2 = s.bar2 := rfl
@[simp] theorem State.setStep_hostOut (n : Nat) (u : StepUnit) : (s.setStep n u).hostOut = s.hostOut := rfl
@[simp] theorem State.setStep_atsOn (n : Nat) (u : StepUnit) : (s.setStep n u).atsOn = s.atsOn := rfl
@[simp] theorem State.setStep_atc (n : Nat) (u : StepUnit) : (s.setStep n u).atc = s.atc := rfl
@[simp] theorem State.setStep_atsInval (n : Nat) (u : StepUnit) : (s.setStep n u).atsInval = s.atsInval := rfl
@[simp] theorem State.setStep_dropTold (n : Nat) (u : StepUnit) : (s.setStep n u).dropTold = s.dropTold := rfl
@[simp] theorem State.setStep_migSecret (n : Nat) (u : StepUnit) : (s.setStep n u).migSecret = s.migSecret := rfl
@[simp] theorem State.setStep_flr (n : Nat) (u : StepUnit) : (s.setStep n u).flr = s.flr := rfl
@[simp] theorem State.setStep_nonceLive (n : Nat) (u : StepUnit) : (s.setStep n u).nonceLive = s.nonceLive := rfl
@[simp] theorem State.setStep_vfOn (n : Nat) (u : StepUnit) : (s.setStep n u).vfOn = s.vfOn := rfl
@[simp] theorem State.setStep_vfReady (n : Nat) (u : StepUnit) : (s.setStep n u).vfReady = s.vfReady := rfl
@[simp] theorem State.setStep_measLog (n : Nat) (u : StepUnit) : (s.setStep n u).measLog = s.measLog := rfl

/-! ### setGroup -/
@[simp] theorem State.setGroup_pending (n g : Nat) (x : Group) : (s.setGroup n g x).pending = s.pending := rfl
@[simp] theorem State.setGroup_free (n g : Nat) (x : Group) : (s.setGroup n g x).free = s.free := rfl
@[simp] theorem State.setGroup_regs (n g : Nat) (x : Group) : (s.setGroup n g x).regs = s.regs := rfl
@[simp] theorem State.setGroup_mem (n g : Nat) (x : Group) : (s.setGroup n g x).mem = s.mem := rfl
@[simp] theorem State.setGroup_poison (n g : Nat) (x : Group) : (s.setGroup n g x).poison = s.poison := rfl
@[simp] theorem State.setGroup_msixOpen (n g : Nat) (x : Group) : (s.setGroup n g x).msixOpen = s.msixOpen := rfl
@[simp] theorem State.setGroup_msixPend (n g : Nat) (x : Group) : (s.setGroup n g x).msixPend = s.msixPend := rfl
@[simp] theorem State.setGroup_msixSent (n g : Nat) (x : Group) : (s.setGroup n g x).msixSent = s.msixSent := rfl
@[simp] theorem State.setGroup_seqs (n g : Nat) (x : Group) : (s.setGroup n g x).seqs = s.seqs := rfl
@[simp] theorem State.setGroup_steps (n g : Nat) (x : Group) : (s.setGroup n g x).steps = s.steps := rfl
@[simp] theorem State.setGroup_kernels (n g : Nat) (x : Group) : (s.setGroup n g x).kernels = s.kernels := rfl
@[simp] theorem State.setGroup_porters (n g : Nat) (x : Group) : (s.setGroup n g x).porters = s.porters := rfl
@[simp] theorem State.setGroup_bays (n g : Nat) (x : Group) : (s.setGroup n g x).bays = s.bays := rfl
@[simp] theorem State.setGroup_imgs (n g : Nat) (x : Group) : (s.setGroup n g x).imgs = s.imgs := rfl
@[simp] theorem State.setGroup_serving (n g : Nat) (x : Group) : (s.setGroup n g x).serving = s.serving := rfl
@[simp] theorem State.setGroup_ranges (n g : Nat) (x : Group) : (s.setGroup n g x).ranges = s.ranges := rfl
@[simp] theorem State.setGroup_larder (n g : Nat) (x : Group) : (s.setGroup n g x).larder = s.larder := rfl
@[simp] theorem State.setGroup_cups (n g : Nat) (x : Group) : (s.setGroup n g x).cups = s.cups := rfl
@[simp] theorem State.setGroup_shelves (n g : Nat) (x : Group) : (s.setGroup n g x).shelves = s.shelves := rfl
@[simp] theorem State.setGroup_cellar (n g : Nat) (x : Group) : (s.setGroup n g x).cellar = s.cellar := rfl
@[simp] theorem State.setGroup_keyOwner (n g : Nat) (x : Group) : (s.setGroup n g x).keyOwner = s.keyOwner := rfl
@[simp] theorem State.setGroup_keyGen (n g : Nat) (x : Group) : (s.setGroup n g x).keyGen = s.keyGen := rfl
@[simp] theorem State.setGroup_homes (n g : Nat) (x : Group) : (s.setGroup n g x).homes = s.homes := rfl
@[simp] theorem State.setGroup_net (n g : Nat) (x : Group) : (s.setGroup n g x).net = s.net := rfl
@[simp] theorem State.setGroup_slices (n g : Nat) (x : Group) : (s.setGroup n g x).slices = s.slices := rfl
@[simp] theorem State.setGroup_tlbs (n g : Nat) (x : Group) : (s.setGroup n g x).tlbs = s.tlbs := rfl
@[simp] theorem State.setGroup_rangeOps (n g : Nat) (x : Group) : (s.setGroup n g x).rangeOps = s.rangeOps := rfl
@[simp] theorem State.setGroup_larderCtl (n g : Nat) (x : Group) : (s.setGroup n g x).larderCtl = s.larderCtl := rfl
@[simp] theorem State.setGroup_replays (n g : Nat) (x : Group) : (s.setGroup n g x).replays = s.replays := rfl
@[simp] theorem State.setGroup_tallySet (n g : Nat) (x : Group) : (s.setGroup n g x).tallySet = s.tallySet := rfl
@[simp] theorem State.setGroup_heldAdds (n g : Nat) (x : Group) : (s.setGroup n g x).heldAdds = s.heldAdds := rfl
@[simp] theorem State.setGroup_heldWrites (n g : Nat) (x : Group) : (s.setGroup n g x).heldWrites = s.heldWrites := rfl
@[simp] theorem State.setGroup_wakeReq (n g : Nat) (x : Group) : (s.setGroup n g x).wakeReq = s.wakeReq := rfl
@[simp] theorem State.setGroup_critR (n g : Nat) (x : Group) : (s.setGroup n g x).critR = s.critR := rfl
@[simp] theorem State.setGroup_critA (n g : Nat) (x : Group) : (s.setGroup n g x).critA = s.critA := rfl
@[simp] theorem State.setGroup_hatOut (n g : Nat) (x : Group) : (s.setGroup n g x).hatOut = s.hatOut := rfl
@[simp] theorem State.setGroup_hatQueue (n g : Nat) (x : Group) : (s.setGroup n g x).hatQueue = s.hatQueue := rfl
@[simp] theorem State.setGroup_hatLost (n g : Nat) (x : Group) : (s.setGroup n g x).hatLost = s.hatLost := rfl
@[simp] theorem State.setGroup_chuteOut (n g : Nat) (x : Group) : (s.setGroup n g x).chuteOut = s.chuteOut := rfl
@[simp] theorem State.setGroup_chuteLive (n g : Nat) (x : Group) : (s.setGroup n g x).chuteLive = s.chuteLive := rfl
@[simp] theorem State.setGroup_chuteIn (n g : Nat) (x : Group) : (s.setGroup n g x).chuteIn = s.chuteIn := rfl
@[simp] theorem State.setGroup_chuteReds (n g : Nat) (x : Group) : (s.setGroup n g x).chuteReds = s.chuteReds := rfl
@[simp] theorem State.setGroup_chuteFwd (n g : Nat) (x : Group) : (s.setGroup n g x).chuteFwd = s.chuteFwd := rfl
@[simp] theorem State.setGroup_ports (n g : Nat) (x : Group) : (s.setGroup n g x).ports = s.ports := rfl
@[simp] theorem State.setGroup_origins (n g : Nat) (x : Group) : (s.setGroup n g x).origins = s.origins := rfl
@[simp] theorem State.setGroup_transit (n g : Nat) (x : Group) : (s.setGroup n g x).transit = s.transit := rfl
@[simp] theorem State.setGroup_joists (n g : Nat) (x : Group) : (s.setGroup n g x).joists = s.joists := rfl
@[simp] theorem State.setGroup_joistLinks (n g : Nat) (x : Group) : (s.setGroup n g x).joistLinks = s.joistLinks := rfl
@[simp] theorem State.setGroup_lockerLost (n g : Nat) (x : Group) : (s.setGroup n g x).lockerLost = s.lockerLost := rfl
@[simp] theorem State.setGroup_joistIn (n g : Nat) (x : Group) : (s.setGroup n g x).joistIn = s.joistIn := rfl
@[simp] theorem State.setGroup_joistOut (n g : Nat) (x : Group) : (s.setGroup n g x).joistOut = s.joistOut := rfl
@[simp] theorem State.setGroup_joistLive (n g : Nat) (x : Group) : (s.setGroup n g x).joistLive = s.joistLive := rfl
@[simp] theorem State.setGroup_pilot (n g : Nat) (x : Group) : (s.setGroup n g x).pilot = s.pilot := rfl
@[simp] theorem State.setGroup_cellarCtl (n g : Nat) (x : Group) : (s.setGroup n g x).cellarCtl = s.cellarCtl := rfl
@[simp] theorem State.setGroup_clocks (n g : Nat) (x : Group) : (s.setGroup n g x).clocks = s.clocks := rfl
@[simp] theorem State.setGroup_power (n g : Nat) (x : Group) : (s.setGroup n g x).power = s.power := rfl
@[simp] theorem State.setGroup_spdm (n g : Nat) (x : Group) : (s.setGroup n g x).spdm = s.spdm := rfl
@[simp] theorem State.setGroup_ide (n g : Nat) (x : Group) : (s.setGroup n g x).ide = s.ide := rfl
@[simp] theorem State.setGroup_hostIn (n g : Nat) (x : Group) : (s.setGroup n g x).hostIn = s.hostIn := rfl
@[simp] theorem State.setGroup_replies (n g : Nat) (x : Group) : (s.setGroup n g x).replies = s.replies := rfl
@[simp] theorem State.setGroup_apsel (n g : Nat) (x : Group) : (s.setGroup n g x).apsel = s.apsel := rfl
@[simp] theorem State.setGroup_msixTable (n g : Nat) (x : Group) : (s.setGroup n g x).msixTable = s.msixTable := rfl
@[simp] theorem State.setGroup_bar2 (n g : Nat) (x : Group) : (s.setGroup n g x).bar2 = s.bar2 := rfl
@[simp] theorem State.setGroup_hostOut (n g : Nat) (x : Group) : (s.setGroup n g x).hostOut = s.hostOut := rfl
@[simp] theorem State.setGroup_atsOn (n g : Nat) (x : Group) : (s.setGroup n g x).atsOn = s.atsOn := rfl
@[simp] theorem State.setGroup_atc (n g : Nat) (x : Group) : (s.setGroup n g x).atc = s.atc := rfl
@[simp] theorem State.setGroup_atsInval (n g : Nat) (x : Group) : (s.setGroup n g x).atsInval = s.atsInval := rfl
@[simp] theorem State.setGroup_dropTold (n g : Nat) (x : Group) : (s.setGroup n g x).dropTold = s.dropTold := rfl
@[simp] theorem State.setGroup_migSecret (n g : Nat) (x : Group) : (s.setGroup n g x).migSecret = s.migSecret := rfl
@[simp] theorem State.setGroup_flr (n g : Nat) (x : Group) : (s.setGroup n g x).flr = s.flr := rfl
@[simp] theorem State.setGroup_nonceLive (n g : Nat) (x : Group) : (s.setGroup n g x).nonceLive = s.nonceLive := rfl
@[simp] theorem State.setGroup_vfOn (n g : Nat) (x : Group) : (s.setGroup n g x).vfOn = s.vfOn := rfl
@[simp] theorem State.setGroup_vfReady (n g : Nat) (x : Group) : (s.setGroup n g x).vfReady = s.vfReady := rfl
@[simp] theorem State.setGroup_measLog (n g : Nat) (x : Group) : (s.setGroup n g x).measLog = s.measLog := rfl

/-! ### setKern -/
@[simp] theorem State.setKern_pending (n : Nat) (k : Kernels) : (s.setKern n k).pending = s.pending := rfl
@[simp] theorem State.setKern_free (n : Nat) (k : Kernels) : (s.setKern n k).free = s.free := rfl
@[simp] theorem State.setKern_regs (n : Nat) (k : Kernels) : (s.setKern n k).regs = s.regs := rfl
@[simp] theorem State.setKern_mem (n : Nat) (k : Kernels) : (s.setKern n k).mem = s.mem := rfl
@[simp] theorem State.setKern_poison (n : Nat) (k : Kernels) : (s.setKern n k).poison = s.poison := rfl
@[simp] theorem State.setKern_msixOpen (n : Nat) (k : Kernels) : (s.setKern n k).msixOpen = s.msixOpen := rfl
@[simp] theorem State.setKern_msixPend (n : Nat) (k : Kernels) : (s.setKern n k).msixPend = s.msixPend := rfl
@[simp] theorem State.setKern_msixSent (n : Nat) (k : Kernels) : (s.setKern n k).msixSent = s.msixSent := rfl
@[simp] theorem State.setKern_seqs (n : Nat) (k : Kernels) : (s.setKern n k).seqs = s.seqs := rfl
@[simp] theorem State.setKern_steps (n : Nat) (k : Kernels) : (s.setKern n k).steps = s.steps := rfl
@[simp] theorem State.setKern_groups (n : Nat) (k : Kernels) : (s.setKern n k).groups = s.groups := rfl
@[simp] theorem State.setKern_porters (n : Nat) (k : Kernels) : (s.setKern n k).porters = s.porters := rfl
@[simp] theorem State.setKern_bays (n : Nat) (k : Kernels) : (s.setKern n k).bays = s.bays := rfl
@[simp] theorem State.setKern_imgs (n : Nat) (k : Kernels) : (s.setKern n k).imgs = s.imgs := rfl
@[simp] theorem State.setKern_serving (n : Nat) (k : Kernels) : (s.setKern n k).serving = s.serving := rfl
@[simp] theorem State.setKern_ranges (n : Nat) (k : Kernels) : (s.setKern n k).ranges = s.ranges := rfl
@[simp] theorem State.setKern_larder (n : Nat) (k : Kernels) : (s.setKern n k).larder = s.larder := rfl
@[simp] theorem State.setKern_cups (n : Nat) (k : Kernels) : (s.setKern n k).cups = s.cups := rfl
@[simp] theorem State.setKern_shelves (n : Nat) (k : Kernels) : (s.setKern n k).shelves = s.shelves := rfl
@[simp] theorem State.setKern_cellar (n : Nat) (k : Kernels) : (s.setKern n k).cellar = s.cellar := rfl
@[simp] theorem State.setKern_keyOwner (n : Nat) (k : Kernels) : (s.setKern n k).keyOwner = s.keyOwner := rfl
@[simp] theorem State.setKern_keyGen (n : Nat) (k : Kernels) : (s.setKern n k).keyGen = s.keyGen := rfl
@[simp] theorem State.setKern_homes (n : Nat) (k : Kernels) : (s.setKern n k).homes = s.homes := rfl
@[simp] theorem State.setKern_net (n : Nat) (k : Kernels) : (s.setKern n k).net = s.net := rfl
@[simp] theorem State.setKern_slices (n : Nat) (k : Kernels) : (s.setKern n k).slices = s.slices := rfl
@[simp] theorem State.setKern_tlbs (n : Nat) (k : Kernels) : (s.setKern n k).tlbs = s.tlbs := rfl
@[simp] theorem State.setKern_rangeOps (n : Nat) (k : Kernels) : (s.setKern n k).rangeOps = s.rangeOps := rfl
@[simp] theorem State.setKern_larderCtl (n : Nat) (k : Kernels) : (s.setKern n k).larderCtl = s.larderCtl := rfl
@[simp] theorem State.setKern_replays (n : Nat) (k : Kernels) : (s.setKern n k).replays = s.replays := rfl
@[simp] theorem State.setKern_tallySet (n : Nat) (k : Kernels) : (s.setKern n k).tallySet = s.tallySet := rfl
@[simp] theorem State.setKern_heldAdds (n : Nat) (k : Kernels) : (s.setKern n k).heldAdds = s.heldAdds := rfl
@[simp] theorem State.setKern_heldWrites (n : Nat) (k : Kernels) : (s.setKern n k).heldWrites = s.heldWrites := rfl
@[simp] theorem State.setKern_wakeReq (n : Nat) (k : Kernels) : (s.setKern n k).wakeReq = s.wakeReq := rfl
@[simp] theorem State.setKern_critR (n : Nat) (k : Kernels) : (s.setKern n k).critR = s.critR := rfl
@[simp] theorem State.setKern_critA (n : Nat) (k : Kernels) : (s.setKern n k).critA = s.critA := rfl
@[simp] theorem State.setKern_hatOut (n : Nat) (k : Kernels) : (s.setKern n k).hatOut = s.hatOut := rfl
@[simp] theorem State.setKern_hatQueue (n : Nat) (k : Kernels) : (s.setKern n k).hatQueue = s.hatQueue := rfl
@[simp] theorem State.setKern_hatLost (n : Nat) (k : Kernels) : (s.setKern n k).hatLost = s.hatLost := rfl
@[simp] theorem State.setKern_chuteOut (n : Nat) (k : Kernels) : (s.setKern n k).chuteOut = s.chuteOut := rfl
@[simp] theorem State.setKern_chuteLive (n : Nat) (k : Kernels) : (s.setKern n k).chuteLive = s.chuteLive := rfl
@[simp] theorem State.setKern_chuteIn (n : Nat) (k : Kernels) : (s.setKern n k).chuteIn = s.chuteIn := rfl
@[simp] theorem State.setKern_chuteReds (n : Nat) (k : Kernels) : (s.setKern n k).chuteReds = s.chuteReds := rfl
@[simp] theorem State.setKern_chuteFwd (n : Nat) (k : Kernels) : (s.setKern n k).chuteFwd = s.chuteFwd := rfl
@[simp] theorem State.setKern_ports (n : Nat) (k : Kernels) : (s.setKern n k).ports = s.ports := rfl
@[simp] theorem State.setKern_origins (n : Nat) (k : Kernels) : (s.setKern n k).origins = s.origins := rfl
@[simp] theorem State.setKern_transit (n : Nat) (k : Kernels) : (s.setKern n k).transit = s.transit := rfl
@[simp] theorem State.setKern_joists (n : Nat) (k : Kernels) : (s.setKern n k).joists = s.joists := rfl
@[simp] theorem State.setKern_joistLinks (n : Nat) (k : Kernels) : (s.setKern n k).joistLinks = s.joistLinks := rfl
@[simp] theorem State.setKern_lockerLost (n : Nat) (k : Kernels) : (s.setKern n k).lockerLost = s.lockerLost := rfl
@[simp] theorem State.setKern_joistIn (n : Nat) (k : Kernels) : (s.setKern n k).joistIn = s.joistIn := rfl
@[simp] theorem State.setKern_joistOut (n : Nat) (k : Kernels) : (s.setKern n k).joistOut = s.joistOut := rfl
@[simp] theorem State.setKern_joistLive (n : Nat) (k : Kernels) : (s.setKern n k).joistLive = s.joistLive := rfl
@[simp] theorem State.setKern_pilot (n : Nat) (k : Kernels) : (s.setKern n k).pilot = s.pilot := rfl
@[simp] theorem State.setKern_cellarCtl (n : Nat) (k : Kernels) : (s.setKern n k).cellarCtl = s.cellarCtl := rfl
@[simp] theorem State.setKern_clocks (n : Nat) (k : Kernels) : (s.setKern n k).clocks = s.clocks := rfl
@[simp] theorem State.setKern_power (n : Nat) (k : Kernels) : (s.setKern n k).power = s.power := rfl
@[simp] theorem State.setKern_spdm (n : Nat) (k : Kernels) : (s.setKern n k).spdm = s.spdm := rfl
@[simp] theorem State.setKern_ide (n : Nat) (k : Kernels) : (s.setKern n k).ide = s.ide := rfl
@[simp] theorem State.setKern_hostIn (n : Nat) (k : Kernels) : (s.setKern n k).hostIn = s.hostIn := rfl
@[simp] theorem State.setKern_replies (n : Nat) (k : Kernels) : (s.setKern n k).replies = s.replies := rfl
@[simp] theorem State.setKern_apsel (n : Nat) (k : Kernels) : (s.setKern n k).apsel = s.apsel := rfl
@[simp] theorem State.setKern_msixTable (n : Nat) (k : Kernels) : (s.setKern n k).msixTable = s.msixTable := rfl
@[simp] theorem State.setKern_bar2 (n : Nat) (k : Kernels) : (s.setKern n k).bar2 = s.bar2 := rfl
@[simp] theorem State.setKern_hostOut (n : Nat) (k : Kernels) : (s.setKern n k).hostOut = s.hostOut := rfl
@[simp] theorem State.setKern_atsOn (n : Nat) (k : Kernels) : (s.setKern n k).atsOn = s.atsOn := rfl
@[simp] theorem State.setKern_atc (n : Nat) (k : Kernels) : (s.setKern n k).atc = s.atc := rfl
@[simp] theorem State.setKern_atsInval (n : Nat) (k : Kernels) : (s.setKern n k).atsInval = s.atsInval := rfl
@[simp] theorem State.setKern_dropTold (n : Nat) (k : Kernels) : (s.setKern n k).dropTold = s.dropTold := rfl
@[simp] theorem State.setKern_migSecret (n : Nat) (k : Kernels) : (s.setKern n k).migSecret = s.migSecret := rfl
@[simp] theorem State.setKern_flr (n : Nat) (k : Kernels) : (s.setKern n k).flr = s.flr := rfl
@[simp] theorem State.setKern_nonceLive (n : Nat) (k : Kernels) : (s.setKern n k).nonceLive = s.nonceLive := rfl
@[simp] theorem State.setKern_vfOn (n : Nat) (k : Kernels) : (s.setKern n k).vfOn = s.vfOn := rfl
@[simp] theorem State.setKern_vfReady (n : Nat) (k : Kernels) : (s.setKern n k).vfReady = s.vfReady := rfl
@[simp] theorem State.setKern_measLog (n : Nat) (k : Kernels) : (s.setKern n k).measLog = s.measLog := rfl

/-! ### setPorter -/
@[simp] theorem State.setPorter_pending (p : Nat) (x : Porter) : (s.setPorter p x).pending = s.pending := rfl
@[simp] theorem State.setPorter_free (p : Nat) (x : Porter) : (s.setPorter p x).free = s.free := rfl
@[simp] theorem State.setPorter_regs (p : Nat) (x : Porter) : (s.setPorter p x).regs = s.regs := rfl
@[simp] theorem State.setPorter_mem (p : Nat) (x : Porter) : (s.setPorter p x).mem = s.mem := rfl
@[simp] theorem State.setPorter_poison (p : Nat) (x : Porter) : (s.setPorter p x).poison = s.poison := rfl
@[simp] theorem State.setPorter_msixOpen (p : Nat) (x : Porter) : (s.setPorter p x).msixOpen = s.msixOpen := rfl
@[simp] theorem State.setPorter_msixPend (p : Nat) (x : Porter) : (s.setPorter p x).msixPend = s.msixPend := rfl
@[simp] theorem State.setPorter_msixSent (p : Nat) (x : Porter) : (s.setPorter p x).msixSent = s.msixSent := rfl
@[simp] theorem State.setPorter_seqs (p : Nat) (x : Porter) : (s.setPorter p x).seqs = s.seqs := rfl
@[simp] theorem State.setPorter_steps (p : Nat) (x : Porter) : (s.setPorter p x).steps = s.steps := rfl
@[simp] theorem State.setPorter_groups (p : Nat) (x : Porter) : (s.setPorter p x).groups = s.groups := rfl
@[simp] theorem State.setPorter_kernels (p : Nat) (x : Porter) : (s.setPorter p x).kernels = s.kernels := rfl
@[simp] theorem State.setPorter_bays (p : Nat) (x : Porter) : (s.setPorter p x).bays = s.bays := rfl
@[simp] theorem State.setPorter_imgs (p : Nat) (x : Porter) : (s.setPorter p x).imgs = s.imgs := rfl
@[simp] theorem State.setPorter_serving (p : Nat) (x : Porter) : (s.setPorter p x).serving = s.serving := rfl
@[simp] theorem State.setPorter_ranges (p : Nat) (x : Porter) : (s.setPorter p x).ranges = s.ranges := rfl
@[simp] theorem State.setPorter_larder (p : Nat) (x : Porter) : (s.setPorter p x).larder = s.larder := rfl
@[simp] theorem State.setPorter_cups (p : Nat) (x : Porter) : (s.setPorter p x).cups = s.cups := rfl
@[simp] theorem State.setPorter_shelves (p : Nat) (x : Porter) : (s.setPorter p x).shelves = s.shelves := rfl
@[simp] theorem State.setPorter_cellar (p : Nat) (x : Porter) : (s.setPorter p x).cellar = s.cellar := rfl
@[simp] theorem State.setPorter_keyOwner (p : Nat) (x : Porter) : (s.setPorter p x).keyOwner = s.keyOwner := rfl
@[simp] theorem State.setPorter_keyGen (p : Nat) (x : Porter) : (s.setPorter p x).keyGen = s.keyGen := rfl
@[simp] theorem State.setPorter_homes (p : Nat) (x : Porter) : (s.setPorter p x).homes = s.homes := rfl
@[simp] theorem State.setPorter_net (p : Nat) (x : Porter) : (s.setPorter p x).net = s.net := rfl
@[simp] theorem State.setPorter_slices (p : Nat) (x : Porter) : (s.setPorter p x).slices = s.slices := rfl
@[simp] theorem State.setPorter_tlbs (p : Nat) (x : Porter) : (s.setPorter p x).tlbs = s.tlbs := rfl
@[simp] theorem State.setPorter_rangeOps (p : Nat) (x : Porter) : (s.setPorter p x).rangeOps = s.rangeOps := rfl
@[simp] theorem State.setPorter_larderCtl (p : Nat) (x : Porter) : (s.setPorter p x).larderCtl = s.larderCtl := rfl
@[simp] theorem State.setPorter_replays (p : Nat) (x : Porter) : (s.setPorter p x).replays = s.replays := rfl
@[simp] theorem State.setPorter_tallySet (p : Nat) (x : Porter) : (s.setPorter p x).tallySet = s.tallySet := rfl
@[simp] theorem State.setPorter_heldAdds (p : Nat) (x : Porter) : (s.setPorter p x).heldAdds = s.heldAdds := rfl
@[simp] theorem State.setPorter_heldWrites (p : Nat) (x : Porter) : (s.setPorter p x).heldWrites = s.heldWrites := rfl
@[simp] theorem State.setPorter_wakeReq (p : Nat) (x : Porter) : (s.setPorter p x).wakeReq = s.wakeReq := rfl
@[simp] theorem State.setPorter_critR (p : Nat) (x : Porter) : (s.setPorter p x).critR = s.critR := rfl
@[simp] theorem State.setPorter_critA (p : Nat) (x : Porter) : (s.setPorter p x).critA = s.critA := rfl
@[simp] theorem State.setPorter_hatOut (p : Nat) (x : Porter) : (s.setPorter p x).hatOut = s.hatOut := rfl
@[simp] theorem State.setPorter_hatQueue (p : Nat) (x : Porter) : (s.setPorter p x).hatQueue = s.hatQueue := rfl
@[simp] theorem State.setPorter_hatLost (p : Nat) (x : Porter) : (s.setPorter p x).hatLost = s.hatLost := rfl
@[simp] theorem State.setPorter_chuteOut (p : Nat) (x : Porter) : (s.setPorter p x).chuteOut = s.chuteOut := rfl
@[simp] theorem State.setPorter_chuteLive (p : Nat) (x : Porter) : (s.setPorter p x).chuteLive = s.chuteLive := rfl
@[simp] theorem State.setPorter_chuteIn (p : Nat) (x : Porter) : (s.setPorter p x).chuteIn = s.chuteIn := rfl
@[simp] theorem State.setPorter_chuteReds (p : Nat) (x : Porter) : (s.setPorter p x).chuteReds = s.chuteReds := rfl
@[simp] theorem State.setPorter_chuteFwd (p : Nat) (x : Porter) : (s.setPorter p x).chuteFwd = s.chuteFwd := rfl
@[simp] theorem State.setPorter_ports (p : Nat) (x : Porter) : (s.setPorter p x).ports = s.ports := rfl
@[simp] theorem State.setPorter_origins (p : Nat) (x : Porter) : (s.setPorter p x).origins = s.origins := rfl
@[simp] theorem State.setPorter_transit (p : Nat) (x : Porter) : (s.setPorter p x).transit = s.transit := rfl
@[simp] theorem State.setPorter_joists (p : Nat) (x : Porter) : (s.setPorter p x).joists = s.joists := rfl
@[simp] theorem State.setPorter_joistLinks (p : Nat) (x : Porter) : (s.setPorter p x).joistLinks = s.joistLinks := rfl
@[simp] theorem State.setPorter_lockerLost (p : Nat) (x : Porter) : (s.setPorter p x).lockerLost = s.lockerLost := rfl
@[simp] theorem State.setPorter_joistIn (p : Nat) (x : Porter) : (s.setPorter p x).joistIn = s.joistIn := rfl
@[simp] theorem State.setPorter_joistOut (p : Nat) (x : Porter) : (s.setPorter p x).joistOut = s.joistOut := rfl
@[simp] theorem State.setPorter_joistLive (p : Nat) (x : Porter) : (s.setPorter p x).joistLive = s.joistLive := rfl
@[simp] theorem State.setPorter_pilot (p : Nat) (x : Porter) : (s.setPorter p x).pilot = s.pilot := rfl
@[simp] theorem State.setPorter_cellarCtl (p : Nat) (x : Porter) : (s.setPorter p x).cellarCtl = s.cellarCtl := rfl
@[simp] theorem State.setPorter_clocks (p : Nat) (x : Porter) : (s.setPorter p x).clocks = s.clocks := rfl
@[simp] theorem State.setPorter_power (p : Nat) (x : Porter) : (s.setPorter p x).power = s.power := rfl
@[simp] theorem State.setPorter_spdm (p : Nat) (x : Porter) : (s.setPorter p x).spdm = s.spdm := rfl
@[simp] theorem State.setPorter_ide (p : Nat) (x : Porter) : (s.setPorter p x).ide = s.ide := rfl
@[simp] theorem State.setPorter_hostIn (p : Nat) (x : Porter) : (s.setPorter p x).hostIn = s.hostIn := rfl
@[simp] theorem State.setPorter_replies (p : Nat) (x : Porter) : (s.setPorter p x).replies = s.replies := rfl
@[simp] theorem State.setPorter_apsel (p : Nat) (x : Porter) : (s.setPorter p x).apsel = s.apsel := rfl
@[simp] theorem State.setPorter_msixTable (p : Nat) (x : Porter) : (s.setPorter p x).msixTable = s.msixTable := rfl
@[simp] theorem State.setPorter_bar2 (p : Nat) (x : Porter) : (s.setPorter p x).bar2 = s.bar2 := rfl
@[simp] theorem State.setPorter_hostOut (p : Nat) (x : Porter) : (s.setPorter p x).hostOut = s.hostOut := rfl
@[simp] theorem State.setPorter_atsOn (p : Nat) (x : Porter) : (s.setPorter p x).atsOn = s.atsOn := rfl
@[simp] theorem State.setPorter_atc (p : Nat) (x : Porter) : (s.setPorter p x).atc = s.atc := rfl
@[simp] theorem State.setPorter_atsInval (p : Nat) (x : Porter) : (s.setPorter p x).atsInval = s.atsInval := rfl
@[simp] theorem State.setPorter_dropTold (p : Nat) (x : Porter) : (s.setPorter p x).dropTold = s.dropTold := rfl
@[simp] theorem State.setPorter_migSecret (p : Nat) (x : Porter) : (s.setPorter p x).migSecret = s.migSecret := rfl
@[simp] theorem State.setPorter_flr (p : Nat) (x : Porter) : (s.setPorter p x).flr = s.flr := rfl
@[simp] theorem State.setPorter_nonceLive (p : Nat) (x : Porter) : (s.setPorter p x).nonceLive = s.nonceLive := rfl
@[simp] theorem State.setPorter_vfOn (p : Nat) (x : Porter) : (s.setPorter p x).vfOn = s.vfOn := rfl
@[simp] theorem State.setPorter_vfReady (p : Nat) (x : Porter) : (s.setPorter p x).vfReady = s.vfReady := rfl
@[simp] theorem State.setPorter_measLog (p : Nat) (x : Porter) : (s.setPorter p x).measLog = s.measLog := rfl

/-! ### setBay -/
@[simp] theorem State.setBay_pending (b : Nat) (x : Bay) : (s.setBay b x).pending = s.pending := rfl
@[simp] theorem State.setBay_free (b : Nat) (x : Bay) : (s.setBay b x).free = s.free := rfl
@[simp] theorem State.setBay_regs (b : Nat) (x : Bay) : (s.setBay b x).regs = s.regs := rfl
@[simp] theorem State.setBay_mem (b : Nat) (x : Bay) : (s.setBay b x).mem = s.mem := rfl
@[simp] theorem State.setBay_poison (b : Nat) (x : Bay) : (s.setBay b x).poison = s.poison := rfl
@[simp] theorem State.setBay_msixOpen (b : Nat) (x : Bay) : (s.setBay b x).msixOpen = s.msixOpen := rfl
@[simp] theorem State.setBay_msixPend (b : Nat) (x : Bay) : (s.setBay b x).msixPend = s.msixPend := rfl
@[simp] theorem State.setBay_msixSent (b : Nat) (x : Bay) : (s.setBay b x).msixSent = s.msixSent := rfl
@[simp] theorem State.setBay_seqs (b : Nat) (x : Bay) : (s.setBay b x).seqs = s.seqs := rfl
@[simp] theorem State.setBay_steps (b : Nat) (x : Bay) : (s.setBay b x).steps = s.steps := rfl
@[simp] theorem State.setBay_groups (b : Nat) (x : Bay) : (s.setBay b x).groups = s.groups := rfl
@[simp] theorem State.setBay_kernels (b : Nat) (x : Bay) : (s.setBay b x).kernels = s.kernels := rfl
@[simp] theorem State.setBay_porters (b : Nat) (x : Bay) : (s.setBay b x).porters = s.porters := rfl
@[simp] theorem State.setBay_imgs (b : Nat) (x : Bay) : (s.setBay b x).imgs = s.imgs := rfl
@[simp] theorem State.setBay_serving (b : Nat) (x : Bay) : (s.setBay b x).serving = s.serving := rfl
@[simp] theorem State.setBay_ranges (b : Nat) (x : Bay) : (s.setBay b x).ranges = s.ranges := rfl
@[simp] theorem State.setBay_larder (b : Nat) (x : Bay) : (s.setBay b x).larder = s.larder := rfl
@[simp] theorem State.setBay_cups (b : Nat) (x : Bay) : (s.setBay b x).cups = s.cups := rfl
@[simp] theorem State.setBay_shelves (b : Nat) (x : Bay) : (s.setBay b x).shelves = s.shelves := rfl
@[simp] theorem State.setBay_cellar (b : Nat) (x : Bay) : (s.setBay b x).cellar = s.cellar := rfl
@[simp] theorem State.setBay_keyOwner (b : Nat) (x : Bay) : (s.setBay b x).keyOwner = s.keyOwner := rfl
@[simp] theorem State.setBay_keyGen (b : Nat) (x : Bay) : (s.setBay b x).keyGen = s.keyGen := rfl
@[simp] theorem State.setBay_homes (b : Nat) (x : Bay) : (s.setBay b x).homes = s.homes := rfl
@[simp] theorem State.setBay_net (b : Nat) (x : Bay) : (s.setBay b x).net = s.net := rfl
@[simp] theorem State.setBay_slices (b : Nat) (x : Bay) : (s.setBay b x).slices = s.slices := rfl
@[simp] theorem State.setBay_tlbs (b : Nat) (x : Bay) : (s.setBay b x).tlbs = s.tlbs := rfl
@[simp] theorem State.setBay_rangeOps (b : Nat) (x : Bay) : (s.setBay b x).rangeOps = s.rangeOps := rfl
@[simp] theorem State.setBay_larderCtl (b : Nat) (x : Bay) : (s.setBay b x).larderCtl = s.larderCtl := rfl
@[simp] theorem State.setBay_replays (b : Nat) (x : Bay) : (s.setBay b x).replays = s.replays := rfl
@[simp] theorem State.setBay_tallySet (b : Nat) (x : Bay) : (s.setBay b x).tallySet = s.tallySet := rfl
@[simp] theorem State.setBay_heldAdds (b : Nat) (x : Bay) : (s.setBay b x).heldAdds = s.heldAdds := rfl
@[simp] theorem State.setBay_heldWrites (b : Nat) (x : Bay) : (s.setBay b x).heldWrites = s.heldWrites := rfl
@[simp] theorem State.setBay_wakeReq (b : Nat) (x : Bay) : (s.setBay b x).wakeReq = s.wakeReq := rfl
@[simp] theorem State.setBay_critR (b : Nat) (x : Bay) : (s.setBay b x).critR = s.critR := rfl
@[simp] theorem State.setBay_critA (b : Nat) (x : Bay) : (s.setBay b x).critA = s.critA := rfl
@[simp] theorem State.setBay_hatOut (b : Nat) (x : Bay) : (s.setBay b x).hatOut = s.hatOut := rfl
@[simp] theorem State.setBay_hatQueue (b : Nat) (x : Bay) : (s.setBay b x).hatQueue = s.hatQueue := rfl
@[simp] theorem State.setBay_hatLost (b : Nat) (x : Bay) : (s.setBay b x).hatLost = s.hatLost := rfl
@[simp] theorem State.setBay_chuteOut (b : Nat) (x : Bay) : (s.setBay b x).chuteOut = s.chuteOut := rfl
@[simp] theorem State.setBay_chuteLive (b : Nat) (x : Bay) : (s.setBay b x).chuteLive = s.chuteLive := rfl
@[simp] theorem State.setBay_chuteIn (b : Nat) (x : Bay) : (s.setBay b x).chuteIn = s.chuteIn := rfl
@[simp] theorem State.setBay_chuteReds (b : Nat) (x : Bay) : (s.setBay b x).chuteReds = s.chuteReds := rfl
@[simp] theorem State.setBay_chuteFwd (b : Nat) (x : Bay) : (s.setBay b x).chuteFwd = s.chuteFwd := rfl
@[simp] theorem State.setBay_ports (b : Nat) (x : Bay) : (s.setBay b x).ports = s.ports := rfl
@[simp] theorem State.setBay_origins (b : Nat) (x : Bay) : (s.setBay b x).origins = s.origins := rfl
@[simp] theorem State.setBay_transit (b : Nat) (x : Bay) : (s.setBay b x).transit = s.transit := rfl
@[simp] theorem State.setBay_joists (b : Nat) (x : Bay) : (s.setBay b x).joists = s.joists := rfl
@[simp] theorem State.setBay_joistLinks (b : Nat) (x : Bay) : (s.setBay b x).joistLinks = s.joistLinks := rfl
@[simp] theorem State.setBay_lockerLost (b : Nat) (x : Bay) : (s.setBay b x).lockerLost = s.lockerLost := rfl
@[simp] theorem State.setBay_joistIn (b : Nat) (x : Bay) : (s.setBay b x).joistIn = s.joistIn := rfl
@[simp] theorem State.setBay_joistOut (b : Nat) (x : Bay) : (s.setBay b x).joistOut = s.joistOut := rfl
@[simp] theorem State.setBay_joistLive (b : Nat) (x : Bay) : (s.setBay b x).joistLive = s.joistLive := rfl
@[simp] theorem State.setBay_pilot (b : Nat) (x : Bay) : (s.setBay b x).pilot = s.pilot := rfl
@[simp] theorem State.setBay_cellarCtl (b : Nat) (x : Bay) : (s.setBay b x).cellarCtl = s.cellarCtl := rfl
@[simp] theorem State.setBay_clocks (b : Nat) (x : Bay) : (s.setBay b x).clocks = s.clocks := rfl
@[simp] theorem State.setBay_power (b : Nat) (x : Bay) : (s.setBay b x).power = s.power := rfl
@[simp] theorem State.setBay_spdm (b : Nat) (x : Bay) : (s.setBay b x).spdm = s.spdm := rfl
@[simp] theorem State.setBay_ide (b : Nat) (x : Bay) : (s.setBay b x).ide = s.ide := rfl
@[simp] theorem State.setBay_hostIn (b : Nat) (x : Bay) : (s.setBay b x).hostIn = s.hostIn := rfl
@[simp] theorem State.setBay_replies (b : Nat) (x : Bay) : (s.setBay b x).replies = s.replies := rfl
@[simp] theorem State.setBay_apsel (b : Nat) (x : Bay) : (s.setBay b x).apsel = s.apsel := rfl
@[simp] theorem State.setBay_msixTable (b : Nat) (x : Bay) : (s.setBay b x).msixTable = s.msixTable := rfl
@[simp] theorem State.setBay_bar2 (b : Nat) (x : Bay) : (s.setBay b x).bar2 = s.bar2 := rfl
@[simp] theorem State.setBay_hostOut (b : Nat) (x : Bay) : (s.setBay b x).hostOut = s.hostOut := rfl
@[simp] theorem State.setBay_atsOn (b : Nat) (x : Bay) : (s.setBay b x).atsOn = s.atsOn := rfl
@[simp] theorem State.setBay_atc (b : Nat) (x : Bay) : (s.setBay b x).atc = s.atc := rfl
@[simp] theorem State.setBay_atsInval (b : Nat) (x : Bay) : (s.setBay b x).atsInval = s.atsInval := rfl
@[simp] theorem State.setBay_dropTold (b : Nat) (x : Bay) : (s.setBay b x).dropTold = s.dropTold := rfl
@[simp] theorem State.setBay_migSecret (b : Nat) (x : Bay) : (s.setBay b x).migSecret = s.migSecret := rfl
@[simp] theorem State.setBay_flr (b : Nat) (x : Bay) : (s.setBay b x).flr = s.flr := rfl
@[simp] theorem State.setBay_nonceLive (b : Nat) (x : Bay) : (s.setBay b x).nonceLive = s.nonceLive := rfl
@[simp] theorem State.setBay_vfOn (b : Nat) (x : Bay) : (s.setBay b x).vfOn = s.vfOn := rfl
@[simp] theorem State.setBay_vfReady (b : Nat) (x : Bay) : (s.setBay b x).vfReady = s.vfReady := rfl
@[simp] theorem State.setBay_measLog (b : Nat) (x : Bay) : (s.setBay b x).measLog = s.measLog := rfl

/-! ### setImg -/
@[simp] theorem State.setImg_pending (b j : Nat) (x : ImgSlot) : (s.setImg b j x).pending = s.pending := rfl
@[simp] theorem State.setImg_free (b j : Nat) (x : ImgSlot) : (s.setImg b j x).free = s.free := rfl
@[simp] theorem State.setImg_regs (b j : Nat) (x : ImgSlot) : (s.setImg b j x).regs = s.regs := rfl
@[simp] theorem State.setImg_mem (b j : Nat) (x : ImgSlot) : (s.setImg b j x).mem = s.mem := rfl
@[simp] theorem State.setImg_poison (b j : Nat) (x : ImgSlot) : (s.setImg b j x).poison = s.poison := rfl
@[simp] theorem State.setImg_msixOpen (b j : Nat) (x : ImgSlot) : (s.setImg b j x).msixOpen = s.msixOpen := rfl
@[simp] theorem State.setImg_msixPend (b j : Nat) (x : ImgSlot) : (s.setImg b j x).msixPend = s.msixPend := rfl
@[simp] theorem State.setImg_msixSent (b j : Nat) (x : ImgSlot) : (s.setImg b j x).msixSent = s.msixSent := rfl
@[simp] theorem State.setImg_seqs (b j : Nat) (x : ImgSlot) : (s.setImg b j x).seqs = s.seqs := rfl
@[simp] theorem State.setImg_steps (b j : Nat) (x : ImgSlot) : (s.setImg b j x).steps = s.steps := rfl
@[simp] theorem State.setImg_groups (b j : Nat) (x : ImgSlot) : (s.setImg b j x).groups = s.groups := rfl
@[simp] theorem State.setImg_kernels (b j : Nat) (x : ImgSlot) : (s.setImg b j x).kernels = s.kernels := rfl
@[simp] theorem State.setImg_porters (b j : Nat) (x : ImgSlot) : (s.setImg b j x).porters = s.porters := rfl
@[simp] theorem State.setImg_bays (b j : Nat) (x : ImgSlot) : (s.setImg b j x).bays = s.bays := rfl
@[simp] theorem State.setImg_serving (b j : Nat) (x : ImgSlot) : (s.setImg b j x).serving = s.serving := rfl
@[simp] theorem State.setImg_ranges (b j : Nat) (x : ImgSlot) : (s.setImg b j x).ranges = s.ranges := rfl
@[simp] theorem State.setImg_larder (b j : Nat) (x : ImgSlot) : (s.setImg b j x).larder = s.larder := rfl
@[simp] theorem State.setImg_cups (b j : Nat) (x : ImgSlot) : (s.setImg b j x).cups = s.cups := rfl
@[simp] theorem State.setImg_shelves (b j : Nat) (x : ImgSlot) : (s.setImg b j x).shelves = s.shelves := rfl
@[simp] theorem State.setImg_cellar (b j : Nat) (x : ImgSlot) : (s.setImg b j x).cellar = s.cellar := rfl
@[simp] theorem State.setImg_keyOwner (b j : Nat) (x : ImgSlot) : (s.setImg b j x).keyOwner = s.keyOwner := rfl
@[simp] theorem State.setImg_keyGen (b j : Nat) (x : ImgSlot) : (s.setImg b j x).keyGen = s.keyGen := rfl
@[simp] theorem State.setImg_homes (b j : Nat) (x : ImgSlot) : (s.setImg b j x).homes = s.homes := rfl
@[simp] theorem State.setImg_net (b j : Nat) (x : ImgSlot) : (s.setImg b j x).net = s.net := rfl
@[simp] theorem State.setImg_slices (b j : Nat) (x : ImgSlot) : (s.setImg b j x).slices = s.slices := rfl
@[simp] theorem State.setImg_tlbs (b j : Nat) (x : ImgSlot) : (s.setImg b j x).tlbs = s.tlbs := rfl
@[simp] theorem State.setImg_rangeOps (b j : Nat) (x : ImgSlot) : (s.setImg b j x).rangeOps = s.rangeOps := rfl
@[simp] theorem State.setImg_larderCtl (b j : Nat) (x : ImgSlot) : (s.setImg b j x).larderCtl = s.larderCtl := rfl
@[simp] theorem State.setImg_replays (b j : Nat) (x : ImgSlot) : (s.setImg b j x).replays = s.replays := rfl
@[simp] theorem State.setImg_tallySet (b j : Nat) (x : ImgSlot) : (s.setImg b j x).tallySet = s.tallySet := rfl
@[simp] theorem State.setImg_heldAdds (b j : Nat) (x : ImgSlot) : (s.setImg b j x).heldAdds = s.heldAdds := rfl
@[simp] theorem State.setImg_heldWrites (b j : Nat) (x : ImgSlot) : (s.setImg b j x).heldWrites = s.heldWrites := rfl
@[simp] theorem State.setImg_wakeReq (b j : Nat) (x : ImgSlot) : (s.setImg b j x).wakeReq = s.wakeReq := rfl
@[simp] theorem State.setImg_critR (b j : Nat) (x : ImgSlot) : (s.setImg b j x).critR = s.critR := rfl
@[simp] theorem State.setImg_critA (b j : Nat) (x : ImgSlot) : (s.setImg b j x).critA = s.critA := rfl
@[simp] theorem State.setImg_hatOut (b j : Nat) (x : ImgSlot) : (s.setImg b j x).hatOut = s.hatOut := rfl
@[simp] theorem State.setImg_hatQueue (b j : Nat) (x : ImgSlot) : (s.setImg b j x).hatQueue = s.hatQueue := rfl
@[simp] theorem State.setImg_hatLost (b j : Nat) (x : ImgSlot) : (s.setImg b j x).hatLost = s.hatLost := rfl
@[simp] theorem State.setImg_chuteOut (b j : Nat) (x : ImgSlot) : (s.setImg b j x).chuteOut = s.chuteOut := rfl
@[simp] theorem State.setImg_chuteLive (b j : Nat) (x : ImgSlot) : (s.setImg b j x).chuteLive = s.chuteLive := rfl
@[simp] theorem State.setImg_chuteIn (b j : Nat) (x : ImgSlot) : (s.setImg b j x).chuteIn = s.chuteIn := rfl
@[simp] theorem State.setImg_chuteReds (b j : Nat) (x : ImgSlot) : (s.setImg b j x).chuteReds = s.chuteReds := rfl
@[simp] theorem State.setImg_chuteFwd (b j : Nat) (x : ImgSlot) : (s.setImg b j x).chuteFwd = s.chuteFwd := rfl
@[simp] theorem State.setImg_ports (b j : Nat) (x : ImgSlot) : (s.setImg b j x).ports = s.ports := rfl
@[simp] theorem State.setImg_origins (b j : Nat) (x : ImgSlot) : (s.setImg b j x).origins = s.origins := rfl
@[simp] theorem State.setImg_transit (b j : Nat) (x : ImgSlot) : (s.setImg b j x).transit = s.transit := rfl
@[simp] theorem State.setImg_joists (b j : Nat) (x : ImgSlot) : (s.setImg b j x).joists = s.joists := rfl
@[simp] theorem State.setImg_joistLinks (b j : Nat) (x : ImgSlot) : (s.setImg b j x).joistLinks = s.joistLinks := rfl
@[simp] theorem State.setImg_lockerLost (b j : Nat) (x : ImgSlot) : (s.setImg b j x).lockerLost = s.lockerLost := rfl
@[simp] theorem State.setImg_joistIn (b j : Nat) (x : ImgSlot) : (s.setImg b j x).joistIn = s.joistIn := rfl
@[simp] theorem State.setImg_joistOut (b j : Nat) (x : ImgSlot) : (s.setImg b j x).joistOut = s.joistOut := rfl
@[simp] theorem State.setImg_joistLive (b j : Nat) (x : ImgSlot) : (s.setImg b j x).joistLive = s.joistLive := rfl
@[simp] theorem State.setImg_pilot (b j : Nat) (x : ImgSlot) : (s.setImg b j x).pilot = s.pilot := rfl
@[simp] theorem State.setImg_cellarCtl (b j : Nat) (x : ImgSlot) : (s.setImg b j x).cellarCtl = s.cellarCtl := rfl
@[simp] theorem State.setImg_clocks (b j : Nat) (x : ImgSlot) : (s.setImg b j x).clocks = s.clocks := rfl
@[simp] theorem State.setImg_power (b j : Nat) (x : ImgSlot) : (s.setImg b j x).power = s.power := rfl
@[simp] theorem State.setImg_spdm (b j : Nat) (x : ImgSlot) : (s.setImg b j x).spdm = s.spdm := rfl
@[simp] theorem State.setImg_ide (b j : Nat) (x : ImgSlot) : (s.setImg b j x).ide = s.ide := rfl
@[simp] theorem State.setImg_hostIn (b j : Nat) (x : ImgSlot) : (s.setImg b j x).hostIn = s.hostIn := rfl
@[simp] theorem State.setImg_replies (b j : Nat) (x : ImgSlot) : (s.setImg b j x).replies = s.replies := rfl
@[simp] theorem State.setImg_apsel (b j : Nat) (x : ImgSlot) : (s.setImg b j x).apsel = s.apsel := rfl
@[simp] theorem State.setImg_msixTable (b j : Nat) (x : ImgSlot) : (s.setImg b j x).msixTable = s.msixTable := rfl
@[simp] theorem State.setImg_bar2 (b j : Nat) (x : ImgSlot) : (s.setImg b j x).bar2 = s.bar2 := rfl
@[simp] theorem State.setImg_hostOut (b j : Nat) (x : ImgSlot) : (s.setImg b j x).hostOut = s.hostOut := rfl
@[simp] theorem State.setImg_atsOn (b j : Nat) (x : ImgSlot) : (s.setImg b j x).atsOn = s.atsOn := rfl
@[simp] theorem State.setImg_atc (b j : Nat) (x : ImgSlot) : (s.setImg b j x).atc = s.atc := rfl
@[simp] theorem State.setImg_atsInval (b j : Nat) (x : ImgSlot) : (s.setImg b j x).atsInval = s.atsInval := rfl
@[simp] theorem State.setImg_dropTold (b j : Nat) (x : ImgSlot) : (s.setImg b j x).dropTold = s.dropTold := rfl
@[simp] theorem State.setImg_migSecret (b j : Nat) (x : ImgSlot) : (s.setImg b j x).migSecret = s.migSecret := rfl
@[simp] theorem State.setImg_flr (b j : Nat) (x : ImgSlot) : (s.setImg b j x).flr = s.flr := rfl
@[simp] theorem State.setImg_nonceLive (b j : Nat) (x : ImgSlot) : (s.setImg b j x).nonceLive = s.nonceLive := rfl
@[simp] theorem State.setImg_vfOn (b j : Nat) (x : ImgSlot) : (s.setImg b j x).vfOn = s.vfOn := rfl
@[simp] theorem State.setImg_vfReady (b j : Nat) (x : ImgSlot) : (s.setImg b j x).vfReady = s.vfReady := rfl
@[simp] theorem State.setImg_measLog (b j : Nat) (x : ImgSlot) : (s.setImg b j x).measLog = s.measLog := rfl

/-! ### setRange -/
@[simp] theorem State.setRange_pending (n : Nat) (x : CoreRanges) : (s.setRange n x).pending = s.pending := rfl
@[simp] theorem State.setRange_free (n : Nat) (x : CoreRanges) : (s.setRange n x).free = s.free := rfl
@[simp] theorem State.setRange_regs (n : Nat) (x : CoreRanges) : (s.setRange n x).regs = s.regs := rfl
@[simp] theorem State.setRange_mem (n : Nat) (x : CoreRanges) : (s.setRange n x).mem = s.mem := rfl
@[simp] theorem State.setRange_poison (n : Nat) (x : CoreRanges) : (s.setRange n x).poison = s.poison := rfl
@[simp] theorem State.setRange_msixOpen (n : Nat) (x : CoreRanges) : (s.setRange n x).msixOpen = s.msixOpen := rfl
@[simp] theorem State.setRange_msixPend (n : Nat) (x : CoreRanges) : (s.setRange n x).msixPend = s.msixPend := rfl
@[simp] theorem State.setRange_msixSent (n : Nat) (x : CoreRanges) : (s.setRange n x).msixSent = s.msixSent := rfl
@[simp] theorem State.setRange_seqs (n : Nat) (x : CoreRanges) : (s.setRange n x).seqs = s.seqs := rfl
@[simp] theorem State.setRange_steps (n : Nat) (x : CoreRanges) : (s.setRange n x).steps = s.steps := rfl
@[simp] theorem State.setRange_groups (n : Nat) (x : CoreRanges) : (s.setRange n x).groups = s.groups := rfl
@[simp] theorem State.setRange_kernels (n : Nat) (x : CoreRanges) : (s.setRange n x).kernels = s.kernels := rfl
@[simp] theorem State.setRange_porters (n : Nat) (x : CoreRanges) : (s.setRange n x).porters = s.porters := rfl
@[simp] theorem State.setRange_bays (n : Nat) (x : CoreRanges) : (s.setRange n x).bays = s.bays := rfl
@[simp] theorem State.setRange_imgs (n : Nat) (x : CoreRanges) : (s.setRange n x).imgs = s.imgs := rfl
@[simp] theorem State.setRange_serving (n : Nat) (x : CoreRanges) : (s.setRange n x).serving = s.serving := rfl
@[simp] theorem State.setRange_larder (n : Nat) (x : CoreRanges) : (s.setRange n x).larder = s.larder := rfl
@[simp] theorem State.setRange_cups (n : Nat) (x : CoreRanges) : (s.setRange n x).cups = s.cups := rfl
@[simp] theorem State.setRange_shelves (n : Nat) (x : CoreRanges) : (s.setRange n x).shelves = s.shelves := rfl
@[simp] theorem State.setRange_cellar (n : Nat) (x : CoreRanges) : (s.setRange n x).cellar = s.cellar := rfl
@[simp] theorem State.setRange_keyOwner (n : Nat) (x : CoreRanges) : (s.setRange n x).keyOwner = s.keyOwner := rfl
@[simp] theorem State.setRange_keyGen (n : Nat) (x : CoreRanges) : (s.setRange n x).keyGen = s.keyGen := rfl
@[simp] theorem State.setRange_homes (n : Nat) (x : CoreRanges) : (s.setRange n x).homes = s.homes := rfl
@[simp] theorem State.setRange_net (n : Nat) (x : CoreRanges) : (s.setRange n x).net = s.net := rfl
@[simp] theorem State.setRange_slices (n : Nat) (x : CoreRanges) : (s.setRange n x).slices = s.slices := rfl
@[simp] theorem State.setRange_tlbs (n : Nat) (x : CoreRanges) : (s.setRange n x).tlbs = s.tlbs := rfl
@[simp] theorem State.setRange_rangeOps (n : Nat) (x : CoreRanges) : (s.setRange n x).rangeOps = s.rangeOps := rfl
@[simp] theorem State.setRange_larderCtl (n : Nat) (x : CoreRanges) : (s.setRange n x).larderCtl = s.larderCtl := rfl
@[simp] theorem State.setRange_replays (n : Nat) (x : CoreRanges) : (s.setRange n x).replays = s.replays := rfl
@[simp] theorem State.setRange_tallySet (n : Nat) (x : CoreRanges) : (s.setRange n x).tallySet = s.tallySet := rfl
@[simp] theorem State.setRange_heldAdds (n : Nat) (x : CoreRanges) : (s.setRange n x).heldAdds = s.heldAdds := rfl
@[simp] theorem State.setRange_heldWrites (n : Nat) (x : CoreRanges) : (s.setRange n x).heldWrites = s.heldWrites := rfl
@[simp] theorem State.setRange_wakeReq (n : Nat) (x : CoreRanges) : (s.setRange n x).wakeReq = s.wakeReq := rfl
@[simp] theorem State.setRange_critR (n : Nat) (x : CoreRanges) : (s.setRange n x).critR = s.critR := rfl
@[simp] theorem State.setRange_critA (n : Nat) (x : CoreRanges) : (s.setRange n x).critA = s.critA := rfl
@[simp] theorem State.setRange_hatOut (n : Nat) (x : CoreRanges) : (s.setRange n x).hatOut = s.hatOut := rfl
@[simp] theorem State.setRange_hatQueue (n : Nat) (x : CoreRanges) : (s.setRange n x).hatQueue = s.hatQueue := rfl
@[simp] theorem State.setRange_hatLost (n : Nat) (x : CoreRanges) : (s.setRange n x).hatLost = s.hatLost := rfl
@[simp] theorem State.setRange_chuteOut (n : Nat) (x : CoreRanges) : (s.setRange n x).chuteOut = s.chuteOut := rfl
@[simp] theorem State.setRange_chuteLive (n : Nat) (x : CoreRanges) : (s.setRange n x).chuteLive = s.chuteLive := rfl
@[simp] theorem State.setRange_chuteIn (n : Nat) (x : CoreRanges) : (s.setRange n x).chuteIn = s.chuteIn := rfl
@[simp] theorem State.setRange_chuteReds (n : Nat) (x : CoreRanges) : (s.setRange n x).chuteReds = s.chuteReds := rfl
@[simp] theorem State.setRange_chuteFwd (n : Nat) (x : CoreRanges) : (s.setRange n x).chuteFwd = s.chuteFwd := rfl
@[simp] theorem State.setRange_ports (n : Nat) (x : CoreRanges) : (s.setRange n x).ports = s.ports := rfl
@[simp] theorem State.setRange_origins (n : Nat) (x : CoreRanges) : (s.setRange n x).origins = s.origins := rfl
@[simp] theorem State.setRange_transit (n : Nat) (x : CoreRanges) : (s.setRange n x).transit = s.transit := rfl
@[simp] theorem State.setRange_joists (n : Nat) (x : CoreRanges) : (s.setRange n x).joists = s.joists := rfl
@[simp] theorem State.setRange_joistLinks (n : Nat) (x : CoreRanges) : (s.setRange n x).joistLinks = s.joistLinks := rfl
@[simp] theorem State.setRange_lockerLost (n : Nat) (x : CoreRanges) : (s.setRange n x).lockerLost = s.lockerLost := rfl
@[simp] theorem State.setRange_joistIn (n : Nat) (x : CoreRanges) : (s.setRange n x).joistIn = s.joistIn := rfl
@[simp] theorem State.setRange_joistOut (n : Nat) (x : CoreRanges) : (s.setRange n x).joistOut = s.joistOut := rfl
@[simp] theorem State.setRange_joistLive (n : Nat) (x : CoreRanges) : (s.setRange n x).joistLive = s.joistLive := rfl
@[simp] theorem State.setRange_pilot (n : Nat) (x : CoreRanges) : (s.setRange n x).pilot = s.pilot := rfl
@[simp] theorem State.setRange_cellarCtl (n : Nat) (x : CoreRanges) : (s.setRange n x).cellarCtl = s.cellarCtl := rfl
@[simp] theorem State.setRange_clocks (n : Nat) (x : CoreRanges) : (s.setRange n x).clocks = s.clocks := rfl
@[simp] theorem State.setRange_power (n : Nat) (x : CoreRanges) : (s.setRange n x).power = s.power := rfl
@[simp] theorem State.setRange_spdm (n : Nat) (x : CoreRanges) : (s.setRange n x).spdm = s.spdm := rfl
@[simp] theorem State.setRange_ide (n : Nat) (x : CoreRanges) : (s.setRange n x).ide = s.ide := rfl
@[simp] theorem State.setRange_hostIn (n : Nat) (x : CoreRanges) : (s.setRange n x).hostIn = s.hostIn := rfl
@[simp] theorem State.setRange_replies (n : Nat) (x : CoreRanges) : (s.setRange n x).replies = s.replies := rfl
@[simp] theorem State.setRange_apsel (n : Nat) (x : CoreRanges) : (s.setRange n x).apsel = s.apsel := rfl
@[simp] theorem State.setRange_msixTable (n : Nat) (x : CoreRanges) : (s.setRange n x).msixTable = s.msixTable := rfl
@[simp] theorem State.setRange_bar2 (n : Nat) (x : CoreRanges) : (s.setRange n x).bar2 = s.bar2 := rfl
@[simp] theorem State.setRange_hostOut (n : Nat) (x : CoreRanges) : (s.setRange n x).hostOut = s.hostOut := rfl
@[simp] theorem State.setRange_atsOn (n : Nat) (x : CoreRanges) : (s.setRange n x).atsOn = s.atsOn := rfl
@[simp] theorem State.setRange_atc (n : Nat) (x : CoreRanges) : (s.setRange n x).atc = s.atc := rfl
@[simp] theorem State.setRange_atsInval (n : Nat) (x : CoreRanges) : (s.setRange n x).atsInval = s.atsInval := rfl
@[simp] theorem State.setRange_dropTold (n : Nat) (x : CoreRanges) : (s.setRange n x).dropTold = s.dropTold := rfl
@[simp] theorem State.setRange_migSecret (n : Nat) (x : CoreRanges) : (s.setRange n x).migSecret = s.migSecret := rfl
@[simp] theorem State.setRange_flr (n : Nat) (x : CoreRanges) : (s.setRange n x).flr = s.flr := rfl
@[simp] theorem State.setRange_nonceLive (n : Nat) (x : CoreRanges) : (s.setRange n x).nonceLive = s.nonceLive := rfl
@[simp] theorem State.setRange_vfOn (n : Nat) (x : CoreRanges) : (s.setRange n x).vfOn = s.vfOn := rfl
@[simp] theorem State.setRange_vfReady (n : Nat) (x : CoreRanges) : (s.setRange n x).vfReady = s.vfReady := rfl
@[simp] theorem State.setRange_measLog (n : Nat) (x : CoreRanges) : (s.setRange n x).measLog = s.measLog := rfl

/-! ### setPilot -/
@[simp] theorem State.setPilot_pending (f : Pilot → Pilot) : (s.setPilot f).pending = s.pending := rfl
@[simp] theorem State.setPilot_free (f : Pilot → Pilot) : (s.setPilot f).free = s.free := rfl
@[simp] theorem State.setPilot_regs (f : Pilot → Pilot) : (s.setPilot f).regs = s.regs := rfl
@[simp] theorem State.setPilot_mem (f : Pilot → Pilot) : (s.setPilot f).mem = s.mem := rfl
@[simp] theorem State.setPilot_poison (f : Pilot → Pilot) : (s.setPilot f).poison = s.poison := rfl
@[simp] theorem State.setPilot_msixOpen (f : Pilot → Pilot) : (s.setPilot f).msixOpen = s.msixOpen := rfl
@[simp] theorem State.setPilot_msixPend (f : Pilot → Pilot) : (s.setPilot f).msixPend = s.msixPend := rfl
@[simp] theorem State.setPilot_msixSent (f : Pilot → Pilot) : (s.setPilot f).msixSent = s.msixSent := rfl
@[simp] theorem State.setPilot_seqs (f : Pilot → Pilot) : (s.setPilot f).seqs = s.seqs := rfl
@[simp] theorem State.setPilot_steps (f : Pilot → Pilot) : (s.setPilot f).steps = s.steps := rfl
@[simp] theorem State.setPilot_groups (f : Pilot → Pilot) : (s.setPilot f).groups = s.groups := rfl
@[simp] theorem State.setPilot_kernels (f : Pilot → Pilot) : (s.setPilot f).kernels = s.kernels := rfl
@[simp] theorem State.setPilot_porters (f : Pilot → Pilot) : (s.setPilot f).porters = s.porters := rfl
@[simp] theorem State.setPilot_bays (f : Pilot → Pilot) : (s.setPilot f).bays = s.bays := rfl
@[simp] theorem State.setPilot_imgs (f : Pilot → Pilot) : (s.setPilot f).imgs = s.imgs := rfl
@[simp] theorem State.setPilot_serving (f : Pilot → Pilot) : (s.setPilot f).serving = s.serving := rfl
@[simp] theorem State.setPilot_ranges (f : Pilot → Pilot) : (s.setPilot f).ranges = s.ranges := rfl
@[simp] theorem State.setPilot_larder (f : Pilot → Pilot) : (s.setPilot f).larder = s.larder := rfl
@[simp] theorem State.setPilot_cups (f : Pilot → Pilot) : (s.setPilot f).cups = s.cups := rfl
@[simp] theorem State.setPilot_shelves (f : Pilot → Pilot) : (s.setPilot f).shelves = s.shelves := rfl
@[simp] theorem State.setPilot_cellar (f : Pilot → Pilot) : (s.setPilot f).cellar = s.cellar := rfl
@[simp] theorem State.setPilot_keyOwner (f : Pilot → Pilot) : (s.setPilot f).keyOwner = s.keyOwner := rfl
@[simp] theorem State.setPilot_keyGen (f : Pilot → Pilot) : (s.setPilot f).keyGen = s.keyGen := rfl
@[simp] theorem State.setPilot_homes (f : Pilot → Pilot) : (s.setPilot f).homes = s.homes := rfl
@[simp] theorem State.setPilot_net (f : Pilot → Pilot) : (s.setPilot f).net = s.net := rfl
@[simp] theorem State.setPilot_slices (f : Pilot → Pilot) : (s.setPilot f).slices = s.slices := rfl
@[simp] theorem State.setPilot_tlbs (f : Pilot → Pilot) : (s.setPilot f).tlbs = s.tlbs := rfl
@[simp] theorem State.setPilot_rangeOps (f : Pilot → Pilot) : (s.setPilot f).rangeOps = s.rangeOps := rfl
@[simp] theorem State.setPilot_larderCtl (f : Pilot → Pilot) : (s.setPilot f).larderCtl = s.larderCtl := rfl
@[simp] theorem State.setPilot_replays (f : Pilot → Pilot) : (s.setPilot f).replays = s.replays := rfl
@[simp] theorem State.setPilot_tallySet (f : Pilot → Pilot) : (s.setPilot f).tallySet = s.tallySet := rfl
@[simp] theorem State.setPilot_heldAdds (f : Pilot → Pilot) : (s.setPilot f).heldAdds = s.heldAdds := rfl
@[simp] theorem State.setPilot_heldWrites (f : Pilot → Pilot) : (s.setPilot f).heldWrites = s.heldWrites := rfl
@[simp] theorem State.setPilot_wakeReq (f : Pilot → Pilot) : (s.setPilot f).wakeReq = s.wakeReq := rfl
@[simp] theorem State.setPilot_critR (f : Pilot → Pilot) : (s.setPilot f).critR = s.critR := rfl
@[simp] theorem State.setPilot_critA (f : Pilot → Pilot) : (s.setPilot f).critA = s.critA := rfl
@[simp] theorem State.setPilot_hatOut (f : Pilot → Pilot) : (s.setPilot f).hatOut = s.hatOut := rfl
@[simp] theorem State.setPilot_hatQueue (f : Pilot → Pilot) : (s.setPilot f).hatQueue = s.hatQueue := rfl
@[simp] theorem State.setPilot_hatLost (f : Pilot → Pilot) : (s.setPilot f).hatLost = s.hatLost := rfl
@[simp] theorem State.setPilot_chuteOut (f : Pilot → Pilot) : (s.setPilot f).chuteOut = s.chuteOut := rfl
@[simp] theorem State.setPilot_chuteLive (f : Pilot → Pilot) : (s.setPilot f).chuteLive = s.chuteLive := rfl
@[simp] theorem State.setPilot_chuteIn (f : Pilot → Pilot) : (s.setPilot f).chuteIn = s.chuteIn := rfl
@[simp] theorem State.setPilot_chuteReds (f : Pilot → Pilot) : (s.setPilot f).chuteReds = s.chuteReds := rfl
@[simp] theorem State.setPilot_chuteFwd (f : Pilot → Pilot) : (s.setPilot f).chuteFwd = s.chuteFwd := rfl
@[simp] theorem State.setPilot_ports (f : Pilot → Pilot) : (s.setPilot f).ports = s.ports := rfl
@[simp] theorem State.setPilot_origins (f : Pilot → Pilot) : (s.setPilot f).origins = s.origins := rfl
@[simp] theorem State.setPilot_transit (f : Pilot → Pilot) : (s.setPilot f).transit = s.transit := rfl
@[simp] theorem State.setPilot_joists (f : Pilot → Pilot) : (s.setPilot f).joists = s.joists := rfl
@[simp] theorem State.setPilot_joistLinks (f : Pilot → Pilot) : (s.setPilot f).joistLinks = s.joistLinks := rfl
@[simp] theorem State.setPilot_lockerLost (f : Pilot → Pilot) : (s.setPilot f).lockerLost = s.lockerLost := rfl
@[simp] theorem State.setPilot_joistIn (f : Pilot → Pilot) : (s.setPilot f).joistIn = s.joistIn := rfl
@[simp] theorem State.setPilot_joistOut (f : Pilot → Pilot) : (s.setPilot f).joistOut = s.joistOut := rfl
@[simp] theorem State.setPilot_joistLive (f : Pilot → Pilot) : (s.setPilot f).joistLive = s.joistLive := rfl
@[simp] theorem State.setPilot_cellarCtl (f : Pilot → Pilot) : (s.setPilot f).cellarCtl = s.cellarCtl := rfl
@[simp] theorem State.setPilot_clocks (f : Pilot → Pilot) : (s.setPilot f).clocks = s.clocks := rfl
@[simp] theorem State.setPilot_power (f : Pilot → Pilot) : (s.setPilot f).power = s.power := rfl
@[simp] theorem State.setPilot_spdm (f : Pilot → Pilot) : (s.setPilot f).spdm = s.spdm := rfl
@[simp] theorem State.setPilot_ide (f : Pilot → Pilot) : (s.setPilot f).ide = s.ide := rfl
@[simp] theorem State.setPilot_hostIn (f : Pilot → Pilot) : (s.setPilot f).hostIn = s.hostIn := rfl
@[simp] theorem State.setPilot_replies (f : Pilot → Pilot) : (s.setPilot f).replies = s.replies := rfl
@[simp] theorem State.setPilot_apsel (f : Pilot → Pilot) : (s.setPilot f).apsel = s.apsel := rfl
@[simp] theorem State.setPilot_msixTable (f : Pilot → Pilot) : (s.setPilot f).msixTable = s.msixTable := rfl
@[simp] theorem State.setPilot_bar2 (f : Pilot → Pilot) : (s.setPilot f).bar2 = s.bar2 := rfl
@[simp] theorem State.setPilot_hostOut (f : Pilot → Pilot) : (s.setPilot f).hostOut = s.hostOut := rfl
@[simp] theorem State.setPilot_atsOn (f : Pilot → Pilot) : (s.setPilot f).atsOn = s.atsOn := rfl
@[simp] theorem State.setPilot_atc (f : Pilot → Pilot) : (s.setPilot f).atc = s.atc := rfl
@[simp] theorem State.setPilot_atsInval (f : Pilot → Pilot) : (s.setPilot f).atsInval = s.atsInval := rfl
@[simp] theorem State.setPilot_dropTold (f : Pilot → Pilot) : (s.setPilot f).dropTold = s.dropTold := rfl
@[simp] theorem State.setPilot_migSecret (f : Pilot → Pilot) : (s.setPilot f).migSecret = s.migSecret := rfl
@[simp] theorem State.setPilot_flr (f : Pilot → Pilot) : (s.setPilot f).flr = s.flr := rfl
@[simp] theorem State.setPilot_nonceLive (f : Pilot → Pilot) : (s.setPilot f).nonceLive = s.nonceLive := rfl
@[simp] theorem State.setPilot_vfOn (f : Pilot → Pilot) : (s.setPilot f).vfOn = s.vfOn := rfl
@[simp] theorem State.setPilot_vfReady (f : Pilot → Pilot) : (s.setPilot f).vfReady = s.vfReady := rfl
@[simp] theorem State.setPilot_measLog (f : Pilot → Pilot) : (s.setPilot f).measLog = s.measLog := rfl

/-! ### keepPilot -/
@[simp] theorem State.keepPilot_pending : (s.keepPilot t).pending = s.pending := rfl
@[simp] theorem State.keepPilot_free : (s.keepPilot t).free = t.free := rfl
@[simp] theorem State.keepPilot_regs : (s.keepPilot t).regs = t.regs := rfl
@[simp] theorem State.keepPilot_mem : (s.keepPilot t).mem = t.mem := rfl
@[simp] theorem State.keepPilot_poison : (s.keepPilot t).poison = t.poison := rfl
@[simp] theorem State.keepPilot_msixOpen : (s.keepPilot t).msixOpen = t.msixOpen := rfl
@[simp] theorem State.keepPilot_msixPend : (s.keepPilot t).msixPend = t.msixPend := rfl
@[simp] theorem State.keepPilot_msixSent : (s.keepPilot t).msixSent = t.msixSent := rfl
@[simp] theorem State.keepPilot_seqs : (s.keepPilot t).seqs = t.seqs := rfl
@[simp] theorem State.keepPilot_steps : (s.keepPilot t).steps = t.steps := rfl
@[simp] theorem State.keepPilot_groups : (s.keepPilot t).groups = t.groups := rfl
@[simp] theorem State.keepPilot_kernels : (s.keepPilot t).kernels = t.kernels := rfl
@[simp] theorem State.keepPilot_porters : (s.keepPilot t).porters = t.porters := rfl
@[simp] theorem State.keepPilot_bays : (s.keepPilot t).bays = t.bays := rfl
@[simp] theorem State.keepPilot_imgs : (s.keepPilot t).imgs = t.imgs := rfl
@[simp] theorem State.keepPilot_serving : (s.keepPilot t).serving = t.serving := rfl
@[simp] theorem State.keepPilot_ranges : (s.keepPilot t).ranges = t.ranges := rfl
@[simp] theorem State.keepPilot_larder : (s.keepPilot t).larder = t.larder := rfl
@[simp] theorem State.keepPilot_cups : (s.keepPilot t).cups = t.cups := rfl
@[simp] theorem State.keepPilot_shelves : (s.keepPilot t).shelves = t.shelves := rfl
@[simp] theorem State.keepPilot_cellar : (s.keepPilot t).cellar = t.cellar := rfl
@[simp] theorem State.keepPilot_keyOwner : (s.keepPilot t).keyOwner = t.keyOwner := rfl
@[simp] theorem State.keepPilot_keyGen : (s.keepPilot t).keyGen = t.keyGen := rfl
@[simp] theorem State.keepPilot_homes : (s.keepPilot t).homes = t.homes := rfl
@[simp] theorem State.keepPilot_net : (s.keepPilot t).net = t.net := rfl
@[simp] theorem State.keepPilot_slices : (s.keepPilot t).slices = t.slices := rfl
@[simp] theorem State.keepPilot_tlbs : (s.keepPilot t).tlbs = t.tlbs := rfl
@[simp] theorem State.keepPilot_rangeOps : (s.keepPilot t).rangeOps = t.rangeOps := rfl
@[simp] theorem State.keepPilot_larderCtl : (s.keepPilot t).larderCtl = t.larderCtl := rfl
@[simp] theorem State.keepPilot_replays : (s.keepPilot t).replays = t.replays := rfl
@[simp] theorem State.keepPilot_tallySet : (s.keepPilot t).tallySet = t.tallySet := rfl
@[simp] theorem State.keepPilot_heldAdds : (s.keepPilot t).heldAdds = t.heldAdds := rfl
@[simp] theorem State.keepPilot_heldWrites : (s.keepPilot t).heldWrites = t.heldWrites := rfl
@[simp] theorem State.keepPilot_wakeReq : (s.keepPilot t).wakeReq = t.wakeReq := rfl
@[simp] theorem State.keepPilot_critR : (s.keepPilot t).critR = t.critR := rfl
@[simp] theorem State.keepPilot_critA : (s.keepPilot t).critA = t.critA := rfl
@[simp] theorem State.keepPilot_hatOut : (s.keepPilot t).hatOut = t.hatOut := rfl
@[simp] theorem State.keepPilot_hatQueue : (s.keepPilot t).hatQueue = t.hatQueue := rfl
@[simp] theorem State.keepPilot_hatLost : (s.keepPilot t).hatLost = t.hatLost := rfl
@[simp] theorem State.keepPilot_chuteOut : (s.keepPilot t).chuteOut = t.chuteOut := rfl
@[simp] theorem State.keepPilot_chuteLive : (s.keepPilot t).chuteLive = t.chuteLive := rfl
@[simp] theorem State.keepPilot_chuteIn : (s.keepPilot t).chuteIn = t.chuteIn := rfl
@[simp] theorem State.keepPilot_chuteReds : (s.keepPilot t).chuteReds = t.chuteReds := rfl
@[simp] theorem State.keepPilot_chuteFwd : (s.keepPilot t).chuteFwd = t.chuteFwd := rfl
@[simp] theorem State.keepPilot_ports : (s.keepPilot t).ports = t.ports := rfl
@[simp] theorem State.keepPilot_origins : (s.keepPilot t).origins = t.origins := rfl
@[simp] theorem State.keepPilot_transit : (s.keepPilot t).transit = t.transit := rfl
@[simp] theorem State.keepPilot_joists : (s.keepPilot t).joists = t.joists := rfl
@[simp] theorem State.keepPilot_joistLinks : (s.keepPilot t).joistLinks = t.joistLinks := rfl
@[simp] theorem State.keepPilot_lockerLost : (s.keepPilot t).lockerLost = t.lockerLost := rfl
@[simp] theorem State.keepPilot_joistIn : (s.keepPilot t).joistIn = t.joistIn := rfl
@[simp] theorem State.keepPilot_joistOut : (s.keepPilot t).joistOut = t.joistOut := rfl
@[simp] theorem State.keepPilot_joistLive : (s.keepPilot t).joistLive = t.joistLive := rfl
@[simp] theorem State.keepPilot_pilot : (s.keepPilot t).pilot = s.pilot := rfl
@[simp] theorem State.keepPilot_cellarCtl : (s.keepPilot t).cellarCtl = t.cellarCtl := rfl
@[simp] theorem State.keepPilot_clocks : (s.keepPilot t).clocks = t.clocks := rfl
@[simp] theorem State.keepPilot_power : (s.keepPilot t).power = t.power := rfl
@[simp] theorem State.keepPilot_spdm : (s.keepPilot t).spdm = t.spdm := rfl
@[simp] theorem State.keepPilot_ide : (s.keepPilot t).ide = t.ide := rfl
@[simp] theorem State.keepPilot_hostIn : (s.keepPilot t).hostIn = t.hostIn := rfl
@[simp] theorem State.keepPilot_replies : (s.keepPilot t).replies = t.replies := rfl
@[simp] theorem State.keepPilot_apsel : (s.keepPilot t).apsel = t.apsel := rfl
@[simp] theorem State.keepPilot_msixTable : (s.keepPilot t).msixTable = t.msixTable := rfl
@[simp] theorem State.keepPilot_bar2 : (s.keepPilot t).bar2 = t.bar2 := rfl
@[simp] theorem State.keepPilot_hostOut : (s.keepPilot t).hostOut = t.hostOut := rfl
@[simp] theorem State.keepPilot_atsOn : (s.keepPilot t).atsOn = t.atsOn := rfl
@[simp] theorem State.keepPilot_atc : (s.keepPilot t).atc = t.atc := rfl
@[simp] theorem State.keepPilot_atsInval : (s.keepPilot t).atsInval = t.atsInval := rfl
@[simp] theorem State.keepPilot_dropTold : (s.keepPilot t).dropTold = t.dropTold := rfl
@[simp] theorem State.keepPilot_migSecret : (s.keepPilot t).migSecret = t.migSecret := rfl
@[simp] theorem State.keepPilot_flr : (s.keepPilot t).flr = t.flr := rfl
@[simp] theorem State.keepPilot_nonceLive : (s.keepPilot t).nonceLive = t.nonceLive := rfl
@[simp] theorem State.keepPilot_vfOn : (s.keepPilot t).vfOn = t.vfOn := rfl
@[simp] theorem State.keepPilot_vfReady : (s.keepPilot t).vfReady = t.vfReady := rfl
@[simp] theorem State.keepPilot_measLog : (s.keepPilot t).measLog = t.measLog := rfl

/-! ### Readers of other fields -/
@[simp] theorem State.byte_setReg (r : RegSpec) (is : List Nat) (v : DWord) (i : Nat) : (s.setReg r is v).byte i = s.byte i := rfl
@[simp] theorem State.seq_setReg (r : RegSpec) (is : List Nat) (v : DWord) (i : Nat) : (s.setReg r is v).seq i = s.seq i := rfl
@[simp] theorem State.stepUnit_setReg (r : RegSpec) (is : List Nat) (v : DWord) (i : Nat) : (s.setReg r is v).stepUnit i = s.stepUnit i := rfl
@[simp] theorem State.group_setReg (r : RegSpec) (is : List Nat) (v : DWord) (i j : Nat) : (s.setReg r is v).group i j = s.group i j := rfl
@[simp] theorem State.kern_setReg (r : RegSpec) (is : List Nat) (v : DWord) (i : Nat) : (s.setReg r is v).kern i = s.kern i := rfl
@[simp] theorem State.porter_setReg (r : RegSpec) (is : List Nat) (v : DWord) (i : Nat) : (s.setReg r is v).porter i = s.porter i := rfl
@[simp] theorem State.chan_setReg (r : RegSpec) (is : List Nat) (v : DWord) (i j : Nat) : (s.setReg r is v).chan i j = s.chan i j := rfl
@[simp] theorem State.bay_setReg (r : RegSpec) (is : List Nat) (v : DWord) (i : Nat) : (s.setReg r is v).bay i = s.bay i := rfl
@[simp] theorem State.img_setReg (r : RegSpec) (is : List Nat) (v : DWord) (i j : Nat) : (s.setReg r is v).img i j = s.img i j := rfl
@[simp] theorem State.range_setReg (r : RegSpec) (is : List Nat) (v : DWord) (i : Nat) : (s.setReg r is v).range i = s.range i := rfl

@[simp] theorem State.byte_setFld (r : RegSpec) (is : List Nat) (f : Fld) (v : Nat) (i : Nat) : (s.setFld r is f v).byte i = s.byte i := rfl
@[simp] theorem State.seq_setFld (r : RegSpec) (is : List Nat) (f : Fld) (v : Nat) (i : Nat) : (s.setFld r is f v).seq i = s.seq i := rfl
@[simp] theorem State.stepUnit_setFld (r : RegSpec) (is : List Nat) (f : Fld) (v : Nat) (i : Nat) : (s.setFld r is f v).stepUnit i = s.stepUnit i := rfl
@[simp] theorem State.group_setFld (r : RegSpec) (is : List Nat) (f : Fld) (v : Nat) (i j : Nat) : (s.setFld r is f v).group i j = s.group i j := rfl
@[simp] theorem State.kern_setFld (r : RegSpec) (is : List Nat) (f : Fld) (v : Nat) (i : Nat) : (s.setFld r is f v).kern i = s.kern i := rfl
@[simp] theorem State.porter_setFld (r : RegSpec) (is : List Nat) (f : Fld) (v : Nat) (i : Nat) : (s.setFld r is f v).porter i = s.porter i := rfl
@[simp] theorem State.chan_setFld (r : RegSpec) (is : List Nat) (f : Fld) (v : Nat) (i j : Nat) : (s.setFld r is f v).chan i j = s.chan i j := rfl
@[simp] theorem State.bay_setFld (r : RegSpec) (is : List Nat) (f : Fld) (v : Nat) (i : Nat) : (s.setFld r is f v).bay i = s.bay i := rfl
@[simp] theorem State.img_setFld (r : RegSpec) (is : List Nat) (f : Fld) (v : Nat) (i j : Nat) : (s.setFld r is f v).img i j = s.img i j := rfl
@[simp] theorem State.range_setFld (r : RegSpec) (is : List Nat) (f : Fld) (v : Nat) (i : Nat) : (s.setFld r is f v).range i = s.range i := rfl

@[simp] theorem State.byte_bump (r : RegSpec) (is : List Nat) (f : Fld) (v : Nat) (i : Nat) : (s.bump r is f v).byte i = s.byte i := rfl
@[simp] theorem State.seq_bump (r : RegSpec) (is : List Nat) (f : Fld) (v : Nat) (i : Nat) : (s.bump r is f v).seq i = s.seq i := rfl
@[simp] theorem State.stepUnit_bump (r : RegSpec) (is : List Nat) (f : Fld) (v : Nat) (i : Nat) : (s.bump r is f v).stepUnit i = s.stepUnit i := rfl
@[simp] theorem State.group_bump (r : RegSpec) (is : List Nat) (f : Fld) (v : Nat) (i j : Nat) : (s.bump r is f v).group i j = s.group i j := rfl
@[simp] theorem State.kern_bump (r : RegSpec) (is : List Nat) (f : Fld) (v : Nat) (i : Nat) : (s.bump r is f v).kern i = s.kern i := rfl
@[simp] theorem State.porter_bump (r : RegSpec) (is : List Nat) (f : Fld) (v : Nat) (i : Nat) : (s.bump r is f v).porter i = s.porter i := rfl
@[simp] theorem State.chan_bump (r : RegSpec) (is : List Nat) (f : Fld) (v : Nat) (i j : Nat) : (s.bump r is f v).chan i j = s.chan i j := rfl
@[simp] theorem State.bay_bump (r : RegSpec) (is : List Nat) (f : Fld) (v : Nat) (i : Nat) : (s.bump r is f v).bay i = s.bay i := rfl
@[simp] theorem State.img_bump (r : RegSpec) (is : List Nat) (f : Fld) (v : Nat) (i j : Nat) : (s.bump r is f v).img i j = s.img i j := rfl
@[simp] theorem State.range_bump (r : RegSpec) (is : List Nat) (f : Fld) (v : Nat) (i : Nat) : (s.bump r is f v).range i = s.range i := rfl

@[simp] theorem State.byte_wrote (r : RegSpec) (is : List Nat) (v : Nat) (i : Nat) : (s.wrote r is v).byte i = s.byte i := rfl
@[simp] theorem State.seq_wrote (r : RegSpec) (is : List Nat) (v : Nat) (i : Nat) : (s.wrote r is v).seq i = s.seq i := rfl
@[simp] theorem State.stepUnit_wrote (r : RegSpec) (is : List Nat) (v : Nat) (i : Nat) : (s.wrote r is v).stepUnit i = s.stepUnit i := rfl
@[simp] theorem State.group_wrote (r : RegSpec) (is : List Nat) (v : Nat) (i j : Nat) : (s.wrote r is v).group i j = s.group i j := rfl
@[simp] theorem State.kern_wrote (r : RegSpec) (is : List Nat) (v : Nat) (i : Nat) : (s.wrote r is v).kern i = s.kern i := rfl
@[simp] theorem State.porter_wrote (r : RegSpec) (is : List Nat) (v : Nat) (i : Nat) : (s.wrote r is v).porter i = s.porter i := rfl
@[simp] theorem State.chan_wrote (r : RegSpec) (is : List Nat) (v : Nat) (i j : Nat) : (s.wrote r is v).chan i j = s.chan i j := rfl
@[simp] theorem State.bay_wrote (r : RegSpec) (is : List Nat) (v : Nat) (i : Nat) : (s.wrote r is v).bay i = s.bay i := rfl
@[simp] theorem State.img_wrote (r : RegSpec) (is : List Nat) (v : Nat) (i j : Nat) : (s.wrote r is v).img i j = s.img i j := rfl
@[simp] theorem State.range_wrote (r : RegSpec) (is : List Nat) (v : Nat) (i : Nat) : (s.wrote r is v).range i = s.range i := rfl

@[simp] theorem State.reg_setByte (a : Nat) (b : Byte) (r0 : RegSpec) (js : List Nat) : (s.setByte a b).reg r0 js = s.reg r0 js := rfl
@[simp] theorem State.fld_setByte (a : Nat) (b : Byte) (r0 : RegSpec) (js : List Nat) (x0 : Fld) : (s.setByte a b).fld r0 js x0 = s.fld r0 js x0 := rfl
@[simp] theorem State.bit_setByte (a : Nat) (b : Byte) (r0 : RegSpec) (js : List Nat) (x0 : Fld) : (s.setByte a b).bit r0 js x0 = s.bit r0 js x0 := rfl
@[simp] theorem State.seq_setByte (a : Nat) (b : Byte) (i : Nat) : (s.setByte a b).seq i = s.seq i := rfl
@[simp] theorem State.stepUnit_setByte (a : Nat) (b : Byte) (i : Nat) : (s.setByte a b).stepUnit i = s.stepUnit i := rfl
@[simp] theorem State.group_setByte (a : Nat) (b : Byte) (i j : Nat) : (s.setByte a b).group i j = s.group i j := rfl
@[simp] theorem State.kern_setByte (a : Nat) (b : Byte) (i : Nat) : (s.setByte a b).kern i = s.kern i := rfl
@[simp] theorem State.porter_setByte (a : Nat) (b : Byte) (i : Nat) : (s.setByte a b).porter i = s.porter i := rfl
@[simp] theorem State.chan_setByte (a : Nat) (b : Byte) (i j : Nat) : (s.setByte a b).chan i j = s.chan i j := rfl
@[simp] theorem State.bay_setByte (a : Nat) (b : Byte) (i : Nat) : (s.setByte a b).bay i = s.bay i := rfl
@[simp] theorem State.img_setByte (a : Nat) (b : Byte) (i j : Nat) : (s.setByte a b).img i j = s.img i j := rfl
@[simp] theorem State.range_setByte (a : Nat) (b : Byte) (i : Nat) : (s.setByte a b).range i = s.range i := rfl

@[simp] theorem State.reg_markWord (w : Nat) (p : Bool) (r0 : RegSpec) (js : List Nat) : (s.markWord w p).reg r0 js = s.reg r0 js := rfl
@[simp] theorem State.fld_markWord (w : Nat) (p : Bool) (r0 : RegSpec) (js : List Nat) (x0 : Fld) : (s.markWord w p).fld r0 js x0 = s.fld r0 js x0 := rfl
@[simp] theorem State.bit_markWord (w : Nat) (p : Bool) (r0 : RegSpec) (js : List Nat) (x0 : Fld) : (s.markWord w p).bit r0 js x0 = s.bit r0 js x0 := rfl
@[simp] theorem State.byte_markWord (w : Nat) (p : Bool) (i : Nat) : (s.markWord w p).byte i = s.byte i := rfl
@[simp] theorem State.seq_markWord (w : Nat) (p : Bool) (i : Nat) : (s.markWord w p).seq i = s.seq i := rfl
@[simp] theorem State.stepUnit_markWord (w : Nat) (p : Bool) (i : Nat) : (s.markWord w p).stepUnit i = s.stepUnit i := rfl
@[simp] theorem State.group_markWord (w : Nat) (p : Bool) (i j : Nat) : (s.markWord w p).group i j = s.group i j := rfl
@[simp] theorem State.kern_markWord (w : Nat) (p : Bool) (i : Nat) : (s.markWord w p).kern i = s.kern i := rfl
@[simp] theorem State.porter_markWord (w : Nat) (p : Bool) (i : Nat) : (s.markWord w p).porter i = s.porter i := rfl
@[simp] theorem State.chan_markWord (w : Nat) (p : Bool) (i j : Nat) : (s.markWord w p).chan i j = s.chan i j := rfl
@[simp] theorem State.bay_markWord (w : Nat) (p : Bool) (i : Nat) : (s.markWord w p).bay i = s.bay i := rfl
@[simp] theorem State.img_markWord (w : Nat) (p : Bool) (i j : Nat) : (s.markWord w p).img i j = s.img i j := rfl
@[simp] theorem State.range_markWord (w : Nat) (p : Bool) (i : Nat) : (s.markWord w p).range i = s.range i := rfl

@[simp] theorem State.reg_setSeq (n : Nat) (q : Seq) (r0 : RegSpec) (js : List Nat) : (s.setSeq n q).reg r0 js = s.reg r0 js := rfl
@[simp] theorem State.fld_setSeq (n : Nat) (q : Seq) (r0 : RegSpec) (js : List Nat) (x0 : Fld) : (s.setSeq n q).fld r0 js x0 = s.fld r0 js x0 := rfl
@[simp] theorem State.bit_setSeq (n : Nat) (q : Seq) (r0 : RegSpec) (js : List Nat) (x0 : Fld) : (s.setSeq n q).bit r0 js x0 = s.bit r0 js x0 := rfl
@[simp] theorem State.byte_setSeq (n : Nat) (q : Seq) (i : Nat) : (s.setSeq n q).byte i = s.byte i := rfl
@[simp] theorem State.stepUnit_setSeq (n : Nat) (q : Seq) (i : Nat) : (s.setSeq n q).stepUnit i = s.stepUnit i := rfl
@[simp] theorem State.group_setSeq (n : Nat) (q : Seq) (i j : Nat) : (s.setSeq n q).group i j = s.group i j := rfl
@[simp] theorem State.kern_setSeq (n : Nat) (q : Seq) (i : Nat) : (s.setSeq n q).kern i = s.kern i := rfl
@[simp] theorem State.porter_setSeq (n : Nat) (q : Seq) (i : Nat) : (s.setSeq n q).porter i = s.porter i := rfl
@[simp] theorem State.chan_setSeq (n : Nat) (q : Seq) (i j : Nat) : (s.setSeq n q).chan i j = s.chan i j := rfl
@[simp] theorem State.bay_setSeq (n : Nat) (q : Seq) (i : Nat) : (s.setSeq n q).bay i = s.bay i := rfl
@[simp] theorem State.img_setSeq (n : Nat) (q : Seq) (i j : Nat) : (s.setSeq n q).img i j = s.img i j := rfl
@[simp] theorem State.range_setSeq (n : Nat) (q : Seq) (i : Nat) : (s.setSeq n q).range i = s.range i := rfl

@[simp] theorem State.reg_setStep (n : Nat) (u : StepUnit) (r0 : RegSpec) (js : List Nat) : (s.setStep n u).reg r0 js = s.reg r0 js := rfl
@[simp] theorem State.fld_setStep (n : Nat) (u : StepUnit) (r0 : RegSpec) (js : List Nat) (x0 : Fld) : (s.setStep n u).fld r0 js x0 = s.fld r0 js x0 := rfl
@[simp] theorem State.bit_setStep (n : Nat) (u : StepUnit) (r0 : RegSpec) (js : List Nat) (x0 : Fld) : (s.setStep n u).bit r0 js x0 = s.bit r0 js x0 := rfl
@[simp] theorem State.byte_setStep (n : Nat) (u : StepUnit) (i : Nat) : (s.setStep n u).byte i = s.byte i := rfl
@[simp] theorem State.seq_setStep (n : Nat) (u : StepUnit) (i : Nat) : (s.setStep n u).seq i = s.seq i := rfl
@[simp] theorem State.group_setStep (n : Nat) (u : StepUnit) (i j : Nat) : (s.setStep n u).group i j = s.group i j := rfl
@[simp] theorem State.kern_setStep (n : Nat) (u : StepUnit) (i : Nat) : (s.setStep n u).kern i = s.kern i := rfl
@[simp] theorem State.porter_setStep (n : Nat) (u : StepUnit) (i : Nat) : (s.setStep n u).porter i = s.porter i := rfl
@[simp] theorem State.chan_setStep (n : Nat) (u : StepUnit) (i j : Nat) : (s.setStep n u).chan i j = s.chan i j := rfl
@[simp] theorem State.bay_setStep (n : Nat) (u : StepUnit) (i : Nat) : (s.setStep n u).bay i = s.bay i := rfl
@[simp] theorem State.img_setStep (n : Nat) (u : StepUnit) (i j : Nat) : (s.setStep n u).img i j = s.img i j := rfl
@[simp] theorem State.range_setStep (n : Nat) (u : StepUnit) (i : Nat) : (s.setStep n u).range i = s.range i := rfl

@[simp] theorem State.reg_setGroup (n g : Nat) (x : Group) (r0 : RegSpec) (js : List Nat) : (s.setGroup n g x).reg r0 js = s.reg r0 js := rfl
@[simp] theorem State.fld_setGroup (n g : Nat) (x : Group) (r0 : RegSpec) (js : List Nat) (x0 : Fld) : (s.setGroup n g x).fld r0 js x0 = s.fld r0 js x0 := rfl
@[simp] theorem State.bit_setGroup (n g : Nat) (x : Group) (r0 : RegSpec) (js : List Nat) (x0 : Fld) : (s.setGroup n g x).bit r0 js x0 = s.bit r0 js x0 := rfl
@[simp] theorem State.byte_setGroup (n g : Nat) (x : Group) (i : Nat) : (s.setGroup n g x).byte i = s.byte i := rfl
@[simp] theorem State.seq_setGroup (n g : Nat) (x : Group) (i : Nat) : (s.setGroup n g x).seq i = s.seq i := rfl
@[simp] theorem State.stepUnit_setGroup (n g : Nat) (x : Group) (i : Nat) : (s.setGroup n g x).stepUnit i = s.stepUnit i := rfl
@[simp] theorem State.kern_setGroup (n g : Nat) (x : Group) (i : Nat) : (s.setGroup n g x).kern i = s.kern i := rfl
@[simp] theorem State.porter_setGroup (n g : Nat) (x : Group) (i : Nat) : (s.setGroup n g x).porter i = s.porter i := rfl
@[simp] theorem State.chan_setGroup (n g : Nat) (x : Group) (i j : Nat) : (s.setGroup n g x).chan i j = s.chan i j := rfl
@[simp] theorem State.bay_setGroup (n g : Nat) (x : Group) (i : Nat) : (s.setGroup n g x).bay i = s.bay i := rfl
@[simp] theorem State.img_setGroup (n g : Nat) (x : Group) (i j : Nat) : (s.setGroup n g x).img i j = s.img i j := rfl
@[simp] theorem State.range_setGroup (n g : Nat) (x : Group) (i : Nat) : (s.setGroup n g x).range i = s.range i := rfl

@[simp] theorem State.reg_setKern (n : Nat) (k : Kernels) (r0 : RegSpec) (js : List Nat) : (s.setKern n k).reg r0 js = s.reg r0 js := rfl
@[simp] theorem State.fld_setKern (n : Nat) (k : Kernels) (r0 : RegSpec) (js : List Nat) (x0 : Fld) : (s.setKern n k).fld r0 js x0 = s.fld r0 js x0 := rfl
@[simp] theorem State.bit_setKern (n : Nat) (k : Kernels) (r0 : RegSpec) (js : List Nat) (x0 : Fld) : (s.setKern n k).bit r0 js x0 = s.bit r0 js x0 := rfl
@[simp] theorem State.byte_setKern (n : Nat) (k : Kernels) (i : Nat) : (s.setKern n k).byte i = s.byte i := rfl
@[simp] theorem State.seq_setKern (n : Nat) (k : Kernels) (i : Nat) : (s.setKern n k).seq i = s.seq i := rfl
@[simp] theorem State.stepUnit_setKern (n : Nat) (k : Kernels) (i : Nat) : (s.setKern n k).stepUnit i = s.stepUnit i := rfl
@[simp] theorem State.group_setKern (n : Nat) (k : Kernels) (i j : Nat) : (s.setKern n k).group i j = s.group i j := rfl
@[simp] theorem State.porter_setKern (n : Nat) (k : Kernels) (i : Nat) : (s.setKern n k).porter i = s.porter i := rfl
@[simp] theorem State.chan_setKern (n : Nat) (k : Kernels) (i j : Nat) : (s.setKern n k).chan i j = s.chan i j := rfl
@[simp] theorem State.bay_setKern (n : Nat) (k : Kernels) (i : Nat) : (s.setKern n k).bay i = s.bay i := rfl
@[simp] theorem State.img_setKern (n : Nat) (k : Kernels) (i j : Nat) : (s.setKern n k).img i j = s.img i j := rfl
@[simp] theorem State.range_setKern (n : Nat) (k : Kernels) (i : Nat) : (s.setKern n k).range i = s.range i := rfl

@[simp] theorem State.reg_setPorter (p : Nat) (x : Porter) (r0 : RegSpec) (js : List Nat) : (s.setPorter p x).reg r0 js = s.reg r0 js := rfl
@[simp] theorem State.fld_setPorter (p : Nat) (x : Porter) (r0 : RegSpec) (js : List Nat) (x0 : Fld) : (s.setPorter p x).fld r0 js x0 = s.fld r0 js x0 := rfl
@[simp] theorem State.bit_setPorter (p : Nat) (x : Porter) (r0 : RegSpec) (js : List Nat) (x0 : Fld) : (s.setPorter p x).bit r0 js x0 = s.bit r0 js x0 := rfl
@[simp] theorem State.byte_setPorter (p : Nat) (x : Porter) (i : Nat) : (s.setPorter p x).byte i = s.byte i := rfl
@[simp] theorem State.seq_setPorter (p : Nat) (x : Porter) (i : Nat) : (s.setPorter p x).seq i = s.seq i := rfl
@[simp] theorem State.stepUnit_setPorter (p : Nat) (x : Porter) (i : Nat) : (s.setPorter p x).stepUnit i = s.stepUnit i := rfl
@[simp] theorem State.group_setPorter (p : Nat) (x : Porter) (i j : Nat) : (s.setPorter p x).group i j = s.group i j := rfl
@[simp] theorem State.kern_setPorter (p : Nat) (x : Porter) (i : Nat) : (s.setPorter p x).kern i = s.kern i := rfl
@[simp] theorem State.bay_setPorter (p : Nat) (x : Porter) (i : Nat) : (s.setPorter p x).bay i = s.bay i := rfl
@[simp] theorem State.img_setPorter (p : Nat) (x : Porter) (i j : Nat) : (s.setPorter p x).img i j = s.img i j := rfl
@[simp] theorem State.range_setPorter (p : Nat) (x : Porter) (i : Nat) : (s.setPorter p x).range i = s.range i := rfl

@[simp] theorem State.reg_setBay (b : Nat) (x : Bay) (r0 : RegSpec) (js : List Nat) : (s.setBay b x).reg r0 js = s.reg r0 js := rfl
@[simp] theorem State.fld_setBay (b : Nat) (x : Bay) (r0 : RegSpec) (js : List Nat) (x0 : Fld) : (s.setBay b x).fld r0 js x0 = s.fld r0 js x0 := rfl
@[simp] theorem State.bit_setBay (b : Nat) (x : Bay) (r0 : RegSpec) (js : List Nat) (x0 : Fld) : (s.setBay b x).bit r0 js x0 = s.bit r0 js x0 := rfl
@[simp] theorem State.byte_setBay (b : Nat) (x : Bay) (i : Nat) : (s.setBay b x).byte i = s.byte i := rfl
@[simp] theorem State.seq_setBay (b : Nat) (x : Bay) (i : Nat) : (s.setBay b x).seq i = s.seq i := rfl
@[simp] theorem State.stepUnit_setBay (b : Nat) (x : Bay) (i : Nat) : (s.setBay b x).stepUnit i = s.stepUnit i := rfl
@[simp] theorem State.group_setBay (b : Nat) (x : Bay) (i j : Nat) : (s.setBay b x).group i j = s.group i j := rfl
@[simp] theorem State.kern_setBay (b : Nat) (x : Bay) (i : Nat) : (s.setBay b x).kern i = s.kern i := rfl
@[simp] theorem State.porter_setBay (b : Nat) (x : Bay) (i : Nat) : (s.setBay b x).porter i = s.porter i := rfl
@[simp] theorem State.chan_setBay (b : Nat) (x : Bay) (i j : Nat) : (s.setBay b x).chan i j = s.chan i j := rfl
@[simp] theorem State.img_setBay (b : Nat) (x : Bay) (i j : Nat) : (s.setBay b x).img i j = s.img i j := rfl
@[simp] theorem State.range_setBay (b : Nat) (x : Bay) (i : Nat) : (s.setBay b x).range i = s.range i := rfl

@[simp] theorem State.reg_setImg (b j : Nat) (x : ImgSlot) (r0 : RegSpec) (js : List Nat) : (s.setImg b j x).reg r0 js = s.reg r0 js := rfl
@[simp] theorem State.fld_setImg (b j : Nat) (x : ImgSlot) (r0 : RegSpec) (js : List Nat) (x0 : Fld) : (s.setImg b j x).fld r0 js x0 = s.fld r0 js x0 := rfl
@[simp] theorem State.bit_setImg (b j : Nat) (x : ImgSlot) (r0 : RegSpec) (js : List Nat) (x0 : Fld) : (s.setImg b j x).bit r0 js x0 = s.bit r0 js x0 := rfl
@[simp] theorem State.byte_setImg (b j : Nat) (x : ImgSlot) (i : Nat) : (s.setImg b j x).byte i = s.byte i := rfl
@[simp] theorem State.seq_setImg (b j : Nat) (x : ImgSlot) (i : Nat) : (s.setImg b j x).seq i = s.seq i := rfl
@[simp] theorem State.stepUnit_setImg (b j : Nat) (x : ImgSlot) (i : Nat) : (s.setImg b j x).stepUnit i = s.stepUnit i := rfl
@[simp] theorem State.group_setImg (b j : Nat) (x : ImgSlot) (i j : Nat) : (s.setImg b j x).group i j = s.group i j := rfl
@[simp] theorem State.kern_setImg (b j : Nat) (x : ImgSlot) (i : Nat) : (s.setImg b j x).kern i = s.kern i := rfl
@[simp] theorem State.porter_setImg (b j : Nat) (x : ImgSlot) (i : Nat) : (s.setImg b j x).porter i = s.porter i := rfl
@[simp] theorem State.chan_setImg (b j : Nat) (x : ImgSlot) (i j : Nat) : (s.setImg b j x).chan i j = s.chan i j := rfl
@[simp] theorem State.bay_setImg (b j : Nat) (x : ImgSlot) (i : Nat) : (s.setImg b j x).bay i = s.bay i := rfl
@[simp] theorem State.range_setImg (b j : Nat) (x : ImgSlot) (i : Nat) : (s.setImg b j x).range i = s.range i := rfl

@[simp] theorem State.reg_setRange (n : Nat) (x : CoreRanges) (r0 : RegSpec) (js : List Nat) : (s.setRange n x).reg r0 js = s.reg r0 js := rfl
@[simp] theorem State.fld_setRange (n : Nat) (x : CoreRanges) (r0 : RegSpec) (js : List Nat) (x0 : Fld) : (s.setRange n x).fld r0 js x0 = s.fld r0 js x0 := rfl
@[simp] theorem State.bit_setRange (n : Nat) (x : CoreRanges) (r0 : RegSpec) (js : List Nat) (x0 : Fld) : (s.setRange n x).bit r0 js x0 = s.bit r0 js x0 := rfl
@[simp] theorem State.byte_setRange (n : Nat) (x : CoreRanges) (i : Nat) : (s.setRange n x).byte i = s.byte i := rfl
@[simp] theorem State.seq_setRange (n : Nat) (x : CoreRanges) (i : Nat) : (s.setRange n x).seq i = s.seq i := rfl
@[simp] theorem State.stepUnit_setRange (n : Nat) (x : CoreRanges) (i : Nat) : (s.setRange n x).stepUnit i = s.stepUnit i := rfl
@[simp] theorem State.group_setRange (n : Nat) (x : CoreRanges) (i j : Nat) : (s.setRange n x).group i j = s.group i j := rfl
@[simp] theorem State.kern_setRange (n : Nat) (x : CoreRanges) (i : Nat) : (s.setRange n x).kern i = s.kern i := rfl
@[simp] theorem State.porter_setRange (n : Nat) (x : CoreRanges) (i : Nat) : (s.setRange n x).porter i = s.porter i := rfl
@[simp] theorem State.chan_setRange (n : Nat) (x : CoreRanges) (i j : Nat) : (s.setRange n x).chan i j = s.chan i j := rfl
@[simp] theorem State.bay_setRange (n : Nat) (x : CoreRanges) (i : Nat) : (s.setRange n x).bay i = s.bay i := rfl
@[simp] theorem State.img_setRange (n : Nat) (x : CoreRanges) (i j : Nat) : (s.setRange n x).img i j = s.img i j := rfl

@[simp] theorem State.reg_setPilot (f : Pilot → Pilot) (r0 : RegSpec) (js : List Nat) : (s.setPilot f).reg r0 js = s.reg r0 js := rfl
@[simp] theorem State.fld_setPilot (f : Pilot → Pilot) (r0 : RegSpec) (js : List Nat) (x0 : Fld) : (s.setPilot f).fld r0 js x0 = s.fld r0 js x0 := rfl
@[simp] theorem State.bit_setPilot (f : Pilot → Pilot) (r0 : RegSpec) (js : List Nat) (x0 : Fld) : (s.setPilot f).bit r0 js x0 = s.bit r0 js x0 := rfl
@[simp] theorem State.byte_setPilot (f : Pilot → Pilot) (i : Nat) : (s.setPilot f).byte i = s.byte i := rfl
@[simp] theorem State.seq_setPilot (f : Pilot → Pilot) (i : Nat) : (s.setPilot f).seq i = s.seq i := rfl
@[simp] theorem State.stepUnit_setPilot (f : Pilot → Pilot) (i : Nat) : (s.setPilot f).stepUnit i = s.stepUnit i := rfl
@[simp] theorem State.group_setPilot (f : Pilot → Pilot) (i j : Nat) : (s.setPilot f).group i j = s.group i j := rfl
@[simp] theorem State.kern_setPilot (f : Pilot → Pilot) (i : Nat) : (s.setPilot f).kern i = s.kern i := rfl
@[simp] theorem State.porter_setPilot (f : Pilot → Pilot) (i : Nat) : (s.setPilot f).porter i = s.porter i := rfl
@[simp] theorem State.chan_setPilot (f : Pilot → Pilot) (i j : Nat) : (s.setPilot f).chan i j = s.chan i j := rfl
@[simp] theorem State.bay_setPilot (f : Pilot → Pilot) (i : Nat) : (s.setPilot f).bay i = s.bay i := rfl
@[simp] theorem State.img_setPilot (f : Pilot → Pilot) (i j : Nat) : (s.setPilot f).img i j = s.img i j := rfl
@[simp] theorem State.range_setPilot (f : Pilot → Pilot) (i : Nat) : (s.setPilot f).range i = s.range i := rfl

@[simp] theorem State.reg_keepPilot (r0 : RegSpec) (js : List Nat) : (s.keepPilot t).reg r0 js = t.reg r0 js := rfl
@[simp] theorem State.fld_keepPilot (r0 : RegSpec) (js : List Nat) (x0 : Fld) : (s.keepPilot t).fld r0 js x0 = t.fld r0 js x0 := rfl
@[simp] theorem State.bit_keepPilot (r0 : RegSpec) (js : List Nat) (x0 : Fld) : (s.keepPilot t).bit r0 js x0 = t.bit r0 js x0 := rfl
@[simp] theorem State.byte_keepPilot (i : Nat) : (s.keepPilot t).byte i = t.byte i := rfl
@[simp] theorem State.seq_keepPilot (i : Nat) : (s.keepPilot t).seq i = t.seq i := rfl
@[simp] theorem State.stepUnit_keepPilot (i : Nat) : (s.keepPilot t).stepUnit i = t.stepUnit i := rfl
@[simp] theorem State.group_keepPilot (i j : Nat) : (s.keepPilot t).group i j = t.group i j := rfl
@[simp] theorem State.kern_keepPilot (i : Nat) : (s.keepPilot t).kern i = t.kern i := rfl
@[simp] theorem State.porter_keepPilot (i : Nat) : (s.keepPilot t).porter i = t.porter i := rfl
@[simp] theorem State.chan_keepPilot (i j : Nat) : (s.keepPilot t).chan i j = t.chan i j := rfl
@[simp] theorem State.bay_keepPilot (i : Nat) : (s.keepPilot t).bay i = t.bay i := rfl
@[simp] theorem State.img_keepPilot (i j : Nat) : (s.keepPilot t).img i j = t.img i j := rfl
@[simp] theorem State.range_keepPilot (i : Nat) : (s.keepPilot t).range i = t.range i := rfl

end Sys2Proof.Machine
end

