-- ==== Sys2Proof/Laws/Tbl.lean ====
section
/-! SUPPORT. Tables: a write is read back, leaves other numbers alone, and keeps the canonical form. -/
namespace Sys2Proof.Machine

theorem Tbl.get_ins_self {α : Type} (t : Tbl α) (d : α) (k : Nat) (v : α) (h : ∀ e ∈ t, e.1 ≠ k) : Tbl.get (Tbl.ins k v t) d k = v := by
  induction t with
  | nil => simp [Tbl.ins, Tbl.get]
  | cons e r ih =>
    have hr : ∀ e ∈ r, e.1 ≠ k := fun x hx => h x (List.mem_cons_of_mem _ hx)
    have he : e.1 ≠ k := h e List.mem_cons_self
    simp only [Tbl.ins]; split
    · simp [Tbl.get]
    · simp [Tbl.get, he, ih hr]

theorem Tbl.get_ins_ne {α : Type} (t : Tbl α) (d : α) (k j : Nat) (v : α) (h : k ≠ j) : Tbl.get (Tbl.ins k v t) d j = Tbl.get t d j := by
  induction t with
  | nil => simp [Tbl.ins, Tbl.get, h]
  | cons e r ih =>
    simp only [Tbl.ins]; split
    · simp [Tbl.get, h]
    · simp [Tbl.get, ih]

theorem Tbl.get_erase_self {α : Type} (t : Tbl α) (d : α) (k : Nat) : Tbl.get (t.filter (fun e => decide (e.1 ≠ k))) d k = d := by
  induction t with
  | nil => rfl
  | cons e r ih =>
    by_cases h : e.1 = k
    · simpa [List.filter_cons, h] using ih
    · simpa [List.filter_cons, h, Tbl.get] using ih

theorem Tbl.get_erase_ne {α : Type} (t : Tbl α) (d : α) (k j : Nat) (h : k ≠ j) : Tbl.get (t.filter (fun e => decide (e.1 ≠ k))) d j = Tbl.get t d j := by
  induction t with
  | nil => rfl
  | cons e r ih =>
    by_cases hk : e.1 = k
    · have hj : e.1 ≠ j := by omega
      simpa [List.filter_cons, hk, h, Tbl.get, hj] using ih
    · have ih' := ih
      simp only [decide_not, ne_eq] at ih'
      simp [List.filter_cons, hk, Tbl.get, ih']

/-- A number that is written reads back. -/
@[simp] theorem Tbl.get_set_self {α : Type} [DecidableEq α] (t : Tbl α) (d : α) (k : Nat) (v : α) : (Tbl.set t d k v).get d k = v := by
  simp only [Tbl.set]; split
  · next h => subst h; exact Tbl.get_erase_self t v k
  · exact Tbl.get_ins_self _ d k v (fun e he => by simpa using (List.mem_filter.mp he).2)

/-- Another number is left alone. -/
theorem Tbl.get_set_ne {α : Type} [DecidableEq α] (t : Tbl α) (d e : α) (k j : Nat) (v : α) (h : k ≠ j) : (Tbl.set t d k v).get e j = t.get e j := by
  simp only [Tbl.set]; split
  · exact Tbl.get_erase_ne t e k j h
  · rw [Tbl.get_ins_ne _ e k j v h]; exact Tbl.get_erase_ne t e k j h

/-- Read after write. -/
theorem Tbl.get_set {α : Type} [DecidableEq α] (t : Tbl α) (d : α) (k j : Nat) (v : α) : (Tbl.set t d k v).get d j = if k = j then v else t.get d j := by
  split
  · next h => subst h; simp
  · next h => exact Tbl.get_set_ne t d d k j v h

/-! ### The canonical form -/

/-- The form said of the list as a whole: numbers rise, and no entry holds the default. -/
theorem Tbl.wf_iff {α : Type} [DecidableEq α] (d : α) (t : Tbl α) : Tbl.wf d t = true ↔ t.Pairwise (fun a b => a.1 < b.1) ∧ ∀ e ∈ t, e.2 ≠ d := by
  induction t with
  | nil => simp [Tbl.wf]
  | cons e r ih =>
    cases r with
    | nil => simp [Tbl.wf]
    | cons f q =>
      simp only [Tbl.wf, Bool.and_eq_true, decide_eq_true_eq, ih]
      constructor
      · rintro ⟨⟨he, hlt⟩, hp, hv⟩
        refine ⟨List.pairwise_cons.mpr ⟨fun b hb => ?_, hp⟩, fun x hx => ?_⟩
        · rcases List.mem_cons.mp hb with rfl | hb
          · exact hlt
          · exact Nat.lt_trans hlt ((List.pairwise_cons.mp hp).1 b hb)
        · rcases List.mem_cons.mp hx with rfl | hx
          · exact he
          · exact hv x hx
      · rintro ⟨hp, hv⟩
        have h := List.pairwise_cons.mp hp
        exact ⟨⟨hv e List.mem_cons_self, h.1 f List.mem_cons_self⟩, h.2, fun x hx => hv x (List.mem_cons_of_mem _ hx)⟩

/-- Dropping entries keeps the form. -/
theorem Tbl.wf_filter {α : Type} [DecidableEq α] (d : α) (t : Tbl α) (p : Nat × α → Bool) (h : Tbl.wf d t = true) : Tbl.wf d (t.filter p) = true := by
  rw [Tbl.wf_iff] at h ⊢
  exact ⟨h.1.filter p, fun e he => h.2 e (List.mem_filter.mp he).1⟩

theorem Tbl.mem_ins {α : Type} (k : Nat) (v : α) (t : Tbl α) (e : Nat × α) (h : e ∈ Tbl.ins k v t) : e = (k, v) ∨ e ∈ t := by
  induction t with
  | nil => simpa [Tbl.ins] using h
  | cons f r ih =>
    simp only [Tbl.ins] at h; split at h
    · simpa using h
    · rcases List.mem_cons.mp h with rfl | h
      · exact .inr List.mem_cons_self
      · exact (ih h).imp id (List.mem_cons_of_mem _)

theorem Tbl.wf_ins {α : Type} [DecidableEq α] (d : α) (k : Nat) (v : α) (t : Tbl α) (h : Tbl.wf d t = true) (hv : v ≠ d) (hk : ∀ e ∈ t, e.1 ≠ k) :
    Tbl.wf d (Tbl.ins k v t) = true := by
  rw [Tbl.wf_iff] at h ⊢
  refine ⟨?_, fun e he => ?_⟩
  · obtain ⟨hp, -⟩ := h
    induction t with
    | nil => simp [Tbl.ins]
    | cons f r ih =>
      have hp' := List.pairwise_cons.mp hp
      simp only [Tbl.ins]; split
      · next hlt =>
        refine List.pairwise_cons.mpr ⟨fun b hb => ?_, hp⟩
        rcases List.mem_cons.mp hb with rfl | hb
        · exact hlt
        · exact Nat.lt_trans hlt (hp'.1 b hb)
      · next hge =>
        refine List.pairwise_cons.mpr ⟨fun b hb => ?_, ih (fun e he => hk e (List.mem_cons_of_mem _ he)) hp'.2⟩
        rcases Tbl.mem_ins k v r b hb with rfl | hb
        · have := hk f List.mem_cons_self
          exact Nat.lt_of_le_of_ne (Nat.le_of_not_lt hge) this
        · exact hp'.1 b hb
  · rcases Tbl.mem_ins k v t e he with rfl | he
    · exact hv
    · exact h.2 e he

/-- A write keeps the form. -/
theorem Tbl.wf_set {α : Type} [DecidableEq α] (d : α) (t : Tbl α) (k : Nat) (v : α) (h : Tbl.wf d t = true) : Tbl.wf d (Tbl.set t d k v) = true := by
  simp only [Tbl.set]; split
  · exact Tbl.wf_filter d t _ h
  · next hv => exact Tbl.wf_ins d k v _ (Tbl.wf_filter d t _ h) hv (fun e he => by simpa using (List.mem_filter.mp he).2)

end Sys2Proof.Machine
end

