-- ==== Sys2Proof/Laws/Ops.lean ====
section
/-! SUPPORT. What the shared operations do, said once: registers read back, memory keeps its canonical form, and how far interrupts,
error records, event flags and accounting reach. -/
namespace Sys2Proof.Machine

/-! ### Registers -/

/-- A register reads back as it was set. -/
@[simp] theorem State.reg_setReg_self (s : State) (r : RegSpec) (is : List Nat) (v : DWord) : (s.setReg r is v).reg r is = v := by
  simp [State.reg, State.setReg]

/-- A register at another offset is left alone. -/
theorem State.reg_setReg_ne (s : State) (r q : RegSpec) (is js : List Nat) (v : DWord) (h : r.addr is ≠ q.addr js) :
    (s.setReg r is v).reg q js = s.reg q js := by
  simp only [State.reg, State.setReg]; exact Tbl.get_set_ne _ _ _ _ _ _ h

/-- A field reads back as it was set. -/
@[simp] theorem State.fld_setFld_self (s : State) (r : RegSpec) (is : List Nat) (f : Fld) (v : Nat) (h : f.lo ≤ f.hi) (hw : f.hi < 64) :
    (s.setFld r is f v).fld r is f = v % 2 ^ (f.hi + 1 - f.lo) := by
  simp [State.fld, State.setFld, fieldOf_withField_self _ _ _ _ h hw]

/-- Another field of the same register is left alone. -/
theorem State.fld_setFld_other (s : State) (r : RegSpec) (is : List Nat) (f g : Fld) (v : Nat) (h : f.lo ≤ f.hi) (hd : g.hi < f.lo ∨ f.hi < g.lo) :
    (s.setFld r is f v).fld r is g = s.fld r is g := by
  simp only [State.fld, State.setFld, State.reg_setReg_self]; exact fieldOf_withField_ne _ _ _ _ _ _ h hd

/-- A field of a register at another offset is left alone. -/
theorem State.fld_setFld_ne (s : State) (r q : RegSpec) (is js : List Nat) (f g : Fld) (v : Nat) (h : r.addr is ≠ q.addr js) :
    (s.setFld r is f v).fld q js g = s.fld q js g := by
  simp only [State.fld, State.setFld, State.reg_setReg_ne _ _ _ _ _ _ h]

theorem State.fld_setReg_ne (s : State) (r q : RegSpec) (is js : List Nat) (g : Fld) (v : DWord) (h : r.addr is ≠ q.addr js) :
    (s.setReg r is v).fld q js g = s.fld q js g := by
  simp only [State.fld, State.reg_setReg_ne _ _ _ _ _ _ h]

/-! ### Memory -/

/-- A byte that is written reads back. -/
@[simp] theorem State.byte_setByte_self (s : State) (a : Nat) (b : Byte) : (s.setByte a b).byte a = b := by
  simp [State.byte, State.setByte]

/-- Every other byte is left alone. -/
theorem State.byte_setByte_ne (s : State) (a c : Nat) (b : Byte) (h : a ≠ c) : (s.setByte a b).byte c = s.byte c := by
  simp only [State.byte, State.setByte]; exact Tbl.get_set_ne _ _ _ _ _ _ h

/-- Bytes outside a write are left alone. -/
theorem State.byte_setBytes_out (s : State) (a c : Nat) (bs : List Byte) (h : c < a ∨ a + bs.length ≤ c) : (s.setBytes a bs).byte c = s.byte c := by
  induction bs generalizing s a with
  | nil => rfl
  | cons b r ih =>
    simp only [List.length_cons] at h
    rw [State.setBytes, ih _ _ (by omega)]
    exact State.byte_setByte_ne _ _ _ _ (by omega)

/-- Bytes of a write read back. -/
theorem State.byte_setBytes_in (s : State) (a i : Nat) (bs : List Byte) (h : i < bs.length) : (s.setBytes a bs).byte (a + i) = bs[i] := by
  induction bs generalizing s a i with
  | nil => simp at h
  | cons b r ih =>
    cases i with
    | zero => rw [State.setBytes, State.byte_setBytes_out _ _ _ _ (by omega)]; simp
    | succ k =>
      have hk : k < r.length := by simpa using h
      have := ih (s.setByte a b) (a + 1) k hk
      rw [State.setBytes]; simpa [Nat.add_assoc, Nat.add_comm 1 k] using this

theorem State.setByte_wf (s : State) (a : Nat) (b : Byte) (h : Memory.wf s.mem = true) : Memory.wf (s.setByte a b).mem = true := Tbl.wf_set _ _ _ _ h

theorem State.setBytes_wf (s : State) (a : Nat) (bs : List Byte) (h : Memory.wf s.mem = true) : Memory.wf (s.setBytes a bs).mem = true := by
  induction bs generalizing s a with
  | nil => exact h
  | cons b r ih => exact ih _ _ (State.setByte_wf s a b h)

theorem State.markWord_mem' (s : State) (l : List Nat) (f : State → Nat → State) (hf : ∀ s i, (f s i).mem = s.mem) : (l.foldl f s).mem = s.mem := by
  induction l generalizing s with
  | nil => rfl
  | cons x r ih => rw [List.foldl_cons, ih, hf]

/-- Poison marks leave memory alone. -/
@[simp] theorem State.markWrite_mem (s : State) (a n : Nat) (p : Bool) : (s.markWrite a n p).mem = s.mem := by
  unfold State.markWrite; split
  · rfl
  · exact State.markWord_mem' s _ _ (fun s i => by dsimp only; split; · rfl
                                                   · split <;> rfl)

/-- A Pantry write keeps the canonical form. -/
theorem State.setPantry_wf (s : State) (n off : Nat) (bs : List Byte) (p : Bool) (h : Memory.wf s.mem = true) : Memory.wf (s.setPantry n off bs p).mem = true := by
  rw [State.setPantry, State.markWrite_mem]; exact State.setBytes_wf _ _ _ h

/-- Memory whose cells are dropped by address keeps the canonical form. -/
theorem mem_filter_wf (m : List Host.Cell) (p : Host.Cell → Bool) (h : Memory.wf m = true) : Memory.wf (m.filter p) = true := Tbl.wf_filter _ _ _ h

/-! ### Interrupts, records, events, accounting: everything they can change -/

/-- `t` is `s` but for registers and MSI-X messages and pending bits. -/
def SameButRegs (s t : State) : Prop := t = { s with regs := t.regs, msixPend := t.msixPend, msixSent := t.msixSent }

theorem SameButRegs.refl (s : State) : SameButRegs s s := rfl

theorem SameButRegs.trans {s t u : State} (h : SameButRegs s t) (k : SameButRegs t u) : SameButRegs s u := by
  unfold SameButRegs at *; rw [k, h]

theorem State.setReg_same (s : State) (r : RegSpec) (is : List Nat) (v : DWord) : SameButRegs s (s.setReg r is v) := rfl
theorem State.setFld_same (s : State) (r : RegSpec) (is : List Nat) (f : Fld) (v : Nat) : SameButRegs s (s.setFld r is f v) := rfl
theorem State.bump_same (s : State) (r : RegSpec) (is : List Nat) (f : Fld) (n : Nat) : SameButRegs s (s.bump r is f n) := rfl

theorem State.raise_same (s : State) (f v : Nat) : SameButRegs s (s.raise f v) := by
  unfold State.raise; split <;> rfl

theorem State.when_same (s : State) (c : Bool) (f : State → State) (h : SameButRegs s (f s)) : SameButRegs s (s.when c f) := by
  unfold State.when; split
  · exact h
  · rfl

theorem State.setWords_same (s : State) (r : RegSpec) (pre : List Nat) (w : Nat) (vs : List Nat) : SameButRegs s (s.setWords r pre w vs) := by
  induction vs generalizing s w with
  | nil => rfl
  | cons v r ih => exact (State.setReg_same _ _ _ _).trans (ih _ _)

theorem State.countRecord_same (s : State) (f : Fld) : SameButRegs s (s.countRecord f) := by
  unfold State.countRecord; dsimp only; split
  · exact ((State.setFld_same _ _ _ _ _).trans (State.setFld_same _ _ _ _ _)).trans (State.raise_same _ _ _)
  · exact State.setFld_same _ _ _ _ _

/-- An error record changes registers and interrupts alone. -/
theorem State.log_same (s : State) (r : ErrRec) : SameButRegs s (s.log r) := by
  unfold State.log; dsimp only
  refine SameButRegs.trans ?_ (State.when_same _ _ _ (by exact State.raise_same _ _ _))
  refine SameButRegs.trans ?_ (State.countRecord_same _ _)
  refine SameButRegs.trans ?_ (State.when_same _ _ _ (by exact (State.setWords_same _ _ _ _ _).trans (State.setFld_same _ _ _ _ _)))
  refine SameButRegs.trans ?_ (State.setFld_same _ _ _ _ _)
  refine SameButRegs.trans ?_ (State.setWords_same _ _ _ _ _)
  exact State.when_same _ _ _ (by exact (State.bump_same _ _ _ _ _).trans (State.setFld_same _ _ _ _ _))

theorem State.refuseAt_same (s : State) (w : Writer) (own cause reason : Nat) : SameButRegs s (s.refuseAt w own cause reason) := State.log_same _ _
theorem State.refuse_same (s : State) (w : Writer) (off cause reason : Nat) : SameButRegs s (s.refuse w off cause reason) := State.log_same _ _
theorem State.logCore_same (s : State) (n : Nat) (r : ErrRec) : SameButRegs s (s.logCore n r) := State.log_same _ _

/-- Event flags change registers and interrupts alone. -/
theorem State.events_same (s : State) (r : RegSpec) (is : List Nat) (en bits vec : Nat) : SameButRegs s (s.events r is en bits vec) := by
  unfold State.events; dsimp only
  exact (State.setReg_same _ _ _ _).trans (State.when_same _ _ _ (State.raise_same _ _ _))

theorem State.bayEvent_same (s : State) (b bits : Nat) : SameButRegs s (s.bayEvent b bits) := State.events_same _ _ _ _ _ _

theorem State.satCount_same (s : State) (r : RegSpec) (is : List Nat) (b n : Nat) : SameButRegs s (s.satCount r is b n) := by
  unfold State.satCount; dsimp only; split
  · exact (State.setReg_same _ _ _ _).trans (State.bayEvent_same _ _ _)
  · exact State.setReg_same _ _ _ _

/-- Accounting changes registers and interrupts alone. -/
theorem State.account_same (s : State) (b : Option Nat) (r ri : RegSpec) (n : Nat) : SameButRegs s (s.account b r ri n) := by
  unfold State.account; split
  · split
    · rfl
    · exact (State.satCount_same _ _ _ _ _).trans (State.satCount_same _ _ _ _ _)
  · rfl

theorem State.countLrd_same (s : State) (b : Option Nat) (n : Nat) : SameButRegs s (s.countLrd b n) := State.account_same _ _ _ _ _

/-! ### The same, field by field -/

theorem SameButRegs.field {α : Type} {s t : State} (h : SameButRegs s t) (g : State → α) :
    g t = g { s with regs := t.regs, msixPend := t.msixPend, msixSent := t.msixSent } := congrArg g h

@[simp] theorem State.raise_pending (s : State) (f v : Nat) : (s.raise f v).pending = s.pending := (s.raise_same f v).field State.pending
@[simp] theorem State.raise_free (s : State) (f v : Nat) : (s.raise f v).free = s.free := (s.raise_same f v).field State.free
@[simp] theorem State.raise_mem (s : State) (f v : Nat) : (s.raise f v).mem = s.mem := (s.raise_same f v).field State.mem
@[simp] theorem State.raise_poison (s : State) (f v : Nat) : (s.raise f v).poison = s.poison := (s.raise_same f v).field State.poison
@[simp] theorem State.raise_msixOpen (s : State) (f v : Nat) : (s.raise f v).msixOpen = s.msixOpen := (s.raise_same f v).field State.msixOpen
@[simp] theorem State.raise_seqs (s : State) (f v : Nat) : (s.raise f v).seqs = s.seqs := (s.raise_same f v).field State.seqs
@[simp] theorem State.raise_steps (s : State) (f v : Nat) : (s.raise f v).steps = s.steps := (s.raise_same f v).field State.steps
@[simp] theorem State.raise_groups (s : State) (f v : Nat) : (s.raise f v).groups = s.groups := (s.raise_same f v).field State.groups
@[simp] theorem State.raise_kernels (s : State) (f v : Nat) : (s.raise f v).kernels = s.kernels := (s.raise_same f v).field State.kernels
@[simp] theorem State.raise_porters (s : State) (f v : Nat) : (s.raise f v).porters = s.porters := (s.raise_same f v).field State.porters
@[simp] theorem State.raise_bays (s : State) (f v : Nat) : (s.raise f v).bays = s.bays := (s.raise_same f v).field State.bays
@[simp] theorem State.raise_imgs (s : State) (f v : Nat) : (s.raise f v).imgs = s.imgs := (s.raise_same f v).field State.imgs
@[simp] theorem State.raise_serving (s : State) (f v : Nat) : (s.raise f v).serving = s.serving := (s.raise_same f v).field State.serving
@[simp] theorem State.raise_ranges (s : State) (f v : Nat) : (s.raise f v).ranges = s.ranges := (s.raise_same f v).field State.ranges
@[simp] theorem State.raise_larder (s : State) (f v : Nat) : (s.raise f v).larder = s.larder := (s.raise_same f v).field State.larder
@[simp] theorem State.raise_cups (s : State) (f v : Nat) : (s.raise f v).cups = s.cups := (s.raise_same f v).field State.cups
@[simp] theorem State.raise_shelves (s : State) (f v : Nat) : (s.raise f v).shelves = s.shelves := (s.raise_same f v).field State.shelves
@[simp] theorem State.raise_cellar (s : State) (f v : Nat) : (s.raise f v).cellar = s.cellar := (s.raise_same f v).field State.cellar
@[simp] theorem State.raise_keyOwner (s : State) (f v : Nat) : (s.raise f v).keyOwner = s.keyOwner := (s.raise_same f v).field State.keyOwner
@[simp] theorem State.raise_keyGen (s : State) (f v : Nat) : (s.raise f v).keyGen = s.keyGen := (s.raise_same f v).field State.keyGen
@[simp] theorem State.raise_homes (s : State) (f v : Nat) : (s.raise f v).homes = s.homes := (s.raise_same f v).field State.homes
@[simp] theorem State.raise_net (s : State) (f v : Nat) : (s.raise f v).net = s.net := (s.raise_same f v).field State.net
@[simp] theorem State.raise_slices (s : State) (f v : Nat) : (s.raise f v).slices = s.slices := (s.raise_same f v).field State.slices
@[simp] theorem State.raise_tlbs (s : State) (f v : Nat) : (s.raise f v).tlbs = s.tlbs := (s.raise_same f v).field State.tlbs
@[simp] theorem State.raise_rangeOps (s : State) (f v : Nat) : (s.raise f v).rangeOps = s.rangeOps := (s.raise_same f v).field State.rangeOps
@[simp] theorem State.raise_larderCtl (s : State) (f v : Nat) : (s.raise f v).larderCtl = s.larderCtl := (s.raise_same f v).field State.larderCtl
@[simp] theorem State.raise_replays (s : State) (f v : Nat) : (s.raise f v).replays = s.replays := (s.raise_same f v).field State.replays
@[simp] theorem State.raise_tallySet (s : State) (f v : Nat) : (s.raise f v).tallySet = s.tallySet := (s.raise_same f v).field State.tallySet
@[simp] theorem State.raise_heldAdds (s : State) (f v : Nat) : (s.raise f v).heldAdds = s.heldAdds := (s.raise_same f v).field State.heldAdds
@[simp] theorem State.raise_heldWrites (s : State) (f v : Nat) : (s.raise f v).heldWrites = s.heldWrites := (s.raise_same f v).field State.heldWrites
@[simp] theorem State.raise_wakeReq (s : State) (f v : Nat) : (s.raise f v).wakeReq = s.wakeReq := (s.raise_same f v).field State.wakeReq
@[simp] theorem State.raise_critR (s : State) (f v : Nat) : (s.raise f v).critR = s.critR := (s.raise_same f v).field State.critR
@[simp] theorem State.raise_critA (s : State) (f v : Nat) : (s.raise f v).critA = s.critA := (s.raise_same f v).field State.critA
@[simp] theorem State.raise_hatOut (s : State) (f v : Nat) : (s.raise f v).hatOut = s.hatOut := (s.raise_same f v).field State.hatOut
@[simp] theorem State.raise_hatQueue (s : State) (f v : Nat) : (s.raise f v).hatQueue = s.hatQueue := (s.raise_same f v).field State.hatQueue
@[simp] theorem State.raise_hatLost (s : State) (f v : Nat) : (s.raise f v).hatLost = s.hatLost := (s.raise_same f v).field State.hatLost
@[simp] theorem State.raise_chuteOut (s : State) (f v : Nat) : (s.raise f v).chuteOut = s.chuteOut := (s.raise_same f v).field State.chuteOut
@[simp] theorem State.raise_chuteLive (s : State) (f v : Nat) : (s.raise f v).chuteLive = s.chuteLive := (s.raise_same f v).field State.chuteLive
@[simp] theorem State.raise_chuteIn (s : State) (f v : Nat) : (s.raise f v).chuteIn = s.chuteIn := (s.raise_same f v).field State.chuteIn
@[simp] theorem State.raise_chuteReds (s : State) (f v : Nat) : (s.raise f v).chuteReds = s.chuteReds := (s.raise_same f v).field State.chuteReds
@[simp] theorem State.raise_chuteFwd (s : State) (f v : Nat) : (s.raise f v).chuteFwd = s.chuteFwd := (s.raise_same f v).field State.chuteFwd
@[simp] theorem State.raise_ports (s : State) (f v : Nat) : (s.raise f v).ports = s.ports := (s.raise_same f v).field State.ports
@[simp] theorem State.raise_origins (s : State) (f v : Nat) : (s.raise f v).origins = s.origins := (s.raise_same f v).field State.origins
@[simp] theorem State.raise_transit (s : State) (f v : Nat) : (s.raise f v).transit = s.transit := (s.raise_same f v).field State.transit
@[simp] theorem State.raise_joists (s : State) (f v : Nat) : (s.raise f v).joists = s.joists := (s.raise_same f v).field State.joists
@[simp] theorem State.raise_joistLinks (s : State) (f v : Nat) : (s.raise f v).joistLinks = s.joistLinks := (s.raise_same f v).field State.joistLinks
@[simp] theorem State.raise_lockerLost (s : State) (f v : Nat) : (s.raise f v).lockerLost = s.lockerLost := (s.raise_same f v).field State.lockerLost
@[simp] theorem State.raise_joistIn (s : State) (f v : Nat) : (s.raise f v).joistIn = s.joistIn := (s.raise_same f v).field State.joistIn
@[simp] theorem State.raise_joistOut (s : State) (f v : Nat) : (s.raise f v).joistOut = s.joistOut := (s.raise_same f v).field State.joistOut
@[simp] theorem State.raise_joistLive (s : State) (f v : Nat) : (s.raise f v).joistLive = s.joistLive := (s.raise_same f v).field State.joistLive
@[simp] theorem State.raise_pilot (s : State) (f v : Nat) : (s.raise f v).pilot = s.pilot := (s.raise_same f v).field State.pilot
@[simp] theorem State.raise_cellarCtl (s : State) (f v : Nat) : (s.raise f v).cellarCtl = s.cellarCtl := (s.raise_same f v).field State.cellarCtl
@[simp] theorem State.raise_clocks (s : State) (f v : Nat) : (s.raise f v).clocks = s.clocks := (s.raise_same f v).field State.clocks
@[simp] theorem State.raise_power (s : State) (f v : Nat) : (s.raise f v).power = s.power := (s.raise_same f v).field State.power
@[simp] theorem State.raise_spdm (s : State) (f v : Nat) : (s.raise f v).spdm = s.spdm := (s.raise_same f v).field State.spdm
@[simp] theorem State.raise_ide (s : State) (f v : Nat) : (s.raise f v).ide = s.ide := (s.raise_same f v).field State.ide
@[simp] theorem State.raise_hostIn (s : State) (f v : Nat) : (s.raise f v).hostIn = s.hostIn := (s.raise_same f v).field State.hostIn
@[simp] theorem State.raise_replies (s : State) (f v : Nat) : (s.raise f v).replies = s.replies := (s.raise_same f v).field State.replies
@[simp] theorem State.raise_apsel (s : State) (f v : Nat) : (s.raise f v).apsel = s.apsel := (s.raise_same f v).field State.apsel
@[simp] theorem State.raise_msixTable (s : State) (f v : Nat) : (s.raise f v).msixTable = s.msixTable := (s.raise_same f v).field State.msixTable
@[simp] theorem State.raise_bar2 (s : State) (f v : Nat) : (s.raise f v).bar2 = s.bar2 := (s.raise_same f v).field State.bar2
@[simp] theorem State.raise_hostOut (s : State) (f v : Nat) : (s.raise f v).hostOut = s.hostOut := (s.raise_same f v).field State.hostOut
@[simp] theorem State.raise_atsOn (s : State) (f v : Nat) : (s.raise f v).atsOn = s.atsOn := (s.raise_same f v).field State.atsOn
@[simp] theorem State.raise_atc (s : State) (f v : Nat) : (s.raise f v).atc = s.atc := (s.raise_same f v).field State.atc
@[simp] theorem State.raise_atsInval (s : State) (f v : Nat) : (s.raise f v).atsInval = s.atsInval := (s.raise_same f v).field State.atsInval
@[simp] theorem State.raise_dropTold (s : State) (f v : Nat) : (s.raise f v).dropTold = s.dropTold := (s.raise_same f v).field State.dropTold
@[simp] theorem State.raise_migSecret (s : State) (f v : Nat) : (s.raise f v).migSecret = s.migSecret := (s.raise_same f v).field State.migSecret
@[simp] theorem State.raise_flr (s : State) (f v : Nat) : (s.raise f v).flr = s.flr := (s.raise_same f v).field State.flr
@[simp] theorem State.raise_nonceLive (s : State) (f v : Nat) : (s.raise f v).nonceLive = s.nonceLive := (s.raise_same f v).field State.nonceLive
@[simp] theorem State.raise_vfOn (s : State) (f v : Nat) : (s.raise f v).vfOn = s.vfOn := (s.raise_same f v).field State.vfOn
@[simp] theorem State.raise_vfReady (s : State) (f v : Nat) : (s.raise f v).vfReady = s.vfReady := (s.raise_same f v).field State.vfReady
@[simp] theorem State.raise_measLog (s : State) (f v : Nat) : (s.raise f v).measLog = s.measLog := (s.raise_same f v).field State.measLog

@[simp] theorem State.log_pending (s : State) (r : ErrRec) : (s.log r).pending = s.pending := (s.log_same r).field State.pending
@[simp] theorem State.log_free (s : State) (r : ErrRec) : (s.log r).free = s.free := (s.log_same r).field State.free
@[simp] theorem State.log_mem (s : State) (r : ErrRec) : (s.log r).mem = s.mem := (s.log_same r).field State.mem
@[simp] theorem State.log_poison (s : State) (r : ErrRec) : (s.log r).poison = s.poison := (s.log_same r).field State.poison
@[simp] theorem State.log_msixOpen (s : State) (r : ErrRec) : (s.log r).msixOpen = s.msixOpen := (s.log_same r).field State.msixOpen
@[simp] theorem State.log_seqs (s : State) (r : ErrRec) : (s.log r).seqs = s.seqs := (s.log_same r).field State.seqs
@[simp] theorem State.log_steps (s : State) (r : ErrRec) : (s.log r).steps = s.steps := (s.log_same r).field State.steps
@[simp] theorem State.log_groups (s : State) (r : ErrRec) : (s.log r).groups = s.groups := (s.log_same r).field State.groups
@[simp] theorem State.log_kernels (s : State) (r : ErrRec) : (s.log r).kernels = s.kernels := (s.log_same r).field State.kernels
@[simp] theorem State.log_porters (s : State) (r : ErrRec) : (s.log r).porters = s.porters := (s.log_same r).field State.porters
@[simp] theorem State.log_bays (s : State) (r : ErrRec) : (s.log r).bays = s.bays := (s.log_same r).field State.bays
@[simp] theorem State.log_imgs (s : State) (r : ErrRec) : (s.log r).imgs = s.imgs := (s.log_same r).field State.imgs
@[simp] theorem State.log_serving (s : State) (r : ErrRec) : (s.log r).serving = s.serving := (s.log_same r).field State.serving
@[simp] theorem State.log_ranges (s : State) (r : ErrRec) : (s.log r).ranges = s.ranges := (s.log_same r).field State.ranges
@[simp] theorem State.log_larder (s : State) (r : ErrRec) : (s.log r).larder = s.larder := (s.log_same r).field State.larder
@[simp] theorem State.log_cups (s : State) (r : ErrRec) : (s.log r).cups = s.cups := (s.log_same r).field State.cups
@[simp] theorem State.log_shelves (s : State) (r : ErrRec) : (s.log r).shelves = s.shelves := (s.log_same r).field State.shelves
@[simp] theorem State.log_cellar (s : State) (r : ErrRec) : (s.log r).cellar = s.cellar := (s.log_same r).field State.cellar
@[simp] theorem State.log_keyOwner (s : State) (r : ErrRec) : (s.log r).keyOwner = s.keyOwner := (s.log_same r).field State.keyOwner
@[simp] theorem State.log_keyGen (s : State) (r : ErrRec) : (s.log r).keyGen = s.keyGen := (s.log_same r).field State.keyGen
@[simp] theorem State.log_homes (s : State) (r : ErrRec) : (s.log r).homes = s.homes := (s.log_same r).field State.homes
@[simp] theorem State.log_net (s : State) (r : ErrRec) : (s.log r).net = s.net := (s.log_same r).field State.net
@[simp] theorem State.log_slices (s : State) (r : ErrRec) : (s.log r).slices = s.slices := (s.log_same r).field State.slices
@[simp] theorem State.log_tlbs (s : State) (r : ErrRec) : (s.log r).tlbs = s.tlbs := (s.log_same r).field State.tlbs
@[simp] theorem State.log_rangeOps (s : State) (r : ErrRec) : (s.log r).rangeOps = s.rangeOps := (s.log_same r).field State.rangeOps
@[simp] theorem State.log_larderCtl (s : State) (r : ErrRec) : (s.log r).larderCtl = s.larderCtl := (s.log_same r).field State.larderCtl
@[simp] theorem State.log_replays (s : State) (r : ErrRec) : (s.log r).replays = s.replays := (s.log_same r).field State.replays
@[simp] theorem State.log_tallySet (s : State) (r : ErrRec) : (s.log r).tallySet = s.tallySet := (s.log_same r).field State.tallySet
@[simp] theorem State.log_heldAdds (s : State) (r : ErrRec) : (s.log r).heldAdds = s.heldAdds := (s.log_same r).field State.heldAdds
@[simp] theorem State.log_heldWrites (s : State) (r : ErrRec) : (s.log r).heldWrites = s.heldWrites := (s.log_same r).field State.heldWrites
@[simp] theorem State.log_wakeReq (s : State) (r : ErrRec) : (s.log r).wakeReq = s.wakeReq := (s.log_same r).field State.wakeReq
@[simp] theorem State.log_critR (s : State) (r : ErrRec) : (s.log r).critR = s.critR := (s.log_same r).field State.critR
@[simp] theorem State.log_critA (s : State) (r : ErrRec) : (s.log r).critA = s.critA := (s.log_same r).field State.critA
@[simp] theorem State.log_hatOut (s : State) (r : ErrRec) : (s.log r).hatOut = s.hatOut := (s.log_same r).field State.hatOut
@[simp] theorem State.log_hatQueue (s : State) (r : ErrRec) : (s.log r).hatQueue = s.hatQueue := (s.log_same r).field State.hatQueue
@[simp] theorem State.log_hatLost (s : State) (r : ErrRec) : (s.log r).hatLost = s.hatLost := (s.log_same r).field State.hatLost
@[simp] theorem State.log_chuteOut (s : State) (r : ErrRec) : (s.log r).chuteOut = s.chuteOut := (s.log_same r).field State.chuteOut
@[simp] theorem State.log_chuteLive (s : State) (r : ErrRec) : (s.log r).chuteLive = s.chuteLive := (s.log_same r).field State.chuteLive
@[simp] theorem State.log_chuteIn (s : State) (r : ErrRec) : (s.log r).chuteIn = s.chuteIn := (s.log_same r).field State.chuteIn
@[simp] theorem State.log_chuteReds (s : State) (r : ErrRec) : (s.log r).chuteReds = s.chuteReds := (s.log_same r).field State.chuteReds
@[simp] theorem State.log_chuteFwd (s : State) (r : ErrRec) : (s.log r).chuteFwd = s.chuteFwd := (s.log_same r).field State.chuteFwd
@[simp] theorem State.log_ports (s : State) (r : ErrRec) : (s.log r).ports = s.ports := (s.log_same r).field State.ports
@[simp] theorem State.log_origins (s : State) (r : ErrRec) : (s.log r).origins = s.origins := (s.log_same r).field State.origins
@[simp] theorem State.log_transit (s : State) (r : ErrRec) : (s.log r).transit = s.transit := (s.log_same r).field State.transit
@[simp] theorem State.log_joists (s : State) (r : ErrRec) : (s.log r).joists = s.joists := (s.log_same r).field State.joists
@[simp] theorem State.log_joistLinks (s : State) (r : ErrRec) : (s.log r).joistLinks = s.joistLinks := (s.log_same r).field State.joistLinks
@[simp] theorem State.log_lockerLost (s : State) (r : ErrRec) : (s.log r).lockerLost = s.lockerLost := (s.log_same r).field State.lockerLost
@[simp] theorem State.log_joistIn (s : State) (r : ErrRec) : (s.log r).joistIn = s.joistIn := (s.log_same r).field State.joistIn
@[simp] theorem State.log_joistOut (s : State) (r : ErrRec) : (s.log r).joistOut = s.joistOut := (s.log_same r).field State.joistOut
@[simp] theorem State.log_joistLive (s : State) (r : ErrRec) : (s.log r).joistLive = s.joistLive := (s.log_same r).field State.joistLive
@[simp] theorem State.log_pilot (s : State) (r : ErrRec) : (s.log r).pilot = s.pilot := (s.log_same r).field State.pilot
@[simp] theorem State.log_cellarCtl (s : State) (r : ErrRec) : (s.log r).cellarCtl = s.cellarCtl := (s.log_same r).field State.cellarCtl
@[simp] theorem State.log_clocks (s : State) (r : ErrRec) : (s.log r).clocks = s.clocks := (s.log_same r).field State.clocks
@[simp] theorem State.log_power (s : State) (r : ErrRec) : (s.log r).power = s.power := (s.log_same r).field State.power
@[simp] theorem State.log_spdm (s : State) (r : ErrRec) : (s.log r).spdm = s.spdm := (s.log_same r).field State.spdm
@[simp] theorem State.log_ide (s : State) (r : ErrRec) : (s.log r).ide = s.ide := (s.log_same r).field State.ide
@[simp] theorem State.log_hostIn (s : State) (r : ErrRec) : (s.log r).hostIn = s.hostIn := (s.log_same r).field State.hostIn
@[simp] theorem State.log_replies (s : State) (r : ErrRec) : (s.log r).replies = s.replies := (s.log_same r).field State.replies
@[simp] theorem State.log_apsel (s : State) (r : ErrRec) : (s.log r).apsel = s.apsel := (s.log_same r).field State.apsel
@[simp] theorem State.log_msixTable (s : State) (r : ErrRec) : (s.log r).msixTable = s.msixTable := (s.log_same r).field State.msixTable
@[simp] theorem State.log_bar2 (s : State) (r : ErrRec) : (s.log r).bar2 = s.bar2 := (s.log_same r).field State.bar2
@[simp] theorem State.log_hostOut (s : State) (r : ErrRec) : (s.log r).hostOut = s.hostOut := (s.log_same r).field State.hostOut
@[simp] theorem State.log_atsOn (s : State) (r : ErrRec) : (s.log r).atsOn = s.atsOn := (s.log_same r).field State.atsOn
@[simp] theorem State.log_atc (s : State) (r : ErrRec) : (s.log r).atc = s.atc := (s.log_same r).field State.atc
@[simp] theorem State.log_atsInval (s : State) (r : ErrRec) : (s.log r).atsInval = s.atsInval := (s.log_same r).field State.atsInval
@[simp] theorem State.log_dropTold (s : State) (r : ErrRec) : (s.log r).dropTold = s.dropTold := (s.log_same r).field State.dropTold
@[simp] theorem State.log_migSecret (s : State) (r : ErrRec) : (s.log r).migSecret = s.migSecret := (s.log_same r).field State.migSecret
@[simp] theorem State.log_flr (s : State) (r : ErrRec) : (s.log r).flr = s.flr := (s.log_same r).field State.flr
@[simp] theorem State.log_nonceLive (s : State) (r : ErrRec) : (s.log r).nonceLive = s.nonceLive := (s.log_same r).field State.nonceLive
@[simp] theorem State.log_vfOn (s : State) (r : ErrRec) : (s.log r).vfOn = s.vfOn := (s.log_same r).field State.vfOn
@[simp] theorem State.log_vfReady (s : State) (r : ErrRec) : (s.log r).vfReady = s.vfReady := (s.log_same r).field State.vfReady
@[simp] theorem State.log_measLog (s : State) (r : ErrRec) : (s.log r).measLog = s.measLog := (s.log_same r).field State.measLog

@[simp] theorem State.refuse_pending (s : State) (w : Writer) (off cause reason : Nat) : (s.refuse w off cause reason).pending = s.pending := (s.refuse_same w off cause reason).field State.pending
@[simp] theorem State.refuse_free (s : State) (w : Writer) (off cause reason : Nat) : (s.refuse w off cause reason).free = s.free := (s.refuse_same w off cause reason).field State.free
@[simp] theorem State.refuse_mem (s : State) (w : Writer) (off cause reason : Nat) : (s.refuse w off cause reason).mem = s.mem := (s.refuse_same w off cause reason).field State.mem
@[simp] theorem State.refuse_poison (s : State) (w : Writer) (off cause reason : Nat) : (s.refuse w off cause reason).poison = s.poison := (s.refuse_same w off cause reason).field State.poison
@[simp] theorem State.refuse_msixOpen (s : State) (w : Writer) (off cause reason : Nat) : (s.refuse w off cause reason).msixOpen = s.msixOpen := (s.refuse_same w off cause reason).field State.msixOpen
@[simp] theorem State.refuse_seqs (s : State) (w : Writer) (off cause reason : Nat) : (s.refuse w off cause reason).seqs = s.seqs := (s.refuse_same w off cause reason).field State.seqs
@[simp] theorem State.refuse_steps (s : State) (w : Writer) (off cause reason : Nat) : (s.refuse w off cause reason).steps = s.steps := (s.refuse_same w off cause reason).field State.steps
@[simp] theorem State.refuse_groups (s : State) (w : Writer) (off cause reason : Nat) : (s.refuse w off cause reason).groups = s.groups := (s.refuse_same w off cause reason).field State.groups
@[simp] theorem State.refuse_kernels (s : State) (w : Writer) (off cause reason : Nat) : (s.refuse w off cause reason).kernels = s.kernels := (s.refuse_same w off cause reason).field State.kernels
@[simp] theorem State.refuse_porters (s : State) (w : Writer) (off cause reason : Nat) : (s.refuse w off cause reason).porters = s.porters := (s.refuse_same w off cause reason).field State.porters
@[simp] theorem State.refuse_bays (s : State) (w : Writer) (off cause reason : Nat) : (s.refuse w off cause reason).bays = s.bays := (s.refuse_same w off cause reason).field State.bays
@[simp] theorem State.refuse_imgs (s : State) (w : Writer) (off cause reason : Nat) : (s.refuse w off cause reason).imgs = s.imgs := (s.refuse_same w off cause reason).field State.imgs
@[simp] theorem State.refuse_serving (s : State) (w : Writer) (off cause reason : Nat) : (s.refuse w off cause reason).serving = s.serving := (s.refuse_same w off cause reason).field State.serving
@[simp] theorem State.refuse_ranges (s : State) (w : Writer) (off cause reason : Nat) : (s.refuse w off cause reason).ranges = s.ranges := (s.refuse_same w off cause reason).field State.ranges
@[simp] theorem State.refuse_larder (s : State) (w : Writer) (off cause reason : Nat) : (s.refuse w off cause reason).larder = s.larder := (s.refuse_same w off cause reason).field State.larder
@[simp] theorem State.refuse_cups (s : State) (w : Writer) (off cause reason : Nat) : (s.refuse w off cause reason).cups = s.cups := (s.refuse_same w off cause reason).field State.cups
@[simp] theorem State.refuse_shelves (s : State) (w : Writer) (off cause reason : Nat) : (s.refuse w off cause reason).shelves = s.shelves := (s.refuse_same w off cause reason).field State.shelves
@[simp] theorem State.refuse_cellar (s : State) (w : Writer) (off cause reason : Nat) : (s.refuse w off cause reason).cellar = s.cellar := (s.refuse_same w off cause reason).field State.cellar
@[simp] theorem State.refuse_keyOwner (s : State) (w : Writer) (off cause reason : Nat) : (s.refuse w off cause reason).keyOwner = s.keyOwner := (s.refuse_same w off cause reason).field State.keyOwner
@[simp] theorem State.refuse_keyGen (s : State) (w : Writer) (off cause reason : Nat) : (s.refuse w off cause reason).keyGen = s.keyGen := (s.refuse_same w off cause reason).field State.keyGen
@[simp] theorem State.refuse_homes (s : State) (w : Writer) (off cause reason : Nat) : (s.refuse w off cause reason).homes = s.homes := (s.refuse_same w off cause reason).field State.homes
@[simp] theorem State.refuse_net (s : State) (w : Writer) (off cause reason : Nat) : (s.refuse w off cause reason).net = s.net := (s.refuse_same w off cause reason).field State.net
@[simp] theorem State.refuse_slices (s : State) (w : Writer) (off cause reason : Nat) : (s.refuse w off cause reason).slices = s.slices := (s.refuse_same w off cause reason).field State.slices
@[simp] theorem State.refuse_tlbs (s : State) (w : Writer) (off cause reason : Nat) : (s.refuse w off cause reason).tlbs = s.tlbs := (s.refuse_same w off cause reason).field State.tlbs
@[simp] theorem State.refuse_rangeOps (s : State) (w : Writer) (off cause reason : Nat) : (s.refuse w off cause reason).rangeOps = s.rangeOps := (s.refuse_same w off cause reason).field State.rangeOps
@[simp] theorem State.refuse_larderCtl (s : State) (w : Writer) (off cause reason : Nat) : (s.refuse w off cause reason).larderCtl = s.larderCtl := (s.refuse_same w off cause reason).field State.larderCtl
@[simp] theorem State.refuse_replays (s : State) (w : Writer) (off cause reason : Nat) : (s.refuse w off cause reason).replays = s.replays := (s.refuse_same w off cause reason).field State.replays
@[simp] theorem State.refuse_tallySet (s : State) (w : Writer) (off cause reason : Nat) : (s.refuse w off cause reason).tallySet = s.tallySet := (s.refuse_same w off cause reason).field State.tallySet
@[simp] theorem State.refuse_heldAdds (s : State) (w : Writer) (off cause reason : Nat) : (s.refuse w off cause reason).heldAdds = s.heldAdds := (s.refuse_same w off cause reason).field State.heldAdds
@[simp] theorem State.refuse_heldWrites (s : State) (w : Writer) (off cause reason : Nat) : (s.refuse w off cause reason).heldWrites = s.heldWrites := (s.refuse_same w off cause reason).field State.heldWrites
@[simp] theorem State.refuse_wakeReq (s : State) (w : Writer) (off cause reason : Nat) : (s.refuse w off cause reason).wakeReq = s.wakeReq := (s.refuse_same w off cause reason).field State.wakeReq
@[simp] theorem State.refuse_critR (s : State) (w : Writer) (off cause reason : Nat) : (s.refuse w off cause reason).critR = s.critR := (s.refuse_same w off cause reason).field State.critR
@[simp] theorem State.refuse_critA (s : State) (w : Writer) (off cause reason : Nat) : (s.refuse w off cause reason).critA = s.critA := (s.refuse_same w off cause reason).field State.critA
@[simp] theorem State.refuse_hatOut (s : State) (w : Writer) (off cause reason : Nat) : (s.refuse w off cause reason).hatOut = s.hatOut := (s.refuse_same w off cause reason).field State.hatOut
@[simp] theorem State.refuse_hatQueue (s : State) (w : Writer) (off cause reason : Nat) : (s.refuse w off cause reason).hatQueue = s.hatQueue := (s.refuse_same w off cause reason).field State.hatQueue
@[simp] theorem State.refuse_hatLost (s : State) (w : Writer) (off cause reason : Nat) : (s.refuse w off cause reason).hatLost = s.hatLost := (s.refuse_same w off cause reason).field State.hatLost
@[simp] theorem State.refuse_chuteOut (s : State) (w : Writer) (off cause reason : Nat) : (s.refuse w off cause reason).chuteOut = s.chuteOut := (s.refuse_same w off cause reason).field State.chuteOut
@[simp] theorem State.refuse_chuteLive (s : State) (w : Writer) (off cause reason : Nat) : (s.refuse w off cause reason).chuteLive = s.chuteLive := (s.refuse_same w off cause reason).field State.chuteLive
@[simp] theorem State.refuse_chuteIn (s : State) (w : Writer) (off cause reason : Nat) : (s.refuse w off cause reason).chuteIn = s.chuteIn := (s.refuse_same w off cause reason).field State.chuteIn
@[simp] theorem State.refuse_chuteReds (s : State) (w : Writer) (off cause reason : Nat) : (s.refuse w off cause reason).chuteReds = s.chuteReds := (s.refuse_same w off cause reason).field State.chuteReds
@[simp] theorem State.refuse_chuteFwd (s : State) (w : Writer) (off cause reason : Nat) : (s.refuse w off cause reason).chuteFwd = s.chuteFwd := (s.refuse_same w off cause reason).field State.chuteFwd
@[simp] theorem State.refuse_ports (s : State) (w : Writer) (off cause reason : Nat) : (s.refuse w off cause reason).ports = s.ports := (s.refuse_same w off cause reason).field State.ports
@[simp] theorem State.refuse_origins (s : State) (w : Writer) (off cause reason : Nat) : (s.refuse w off cause reason).origins = s.origins := (s.refuse_same w off cause reason).field State.origins
@[simp] theorem State.refuse_transit (s : State) (w : Writer) (off cause reason : Nat) : (s.refuse w off cause reason).transit = s.transit := (s.refuse_same w off cause reason).field State.transit
@[simp] theorem State.refuse_joists (s : State) (w : Writer) (off cause reason : Nat) : (s.refuse w off cause reason).joists = s.joists := (s.refuse_same w off cause reason).field State.joists
@[simp] theorem State.refuse_joistLinks (s : State) (w : Writer) (off cause reason : Nat) : (s.refuse w off cause reason).joistLinks = s.joistLinks := (s.refuse_same w off cause reason).field State.joistLinks
@[simp] theorem State.refuse_lockerLost (s : State) (w : Writer) (off cause reason : Nat) : (s.refuse w off cause reason).lockerLost = s.lockerLost := (s.refuse_same w off cause reason).field State.lockerLost
@[simp] theorem State.refuse_joistIn (s : State) (w : Writer) (off cause reason : Nat) : (s.refuse w off cause reason).joistIn = s.joistIn := (s.refuse_same w off cause reason).field State.joistIn
@[simp] theorem State.refuse_joistOut (s : State) (w : Writer) (off cause reason : Nat) : (s.refuse w off cause reason).joistOut = s.joistOut := (s.refuse_same w off cause reason).field State.joistOut
@[simp] theorem State.refuse_joistLive (s : State) (w : Writer) (off cause reason : Nat) : (s.refuse w off cause reason).joistLive = s.joistLive := (s.refuse_same w off cause reason).field State.joistLive
@[simp] theorem State.refuse_pilot (s : State) (w : Writer) (off cause reason : Nat) : (s.refuse w off cause reason).pilot = s.pilot := (s.refuse_same w off cause reason).field State.pilot
@[simp] theorem State.refuse_cellarCtl (s : State) (w : Writer) (off cause reason : Nat) : (s.refuse w off cause reason).cellarCtl = s.cellarCtl := (s.refuse_same w off cause reason).field State.cellarCtl
@[simp] theorem State.refuse_clocks (s : State) (w : Writer) (off cause reason : Nat) : (s.refuse w off cause reason).clocks = s.clocks := (s.refuse_same w off cause reason).field State.clocks
@[simp] theorem State.refuse_power (s : State) (w : Writer) (off cause reason : Nat) : (s.refuse w off cause reason).power = s.power := (s.refuse_same w off cause reason).field State.power
@[simp] theorem State.refuse_spdm (s : State) (w : Writer) (off cause reason : Nat) : (s.refuse w off cause reason).spdm = s.spdm := (s.refuse_same w off cause reason).field State.spdm
@[simp] theorem State.refuse_ide (s : State) (w : Writer) (off cause reason : Nat) : (s.refuse w off cause reason).ide = s.ide := (s.refuse_same w off cause reason).field State.ide
@[simp] theorem State.refuse_hostIn (s : State) (w : Writer) (off cause reason : Nat) : (s.refuse w off cause reason).hostIn = s.hostIn := (s.refuse_same w off cause reason).field State.hostIn
@[simp] theorem State.refuse_replies (s : State) (w : Writer) (off cause reason : Nat) : (s.refuse w off cause reason).replies = s.replies := (s.refuse_same w off cause reason).field State.replies
@[simp] theorem State.refuse_apsel (s : State) (w : Writer) (off cause reason : Nat) : (s.refuse w off cause reason).apsel = s.apsel := (s.refuse_same w off cause reason).field State.apsel
@[simp] theorem State.refuse_msixTable (s : State) (w : Writer) (off cause reason : Nat) : (s.refuse w off cause reason).msixTable = s.msixTable := (s.refuse_same w off cause reason).field State.msixTable
@[simp] theorem State.refuse_bar2 (s : State) (w : Writer) (off cause reason : Nat) : (s.refuse w off cause reason).bar2 = s.bar2 := (s.refuse_same w off cause reason).field State.bar2
@[simp] theorem State.refuse_hostOut (s : State) (w : Writer) (off cause reason : Nat) : (s.refuse w off cause reason).hostOut = s.hostOut := (s.refuse_same w off cause reason).field State.hostOut
@[simp] theorem State.refuse_atsOn (s : State) (w : Writer) (off cause reason : Nat) : (s.refuse w off cause reason).atsOn = s.atsOn := (s.refuse_same w off cause reason).field State.atsOn
@[simp] theorem State.refuse_atc (s : State) (w : Writer) (off cause reason : Nat) : (s.refuse w off cause reason).atc = s.atc := (s.refuse_same w off cause reason).field State.atc
@[simp] theorem State.refuse_atsInval (s : State) (w : Writer) (off cause reason : Nat) : (s.refuse w off cause reason).atsInval = s.atsInval := (s.refuse_same w off cause reason).field State.atsInval
@[simp] theorem State.refuse_dropTold (s : State) (w : Writer) (off cause reason : Nat) : (s.refuse w off cause reason).dropTold = s.dropTold := (s.refuse_same w off cause reason).field State.dropTold
@[simp] theorem State.refuse_migSecret (s : State) (w : Writer) (off cause reason : Nat) : (s.refuse w off cause reason).migSecret = s.migSecret := (s.refuse_same w off cause reason).field State.migSecret
@[simp] theorem State.refuse_flr (s : State) (w : Writer) (off cause reason : Nat) : (s.refuse w off cause reason).flr = s.flr := (s.refuse_same w off cause reason).field State.flr
@[simp] theorem State.refuse_nonceLive (s : State) (w : Writer) (off cause reason : Nat) : (s.refuse w off cause reason).nonceLive = s.nonceLive := (s.refuse_same w off cause reason).field State.nonceLive
@[simp] theorem State.refuse_vfOn (s : State) (w : Writer) (off cause reason : Nat) : (s.refuse w off cause reason).vfOn = s.vfOn := (s.refuse_same w off cause reason).field State.vfOn
@[simp] theorem State.refuse_vfReady (s : State) (w : Writer) (off cause reason : Nat) : (s.refuse w off cause reason).vfReady = s.vfReady := (s.refuse_same w off cause reason).field State.vfReady
@[simp] theorem State.refuse_measLog (s : State) (w : Writer) (off cause reason : Nat) : (s.refuse w off cause reason).measLog = s.measLog := (s.refuse_same w off cause reason).field State.measLog

@[simp] theorem State.logCore_pending (s : State) (n : Nat) (r : ErrRec) : (s.logCore n r).pending = s.pending := (s.logCore_same n r).field State.pending
@[simp] theorem State.logCore_free (s : State) (n : Nat) (r : ErrRec) : (s.logCore n r).free = s.free := (s.logCore_same n r).field State.free
@[simp] theorem State.logCore_mem (s : State) (n : Nat) (r : ErrRec) : (s.logCore n r).mem = s.mem := (s.logCore_same n r).field State.mem
@[simp] theorem State.logCore_poison (s : State) (n : Nat) (r : ErrRec) : (s.logCore n r).poison = s.poison := (s.logCore_same n r).field State.poison
@[simp] theorem State.logCore_msixOpen (s : State) (n : Nat) (r : ErrRec) : (s.logCore n r).msixOpen = s.msixOpen := (s.logCore_same n r).field State.msixOpen
@[simp] theorem State.logCore_seqs (s : State) (n : Nat) (r : ErrRec) : (s.logCore n r).seqs = s.seqs := (s.logCore_same n r).field State.seqs
@[simp] theorem State.logCore_steps (s : State) (n : Nat) (r : ErrRec) : (s.logCore n r).steps = s.steps := (s.logCore_same n r).field State.steps
@[simp] theorem State.logCore_groups (s : State) (n : Nat) (r : ErrRec) : (s.logCore n r).groups = s.groups := (s.logCore_same n r).field State.groups
@[simp] theorem State.logCore_kernels (s : State) (n : Nat) (r : ErrRec) : (s.logCore n r).kernels = s.kernels := (s.logCore_same n r).field State.kernels
@[simp] theorem State.logCore_porters (s : State) (n : Nat) (r : ErrRec) : (s.logCore n r).porters = s.porters := (s.logCore_same n r).field State.porters
@[simp] theorem State.logCore_bays (s : State) (n : Nat) (r : ErrRec) : (s.logCore n r).bays = s.bays := (s.logCore_same n r).field State.bays
@[simp] theorem State.logCore_imgs (s : State) (n : Nat) (r : ErrRec) : (s.logCore n r).imgs = s.imgs := (s.logCore_same n r).field State.imgs
@[simp] theorem State.logCore_serving (s : State) (n : Nat) (r : ErrRec) : (s.logCore n r).serving = s.serving := (s.logCore_same n r).field State.serving
@[simp] theorem State.logCore_ranges (s : State) (n : Nat) (r : ErrRec) : (s.logCore n r).ranges = s.ranges := (s.logCore_same n r).field State.ranges
@[simp] theorem State.logCore_larder (s : State) (n : Nat) (r : ErrRec) : (s.logCore n r).larder = s.larder := (s.logCore_same n r).field State.larder
@[simp] theorem State.logCore_cups (s : State) (n : Nat) (r : ErrRec) : (s.logCore n r).cups = s.cups := (s.logCore_same n r).field State.cups
@[simp] theorem State.logCore_shelves (s : State) (n : Nat) (r : ErrRec) : (s.logCore n r).shelves = s.shelves := (s.logCore_same n r).field State.shelves
@[simp] theorem State.logCore_cellar (s : State) (n : Nat) (r : ErrRec) : (s.logCore n r).cellar = s.cellar := (s.logCore_same n r).field State.cellar
@[simp] theorem State.logCore_keyOwner (s : State) (n : Nat) (r : ErrRec) : (s.logCore n r).keyOwner = s.keyOwner := (s.logCore_same n r).field State.keyOwner
@[simp] theorem State.logCore_keyGen (s : State) (n : Nat) (r : ErrRec) : (s.logCore n r).keyGen = s.keyGen := (s.logCore_same n r).field State.keyGen
@[simp] theorem State.logCore_homes (s : State) (n : Nat) (r : ErrRec) : (s.logCore n r).homes = s.homes := (s.logCore_same n r).field State.homes
@[simp] theorem State.logCore_net (s : State) (n : Nat) (r : ErrRec) : (s.logCore n r).net = s.net := (s.logCore_same n r).field State.net
@[simp] theorem State.logCore_slices (s : State) (n : Nat) (r : ErrRec) : (s.logCore n r).slices = s.slices := (s.logCore_same n r).field State.slices
@[simp] theorem State.logCore_tlbs (s : State) (n : Nat) (r : ErrRec) : (s.logCore n r).tlbs = s.tlbs := (s.logCore_same n r).field State.tlbs
@[simp] theorem State.logCore_rangeOps (s : State) (n : Nat) (r : ErrRec) : (s.logCore n r).rangeOps = s.rangeOps := (s.logCore_same n r).field State.rangeOps
@[simp] theorem State.logCore_larderCtl (s : State) (n : Nat) (r : ErrRec) : (s.logCore n r).larderCtl = s.larderCtl := (s.logCore_same n r).field State.larderCtl
@[simp] theorem State.logCore_replays (s : State) (n : Nat) (r : ErrRec) : (s.logCore n r).replays = s.replays := (s.logCore_same n r).field State.replays
@[simp] theorem State.logCore_tallySet (s : State) (n : Nat) (r : ErrRec) : (s.logCore n r).tallySet = s.tallySet := (s.logCore_same n r).field State.tallySet
@[simp] theorem State.logCore_heldAdds (s : State) (n : Nat) (r : ErrRec) : (s.logCore n r).heldAdds = s.heldAdds := (s.logCore_same n r).field State.heldAdds
@[simp] theorem State.logCore_heldWrites (s : State) (n : Nat) (r : ErrRec) : (s.logCore n r).heldWrites = s.heldWrites := (s.logCore_same n r).field State.heldWrites
@[simp] theorem State.logCore_wakeReq (s : State) (n : Nat) (r : ErrRec) : (s.logCore n r).wakeReq = s.wakeReq := (s.logCore_same n r).field State.wakeReq
@[simp] theorem State.logCore_critR (s : State) (n : Nat) (r : ErrRec) : (s.logCore n r).critR = s.critR := (s.logCore_same n r).field State.critR
@[simp] theorem State.logCore_critA (s : State) (n : Nat) (r : ErrRec) : (s.logCore n r).critA = s.critA := (s.logCore_same n r).field State.critA
@[simp] theorem State.logCore_hatOut (s : State) (n : Nat) (r : ErrRec) : (s.logCore n r).hatOut = s.hatOut := (s.logCore_same n r).field State.hatOut
@[simp] theorem State.logCore_hatQueue (s : State) (n : Nat) (r : ErrRec) : (s.logCore n r).hatQueue = s.hatQueue := (s.logCore_same n r).field State.hatQueue
@[simp] theorem State.logCore_hatLost (s : State) (n : Nat) (r : ErrRec) : (s.logCore n r).hatLost = s.hatLost := (s.logCore_same n r).field State.hatLost
@[simp] theorem State.logCore_chuteOut (s : State) (n : Nat) (r : ErrRec) : (s.logCore n r).chuteOut = s.chuteOut := (s.logCore_same n r).field State.chuteOut
@[simp] theorem State.logCore_chuteLive (s : State) (n : Nat) (r : ErrRec) : (s.logCore n r).chuteLive = s.chuteLive := (s.logCore_same n r).field State.chuteLive
@[simp] theorem State.logCore_chuteIn (s : State) (n : Nat) (r : ErrRec) : (s.logCore n r).chuteIn = s.chuteIn := (s.logCore_same n r).field State.chuteIn
@[simp] theorem State.logCore_chuteReds (s : State) (n : Nat) (r : ErrRec) : (s.logCore n r).chuteReds = s.chuteReds := (s.logCore_same n r).field State.chuteReds
@[simp] theorem State.logCore_chuteFwd (s : State) (n : Nat) (r : ErrRec) : (s.logCore n r).chuteFwd = s.chuteFwd := (s.logCore_same n r).field State.chuteFwd
@[simp] theorem State.logCore_ports (s : State) (n : Nat) (r : ErrRec) : (s.logCore n r).ports = s.ports := (s.logCore_same n r).field State.ports
@[simp] theorem State.logCore_origins (s : State) (n : Nat) (r : ErrRec) : (s.logCore n r).origins = s.origins := (s.logCore_same n r).field State.origins
@[simp] theorem State.logCore_transit (s : State) (n : Nat) (r : ErrRec) : (s.logCore n r).transit = s.transit := (s.logCore_same n r).field State.transit
@[simp] theorem State.logCore_joists (s : State) (n : Nat) (r : ErrRec) : (s.logCore n r).joists = s.joists := (s.logCore_same n r).field State.joists
@[simp] theorem State.logCore_joistLinks (s : State) (n : Nat) (r : ErrRec) : (s.logCore n r).joistLinks = s.joistLinks := (s.logCore_same n r).field State.joistLinks
@[simp] theorem State.logCore_lockerLost (s : State) (n : Nat) (r : ErrRec) : (s.logCore n r).lockerLost = s.lockerLost := (s.logCore_same n r).field State.lockerLost
@[simp] theorem State.logCore_joistIn (s : State) (n : Nat) (r : ErrRec) : (s.logCore n r).joistIn = s.joistIn := (s.logCore_same n r).field State.joistIn
@[simp] theorem State.logCore_joistOut (s : State) (n : Nat) (r : ErrRec) : (s.logCore n r).joistOut = s.joistOut := (s.logCore_same n r).field State.joistOut
@[simp] theorem State.logCore_joistLive (s : State) (n : Nat) (r : ErrRec) : (s.logCore n r).joistLive = s.joistLive := (s.logCore_same n r).field State.joistLive
@[simp] theorem State.logCore_pilot (s : State) (n : Nat) (r : ErrRec) : (s.logCore n r).pilot = s.pilot := (s.logCore_same n r).field State.pilot
@[simp] theorem State.logCore_cellarCtl (s : State) (n : Nat) (r : ErrRec) : (s.logCore n r).cellarCtl = s.cellarCtl := (s.logCore_same n r).field State.cellarCtl
@[simp] theorem State.logCore_clocks (s : State) (n : Nat) (r : ErrRec) : (s.logCore n r).clocks = s.clocks := (s.logCore_same n r).field State.clocks
@[simp] theorem State.logCore_power (s : State) (n : Nat) (r : ErrRec) : (s.logCore n r).power = s.power := (s.logCore_same n r).field State.power
@[simp] theorem State.logCore_spdm (s : State) (n : Nat) (r : ErrRec) : (s.logCore n r).spdm = s.spdm := (s.logCore_same n r).field State.spdm
@[simp] theorem State.logCore_ide (s : State) (n : Nat) (r : ErrRec) : (s.logCore n r).ide = s.ide := (s.logCore_same n r).field State.ide
@[simp] theorem State.logCore_hostIn (s : State) (n : Nat) (r : ErrRec) : (s.logCore n r).hostIn = s.hostIn := (s.logCore_same n r).field State.hostIn
@[simp] theorem State.logCore_replies (s : State) (n : Nat) (r : ErrRec) : (s.logCore n r).replies = s.replies := (s.logCore_same n r).field State.replies
@[simp] theorem State.logCore_apsel (s : State) (n : Nat) (r : ErrRec) : (s.logCore n r).apsel = s.apsel := (s.logCore_same n r).field State.apsel
@[simp] theorem State.logCore_msixTable (s : State) (n : Nat) (r : ErrRec) : (s.logCore n r).msixTable = s.msixTable := (s.logCore_same n r).field State.msixTable
@[simp] theorem State.logCore_bar2 (s : State) (n : Nat) (r : ErrRec) : (s.logCore n r).bar2 = s.bar2 := (s.logCore_same n r).field State.bar2
@[simp] theorem State.logCore_hostOut (s : State) (n : Nat) (r : ErrRec) : (s.logCore n r).hostOut = s.hostOut := (s.logCore_same n r).field State.hostOut
@[simp] theorem State.logCore_atsOn (s : State) (n : Nat) (r : ErrRec) : (s.logCore n r).atsOn = s.atsOn := (s.logCore_same n r).field State.atsOn
@[simp] theorem State.logCore_atc (s : State) (n : Nat) (r : ErrRec) : (s.logCore n r).atc = s.atc := (s.logCore_same n r).field State.atc
@[simp] theorem State.logCore_atsInval (s : State) (n : Nat) (r : ErrRec) : (s.logCore n r).atsInval = s.atsInval := (s.logCore_same n r).field State.atsInval
@[simp] theorem State.logCore_dropTold (s : State) (n : Nat) (r : ErrRec) : (s.logCore n r).dropTold = s.dropTold := (s.logCore_same n r).field State.dropTold
@[simp] theorem State.logCore_migSecret (s : State) (n : Nat) (r : ErrRec) : (s.logCore n r).migSecret = s.migSecret := (s.logCore_same n r).field State.migSecret
@[simp] theorem State.logCore_flr (s : State) (n : Nat) (r : ErrRec) : (s.logCore n r).flr = s.flr := (s.logCore_same n r).field State.flr
@[simp] theorem State.logCore_nonceLive (s : State) (n : Nat) (r : ErrRec) : (s.logCore n r).nonceLive = s.nonceLive := (s.logCore_same n r).field State.nonceLive
@[simp] theorem State.logCore_vfOn (s : State) (n : Nat) (r : ErrRec) : (s.logCore n r).vfOn = s.vfOn := (s.logCore_same n r).field State.vfOn
@[simp] theorem State.logCore_vfReady (s : State) (n : Nat) (r : ErrRec) : (s.logCore n r).vfReady = s.vfReady := (s.logCore_same n r).field State.vfReady
@[simp] theorem State.logCore_measLog (s : State) (n : Nat) (r : ErrRec) : (s.logCore n r).measLog = s.measLog := (s.logCore_same n r).field State.measLog

@[simp] theorem State.bayEvent_pending (s : State) (b bits : Nat) : (s.bayEvent b bits).pending = s.pending := (s.bayEvent_same b bits).field State.pending
@[simp] theorem State.bayEvent_free (s : State) (b bits : Nat) : (s.bayEvent b bits).free = s.free := (s.bayEvent_same b bits).field State.free
@[simp] theorem State.bayEvent_mem (s : State) (b bits : Nat) : (s.bayEvent b bits).mem = s.mem := (s.bayEvent_same b bits).field State.mem
@[simp] theorem State.bayEvent_poison (s : State) (b bits : Nat) : (s.bayEvent b bits).poison = s.poison := (s.bayEvent_same b bits).field State.poison
@[simp] theorem State.bayEvent_msixOpen (s : State) (b bits : Nat) : (s.bayEvent b bits).msixOpen = s.msixOpen := (s.bayEvent_same b bits).field State.msixOpen
@[simp] theorem State.bayEvent_seqs (s : State) (b bits : Nat) : (s.bayEvent b bits).seqs = s.seqs := (s.bayEvent_same b bits).field State.seqs
@[simp] theorem State.bayEvent_steps (s : State) (b bits : Nat) : (s.bayEvent b bits).steps = s.steps := (s.bayEvent_same b bits).field State.steps
@[simp] theorem State.bayEvent_groups (s : State) (b bits : Nat) : (s.bayEvent b bits).groups = s.groups := (s.bayEvent_same b bits).field State.groups
@[simp] theorem State.bayEvent_kernels (s : State) (b bits : Nat) : (s.bayEvent b bits).kernels = s.kernels := (s.bayEvent_same b bits).field State.kernels
@[simp] theorem State.bayEvent_porters (s : State) (b bits : Nat) : (s.bayEvent b bits).porters = s.porters := (s.bayEvent_same b bits).field State.porters
@[simp] theorem State.bayEvent_bays (s : State) (b bits : Nat) : (s.bayEvent b bits).bays = s.bays := (s.bayEvent_same b bits).field State.bays
@[simp] theorem State.bayEvent_imgs (s : State) (b bits : Nat) : (s.bayEvent b bits).imgs = s.imgs := (s.bayEvent_same b bits).field State.imgs
@[simp] theorem State.bayEvent_serving (s : State) (b bits : Nat) : (s.bayEvent b bits).serving = s.serving := (s.bayEvent_same b bits).field State.serving
@[simp] theorem State.bayEvent_ranges (s : State) (b bits : Nat) : (s.bayEvent b bits).ranges = s.ranges := (s.bayEvent_same b bits).field State.ranges
@[simp] theorem State.bayEvent_larder (s : State) (b bits : Nat) : (s.bayEvent b bits).larder = s.larder := (s.bayEvent_same b bits).field State.larder
@[simp] theorem State.bayEvent_cups (s : State) (b bits : Nat) : (s.bayEvent b bits).cups = s.cups := (s.bayEvent_same b bits).field State.cups
@[simp] theorem State.bayEvent_shelves (s : State) (b bits : Nat) : (s.bayEvent b bits).shelves = s.shelves := (s.bayEvent_same b bits).field State.shelves
@[simp] theorem State.bayEvent_cellar (s : State) (b bits : Nat) : (s.bayEvent b bits).cellar = s.cellar := (s.bayEvent_same b bits).field State.cellar
@[simp] theorem State.bayEvent_keyOwner (s : State) (b bits : Nat) : (s.bayEvent b bits).keyOwner = s.keyOwner := (s.bayEvent_same b bits).field State.keyOwner
@[simp] theorem State.bayEvent_keyGen (s : State) (b bits : Nat) : (s.bayEvent b bits).keyGen = s.keyGen := (s.bayEvent_same b bits).field State.keyGen
@[simp] theorem State.bayEvent_homes (s : State) (b bits : Nat) : (s.bayEvent b bits).homes = s.homes := (s.bayEvent_same b bits).field State.homes
@[simp] theorem State.bayEvent_net (s : State) (b bits : Nat) : (s.bayEvent b bits).net = s.net := (s.bayEvent_same b bits).field State.net
@[simp] theorem State.bayEvent_slices (s : State) (b bits : Nat) : (s.bayEvent b bits).slices = s.slices := (s.bayEvent_same b bits).field State.slices
@[simp] theorem State.bayEvent_tlbs (s : State) (b bits : Nat) : (s.bayEvent b bits).tlbs = s.tlbs := (s.bayEvent_same b bits).field State.tlbs
@[simp] theorem State.bayEvent_rangeOps (s : State) (b bits : Nat) : (s.bayEvent b bits).rangeOps = s.rangeOps := (s.bayEvent_same b bits).field State.rangeOps
@[simp] theorem State.bayEvent_larderCtl (s : State) (b bits : Nat) : (s.bayEvent b bits).larderCtl = s.larderCtl := (s.bayEvent_same b bits).field State.larderCtl
@[simp] theorem State.bayEvent_replays (s : State) (b bits : Nat) : (s.bayEvent b bits).replays = s.replays := (s.bayEvent_same b bits).field State.replays
@[simp] theorem State.bayEvent_tallySet (s : State) (b bits : Nat) : (s.bayEvent b bits).tallySet = s.tallySet := (s.bayEvent_same b bits).field State.tallySet
@[simp] theorem State.bayEvent_heldAdds (s : State) (b bits : Nat) : (s.bayEvent b bits).heldAdds = s.heldAdds := (s.bayEvent_same b bits).field State.heldAdds
@[simp] theorem State.bayEvent_heldWrites (s : State) (b bits : Nat) : (s.bayEvent b bits).heldWrites = s.heldWrites := (s.bayEvent_same b bits).field State.heldWrites
@[simp] theorem State.bayEvent_wakeReq (s : State) (b bits : Nat) : (s.bayEvent b bits).wakeReq = s.wakeReq := (s.bayEvent_same b bits).field State.wakeReq
@[simp] theorem State.bayEvent_critR (s : State) (b bits : Nat) : (s.bayEvent b bits).critR = s.critR := (s.bayEvent_same b bits).field State.critR
@[simp] theorem State.bayEvent_critA (s : State) (b bits : Nat) : (s.bayEvent b bits).critA = s.critA := (s.bayEvent_same b bits).field State.critA
@[simp] theorem State.bayEvent_hatOut (s : State) (b bits : Nat) : (s.bayEvent b bits).hatOut = s.hatOut := (s.bayEvent_same b bits).field State.hatOut
@[simp] theorem State.bayEvent_hatQueue (s : State) (b bits : Nat) : (s.bayEvent b bits).hatQueue = s.hatQueue := (s.bayEvent_same b bits).field State.hatQueue
@[simp] theorem State.bayEvent_hatLost (s : State) (b bits : Nat) : (s.bayEvent b bits).hatLost = s.hatLost := (s.bayEvent_same b bits).field State.hatLost
@[simp] theorem State.bayEvent_chuteOut (s : State) (b bits : Nat) : (s.bayEvent b bits).chuteOut = s.chuteOut := (s.bayEvent_same b bits).field State.chuteOut
@[simp] theorem State.bayEvent_chuteLive (s : State) (b bits : Nat) : (s.bayEvent b bits).chuteLive = s.chuteLive := (s.bayEvent_same b bits).field State.chuteLive
@[simp] theorem State.bayEvent_chuteIn (s : State) (b bits : Nat) : (s.bayEvent b bits).chuteIn = s.chuteIn := (s.bayEvent_same b bits).field State.chuteIn
@[simp] theorem State.bayEvent_chuteReds (s : State) (b bits : Nat) : (s.bayEvent b bits).chuteReds = s.chuteReds := (s.bayEvent_same b bits).field State.chuteReds
@[simp] theorem State.bayEvent_chuteFwd (s : State) (b bits : Nat) : (s.bayEvent b bits).chuteFwd = s.chuteFwd := (s.bayEvent_same b bits).field State.chuteFwd
@[simp] theorem State.bayEvent_ports (s : State) (b bits : Nat) : (s.bayEvent b bits).ports = s.ports := (s.bayEvent_same b bits).field State.ports
@[simp] theorem State.bayEvent_origins (s : State) (b bits : Nat) : (s.bayEvent b bits).origins = s.origins := (s.bayEvent_same b bits).field State.origins
@[simp] theorem State.bayEvent_transit (s : State) (b bits : Nat) : (s.bayEvent b bits).transit = s.transit := (s.bayEvent_same b bits).field State.transit
@[simp] theorem State.bayEvent_joists (s : State) (b bits : Nat) : (s.bayEvent b bits).joists = s.joists := (s.bayEvent_same b bits).field State.joists
@[simp] theorem State.bayEvent_joistLinks (s : State) (b bits : Nat) : (s.bayEvent b bits).joistLinks = s.joistLinks := (s.bayEvent_same b bits).field State.joistLinks
@[simp] theorem State.bayEvent_lockerLost (s : State) (b bits : Nat) : (s.bayEvent b bits).lockerLost = s.lockerLost := (s.bayEvent_same b bits).field State.lockerLost
@[simp] theorem State.bayEvent_joistIn (s : State) (b bits : Nat) : (s.bayEvent b bits).joistIn = s.joistIn := (s.bayEvent_same b bits).field State.joistIn
@[simp] theorem State.bayEvent_joistOut (s : State) (b bits : Nat) : (s.bayEvent b bits).joistOut = s.joistOut := (s.bayEvent_same b bits).field State.joistOut
@[simp] theorem State.bayEvent_joistLive (s : State) (b bits : Nat) : (s.bayEvent b bits).joistLive = s.joistLive := (s.bayEvent_same b bits).field State.joistLive
@[simp] theorem State.bayEvent_pilot (s : State) (b bits : Nat) : (s.bayEvent b bits).pilot = s.pilot := (s.bayEvent_same b bits).field State.pilot
@[simp] theorem State.bayEvent_cellarCtl (s : State) (b bits : Nat) : (s.bayEvent b bits).cellarCtl = s.cellarCtl := (s.bayEvent_same b bits).field State.cellarCtl
@[simp] theorem State.bayEvent_clocks (s : State) (b bits : Nat) : (s.bayEvent b bits).clocks = s.clocks := (s.bayEvent_same b bits).field State.clocks
@[simp] theorem State.bayEvent_power (s : State) (b bits : Nat) : (s.bayEvent b bits).power = s.power := (s.bayEvent_same b bits).field State.power
@[simp] theorem State.bayEvent_spdm (s : State) (b bits : Nat) : (s.bayEvent b bits).spdm = s.spdm := (s.bayEvent_same b bits).field State.spdm
@[simp] theorem State.bayEvent_ide (s : State) (b bits : Nat) : (s.bayEvent b bits).ide = s.ide := (s.bayEvent_same b bits).field State.ide
@[simp] theorem State.bayEvent_hostIn (s : State) (b bits : Nat) : (s.bayEvent b bits).hostIn = s.hostIn := (s.bayEvent_same b bits).field State.hostIn
@[simp] theorem State.bayEvent_replies (s : State) (b bits : Nat) : (s.bayEvent b bits).replies = s.replies := (s.bayEvent_same b bits).field State.replies
@[simp] theorem State.bayEvent_apsel (s : State) (b bits : Nat) : (s.bayEvent b bits).apsel = s.apsel := (s.bayEvent_same b bits).field State.apsel
@[simp] theorem State.bayEvent_msixTable (s : State) (b bits : Nat) : (s.bayEvent b bits).msixTable = s.msixTable := (s.bayEvent_same b bits).field State.msixTable
@[simp] theorem State.bayEvent_bar2 (s : State) (b bits : Nat) : (s.bayEvent b bits).bar2 = s.bar2 := (s.bayEvent_same b bits).field State.bar2
@[simp] theorem State.bayEvent_hostOut (s : State) (b bits : Nat) : (s.bayEvent b bits).hostOut = s.hostOut := (s.bayEvent_same b bits).field State.hostOut
@[simp] theorem State.bayEvent_atsOn (s : State) (b bits : Nat) : (s.bayEvent b bits).atsOn = s.atsOn := (s.bayEvent_same b bits).field State.atsOn
@[simp] theorem State.bayEvent_atc (s : State) (b bits : Nat) : (s.bayEvent b bits).atc = s.atc := (s.bayEvent_same b bits).field State.atc
@[simp] theorem State.bayEvent_atsInval (s : State) (b bits : Nat) : (s.bayEvent b bits).atsInval = s.atsInval := (s.bayEvent_same b bits).field State.atsInval
@[simp] theorem State.bayEvent_dropTold (s : State) (b bits : Nat) : (s.bayEvent b bits).dropTold = s.dropTold := (s.bayEvent_same b bits).field State.dropTold
@[simp] theorem State.bayEvent_migSecret (s : State) (b bits : Nat) : (s.bayEvent b bits).migSecret = s.migSecret := (s.bayEvent_same b bits).field State.migSecret
@[simp] theorem State.bayEvent_flr (s : State) (b bits : Nat) : (s.bayEvent b bits).flr = s.flr := (s.bayEvent_same b bits).field State.flr
@[simp] theorem State.bayEvent_nonceLive (s : State) (b bits : Nat) : (s.bayEvent b bits).nonceLive = s.nonceLive := (s.bayEvent_same b bits).field State.nonceLive
@[simp] theorem State.bayEvent_vfOn (s : State) (b bits : Nat) : (s.bayEvent b bits).vfOn = s.vfOn := (s.bayEvent_same b bits).field State.vfOn
@[simp] theorem State.bayEvent_vfReady (s : State) (b bits : Nat) : (s.bayEvent b bits).vfReady = s.vfReady := (s.bayEvent_same b bits).field State.vfReady
@[simp] theorem State.bayEvent_measLog (s : State) (b bits : Nat) : (s.bayEvent b bits).measLog = s.measLog := (s.bayEvent_same b bits).field State.measLog

@[simp] theorem State.account_pending (s : State) (b : Option Nat) (r ri : RegSpec) (n : Nat) : (s.account b r ri n).pending = s.pending := (s.account_same b r ri n).field State.pending
@[simp] theorem State.account_free (s : State) (b : Option Nat) (r ri : RegSpec) (n : Nat) : (s.account b r ri n).free = s.free := (s.account_same b r ri n).field State.free
@[simp] theorem State.account_mem (s : State) (b : Option Nat) (r ri : RegSpec) (n : Nat) : (s.account b r ri n).mem = s.mem := (s.account_same b r ri n).field State.mem
@[simp] theorem State.account_poison (s : State) (b : Option Nat) (r ri : RegSpec) (n : Nat) : (s.account b r ri n).poison = s.poison := (s.account_same b r ri n).field State.poison
@[simp] theorem State.account_msixOpen (s : State) (b : Option Nat) (r ri : RegSpec) (n : Nat) : (s.account b r ri n).msixOpen = s.msixOpen := (s.account_same b r ri n).field State.msixOpen
@[simp] theorem State.account_seqs (s : State) (b : Option Nat) (r ri : RegSpec) (n : Nat) : (s.account b r ri n).seqs = s.seqs := (s.account_same b r ri n).field State.seqs
@[simp] theorem State.account_steps (s : State) (b : Option Nat) (r ri : RegSpec) (n : Nat) : (s.account b r ri n).steps = s.steps := (s.account_same b r ri n).field State.steps
@[simp] theorem State.account_groups (s : State) (b : Option Nat) (r ri : RegSpec) (n : Nat) : (s.account b r ri n).groups = s.groups := (s.account_same b r ri n).field State.groups
@[simp] theorem State.account_kernels (s : State) (b : Option Nat) (r ri : RegSpec) (n : Nat) : (s.account b r ri n).kernels = s.kernels := (s.account_same b r ri n).field State.kernels
@[simp] theorem State.account_porters (s : State) (b : Option Nat) (r ri : RegSpec) (n : Nat) : (s.account b r ri n).porters = s.porters := (s.account_same b r ri n).field State.porters
@[simp] theorem State.account_bays (s : State) (b : Option Nat) (r ri : RegSpec) (n : Nat) : (s.account b r ri n).bays = s.bays := (s.account_same b r ri n).field State.bays
@[simp] theorem State.account_imgs (s : State) (b : Option Nat) (r ri : RegSpec) (n : Nat) : (s.account b r ri n).imgs = s.imgs := (s.account_same b r ri n).field State.imgs
@[simp] theorem State.account_serving (s : State) (b : Option Nat) (r ri : RegSpec) (n : Nat) : (s.account b r ri n).serving = s.serving := (s.account_same b r ri n).field State.serving
@[simp] theorem State.account_ranges (s : State) (b : Option Nat) (r ri : RegSpec) (n : Nat) : (s.account b r ri n).ranges = s.ranges := (s.account_same b r ri n).field State.ranges
@[simp] theorem State.account_larder (s : State) (b : Option Nat) (r ri : RegSpec) (n : Nat) : (s.account b r ri n).larder = s.larder := (s.account_same b r ri n).field State.larder
@[simp] theorem State.account_cups (s : State) (b : Option Nat) (r ri : RegSpec) (n : Nat) : (s.account b r ri n).cups = s.cups := (s.account_same b r ri n).field State.cups
@[simp] theorem State.account_shelves (s : State) (b : Option Nat) (r ri : RegSpec) (n : Nat) : (s.account b r ri n).shelves = s.shelves := (s.account_same b r ri n).field State.shelves
@[simp] theorem State.account_cellar (s : State) (b : Option Nat) (r ri : RegSpec) (n : Nat) : (s.account b r ri n).cellar = s.cellar := (s.account_same b r ri n).field State.cellar
@[simp] theorem State.account_keyOwner (s : State) (b : Option Nat) (r ri : RegSpec) (n : Nat) : (s.account b r ri n).keyOwner = s.keyOwner := (s.account_same b r ri n).field State.keyOwner
@[simp] theorem State.account_keyGen (s : State) (b : Option Nat) (r ri : RegSpec) (n : Nat) : (s.account b r ri n).keyGen = s.keyGen := (s.account_same b r ri n).field State.keyGen
@[simp] theorem State.account_homes (s : State) (b : Option Nat) (r ri : RegSpec) (n : Nat) : (s.account b r ri n).homes = s.homes := (s.account_same b r ri n).field State.homes
@[simp] theorem State.account_net (s : State) (b : Option Nat) (r ri : RegSpec) (n : Nat) : (s.account b r ri n).net = s.net := (s.account_same b r ri n).field State.net
@[simp] theorem State.account_slices (s : State) (b : Option Nat) (r ri : RegSpec) (n : Nat) : (s.account b r ri n).slices = s.slices := (s.account_same b r ri n).field State.slices
@[simp] theorem State.account_tlbs (s : State) (b : Option Nat) (r ri : RegSpec) (n : Nat) : (s.account b r ri n).tlbs = s.tlbs := (s.account_same b r ri n).field State.tlbs
@[simp] theorem State.account_rangeOps (s : State) (b : Option Nat) (r ri : RegSpec) (n : Nat) : (s.account b r ri n).rangeOps = s.rangeOps := (s.account_same b r ri n).field State.rangeOps
@[simp] theorem State.account_larderCtl (s : State) (b : Option Nat) (r ri : RegSpec) (n : Nat) : (s.account b r ri n).larderCtl = s.larderCtl := (s.account_same b r ri n).field State.larderCtl
@[simp] theorem State.account_replays (s : State) (b : Option Nat) (r ri : RegSpec) (n : Nat) : (s.account b r ri n).replays = s.replays := (s.account_same b r ri n).field State.replays
@[simp] theorem State.account_tallySet (s : State) (b : Option Nat) (r ri : RegSpec) (n : Nat) : (s.account b r ri n).tallySet = s.tallySet := (s.account_same b r ri n).field State.tallySet
@[simp] theorem State.account_heldAdds (s : State) (b : Option Nat) (r ri : RegSpec) (n : Nat) : (s.account b r ri n).heldAdds = s.heldAdds := (s.account_same b r ri n).field State.heldAdds
@[simp] theorem State.account_heldWrites (s : State) (b : Option Nat) (r ri : RegSpec) (n : Nat) : (s.account b r ri n).heldWrites = s.heldWrites := (s.account_same b r ri n).field State.heldWrites
@[simp] theorem State.account_wakeReq (s : State) (b : Option Nat) (r ri : RegSpec) (n : Nat) : (s.account b r ri n).wakeReq = s.wakeReq := (s.account_same b r ri n).field State.wakeReq
@[simp] theorem State.account_critR (s : State) (b : Option Nat) (r ri : RegSpec) (n : Nat) : (s.account b r ri n).critR = s.critR := (s.account_same b r ri n).field State.critR
@[simp] theorem State.account_critA (s : State) (b : Option Nat) (r ri : RegSpec) (n : Nat) : (s.account b r ri n).critA = s.critA := (s.account_same b r ri n).field State.critA
@[simp] theorem State.account_hatOut (s : State) (b : Option Nat) (r ri : RegSpec) (n : Nat) : (s.account b r ri n).hatOut = s.hatOut := (s.account_same b r ri n).field State.hatOut
@[simp] theorem State.account_hatQueue (s : State) (b : Option Nat) (r ri : RegSpec) (n : Nat) : (s.account b r ri n).hatQueue = s.hatQueue := (s.account_same b r ri n).field State.hatQueue
@[simp] theorem State.account_hatLost (s : State) (b : Option Nat) (r ri : RegSpec) (n : Nat) : (s.account b r ri n).hatLost = s.hatLost := (s.account_same b r ri n).field State.hatLost
@[simp] theorem State.account_chuteOut (s : State) (b : Option Nat) (r ri : RegSpec) (n : Nat) : (s.account b r ri n).chuteOut = s.chuteOut := (s.account_same b r ri n).field State.chuteOut
@[simp] theorem State.account_chuteLive (s : State) (b : Option Nat) (r ri : RegSpec) (n : Nat) : (s.account b r ri n).chuteLive = s.chuteLive := (s.account_same b r ri n).field State.chuteLive
@[simp] theorem State.account_chuteIn (s : State) (b : Option Nat) (r ri : RegSpec) (n : Nat) : (s.account b r ri n).chuteIn = s.chuteIn := (s.account_same b r ri n).field State.chuteIn
@[simp] theorem State.account_chuteReds (s : State) (b : Option Nat) (r ri : RegSpec) (n : Nat) : (s.account b r ri n).chuteReds = s.chuteReds := (s.account_same b r ri n).field State.chuteReds
@[simp] theorem State.account_chuteFwd (s : State) (b : Option Nat) (r ri : RegSpec) (n : Nat) : (s.account b r ri n).chuteFwd = s.chuteFwd := (s.account_same b r ri n).field State.chuteFwd
@[simp] theorem State.account_ports (s : State) (b : Option Nat) (r ri : RegSpec) (n : Nat) : (s.account b r ri n).ports = s.ports := (s.account_same b r ri n).field State.ports
@[simp] theorem State.account_origins (s : State) (b : Option Nat) (r ri : RegSpec) (n : Nat) : (s.account b r ri n).origins = s.origins := (s.account_same b r ri n).field State.origins
@[simp] theorem State.account_transit (s : State) (b : Option Nat) (r ri : RegSpec) (n : Nat) : (s.account b r ri n).transit = s.transit := (s.account_same b r ri n).field State.transit
@[simp] theorem State.account_joists (s : State) (b : Option Nat) (r ri : RegSpec) (n : Nat) : (s.account b r ri n).joists = s.joists := (s.account_same b r ri n).field State.joists
@[simp] theorem State.account_joistLinks (s : State) (b : Option Nat) (r ri : RegSpec) (n : Nat) : (s.account b r ri n).joistLinks = s.joistLinks := (s.account_same b r ri n).field State.joistLinks
@[simp] theorem State.account_lockerLost (s : State) (b : Option Nat) (r ri : RegSpec) (n : Nat) : (s.account b r ri n).lockerLost = s.lockerLost := (s.account_same b r ri n).field State.lockerLost
@[simp] theorem State.account_joistIn (s : State) (b : Option Nat) (r ri : RegSpec) (n : Nat) : (s.account b r ri n).joistIn = s.joistIn := (s.account_same b r ri n).field State.joistIn
@[simp] theorem State.account_joistOut (s : State) (b : Option Nat) (r ri : RegSpec) (n : Nat) : (s.account b r ri n).joistOut = s.joistOut := (s.account_same b r ri n).field State.joistOut
@[simp] theorem State.account_joistLive (s : State) (b : Option Nat) (r ri : RegSpec) (n : Nat) : (s.account b r ri n).joistLive = s.joistLive := (s.account_same b r ri n).field State.joistLive
@[simp] theorem State.account_pilot (s : State) (b : Option Nat) (r ri : RegSpec) (n : Nat) : (s.account b r ri n).pilot = s.pilot := (s.account_same b r ri n).field State.pilot
@[simp] theorem State.account_cellarCtl (s : State) (b : Option Nat) (r ri : RegSpec) (n : Nat) : (s.account b r ri n).cellarCtl = s.cellarCtl := (s.account_same b r ri n).field State.cellarCtl
@[simp] theorem State.account_clocks (s : State) (b : Option Nat) (r ri : RegSpec) (n : Nat) : (s.account b r ri n).clocks = s.clocks := (s.account_same b r ri n).field State.clocks
@[simp] theorem State.account_power (s : State) (b : Option Nat) (r ri : RegSpec) (n : Nat) : (s.account b r ri n).power = s.power := (s.account_same b r ri n).field State.power
@[simp] theorem State.account_spdm (s : State) (b : Option Nat) (r ri : RegSpec) (n : Nat) : (s.account b r ri n).spdm = s.spdm := (s.account_same b r ri n).field State.spdm
@[simp] theorem State.account_ide (s : State) (b : Option Nat) (r ri : RegSpec) (n : Nat) : (s.account b r ri n).ide = s.ide := (s.account_same b r ri n).field State.ide
@[simp] theorem State.account_hostIn (s : State) (b : Option Nat) (r ri : RegSpec) (n : Nat) : (s.account b r ri n).hostIn = s.hostIn := (s.account_same b r ri n).field State.hostIn
@[simp] theorem State.account_replies (s : State) (b : Option Nat) (r ri : RegSpec) (n : Nat) : (s.account b r ri n).replies = s.replies := (s.account_same b r ri n).field State.replies
@[simp] theorem State.account_apsel (s : State) (b : Option Nat) (r ri : RegSpec) (n : Nat) : (s.account b r ri n).apsel = s.apsel := (s.account_same b r ri n).field State.apsel
@[simp] theorem State.account_msixTable (s : State) (b : Option Nat) (r ri : RegSpec) (n : Nat) : (s.account b r ri n).msixTable = s.msixTable := (s.account_same b r ri n).field State.msixTable
@[simp] theorem State.account_bar2 (s : State) (b : Option Nat) (r ri : RegSpec) (n : Nat) : (s.account b r ri n).bar2 = s.bar2 := (s.account_same b r ri n).field State.bar2
@[simp] theorem State.account_hostOut (s : State) (b : Option Nat) (r ri : RegSpec) (n : Nat) : (s.account b r ri n).hostOut = s.hostOut := (s.account_same b r ri n).field State.hostOut
@[simp] theorem State.account_atsOn (s : State) (b : Option Nat) (r ri : RegSpec) (n : Nat) : (s.account b r ri n).atsOn = s.atsOn := (s.account_same b r ri n).field State.atsOn
@[simp] theorem State.account_atc (s : State) (b : Option Nat) (r ri : RegSpec) (n : Nat) : (s.account b r ri n).atc = s.atc := (s.account_same b r ri n).field State.atc
@[simp] theorem State.account_atsInval (s : State) (b : Option Nat) (r ri : RegSpec) (n : Nat) : (s.account b r ri n).atsInval = s.atsInval := (s.account_same b r ri n).field State.atsInval
@[simp] theorem State.account_dropTold (s : State) (b : Option Nat) (r ri : RegSpec) (n : Nat) : (s.account b r ri n).dropTold = s.dropTold := (s.account_same b r ri n).field State.dropTold
@[simp] theorem State.account_migSecret (s : State) (b : Option Nat) (r ri : RegSpec) (n : Nat) : (s.account b r ri n).migSecret = s.migSecret := (s.account_same b r ri n).field State.migSecret
@[simp] theorem State.account_flr (s : State) (b : Option Nat) (r ri : RegSpec) (n : Nat) : (s.account b r ri n).flr = s.flr := (s.account_same b r ri n).field State.flr
@[simp] theorem State.account_nonceLive (s : State) (b : Option Nat) (r ri : RegSpec) (n : Nat) : (s.account b r ri n).nonceLive = s.nonceLive := (s.account_same b r ri n).field State.nonceLive
@[simp] theorem State.account_vfOn (s : State) (b : Option Nat) (r ri : RegSpec) (n : Nat) : (s.account b r ri n).vfOn = s.vfOn := (s.account_same b r ri n).field State.vfOn
@[simp] theorem State.account_vfReady (s : State) (b : Option Nat) (r ri : RegSpec) (n : Nat) : (s.account b r ri n).vfReady = s.vfReady := (s.account_same b r ri n).field State.vfReady
@[simp] theorem State.account_measLog (s : State) (b : Option Nat) (r ri : RegSpec) (n : Nat) : (s.account b r ri n).measLog = s.measLog := (s.account_same b r ri n).field State.measLog

end Sys2Proof.Machine
end

