-- ==== Sys2Proof/Laws/Pilot.lean ====
section
/-! SUPPORT. What each operation that commands the Pilot does to it: its fields keep their bounds, its counters never go down, and the queue is left alone. -/
namespace Sys2Proof.Machine

/-- `t` comes after `s`: counters no lower, bounds kept, the queue as it was. -/
def Kept (s t : State) : Prop := s.pilot.NoLower t.pilot ∧ (s.pilot.Ok → t.pilot.Ok) ∧ t.pending = s.pending

theorem Kept.refl (s : State) : Kept s s := ⟨⟨Nat.le_refl _, Nat.le_refl _, Nat.le_refl _, Nat.le_refl _⟩, id, rfl⟩

theorem Kept.trans {s t u : State} (h : Kept s t) (k : Kept t u) : Kept s u :=
  ⟨⟨h.1.1.trans k.1.1, h.1.2.1.trans k.1.2.1, h.1.2.2.1.trans k.1.2.2.1, h.1.2.2.2.trans k.1.2.2.2⟩, k.2.1 ∘ h.2.1, k.2.2.trans h.2.2⟩

/-- A command that is none of the Pilot's. -/
theorem Kept.keep (s t : State) : Kept s (s.keepPilot t) := Kept.refl s

/-- A state with the same Pilot and queue. -/
theorem Kept.of_eq {s t : State} (h : t.pilot = s.pilot) (k : t.pending = s.pending) : Kept s t := by
  rw [Kept, h, k]; exact Kept.refl s

/-- A change of the Pilot that lowers no counter and keeps the bounds. -/
theorem Kept.pilot (s : State) (f : Pilot → Pilot) (h : s.pilot.NoLower (f s.pilot)) (k : s.pilot.Ok → (f s.pilot).Ok) : Kept s (s.setPilot f) := ⟨h, k, rfl⟩

theorem Kept.fold {α : Type} (l : List α) (f : State → α → State) (h : ∀ s x, Kept s (f s x)) (s : State) : Kept s (l.foldl f s) := by
  induction l generalizing s with
  | nil => exact Kept.refl s
  | cons x r ih => exact (h s x).trans (ih _)

theorem Kept.ite (c : Prop) [Decidable c] {s t u : State} (h : Kept s t) (k : Kept s u) : Kept s (if c then t else u) := by
  split
  · exact h
  · exact k

@[simp] theorem State.setPilot_pilot (s : State) (f : Pilot → Pilot) : (s.setPilot f).pilot = f s.pilot := rfl

/-! ### Starts -/

theorem kept_packageReset (s : State) : Kept s s.packageReset := by
  refine ⟨⟨Nat.le_refl _, Nat.le_refl _, Nat.le_refl _, Nat.le_refl _⟩, fun h => ?_, rfl⟩
  simp only [Pilot.Ok, State.packageReset] at h ⊢
  refine ⟨h.1, by split <;> omega, h.2.2.1, h.2.2.2.1, h.2.2.2.2.1, h.2.2.2.2.2.1, h.2.2.2.2.2.2.1, h.2.2.2.2.2.2.2.1, fun hp => ?_⟩
  split at hp <;> omega

theorem packageReset_phase (s : State) : s.packageReset.pilot.phase ≤ 1 := by
  simp only [State.packageReset]; split <;> omega

theorem kept_pushCause (s : State) (r : BitVec 512) : Kept s (s.pushCause r) := by
  refine Kept.trans (Kept.pilot s _ ⟨Nat.le_refl _, Nat.le_refl _, Nat.le_refl _, Nat.le_refl _⟩ ?_) (Kept.keep _ _)
  simp only [Pilot.Ok]
  intro h
  exact ⟨h.1, h.2.1, h.2.2.1, h.2.2.2.1, h.2.2.2.2.1, h.2.2.2.2.2.1, by rw [List.length_take]; omega, h.2.2.2.2.2.2.2⟩

theorem kept_counted (s : State) : Kept s (s.setPilot (fun p => { p with uncounted := false })) := ⟨⟨Nat.le_refl _, Nat.le_refl _, Nat.le_refl _, Nat.le_refl _⟩, id, rfl⟩

theorem kept_startFails (s : State) (code detail pclk : Nat) : Kept s (s.startFails code detail pclk) := by
  unfold State.startFails; exact ((kept_pushCause _ _).trans (kept_packageReset _)).trans (kept_counted _)

theorem startFails_phase (s : State) (code detail pclk : Nat) : (s.startFails code detail pclk).pilot.phase ≤ 1 := by
  unfold State.startFails; rw [State.setPilot_pilot]; exact packageReset_phase _

theorem kept_pilotReset (s : State) (detail : Nat) : Kept s (s.pilotReset detail) := by
  unfold State.pilotReset; exact Kept.ite _ (kept_startFails _ _ _ _) (kept_packageReset _)

theorem kept_countStart (s : State) (g : Bool) : Kept s (s.countStart g).1 := by
  unfold State.countStart; dsimp only
  split
  · refine Kept.pilot _ _ ⟨Nat.le_refl _, Nat.le_refl _, Nat.le_refl _, Nat.le_refl _⟩ ?_
    simp only [Pilot.Ok]; rintro ⟨h1, h2, h3, h4, h5, h6, h7⟩
    exact ⟨h1, h2, h3, h4, Nat.le_refl _, h6, h7⟩
  · refine Kept.pilot _ _ ⟨Nat.le_succ _, Nat.le_refl _, Nat.le_refl _, Nat.le_refl _⟩ ?_
    simp only [Pilot.Ok]; rintro ⟨h1, h2, h3, h4, h5, h6, h7⟩
    exact ⟨h1, h2, h3, h4, Nat.le_refl _, Nat.le_succ_of_le h6, h7⟩

theorem countStart_enabling (s : State) (g : Bool) : (s.countStart g).1.pilot.enabling = s.pilot.enabling := by
  unfold State.countStart; dsimp only; split <;> rfl

@[simp] theorem showPilot_pilot (s : State) : s.showPilot.pilot = s.pilot := State.keepPilot_pilot _ _
@[simp] theorem showPilot_pending (s : State) : s.showPilot.pending = s.pending := State.keepPilot_pending _ _

theorem kept_showPilot (s : State) : Kept s s.showPilot := Kept.of_eq (showPilot_pilot s) (showPilot_pending s)

/-- A part of the Pilot that no bound and no counter names. -/
theorem Kept.bystander (s : State) (f : Pilot → Pilot) (h : (f s.pilot).rpmc0 = s.pilot.rpmc0 ∧ (f s.pilot).svnMin = s.pilot.svnMin ∧
    (f s.pilot).lifeCycle = s.pilot.lifeCycle ∧ (f s.pilot).ownerEpoch = s.pilot.ownerEpoch)
    (k : (f s.pilot).phase = s.pilot.phase ∧ (f s.pilot).active = s.pilot.active ∧ (f s.pilot).lastTried = s.pilot.lastTried ∧ (f s.pilot).n = s.pilot.n ∧
      (f s.pilot).good = s.pilot.good ∧ (f s.pilot).causes = s.pilot.causes ∧ (f s.pilot).deletions = s.pilot.deletions ∧ (f s.pilot).enabling = s.pilot.enabling) :
    Kept s (s.setPilot f) := by
  refine Kept.pilot s f ?_ ?_
  · rw [Pilot.NoLower, h.1, h.2.1, h.2.2.1, h.2.2.2]; exact ⟨Nat.le_refl _, Nat.le_refl _, Nat.le_refl _, Nat.le_refl _⟩
  · rw [Pilot.Ok, Pilot.Ok, h.1, h.2.2.1, k.1, k.2.1, k.2.2.1, k.2.2.2.1, k.2.2.2.2.1, k.2.2.2.2.2.1, k.2.2.2.2.2.2.1, k.2.2.2.2.2.2.2]; exact id

/-- The Pilot enters a phase of the firmware, with no rail awaited. -/
theorem Kept.phase {s t : State} (p : Nat) (hp : p ≤ 3) (h : s.pilot.Ok → s.pilot.enabling = none)
    (ht : ∃ e g w, t.pilot = { s.pilot with phase := p, enables := e, pg := g, thermTrip := false, wakePin := w }) (hq : t.pending = s.pending) : Kept s t := by
  obtain ⟨e, g, w, ht⟩ := ht
  rw [Kept, hq, ht]
  exact ⟨⟨Nat.le_refl _, Nat.le_refl _, Nat.le_refl _, Nat.le_refl _⟩, fun k => ⟨k.1, hp, k.2.2.1, k.2.2.2.1, k.2.2.2.2.1, k.2.2.2.2.2.1, k.2.2.2.2.2.2.1,
    k.2.2.2.2.2.2.2.1, fun _ => h k⟩, rfl⟩

theorem bringUp_pilot (s : State) (x : Bringup) (warm : Bool) :
    (s.bringUp x warm).pilot = { s.pilot with phase := 2, enables := 0x1F, pg := 0x1F, thermTrip := false, wakePin := false } := by
  unfold State.bringUp; rw [showPilot_pilot, State.setPilot_pilot, State.keepPilot_pilot]
theorem bringUp_pending (s : State) (x : Bringup) (warm : Bool) : (s.bringUp x warm).pending = s.pending := by
  unfold State.bringUp; rw [showPilot_pending, State.setPilot_pending, State.keepPilot_pending]

theorem kept_bringUp (s : State) (x : Bringup) (warm : Bool) (h : s.pilot.Ok → s.pilot.enabling = none) : Kept s (s.bringUp x warm) :=
  Kept.phase 2 (by omega) h ⟨_, _, _, bringUp_pilot s x warm⟩ (bringUp_pending s x warm)

theorem boxroom_pilot (s : State) : s.boxroom.pilot = { s.pilot with phase := 3, enables := 0x13, pg := 0x13, thermTrip := false } := by
  unfold State.boxroom; rw [showPilot_pilot, State.setPilot_pilot, State.keepPilot_pilot]
theorem boxroom_pending (s : State) : s.boxroom.pending = s.pending := by
  unfold State.boxroom; rw [showPilot_pending, State.setPilot_pending, State.keepPilot_pending]

theorem kept_boxroom (s : State) (h : s.pilot.Ok → s.pilot.enabling = none) : Kept s s.boxroom :=
  Kept.phase 3 (by omega) h ⟨_, _, _, boxroom_pilot s⟩ (boxroom_pending s)

theorem kept_stage (s : State) (n : Nat) : Kept s (s.setPilot (fun p => { p with stage := n })) :=
  Kept.bystander _ _ ⟨rfl, rfl, rfl, rfl⟩ ⟨rfl, rfl, rfl, rfl, rfl, rfl, rfl, rfl⟩

theorem kept_tried (s : State) (n k : Nat) (h : s.pilot.Ok → k ≤ 1) : Kept s (s.setPilot (fun p => { p with stage := n, lastTried := k })) :=
  Kept.pilot _ _ ⟨Nat.le_refl _, Nat.le_refl _, Nat.le_refl _, Nat.le_refl _⟩ fun o => ⟨o.1, o.2.1, o.2.2.1, h o, o.2.2.2.2⟩

theorem chooseImage_slot {s : State} {x : Bringup} {k v : Nat} {m : BitVec 512} (h : s.chooseImage x = some (k, v, m)) (ok : s.pilot.active ≤ 1) : k ≤ 1 := by
  unfold State.chooseImage at h
  dsimp only at h
  generalize s.slotImage x s.pilot.active = o at h
  generalize s.slotImage x (1 - s.pilot.active) = q at h
  generalize s.pilot.active = a at h ok
  rcases o with _ | ⟨v', m'⟩
  · rcases q with _ | ⟨v', m'⟩
    · cases h
    · cases h; omega
  · cases h; omega

theorem kept_coldStart (s : State) (x : Bringup) : Kept s (s.coldStart x) := by
  unfold State.coldStart
  split
  · exact Kept.refl s
  · next hc =>
    have he : s.pilot.enabling = none := by
      cases h : s.pilot.enabling with
      | none => rfl
      | some g => exact absurd (.inr (by simp [h])) hc
    have hk : Kept s (s.packageReset.countStart x.goodReads).1 := (kept_packageReset s).trans (kept_countStart _ _)
    have hn : (s.packageReset.countStart x.goodReads).1.pilot.enabling = none := by rw [countStart_enabling]; exact he
    split
    · next b heq => rw [heq] at hk hn; exact hk.trans (kept_boxroom _ fun _ => hn)
    · next b heq =>
      rw [heq] at hk hn
      refine hk.trans ?_
      split
      · exact (kept_stage _ _).trans (kept_startFails _ _ _ _)
      · split
        · exact (kept_stage _ _).trans (kept_startFails _ _ _ _)
        · split
          · exact (kept_tried _ _ _ fun o => Nat.sub_le _ _).trans (kept_startFails _ _ _ _)
          · next k v m hi =>
            have h1 := kept_tried b 9 k fun o => chooseImage_slot hi o.2.2.1
            dsimp only
            have hm : ∀ q : State, q.pilot = (b.setPilot (fun p => { p with stage := 9, lastTried := k })).pilot → q.pending = b.pending →
                Kept b (if x.fatal ≠ 0 then q.startFails 6 x.fatal x.pclk
                  else if (x.dies &&& x.undercrofts) = 0 then (q.setPilot (fun p => { p with stage := 11 })).startFails 7 0 x.pclk
                  else (q.bringUp x false).applyDeletions) := fun q hq hp => by
              have h2 := h1.trans (Kept.of_eq hq hp)
              refine h2.trans ?_
              split
              · exact kept_startFails _ _ _ _
              · split
                · exact (kept_stage _ _).trans (kept_startFails _ _ _ _)
                · unfold State.applyDeletions
                  exact (kept_bringUp _ _ _ fun _ => by rw [hq]; exact hn).trans (Kept.keep _ _)
            exact hm _ (State.keepPilot_pilot _ _) (State.keepPilot_pending _ _)

theorem startSucceeds_pilot (s : State) : s.startSucceeds.pilot =
    { s.pilot with phase := 3, fails := 0, good := if s.pilot.uncounted then s.pilot.good else s.pilot.n, uncounted := false, stage := 14 } := by
  unfold State.startSucceeds; rw [showPilot_pilot, State.setPilot_pilot, State.keepPilot_pilot]

theorem kept_startSucceeds (s : State) (h : s.pilot.Ok → s.pilot.enabling = none) : Kept s s.startSucceeds := by
  have hq : s.startSucceeds.pending = s.pending := by
    unfold State.startSucceeds; rw [showPilot_pending, State.setPilot_pending, State.keepPilot_pending]
  rw [Kept, hq, startSucceeds_pilot]
  refine ⟨⟨Nat.le_refl _, Nat.le_refl _, Nat.le_refl _, Nat.le_refl _⟩, fun k => ?_, rfl⟩
  refine ⟨k.1, Nat.le_refl 3, k.2.2.1, k.2.2.2.1, k.2.2.2.2.1, ?_, k.2.2.2.2.2.2.1, k.2.2.2.2.2.2.2.1, fun _ => h k⟩
  dsimp only; split
  · exact k.2.2.2.2.2.1
  · exact k.2.2.2.2.1

theorem kept_watchdog (s : State) (stage detail : Nat) : Kept s (s.watchdog stage detail) := by
  unfold State.watchdog; exact Kept.ite _ ((kept_stage _ _).trans (kept_startFails _ _ _ _)) (Kept.refl s)

theorem warmReset_pilot (s : State) : s.warmReset.pilot = { s.pilot with restarts := s.pilot.restarts + 1 } := by
  unfold State.warmReset; rw [State.keepPilot_pilot, State.keepPilot_pilot]
theorem warmReset_pending (s : State) : s.warmReset.pending = s.pending := by
  unfold State.warmReset; rw [State.keepPilot_pending, State.keepPilot_pending]

theorem kept_warmReset (s : State) : Kept s s.warmReset := by
  rw [Kept, warmReset_pilot, warmReset_pending]; exact ⟨⟨Nat.le_refl _, Nat.le_refl _, Nat.le_refl _, Nat.le_refl _⟩, id, rfl⟩

theorem kept_warmRestart (s : State) (x : Bringup) : Kept s (s.warmRestart x) := by
  unfold State.warmRestart
  split
  · exact Kept.refl s
  · next hp =>
    have hk := kept_countStart s x.goodReads
    have hn : s.pilot.Ok → (s.countStart x.goodReads).1.pilot.enabling = none := fun o => by
      rw [countStart_enabling]; exact o.2.2.2.2.2.2.2.2 (by omega)
    have ho : ∀ t : State, Kept (s.countStart x.goodReads).1 t → (s.pilot.Ok → Kept (s.countStart x.goodReads).1 t) := fun _ h _ => h
    -- the bounds of what follows rest on the bounds of `s`
    have join : ∀ t : State, (s.pilot.Ok → Kept (s.countStart x.goodReads).1 t) →
        ((s.countStart x.goodReads).1.pilot.NoLower t.pilot ∧ t.pending = (s.countStart x.goodReads).1.pending) → Kept s t := fun t h k =>
      ⟨⟨hk.1.1.trans k.1.1, hk.1.2.1.trans k.1.2.1, hk.1.2.2.1.trans k.1.2.2.1, hk.1.2.2.2.trans k.1.2.2.2⟩,
        fun o => (h o).2.1 (hk.2.1 o), k.2.trans hk.2.2⟩
    split
    · next b heq =>
      rw [heq] at join hn
      refine join _ (fun o => (kept_packageReset _).trans (kept_boxroom _ fun _ => hn o)) ⟨?_, ?_⟩
      · rw [boxroom_pilot]; exact (kept_packageReset b).1
      · rw [boxroom_pending]; exact (kept_packageReset b).2.2
    · next b heq =>
      rw [heq] at join hn hk
      have h1 : Kept b (b.setPilot (fun p => { p with warm := true, stage := 9 })) :=
        Kept.bystander _ _ ⟨rfl, rfl, rfl, rfl⟩ ⟨rfl, rfl, rfl, rfl, rfl, rfl, rfl, rfl⟩
      dsimp only
      split
      · exact hk.trans (h1.trans (kept_startFails _ _ _ _))
      · split
        · exact hk.trans (h1.trans ((kept_stage _ _).trans (kept_startFails _ _ _ _)))
        · refine join _ (fun o => (h1.trans (kept_warmReset _)).trans (kept_bringUp _ _ _ fun _ => ?_))
            ⟨?_, ?_⟩
          · rw [warmReset_pilot]; exact hn o
          · rw [bringUp_pilot, warmReset_pilot]; exact h1.1
          · rw [bringUp_pending, warmReset_pending]; exact h1.2.2

end Sys2Proof.Machine
end

