-- ==== Sys2Proof/Laws/PilotCommands.lean ====
section
/-! SUPPORT. What the commands that reach the Pilot do to it, one lemma for each (see Laws/Pilot.lean). -/
namespace Sys2Proof.Machine

theorem Kept.after {s t u : State} (h : Kept t u) (hp : t.pilot = s.pilot) (hq : t.pending = s.pending) : Kept s u := (Kept.of_eq hp hq).trans h

theorem le4 {a b c d : Nat} : a ≤ a ∧ b ≤ b ∧ c ≤ c ∧ d ≤ d := ⟨Nat.le_refl _, Nat.le_refl _, Nat.le_refl _, Nat.le_refl _⟩

/-! ### Pins -/

/-- The phase is that of no start or of a start that is due: nothing else that a bound names changes but the rail awaited. -/
theorem Kept.early (s : State) (f : Pilot → Pilot) (h : (f s.pilot).rpmc0 = s.pilot.rpmc0 ∧ (f s.pilot).svnMin = s.pilot.svnMin ∧
    (f s.pilot).lifeCycle = s.pilot.lifeCycle ∧ (f s.pilot).ownerEpoch = s.pilot.ownerEpoch)
    (k : (f s.pilot).active = s.pilot.active ∧ (f s.pilot).lastTried = s.pilot.lastTried ∧ (f s.pilot).n = s.pilot.n ∧
      (f s.pilot).good = s.pilot.good ∧ (f s.pilot).causes = s.pilot.causes ∧ (f s.pilot).deletions = s.pilot.deletions)
    (hp : (f s.pilot).phase ≤ 1) : Kept s (s.setPilot f) := by
  refine Kept.pilot s f ?_ fun o => ?_
  · rw [Pilot.NoLower, h.1, h.2.1, h.2.2.1, h.2.2.2]; exact le4
  · rw [Pilot.Ok, h.1, h.2.2.1, k.1, k.2.1, k.2.2.1, k.2.2.2.1, k.2.2.2.2.1, k.2.2.2.2.2]
    exact ⟨o.1, by omega, o.2.2.1, o.2.2.2.1, o.2.2.2.2.1, o.2.2.2.2.2.1, o.2.2.2.2.2.2.1, o.2.2.2.2.2.2.2.1, fun h2 => by omega⟩

theorem kept_beginRails (s : State) (hp : s.pilot.phase ≤ 1) : Kept s s.beginRails :=
  Kept.early _ _ ⟨rfl, rfl, rfl, rfl⟩ ⟨rfl, rfl, rfl, rfl, rfl, rfl⟩ hp

theorem kept_pwrokRise (s : State) : Kept s s.pwrokRise := by
  unfold State.pwrokRise; split
  · exact Kept.refl s
  · refine Kept.trans (Kept.early _ _ ⟨rfl, rfl, rfl, rfl⟩ ⟨rfl, rfl, rfl, rfl, rfl, rfl⟩ ?_) (kept_beginRails _ ?_) <;>
      (simp only [State.setPilot_pilot]; split <;> omega)

theorem kept_pwrokFall (s : State) : Kept s s.pwrokFall := by
  unfold State.pwrokFall; split
  · exact Kept.refl s
  · exact Kept.trans ((Kept.early _ _ ⟨rfl, rfl, rfl, rfl⟩ ⟨rfl, rfl, rfl, rfl, rfl, rfl⟩ (Nat.zero_le _)).trans (kept_packageReset _))
      (Kept.early _ _ ⟨rfl, rfl, rfl, rfl⟩ ⟨rfl, rfl, rfl, rfl, rfl, rfl⟩ (packageReset_phase _))

theorem kept_perstAssert (s : State) : Kept s s.perstAssert := by
  unfold State.perstAssert; split
  · exact Kept.refl s
  · split
    · exact Kept.bystander _ _ ⟨rfl, rfl, rfl, rfl⟩ ⟨rfl, rfl, rfl, rfl, rfl, rfl, rfl, rfl⟩
    · exact (Kept.early _ _ ⟨rfl, rfl, rfl, rfl⟩ ⟨rfl, rfl, rfl, rfl, rfl, rfl⟩ (Nat.zero_le _)).trans (kept_packageReset _)

theorem kept_perstDeassert (s : State) : Kept s s.perstDeassert := by
  unfold State.perstDeassert; split
  · exact Kept.refl s
  · split
    · exact Kept.bystander _ _ ⟨rfl, rfl, rfl, rfl⟩ ⟨rfl, rfl, rfl, rfl, rfl, rfl, rfl, rfl⟩
    · have h := (kept_packageReset s).trans (Kept.early s.packageReset
        (fun p => { p with perst := false, stage := 1, phase := if p.extest then 0 else 1, wakePin := false })
        ⟨rfl, rfl, rfl, rfl⟩ ⟨rfl, rfl, rfl, rfl, rfl, rfl⟩ (by dsimp only; split <;> omega))
      dsimp only
      split
      · exact h.trans (kept_beginRails _ (by rw [State.setPilot_pilot]; dsimp only; split <;> omega))
      · exact h

theorem kept_railsFail (s : State) (g stage : Nat) : Kept s (s.railsFail g stage) := by
  unfold State.railsFail
  exact (((kept_countStart s true).trans (kept_stage _ _)).trans (kept_startFails _ _ _ _)).trans (kept_beginRails _ (startFails_phase _ _ _ _))

theorem kept_pg (s : State) (v : BitVec 5) : Kept s (s.setPilot (fun p => { p with pg := v })) :=
  Kept.bystander _ _ ⟨rfl, rfl, rfl, rfl⟩ ⟨rfl, rfl, rfl, rfl, rfl, rfl, rfl, rfl⟩

/-- While a rail is awaited the next may be awaited in its place. -/
theorem kept_awaited (s : State) (f : Pilot → Pilot) (h : (f s.pilot).rpmc0 = s.pilot.rpmc0 ∧ (f s.pilot).svnMin = s.pilot.svnMin ∧
    (f s.pilot).lifeCycle = s.pilot.lifeCycle ∧ (f s.pilot).ownerEpoch = s.pilot.ownerEpoch)
    (k : (f s.pilot).active = s.pilot.active ∧ (f s.pilot).lastTried = s.pilot.lastTried ∧ (f s.pilot).n = s.pilot.n ∧
      (f s.pilot).good = s.pilot.good ∧ (f s.pilot).causes = s.pilot.causes ∧ (f s.pilot).deletions = s.pilot.deletions ∧ (f s.pilot).phase = s.pilot.phase)
    (he : s.pilot.enabling ≠ none) : Kept s (s.setPilot f) := by
  refine Kept.pilot s f ?_ fun o => ?_
  · rw [Pilot.NoLower, h.1, h.2.1, h.2.2.1, h.2.2.2]; exact le4
  · rw [Pilot.Ok, h.1, h.2.2.1, k.1, k.2.1, k.2.2.1, k.2.2.2.1, k.2.2.2.2.1, k.2.2.2.2.2.1, k.2.2.2.2.2.2]
    exact ⟨o.1, o.2.1, o.2.2.1, o.2.2.2.1, o.2.2.2.2.1, o.2.2.2.2.2.1, o.2.2.2.2.2.2.1, o.2.2.2.2.2.2.2.1, fun h2 => absurd (o.2.2.2.2.2.2.2.2 h2) he⟩

theorem kept_pgRise (s : State) (g : Nat) : Kept s (s.pgRise g) := by
  unfold State.pgRise; dsimp only; split
  · exact Kept.refl s
  · have h1 : Kept s (s.setPilot (fun p => { p with pg := p.pg ||| BitVec.ofNat 5 (2 ^ g) })) := kept_pg s _
    split
    · exact h1
    · next he =>
      have hne : s.pilot.enabling ≠ none := by intro h; rw [h] at he; simp at he
      refine h1.trans ?_
      split
      · exact kept_awaited _ _ ⟨rfl, rfl, rfl, rfl⟩ ⟨rfl, rfl, rfl, rfl, rfl, rfl, rfl⟩ hne
      · exact kept_awaited _ _ ⟨rfl, rfl, rfl, rfl⟩ ⟨rfl, rfl, rfl, rfl, rfl, rfl, rfl⟩ hne

theorem kept_pgTimeout (s : State) (stage : Nat) : Kept s (s.pgTimeout stage) := by
  unfold State.pgTimeout; split
  · exact kept_railsFail _ _ _
  · exact Kept.refl s

theorem kept_dropNext (s : State) : Kept s s.dropNext := by
  unfold State.dropNext; split
  · exact Kept.bystander _ _ ⟨rfl, rfl, rfl, rfl⟩ ⟨rfl, rfl, rfl, rfl, rfl, rfl, rfl, rfl⟩
  · exact Kept.bystander _ _ ⟨rfl, rfl, rfl, rfl⟩ ⟨rfl, rfl, rfl, rfl, rfl, rfl, rfl, rfl⟩
  · exact Kept.refl s

theorem kept_pgFall (s : State) (g stage : Nat) : Kept s (s.pgFall g stage) := by
  unfold State.pgFall; split
  · exact Kept.refl s
  · split
    · exact kept_railsFail _ _ _
    · have h1 : Kept s (s.setPilot (fun p => { p with pg := p.pg &&& ~~~ BitVec.ofNat 5 (2 ^ g) })) := kept_pg s _
      dsimp only; split
      · exact h1.trans (kept_dropNext _)
      · exact h1

/-! ### Security commands -/

theorem kept_secCmd (s : State) (w : Writer) (cmd : Nat) (ok : Bool) (f : State → State) (h : isManager w = true → ok = true → ∀ t : State, t.pilot = s.pilot → Kept t (f t)) :
    Kept s (s.secCmd w cmd ok f) := by
  unfold State.secCmd; split
  · next hc =>
    simp only [Bool.and_eq_true] at hc
    exact (Kept.keep _ _).trans (h hc.1 hc.2 _ (State.keepPilot_pilot _ _))
  · exact Kept.keep _ _

theorem kept_commitSvn (s : State) (w : Writer) : Kept s (s.commitSvn w) := by
  unfold State.commitSvn
  refine kept_secCmd _ _ _ _ _ fun _ _ t _ => ?_
  refine Kept.trans ((Kept.keep t _).trans (Kept.pilot _ _ ⟨Nat.le_refl _, Nat.le_max_left _ _, Nat.le_refl _, Nat.le_refl _⟩ id)) (kept_showPilot _)

theorem kept_retryNow (s : State) : Kept s s.retryNow := by
  unfold State.retryNow
  refine Kept.trans (Kept.pilot _ _ ⟨Nat.le_refl _, Nat.le_refl _, Nat.le_refl _, Nat.le_refl _⟩ fun o => ?_) (kept_packageReset _)
  exact ⟨o.1, o.2.1, o.2.2.1, o.2.2.2.1, o.2.2.2.2.1, o.2.2.2.2.1, o.2.2.2.2.2.2⟩

theorem kept_retryStart (s : State) (w : Writer) : Kept s (s.retryStart w) := by
  unfold State.retryStart; exact kept_secCmd _ _ _ _ _ fun _ _ t _ => kept_retryNow t

/-- An accepted token moves the life cycle one step on, or sets a debug state, or counts a new owner. -/
theorem kept_tokenAct (s : State) (kind pk : Nat) (h3 : kind = 3 → s.pilot.lifeCycle = 0) (h4 : kind = 4 → s.pilot.lifeCycle = 1) : Kept s (s.tokenAct kind pk) := by
  unfold State.tokenAct; split
  · exact Kept.keep _ _
  · exact Kept.keep _ _
  · have := h3 rfl
    refine Kept.trans (Kept.pilot _ _ ⟨Nat.le_refl _, Nat.le_refl _, ?_, Nat.le_refl _⟩ fun o => ?_) (kept_packageReset _)
    · show s.pilot.lifeCycle ≤ 1; omega
    · exact ⟨by show 1 ≤ 2; omega, o.2⟩
  · have := h4 rfl
    refine Kept.trans (Kept.pilot _ _ ⟨Nat.le_refl _, Nat.le_refl _, ?_, Nat.le_refl _⟩ fun o => ?_) (kept_packageReset _)
    · show s.pilot.lifeCycle ≤ 2; omega
    · exact ⟨by show 2 ≤ 2; omega, o.2⟩
  · exact Kept.trans (Kept.pilot _ _ ⟨Nat.le_refl _, Nat.le_refl _, Nat.le_refl _, Nat.le_succ _⟩ id) (kept_showPilot _)

/-- A token that is accepted has a KIND that the life cycle allows. -/
theorem tokenResult_kind (s : State) (fails v o : Bool) (h : s.tokenResult fails v o = 0) :
    s.kindResult (s.peekNat (s.fld Reg.SEC_TOKEN_ADDR [] F.SEC_TOKEN_ADDR_ADDR + 4) 1) = 0 := by
  unfold State.tokenResult at h
  dsimp only at h
  split at h; · cases h
  split at h; · cases h
  split at h; · cases h
  split at h; · cases h
  split at h; · cases h
  split at h
  · next hk => exact absurd h hk
  · next hk => exact Classical.not_not.mp hk

theorem kindResult_deploy (s : State) (h : s.kindResult 3 = 0) : s.pilot.lifeCycle = 0 := by
  have h' : (if s.pilot.lifeCycle = 0 then 0 else 5) = 0 := h
  split at h'
  · assumption
  · omega

theorem kindResult_return (s : State) (h : s.kindResult 4 = 0) : s.pilot.lifeCycle = 1 := by
  have h' : (if s.pilot.lifeCycle = 1 then 0 else 5) = 0 := h
  split at h'
  · assumption
  · omega

theorem kept_applyToken (s : State) (w : Writer) (fails v o : Bool) : Kept s (s.applyToken w fails v o) := by
  unfold State.applyToken
  refine kept_secCmd _ _ _ _ _ fun _ _ t _ => ?_
  dsimp only
  split
  · next hr =>
    have hk := tokenResult_kind t fails v o hr
    refine (Kept.keep t _).trans (kept_tokenAct _ _ _ (fun h => ?_) (fun h => ?_))
    · rw [h] at hk; rw [State.keepPilot_pilot]; exact kindResult_deploy t hk
    · rw [h] at hk; rw [State.keepPilot_pilot]; exact kindResult_return t hk
  · exact Kept.keep t _

theorem kept_recover (s : State) (w : Writer) (fails sig : Bool) : Kept s (s.recover w fails sig) := by
  unfold State.recover
  refine kept_secCmd _ _ _ _ _ fun _ _ t _ => ?_
  dsimp only
  split; · exact Kept.keep t _
  split; · exact Kept.keep t _
  split; · exact Kept.keep t _
  split; · exact Kept.keep t _
  split; · exact Kept.keep t _
  refine Kept.trans (Kept.pilot _ _ ?_ fun o => ?_) (kept_retryNow _)
  · split <;> exact le4
  · split
    · exact ⟨o.1, o.2.1, Nat.zero_le _, o.2.2.2⟩
    · exact ⟨o.1, o.2.1, Nat.le_refl 1, o.2.2.2⟩

theorem kept_extestEntry (s : State) : Kept s s.extestEntry := by
  unfold State.extestEntry; split
  · exact Kept.refl s
  · refine Kept.trans (Kept.pilot _ _ ⟨Nat.le_refl _, Nat.le_refl _, Nat.le_refl _, Nat.le_refl _⟩ fun o => ?_) (kept_packageReset _)
    exact ⟨o.1, o.2.1, o.2.2.1, o.2.2.2.1, o.2.2.2.2.1, Nat.le_refl _, o.2.2.2.2.2.2⟩

theorem kept_extestExit (s : State) : Kept s s.extestExit := by
  unfold State.extestExit; split
  · exact Kept.early _ _ ⟨rfl, rfl, rfl, rfl⟩ ⟨rfl, rfl, rfl, rfl, rfl, rfl⟩ (by dsimp only; split <;> omega)
  · exact Kept.refl s

/-! ### Power, clocks, die losses, deletions, the host link -/

theorem kept_d3coldEntry (s : State) : Kept s s.d3coldEntry := by
  unfold State.d3coldEntry; split
  · exact Kept.refl s
  · dsimp only
    refine (((Kept.keep s s.flushAll).trans (Kept.early _ (fun p => { p with phase := 0 }) ⟨rfl, rfl, rfl, rfl⟩ ⟨rfl, rfl, rfl, rfl, rfl, rfl⟩ (Nat.zero_le _))).trans (kept_packageReset _)).trans ?_
    exact (Kept.keep _ _).trans (Kept.bystander _ _ ⟨rfl, rfl, rfl, rfl⟩ ⟨rfl, rfl, rfl, rfl, rfl, rfl, rfl, rfl⟩)

theorem kept_dieLost (s : State) (d cause : Nat) : Kept s (s.dieLost d cause) := by
  unfold State.dieLost; exact Kept.ite _ (kept_pilotReset _ _) (Kept.keep _ _)

theorem kept_temperature (s : State) (d : Nat) (tc tu : Byte) : Kept s (s.temperature d tc tu) := by
  unfold State.temperature; split
  · exact Kept.refl s
  · dsimp only; split
    · exact ((Kept.keep s _).trans (Kept.bystander _ _ ⟨rfl, rfl, rfl, rfl⟩ ⟨rfl, rfl, rfl, rfl, rfl, rfl, rfl, rfl⟩)).trans (kept_dieLost _ _ _)
    · exact Kept.keep s _

theorem kept_linkSilence (s : State) (j d : Nat) (late : Bool) : Kept s (s.linkSilence j d late) := by
  unfold State.linkSilence; split
  · exact Kept.refl s
  · exact (Kept.keep s _).trans (Kept.ite _ (kept_dieLost _ _ _) (Kept.ite _ (Kept.keep _ _) (Kept.refl _)))

theorem kept_supplyTrip (s : State) (r : Nat) : Kept s (s.supplyTrip r) := by
  unfold State.supplyTrip
  exact Kept.ite _ (kept_dieLost _ _ _) (Kept.ite _ (kept_dieLost _ _ _) (Kept.ite _ (kept_dieLost _ _ _) (Kept.refl s)))

theorem kept_refCheck (s : State) (n : Nat) : Kept s (s.refCheck n) := by
  unfold State.refCheck; exact Kept.ite _ (Kept.refl s) ((Kept.keep s _).trans (kept_pilotReset _ _))

theorem kept_wakeOff (s : State) (f : State → State) : Kept s (s.wakeOff f) := by
  unfold State.wakeOff
  exact Kept.ite _ (Kept.bystander _ _ ⟨rfl, rfl, rfl, rfl⟩ ⟨rfl, rfl, rfl, rfl, rfl, rfl, rfl, rfl⟩) (Kept.keep _ _)

theorem kept_inboundRetrain (s : State) : Kept s s.inboundRetrain := kept_wakeOff s id

theorem kept_recordDeletion (s : State) (u st way : Nat) : Kept s (s.recordDeletion u st way) := by
  unfold State.recordDeletion; split
  · exact Kept.refl s
  · next h =>
    refine (Kept.keep s _).trans (Kept.pilot _ _ ⟨Nat.le_refl _, Nat.le_refl _, Nat.le_refl _, Nat.le_refl _⟩ fun o => ?_)
    refine ⟨o.1, o.2.1, o.2.2.1, o.2.2.2.1, o.2.2.2.2.1, o.2.2.2.2.2.1, o.2.2.2.2.2.2.1, ?_, o.2.2.2.2.2.2.2.2⟩
    rw [State.keepPilot_pilot, List.length_append]; simp only [List.length_cons, List.length_nil]; omega

theorem kept_deleteEnd (s : State) (u st : Nat) : Kept s (s.deleteEnd u st) := by
  unfold State.deleteEnd; split
  · exact Kept.refl s
  · dsimp only; split
    · exact Kept.refl s
    · exact ((Kept.keep s _).trans (kept_recordDeletion _ _ _ _)).trans (Kept.keep _ _)

theorem kept_configRequest (s : State) (f : InstId) (op : CfgOp) : Kept s (s.configRequest f op) := by
  unfold State.configRequest; split
  · exact Kept.refl s
  · split
    · next h => exact (kept_startSucceeds s fun o => o.2.2.2.2.2.2.2.2 (by omega)).trans (Kept.keep _ _)
    · exact Kept.keep _ _

/-! ### Register writes, by whoever makes them -/

theorem kept_draw (s : State) : Kept s s.draw.2 := Kept.of_eq rfl rfl

theorem kept_secWrite (s : State) (w : Writer) (v : DWord) : Kept s (s.secWrite w v) := by
  unfold State.secWrite; split
  · exact Kept.keep _ _
  · exact (kept_draw s).trans (kept_applyToken s.draw.2 w false _ _)
  · exact Kept.keep _ _
  · exact kept_commitSvn _ _
  · exact kept_retryStart _ _
  · exact (kept_draw s).trans (kept_recover s.draw.2 w false _)
  · exact Kept.keep _ _

theorem kept_writeAt (s : State) (w : Writer) (off : Nat) (v : DWord) : Kept s (s.writeAt w off v) := by
  unfold State.writeAt; exact Kept.ite _ (kept_secWrite _ _ _) (Kept.keep _ _)

theorem kept_regWrite (s : State) (w : Writer) (off width : Nat) (v : DWord) : Kept s (s.regWrite w off width v) := by
  unfold State.regWrite; dsimp only
  split; · exact Kept.refl s
  split; · exact Kept.keep _ _
  split; · exact Kept.keep _ _
  split
  · exact Kept.ite _ (kept_writeAt _ _ _ _) (Kept.keep _ _)
  · exact kept_writeAt _ _ _ _

theorem kept_replayWrites (s : State) (g : Nat) : Kept s (s.replayWrites g) := by
  unfold State.replayWrites; dsimp only
  exact Kept.after (Kept.fold _ _ (fun _ _ => kept_regWrite _ _ _ _ _) _) rfl rfl

theorem kept_wakeDone (s : State) (g : Nat) : Kept s (s.wakeDone g) := by
  unfold State.wakeDone; exact Kept.ite _ (Kept.refl s) ((Kept.keep s _).trans (kept_replayWrites _ _))

theorem kept_regAcc (s : State) (off : Nat) (v : Option DWord) : Kept s (s.regAcc off v) := by
  unfold State.regAcc
  split; · exact Kept.refl s
  split; · exact Kept.keep _ _
  split
  · exact kept_regWrite _ _ _ _ _
  · exact Kept.keep _ _
  · exact Kept.keep s _

theorem kept_joistTake (s : State) (d k : Nat) (ts : List Nat) (f : State → JoistMsg → State) (h : ∀ t m, Kept t (f t m)) : Kept s (s.joistTake d k ts f) := by
  unfold State.joistTake; split
  · split
    · exact Kept.after (h _ _) rfl rfl
    · exact Kept.refl s
  · exact Kept.refl s

theorem kept_placeWrite (s : State) (f own : Nat) (p : BarPlace) (v : DWord) : Kept s (s.placeWrite f own p v) := by
  unfold State.placeWrite; dsimp only
  split
  · exact kept_regWrite _ _ _ _ _
  · exact kept_regWrite _ _ _ _ _
  · exact Kept.keep _ _

theorem kept_barWrite (s : State) (r : HostIn) (bs : List Byte) : Kept s (s.barWrite r bs) := by
  unfold State.barWrite; split
  · refine Kept.fold _ _ (fun t o => ?_) s
    dsimp only; split
    · exact Kept.keep _ _
    · split
      · exact Kept.keep _ _
      · exact kept_placeWrite _ _ _ _ _
  · exact Kept.keep _ _

/-- The state that serving a request leaves. -/
def Served.state : Served → State
  | .done t => t
  | .wait t _ => t

theorem kept_served (s : State) (x : Served) : Kept s (Served.keepPilot s x).state := by
  cases x <;> exact Kept.keep _ _

theorem kept_hostServe (s : State) (r : HostIn) : Kept s (s.hostServe r).state := by
  unfold State.hostServe; split
  · exact kept_barWrite _ _ _
  · exact kept_served _ _
  · exact kept_served _ _
  · exact kept_served _ _

theorem kept_hostAdmit (s : State) (r : HostIn) : Kept s (s.hostAdmit r) := by
  have h := kept_hostServe s r
  unfold State.hostAdmit; split
  · exact Kept.of_eq rfl rfl
  · split
    · next t ht => rw [ht] at h; exact h
    · next t q ht => rw [ht] at h; exact h.trans (show Kept t _ from Kept.of_eq rfl rfl)

theorem kept_hostRetry (s : State) (f : Nat) : Kept s (s.hostRetry f) := by
  unfold State.hostRetry; split
  · exact Kept.refl s
  · next e he =>
    have h := kept_hostServe s e
    split
    · next t ht => rw [ht] at h; exact h.trans (show Kept t _ from Kept.of_eq rfl rfl)
    · next t q ht => rw [ht] at h; exact h.trans (show Kept t _ from Kept.of_eq rfl rfl)

theorem kept_hostRequest (s : State) (f : InstId) (bar off : Nat) (op : HostOp) (peer ide : Bool) : Kept s (s.hostRequest f bar off op peer ide) := by
  unfold State.hostRequest; split
  · exact Kept.refl s
  · refine Kept.ite _ (Kept.keep _ _) (Kept.ite _ (Kept.keep _ _) (Kept.ite _ (Kept.keep _ _) (Kept.ite _ (Kept.keep _ _) (Kept.ite _ (Kept.keep _ _) ?_))))
    exact (Kept.keep _ _).trans (kept_hostAdmit _ _)

/-- What a destination access performed leaves, where the register file's writes keep the bounds. -/
theorem kept_putBytes (s : State) (io : RegIo) (hio : ∀ t off v, Kept t (io.write t off v)) (p c : Nat) (a : Active) (n : Nat) (bs : List Byte) (q : Bool) (t : State)
    (h : s.putBytes io p c a n bs q = .done t) : Kept s t := by
  unfold State.putBytes at h; dsimp only at h
  split at h
  · cases h
  · cases h
  · cases h
  · split at h
    · split at h <;> cases h
    · split at h
      · cases h; exact (Kept.keep _ _).trans (Kept.keep _ _)
      · split at h
        · cases h; exact (Kept.keep _ _).trans (Kept.keep _ _)
        · cases h
      · split at h
        · cases h; exact (Kept.keep _ _).trans (Kept.keep _ _)
        · cases h
      · split at h
        · cases h
        · split at h
          · cases h; exact (Kept.keep _ _).trans (Kept.keep _ _)
          · cases h
      · cases h
      · cases h
        refine (Kept.keep _ _).trans (Kept.trans (Kept.fold _ _ (fun _ _ => hio _ _ _) _) (Kept.ite _ (Kept.refl _) (Kept.keep _ _)))
      · cases h

theorem kept_porterAccess (s : State) (io : RegIo) (hio : ∀ t off v, Kept t (io.write t off v)) (p c : Nat) : Kept s (State.porterAccess io s p c) := by
  unfold State.porterAccess; dsimp only
  split
  · exact Kept.refl s
  · split; · exact Kept.refl s
    split; · exact Kept.ite _ (Kept.keep _ _) (Kept.refl s)
    split; · exact Kept.refl s
    split; · exact Kept.refl s
    split
    · exact Kept.refl s
    · exact Kept.keep _ _
    · exact Kept.keep _ _
    · split
      · exact (Kept.keep _ _).trans (Kept.keep _ _)
      · split
        · exact (Kept.keep s _).trans (Kept.keep _ _)
        · exact ((Kept.keep s _).trans (Kept.keep _ _)).trans (Kept.keep _ _)
        · exact ((Kept.keep s _).trans (Kept.keep _ _)).trans (Kept.keep _ _)
        · next t ht => exact ((Kept.keep s _).trans (Kept.keep _ _)).trans ((kept_putBytes _ io hio _ _ _ _ _ _ _ ht).trans (Kept.keep _ _))
        · exact ((Kept.keep s _).trans (Kept.keep _ _)).trans (Kept.keep _ _)

theorem kept_tick (s : State) : Kept s s.tick := by
  unfold State.tick; split
  · exact Kept.refl s
  · dsimp only
    exact Kept.after (Kept.fold _ _ (fun _ _ => kept_hostRetry _ _) _) rfl rfl

end Sys2Proof.Machine
end

