-- ==== Sys2Proof/Laws/Sequencer.lean ====
section
/-! SUPPORT. What reaching an instruction, and ending a wait at it, do when the instruction shows no fault. -/
namespace Sys2Proof.Machine

variable {s : State} {n op : Nat} {i : SInstr} {h : SeqHold}

/-- The instruction at PC is reached. -/
theorem State.reachS_ok (f : Seq → SInstr → State) (hm : (s.seq n).moving = true)
    (hf : s.fetchS n (some op) (s.seq n).pc (s.seq n).loops.length (s.seq n).calls.length = .ok i) : s.reachS n op f = f (s.seq n) i := by
  simp only [State.reachS, hm, hf]; rfl

/-- The wait at the instruction ends. -/
theorem State.heldS_ok (f : Seq → SInstr → State) (hh : (s.seq n).hold = h)
    (hf : s.fetchS n none (s.seq n).pc (if h = .step then 1 else (s.seq n).loops.length) (s.seq n).calls.length = .ok i) : s.heldS n h f = f (s.seq n) i := by
  simp only [State.heldS, hh, hf]; simp

@[simp] theorem State.seq_setSeq_self (s : State) (n : Nat) (q : Seq) : (s.setSeq n q).seq n = q := by simp [State.seq, State.setSeq]
@[simp] theorem State.stepUnit_setStep_self (s : State) (n : Nat) (u : StepUnit) : (s.setStep n u).stepUnit n = u := by simp [State.stepUnit, State.setStep]

@[simp] theorem State.keepPilot_setSeq (s : State) (n : Nat) (q : Seq) : s.keepPilot (s.setSeq n q) = s.setSeq n q := rfl

end Sys2Proof.Machine
end

