-- ==== Sys2Proof/Tests/Kit.lean ====
section
/-! SUPPORT. Small states for the tests: a Bay of cluster 0 with a stream, a sequencer at an instruction, a thread group at a word. -/
namespace Sys2Proof.Tests
open Sys2Proof Sys2Proof.Machine

/-- Bay 0 owns cluster 0 and is enabled; its slot 0 runs with one code region of core 0, 64 KiB at offset 0. -/
def bay : State :=
  { regs := [(0x1000000, 1), (0x1000008, 1)]
    imgs := [(0, { status := .running, regions := [⟨0, 0, 65536, 0, [], 0, 0, []⟩] })]
    bays := [(0, { on := true })] }

/-- `bay` with the stream on core 0's sequencer, which runs. -/
def streamed : State := bay.setSeq 0 { status := .running, stream := some (0, 0) }

/-- The word of `i` at index 0 of the stream, and core 0's sequencer there. -/
def seqAt (i : SInstr) : State := streamed.setPantry 0 0 (leBytes 8 (encodeS i).toNat) false

/-- A change of core 0's sequencer. -/
def onSeq (s : State) (f : Seq → Seq) : State := s.setSeq 0 (f (s.seq 0))

/-- Group 0 of core 0, ready with threads 0 and 1 live and active, at the word `w`. -/
def grpAt (w : VWord) (x : Group := {}) : State :=
  (streamed.setPantry 0 0 (leBytes 8 w.toNat) false).setGroup 0 0 { x with status := .ready, live := 3, active := 3 }

/-- A change of group 0 of core 0. -/
def onGrp (s : State) (f : Group → Group) : State := s.setGroup 0 0 (f (s.group 0 0))

/-- A word of class `c` and operation `o` with the fields `f`. -/
def vw (c o f : Nat) : VWord := BitVec.ofNat 64 (c * 2 ^ 60 + o * 2 ^ 54 + f)

/-- A Step of opcode `o` for engine 0, one row, FP32 in and out, its tile list at Pantry byte 1,024, with the fields `f`. -/
def stp (o f : Nat) : StepIssue := ⟨BitVec.ofNat 256 (o + 7 * 2 ^ 8 + 7 * 2 ^ 16 + 16 * 2 ^ 160 + 2 ^ 176 + f), 0, 0, 1, 0, 0, []⟩

/-- Core 0 runs the Step `d` with engine 0 at `x`; the first entry of its tile list is `t`. -/
def stepAt (d : StepIssue) (x : Engine := {}) (t : Nat := 2 ^ 73) : State :=
  (bay.setStep 0 { running := some d, engines := Tbl.set [] {} 0 x }).setPantry 0 1024 (leBytes 16 t) false

/-- A Cellar of 1,024 MiB. -/
def celled (s : State) : State := s.setFld Reg.CEL_CAP [] F.CEL_CAP_CAP_MIB 1024

/-- Owner order (R156). -/
def owned (s : State) : State := s.setFld Reg.LRD_COH_STAT [] F.LRD_COH_STAT_ORDER 0

/-- Inst. 0 maps its first GiB to Cellar byte 0, readable and writable: the root table at Cellar page 2, its next table at page 3. -/
def paged : State :=
  (({ larder := [(64, some { data := 0x3001 }), (96, some { data := 15 })] } : State).setReg Reg.CEL_CAP [] 1024).setReg Reg.LRD_MMU_ROOT [0]
    (BitVec.ofNat 64 (2 * 2 ^ F.LRD_MMU_ROOT_BASE.lo + 2 ^ F.LRD_MMU_ROOT_EN.lo))

/-- Bay 0's serving program on the cores, over `paged`; the record of batch slot 0 at Cellar byte 32,768 has STATE 2. -/
def servingAt (x : Serving) : State :=
  { paged with larder := [(64, some { data := 0x3001 }), (96, some { data := 15 }), (256, some { data := 0x2000000000000 })]
               imgs := bay.imgs, bays := bay.bays, serving := [(0, { x with img := some 0 })] }

/-- A configuration block with drafts of at most one token, MAX_CTX 100, SEQ_BASE 32,768 and rings of 64 entries (Table SV-2). -/
def servingCfg : List Byte :=
  leBytes 256 (2 ^ 16 + 100 * 2 ^ 128 + 2 ^ 192 + 255 * 2 ^ 216 + 0x8000 * 2 ^ 448 + 64 * 2 ^ 832)

/-- A sequence in an open round: MAX_NEW 2, SPEC 1, one page. -/
def openSeq : Sequence := { req := { raw := BitVec.ofNat 512 (2 * 2 ^ 192 + 2 ^ 304) }, order := 0, pages := [(0, 0)], inRound := true }

/-- Inst. 1 in the state `k` of Table TN-6. -/
def instIn (k : Nat) (s : State := .reset) : State := s.setFld Reg.HAT_INST_STAT [1] F.HAT_INST_STAT_STATE k

/-- Shared range 0: 128 bytes from line 64. -/
def sharedAt (x : LarderLine) : State :=
  ((({ larder := [(64, some x)] } : State).setFld Reg.HAT_SHR_BASE [0] F.HAT_SHR_BASE_EN 1).setFld Reg.HAT_SHR_BASE [0] F.HAT_SHR_BASE_BASE 64).setFld
    Reg.HAT_SHR_LEN [0] F.HAT_SHR_LEN_LEN 128

/-- A Joist message of TYPE `t` from die 4 to die 0 without data, with the header bits `x` (Table JT-5). -/
def jm (t x : Nat) : JoistMsg := ⟨BitVec.ofNat 128 (t * 2 ^ 120 + 4 * 2 ^ 117 + x), []⟩

/-- It waits at die 0; cluster 0 is usable. -/
def joistAt (m : JoistMsg) : State := { regs := [(24, 1)], joistIn := [(0, m)] }

/-- Joist link `j` is up with module 0. -/
def linkUp (j : Nat) (s : State := .reset) : State :=
  (s.setFld Reg.JST_LINK_STAT [j] F.JST_LINK_STAT_STATE 2).setFld Reg.JST_LINK_STAT [j] F.JST_LINK_STAT_MODULES 1

/-- `bay` in a span, with a Cellar and inbound window 0 on its first MiB, readable and writable. -/
def spanned : State :=
  ((((((((celled bay).setReg Reg.CHU_EPOCH [0] 1).setFld Reg.CHU_SPAN [] F.CHU_SPAN_EN 1).setFld Reg.CHU_INWIN_BASE [0] F.CHU_INWIN_BASE_EN 1).setFld Reg.CHU_INWIN_BASE [0]
    F.CHU_INWIN_BASE_R 1).setFld Reg.CHU_INWIN_BASE [0] F.CHU_INWIN_BASE_W 1).setFld Reg.CHU_INWIN_LIM [0] F.CHU_INWIN_LIM_SIZE 0x100000))

/-- A Chute message that port 0 has delivered. -/
def chuteAt (m : ChuteMsg) (s : State := spanned) : State := { s with chuteIn := [(0, m)] }

/-- Chute port 0 in the state `k` of Table CH-9. -/
def portIn (k : Nat) (s : State := .reset) : State := s.setPortState 0 k

/-- A FILL of 4 bytes at Pantry byte 32,768 (Table PT-2). -/
def fillDesc : PDesc := { raw := 2 + BitVec.ofNat 1024 (0x8000 * 2 ^ 128 + 4 * 2 ^ 192 + 4 * 2 ^ 768) }

/-- A RANGE descriptor: FLUSH of 128 bytes from virtual address 0. -/
def rangeDesc : PDesc := { raw := BitVec.ofNat 1024 (4 + 2 ^ 10 + 128 * 2 ^ 192 + 2 * 2 ^ 649) }

/-- The first three lines of an image of one cluster, whose other lines are zero: eight CODE sections of 128 zero bytes, a spill area of eight units
(Table SQ-6, Table SQ-7). -/
def imageLines : List Line :=
  [0x802000000000000008000000000000001c0000000000001000100000000000008000000000000000080000000000000014000000000000000010000000000000000000000000000000000000000000000000000000000000000000000000000054000000008000000000000000000080001000000014d49564f,
   0x80a000000000000008000000000000003c0000000000005000100000000000008080000000000000080000000000000034000000000000400010000000000000806000000000000008000000000000002c000000000000300010000000000000804000000000000008000000000000002400000000000020001,
   0x80e000000000000008000000000000004c00000000000070001000000000000080c000000000000008000000000000004400000000000060001]

/-- Those lines resident from Cellar byte 4,096. -/
def imageTable : Tbl (Option LarderLine) := (List.range 11).map (fun k => (32 + k, some { data := imageLines.getD k 0 }))

/-- Slot 1 of Bay 0 in LOADING, its image at Cellar byte 4,096, its spill area in Locker unit 0: DEV_FEATURE 0, cluster 0 usable and in the
enabled Bay, a Cellar of 1,024 MiB, one Locker unit. -/
def loadAt : State :=
  { regs := [(8, 0), (24, 1), (0x1000000, 1), (0x1000008, 1), (0x1000048, 0x10000000000), (0x1001100, 4096), (0x1001108, 1344), (0x8000010, 65536),
      (0x9000000, 1024)]
    larder := imageTable
    imgs := [(1, { status := .loading })] }

/-- The debug level is `k` (Table SE-6). -/
def debugAt (k : Nat) : State := State.reset.setFld Reg.SEC_STATE [] F.SEC_STATE_DEBUG k

/-- The host link is up and function 0 serves requests. -/
def hosted (phase : Nat := 3) : State := { State.reset.setFld Reg.HST_LINK_STAT [] F.HST_LINK_STAT_UP 1 with pilot := { phase := phase } }

/-- A request of tag 5 to host memory, from the Storekeeper. -/
def hostReq (waits : Bool := false) : HostReq := { tag := 5, who := .storekeeper, fn := 0, addr := 4096, len := 8, waits := waits }

/-- `celled` with the Cellar in service and eight packages. -/
def celledOn : State := ((celled .reset).setFld Reg.CEL_STAT [] F.CEL_STAT_STATE 2).setFld Reg.DEV_INV_DIE [] F.DEV_INV_DIE_CELLAR_PKG 255

/-- `hosted`, a session on the mailboxes of functions 0 and 1, and virtual functions. -/
def inSess : State := { hosted with vfOn := true, vfReady := true, spdm := [(0, { stage := 3, session := 2 }), (1, { stage := 3, session := 2 })] }

/-- A token of KIND 1 by the vendor at the first byte of host memory (Table SE-7), for a device of ID 0 with a live nonce of 0. -/
def tokened : State :=
  { hosted with
    regs := [(0x300020, 0x8000000000000), (0x300028, 29920), (0x300060, 0), (0x300068, 0)] ++ (hosted).regs
    nonceLive := true
    mem := [(0x8000000000000, 0x4F), (0x8000000000001, 0x56), (0x8000000000002, 0x54), (0x8000000000003, 0x4B), (0x8000000000004, 1)] }
def tokenedIn : State := tokened.keepPilot (tokened.wrote Reg.SEC_CMD [] 2)

/-- An image of no bytes at the first byte of host memory (R375), in Boxroom mode. -/
def imaged : State :=
  { (((hosted).setFld Reg.SEC_STATE [] F.SEC_STATE_BOXROOM 1).setReg Reg.SEC_TOKEN_ADDR [] 0x8000000000000).setReg Reg.SEC_TOKEN_LEN [] 29920 with
    pilot := { phase := 3 }
    mem := [(0x8000000000000, 0x4F), (0x8000000000001, 0x56), (0x8000000000002, 0x53), (0x8000000000003, 0x4B)] }
def imagedIn : State := imaged.keepPilot (imaged.wrote Reg.SEC_CMD [] 6)

/-! ### Naming a result that is there -/

theorem someGet {α : Type} {o : Option α} (h : o.isSome = true) : o = some (o.get h) := (Option.some_get h).symm
theorem someGet2 {α β : Type} {o : Option (α × β)} (h : o.isSome = true) : o = some ((o.get h).1, (o.get h).2) := (Option.some_get h).symm
theorem someGet3 {α β γ : Type} {o : Option (α × β × γ)} (h : o.isSome = true) : o = some ((o.get h).1, (o.get h).2.1, (o.get h).2.2) :=
  (Option.some_get h).symm
theorem pairEta {α β : Type} (p : α × β) : p = (p.1, p.2) := rfl

theorem inrGet {α β γ : Type} {x : α ⊕ (β × γ)} (h : x.isRight = true) : x = .inr ((x.getRight h).1, (x.getRight h).2) := by
  cases x with
  | inl a => cases h
  | inr b => rfl
theorem quadGet {α β : Type} {x : α × Bool × Bool × β} (h : x.2.1 = false) (i : x.2.2.1 = false) : x = (x.1, false, false, x.2.2.2) := by
  obtain ⟨a, b, c, d⟩ := x
  subst h; subst i; rfl
theorem cleanPair {α : Type} {x : α × Bool} (h : x.2 = false) : x = (x.1, false) := by
  obtain ⟨a, b⟩ := x
  subst h; rfl
theorem quadEta {α β γ δ : Type} (x : α × β × γ × δ) : x = (x.1, x.2.1, x.2.2.1, x.2.2.2) := rfl
theorem pairSome {α β : Type} {x : α × Option β} (h : x.2.isSome = true) : x = (x.1, some (x.2.get h)) := by
  obtain ⟨a, b⟩ := x
  simp

def okTriple {α β γ : Type} : Option (α × β × List γ) → Option (α × β)
  | some (a, b, []) => some (a, b)
  | _ => none
theorem tripleGet {α β γ : Type} {o : Option (α × β × List γ)} (h : (okTriple o).isSome = true) :
    o = some (((okTriple o).get h).1, ((okTriple o).get h).2, []) := by
  match o with
  | some (a, b, []) => rfl
  | some (a, b, c :: r) => cases h
  | none => cases h

def isBar : GrpStatus → Bool
  | .waitBar _ => true
  | _ => false
theorem noBar {s : State} {n w : Nat} {gs : List Nat} (h : gs.all (fun g => !isBar (s.group n g).status) = true) :
    ∀ g ∈ gs, ∀ id, (s.group n g).status = .waitBar id → id = w := by
  intro g hg id e
  have := List.all_eq_true.mp h g hg
  rw [e] at this
  cases this

def isV (w : VWord) : FetchV → Bool
  | .ok v => v == w
  | _ => false
theorem fetchedV {x : FetchV} {w : VWord} (h : isV w x = true) : x = .ok w := by
  cases x <;> simp_all [isV]
def isS (i : SInstr) : FetchS → Bool
  | .ok k => k == i
  | _ => false
theorem fetchedS {x : FetchS} {i : SInstr} (h : isS i x = true) : x = .ok i := by
  cases x <;> simp_all [isS]

theorem hostClean {s : State} (h : s.poison = []) {b : Nat} (hb : 0x8000000000000 ≤ b) (n : Nat) :
    ((List.range n).map (fun i => s.peekByte (b + i))).any (·.2) = false := by
  rw [List.any_eq_false]
  intro x hx
  obtain ⟨i, _, rfl⟩ := List.mem_map.mp hx
  have hh : hasHome (b + i) = false := by
    have h1 : ¬ b + i ≤ 0x007FFFFFFFFF := by omega
    have h2 : ¬ b + i ≤ 0x01017FFFFFFF := by omega
    have h3 : ¬ b + i ≤ 0x02007FFFFFFF := by omega
    unfold hasHome regionOf
    rw [if_neg h1, if_neg (fun c => h2 c.2), if_neg (fun c => h3 c.2)]
    split
    · rename_i e; split at e <;> (try split at e) <;> (try split at e) <;> cases e
    · rename_i e; split at e <;> (try split at e) <;> (try split at e) <;> cases e
    · rfl
  unfold State.peekByte
  rw [hh]
  simp [State.poisoned, h]
theorem hostReadable {s : State} (h : s.poison = []) (hu : s.hostUp = true) {b n : Nat} (hb : 0x8000000000000 ≤ b) (hn : b + n ≤ 0xEFFFFFFFFFFFF) :
    s.unreadable b n = false := by
  have hc := List.any_eq_false.mp (hostClean h hb n)
  unfold State.unreadable
  rw [List.any_eq_false]
  intro i hi
  have hp := hc _ (List.mem_map.mpr ⟨i, hi, rfl⟩)
  have hr : regionOf (b + i) = .host := by
    have hi := List.mem_range.mp hi
    unfold regionOf
    rw [if_neg (by omega), if_neg (by omega), if_neg (by omega), if_neg (by omega), if_pos (by omega)]
  simp only [Bool.not_eq_true] at hp
  simp [State.backed, hr, hp, hu]
theorem minFits (n : Nat) {off : Nat} (h : off + 256 ≤ pantrySize) : off + min 256 n ≤ pantrySize :=
  Nat.le_trans (Nat.add_le_add_left (Nat.min_le_left _ _) _) h

/-! ### The CRC of a flit of zeros, one byte at a time so that the kernel keeps each sum as a number -/

def crcZeros : Nat → Nat → Nat
  | 0, c => c
  | n + 1, c => match (crcByte (BitVec.ofNat 64 c) 0).toNat with
    | 0 => crcZeros n 0
    | m + 1 => crcZeros n (m + 1)
theorem crcZeros_eq (n : Nat) (c : BitVec 64) : ((List.replicate n (0 : Byte)).foldl crcByte c).toNat = crcZeros n c.toNat := by
  induction n generalizing c with
  | zero => rfl
  | succ n ih =>
    rw [List.replicate_succ, List.foldl_cons, ih, crcZeros, BitVec.ofNat_toNat, BitVec.setWidth_eq]
    split <;> simp_all
theorem crcZero : crc64 (List.replicate 248 0) = 0xD5233B906AAFCD2D := by
  have h : crcZeros 248 (BitVec.allOnes 64).toNat = 3088559427994792658 := by decide +kernel
  rw [← crcZeros_eq] at h
  have k := BitVec.eq_of_toNat_eq (y := BitVec.ofNat 64 3088559427994792658) (h.trans (by decide))
  unfold crc64
  rw [k]
  decide

/-- A flit of zeros with its CRC (R265). -/
def zeroFlit : BitVec 2048 := BitVec.ofNat 2048 (0xD5233B906AAFCD2D * 2 ^ 1984)
theorem zeroFlit_good : flitGood zeroFlit = true := by
  have h : leBytes 248 zeroFlit.toNat = List.replicate 248 0 := by decide +kernel
  rw [flitGood, h, crcZero]
  decide +kernel
theorem noCrc_bad : flitGood 0 = false := by
  have h : leBytes 248 (0 : BitVec 2048).toNat = List.replicate 248 0 := by decide +kernel
  rw [flitGood, h, crcZero]
  decide +kernel

def movedOk : Moved → Bool
  | .ok _ => true
  | _ => false
def movedState : Moved → State
  | .ok s => s
  | _ => .reset
theorem movedGet {m : Moved} (h : movedOk m = true) : m = .ok (movedState m) := by cases m <;> simp_all [movedOk, movedState]

def memDone {α : Type} : MemRes α → Option (State × α)
  | .done s v => some (s, v)
  | _ => none
theorem memGet {α : Type} {m : MemRes α} (h : (memDone m).isSome = true) : m = .done ((memDone m).get h).1 ((memDone m).get h).2 := by
  cases m with
  | done s v => rfl
  | _ => cases h
theorem memGet2 {α β : Type} {m : MemRes (α × β)} (h : (memDone m).isSome = true) :
    m = .done ((memDone m).get h).1 (((memDone m).get h).2.1, ((memDone m).get h).2.2) := by
  cases m with
  | done s v => rfl
  | _ => cases h

def rangeOk : RangeRes → Option State
  | .done s => some s
  | _ => none
theorem rangeGet {m : RangeRes} (h : (rangeOk m).isSome = true) : m = .done ((rangeOk m).get h) := by
  cases m with
  | done s => rfl
  | _ => cases h

def fetchOk : Fetch → Option (State × Gathered)
  | .ok s g => some (s, g)
  | _ => none
theorem fetchGet {m : Fetch} (h : (fetchOk m).isSome = true) : m = .ok ((fetchOk m).get h).1 ((fetchOk m).get h).2 := by
  cases m with
  | ok s g => rfl
  | _ => cases h

def putDone : Put → Option State
  | .done s => some s
  | _ => none
theorem putGet {m : Put} (h : (putDone m).isSome = true) : m = .done ((putDone m).get h) := by
  cases m with
  | done s => rfl
  | _ => cases h

def placeOk : PlaceRes → Option (State × Nat × DWord)
  | .ok s pa leaf => some (s, pa, leaf)
  | _ => none
theorem placeGet {m : PlaceRes} (h : (placeOk m).isSome = true) : m = .ok ((placeOk m).get h).1 ((placeOk m).get h).2.1 ((placeOk m).get h).2.2 := by
  cases m with
  | ok s pa leaf => rfl
  | _ => cases h

def memClean {α : Type} : MemRes (α × Bool) → Option (State × α)
  | .done s (v, false) => some (s, v)
  | _ => none
theorem cleanGet {α : Type} {m : MemRes (α × Bool)} (h : (memClean m).isSome = true) :
    m = .done ((memClean m).get h).1 (((memClean m).get h).2, false) := by
  match m with
  | .done s (v, false) => rfl
  | .done s (v, true) => cases h
  | .unbacked => cases h
  | .outside => cases h
  | .waits => cases h

def trOk : TrRes → Option (State × Nat × DWord)
  | .ok s pa leaf => some (s, pa, leaf)
  | _ => none
theorem trGet {m : TrRes} (h : (trOk m).isSome = true) : m = .ok ((trOk m).get h).1 ((trOk m).get h).2.1 ((trOk m).get h).2.2 := by
  cases m with
  | ok s pa leaf => rfl
  | _ => cases h

end Sys2Proof.Tests
end

