-- ==== Sys2Proof/WellFormed.lean ====
section
/-! DEFINITION. Operands that a command can have: the checks that the operands' types leave. -/
namespace Sys2Proof

/-- An offset of BAR0 of function 0 (R4, R308). -/
def regOff (off : Nat) : Bool := decide (off < 2 ^ 29)

/-- A 128-byte line of the global address space of 52 bits (R10, R123). -/
def lineOk (line : Nat) : Bool := decide (line < 2 ^ 45)

/-- A row of Table SE-1. -/
def stageOk (stage : Nat) : Bool := decide (1 ≤ stage) && decide (stage ≤ 14)

/-- A set of a Larder slice, or of a Cupboard (R123, R129). -/
def setOk (unit : Fin 128) (set : Nat) : Bool := decide (set < if unit.val < 64 then 49152 else 2048)

/-- Units that exist (Table AR-2). -/
def Agent.wf : Agent → Bool
  | .cluster g => decide (g < 64)
  | .porter p c => decide (p < 1024) && decide (c < 16)
  | .group n g => decide (n < 512) && decide (g < 8)
  | .sequencer n => decide (n < 512)
  | .chute p => decide (p < 8)
  | .host | .storekeeper | .mmu | .slice => true

/-- Each thread's part lies in the line (R108). -/
def AtomOp.wf (o : AtomOp) : Bool := o.parts.all (fun p => decide (p.thread < 64) && decide (p.off ≤ 124) && decide (p.off % 4 = 0))

/-- What a start finds has at most the units that the device has (Table AR-2, Table JT-1). -/
def Bringup.wf (x : Bringup) : Bool := decide (x.engines.length ≤ 32) && decide (x.modules.length ≤ 8) && decide (x.repaired.length ≤ 8)

def WayCount.wf (c : WayCount) : Bool := setOk c.unit c.set

/-- Offsets of the configuration space of a function; a BAR size is a power of two of 64 bits. -/
def CfgOp.wf : CfgOp → Bool
  | .read off => decide (off < 4096)
  | .atsEnable _ => true
  | .barSize n => decide (n < 64)

/-- A memory request of the host bus carries 1 to 4,096 bytes. -/
def HostOp.wf : HostOp → Bool
  | .read n => decide (1 ≤ n) && decide (n ≤ 4096)
  | .write bs _ => decide (1 ≤ bs.length) && decide (bs.length ≤ 4096)
  | .atomic => true

/-- The command has operands that its row admits. -/
def Instr.wf : Instr → Bool
  | .regWrite _ off width _ => regOff off && [1, 2, 4, 8].contains width
  | .rcRead _ off _ => regOff off
  | .load _ _ failAt => match failAt with | some k => decide (k < 2 ^ 52) | none => true
  | .shelfFill _ line => lineOk line
  | .groupStateWrite _ _ off _ => decide (off < 0x40000)
  | .rds _ line => lineOk line
  | .rdu _ line => lineOk line
  | .upg _ line => lineOk line
  | .wru _ line _ => lineOk line
  | .wbd _ line => lineOk line
  | .evc _ line => lineOk line
  | .rdn who line _ => who.wf && lineOk line
  | .wrn who line _ _ _ _ => who.wf && lineOk line
  | .red who line _ _ => who.wf && lineOk line
  | .atm who line _ op => who.wf && lineOk line && op.wf
  | .snps _ line => lineOk line
  | .snpc _ line => lineOk line
  | .snpi _ line => lineOk line
  | .fwd line => lineOk line
  | .dat who line => who.wf && lineOk line
  | .gntm who line => who.wf && lineOk line
  | .rsp _ line => lineOk line
  | .cmp who line _ => who.wf && lineOk line
  | .ack who line => who.wf && lineOk line
  | .larderFill line => lineOk line
  | .mred line => lineOk line
  | .mack line => lineOk line
  | .roundBoundary _ seen => seen.all (fun e => decide (e.1 < 2 ^ 52))
  | .completionPost _ _ seen => seen.all (fun e => decide (e.1 < 2 ^ 52))
  | .sharedRefetch line => lineOk line
  | .sharedRefetchDone line _ => lineOk line
  | .sharedRefetchFail line => lineOk line
  | .rejoinEnd _ x => x.wf
  | .chuteBlockReceive _ corrected _ _ => decide (corrected ≤ 90)
  | .configRequest _ op => op.wf
  | .hostRequest _ _ _ op _ _ => op.wf
  | .atsInvalidate _ _ page => decide (page < 2 ^ 52)
  | .f0Flr x => x.wf
  | .cellarRead line _ _ => lineOk line
  | .cellarWrite line => lineOk line
  | .throttleTick amps => decide (amps.length = 13)
  | .coldStart x => x.wf
  | .warmRestart x => x.wf
  | .startWatchdog stage detail => stageOk stage && decide (detail < 2 ^ 64)
  | .regacc off _ => regOff off
  | .retirementWindow ways => ways.all WayCount.wf
  | .wayDeleteEnd unit set => setOk unit set
  | .pwrPgTimeout stage => stageOk stage
  | .pwrPgFall _ stage => stageOk stage
  | .tileFetch .. | .engineRowEntry .. | .outputRowWrite .. | .tileComplete .. | .stepCommit .. | .step .. | .move .. | .moveEnqueue .. | .launch ..
  | .launchStart .. | .wait .. | .waitTargetReached .. | .sig .. | .sigIssue .. | .fence .. | .fenceComplete .. | .loop .. | .endloop .. | .call ..
  | .ret .. | .select .. | .cheap .. | .cheapStop .. | .yield .. | .yieldStop .. | .halt .. | .haltStop .. | .prefetchMoveStart .. | .loadEnd ..
  | .start .. | .stop .. | .abort .. | .unload .. | .vectorFpOp .. | .vectorIntOp .. | .vectorImmOp .. | .specialFunction .. | .vectorCompare ..
  | .predicateLogic .. | .s2p .. | .p2s .. | .scalarOp .. | .shfl .. | .shflx .. | .shflu .. | .shfld .. | .bcast .. | .v2s .. | .s2v .. | .any ..
  | .all .. | .ballot .. | .radd .. | .rmin .. | .rmax .. | .ld .. | .st .. | .lds .. | .atomAdd .. | .atomMin .. | .atomMax .. | .atomAnd ..
  | .atomOr .. | .atomXor .. | .atomXchg .. | .atomCas .. | .pk .. | .unpk .. | .nop .. | .jmp .. | .brnz .. | .brz .. | .split .. | .join ..
  | .lpush .. | .brk .. | .loopif .. | .lpop .. | .waitsib .. | .wtally .. | .wtallyTargetReached .. | .sigt .. | .groupFence .. | .gbar ..
  | .exit .. | .groupEnd .. | .trap .. | .resume .. | .resumeNext .. | .discard .. | .qmapCmd .. | .qmapChangeEnd .. | .tlbWalk .. | .tlbInv ..
  | .tlbInvEnd .. | .prefetch .. | .flush .. | .invalidate .. | .rangeDiscard .. | .rangeLine .. | .grantPin .. | .grantLocker .. | .revoke ..
  | .pinCmdEnd .. | .redBind .. | .redUnbind .. | .enterOwner .. | .exitOwner .. | .ownerOrderEntered .. | .homeOrderResumed .. | .cstTallyWrite ..
  | .cstTallyAdd .. | .channelStart .. | .porterAccess .. | .descriptorComplete .. | .busError .. | .porterStopped .. | .porterClear ..
  | .porterRetry .. | .clearChannel .. | .retryChannel .. | .ch0Post .. | .draftPropose .. | .roundCommit .. | .bayForm .. | .bayDissolve ..
  | .controlWordWrite .. | .sliceEnd .. | .coreResume .. | .slowWindowEnd .. | .tenantPost .. | .managerPost .. | .hatchConsWrite ..
  | .deviceMessage .. | .enable .. | .quiesce .. | .quiesceForce .. | .quiesceComplete .. | .instanceResume .. | .freeze .. | .save .. | .saveEnd ..
  | .restore .. | .restoreEnd .. | .reset .. | .resetEnd .. | .remove .. | .vfFlr .. | .joistFlitReceive .. | .joistAckTimeout ..
  | .joistMessageSend .. | .prd .. | .pwr .. | .tinc .. | .pcmp .. | .pdat .. | .cmpd .. | .grd .. | .gwr .. | .gcmp .. | .sevt ..
  | .moduleCrcWindow .. | .moduleRetrainEnd .. | .linkSilence .. | .supplyMonitorTrip .. | .rejoin .. | .chuteAckTimeout .. | .laneLockLoss ..
  | .chuteTrainingDone .. | .chuteTrainingRetry .. | .chuteMessageSend .. | .rwr .. | .rwrB .. | .rwrP .. | .rred .. | .rredB .. | .rredP ..
  | .rtinc .. | .rrd .. | .rcmp .. | .rcmpd .. | .chuteForward .. | .spnPwr .. | .spnCepoch .. | .spnFail .. | .messageTimeout .. | .retrain ..
  | .restoreRoutes .. | .xload .. | .spanEnable .. | .hostCompletion .. | .completionTimeout .. | .atsTranslation .. | .msixUnmask ..
  | .vfEnableSet .. | .vfReady .. | .vfEnableClear .. | .hostLinkDown .. | .hostLinkTrain .. | .cellarRetrainTurn .. | .retrainWindowEnd ..
  | .cellarRetrainCmd .. | .fold .. | .foldEnd .. | .assign .. | .keyClear .. | .rekey .. | .refclkCheck .. | .clkPllWrite .. | .pllReady ..
  | .clkSelWrite .. | .clockSwitchDone .. | .sscPeriodStart .. | .throttleFrame .. | .temperatureSample .. | .clockGateTimer .. | .powerGateTimer ..
  | .clusterWake .. | .wakeComplete .. | .phaseSample .. | .vregAck .. | .vregTimeout .. | .d3hotEntry .. | .d3coldEntry .. | .spanPeriodEnd ..
  | .newNonce .. | .applyToken .. | .debugClose .. | .commitSvn .. | .retry .. | .recover .. | .getVersion .. | .getCapabilities ..
  | .negotiateAlgorithms .. | .getDigests .. | .getCertificate .. | .challenge .. | .getMeasurements .. | .keyExchange .. | .finish ..
  | .heartbeat .. | .keyUpdate .. | .endSession .. | .chunkSend .. | .chunkGet .. | .setMigrationSecret .. | .ideKm .. | .lockInterfaceRequest ..
  | .stopInterface .. | .getDeviceInterfaceReport .. | .extestEntry .. | .extestExit .. | .vendorscan .. | .pilotPwrokRise .. | .pilotPwrokFall ..
  | .perstDeassert .. | .pwrPgRise .. | .vrAlert .. | .avsReadTimeout .. | .returnToD0 .. | .linkL12Entry .. | .startInterfaceRequest ..
  | .completerAbortTimeout .. | .cellarRefresh .. | .enableDeassertTimeout .. | .perstAssert .. | .inboundChuteRetrainRequest ..
  | .chuteAckInterval .. | .regulatorTelemetryRead .. => true

end Sys2Proof
end

