-- ==== Sys2Proof/Tests/Slice0.lean ====
section
/-! SUPPORT. The tests: an ill-formed operand for each check of WellFormed, instruction words and worked examples of the spec, small behaviour
tests, and for every statement of Certificates/Slice0/Obligations.lean with hypotheses a state and operands that meet each clause's. -/
namespace Sys2Proof.Tests
open Sys2Proof Sys2Proof.Machine
section
/- One theorem at a time: each of these evaluations would take a thread of its own. -/
set_option Elab.async false

/-! ### Well-formedness: each check refuses something -/

theorem test_wf_takes : Instr.wf (.regWrite .storekeeper 8 8 0) = true ∧ Instr.wf (.rds 0 7) = true := by decide
theorem test_wf_offset : Instr.wf (.regWrite .storekeeper (2 ^ 29) 8 0) = false ∧ Instr.wf (.rcRead .storekeeper (2 ^ 29) .whole) = false ∧
    Instr.wf (.regacc (2 ^ 29) none) = false := by decide
theorem test_wf_width : Instr.wf (.regWrite .storekeeper 8 3 0) = false := by decide
theorem test_wf_load : Instr.wf (.load 0 0 (some (2 ^ 52))) = false := by decide
theorem test_wf_line : Instr.wf (.rds 0 (2 ^ 45)) = false ∧ Instr.wf (.cellarWrite (2 ^ 45)) = false ∧ Instr.wf (.sharedRefetch (2 ^ 45)) = false := by decide
theorem test_wf_window : Instr.wf (.groupStateWrite (.fn 0) 0 0x40000 0) = false := by decide
theorem test_wf_agents : Agent.wf (.cluster 64) = false ∧ Agent.wf (.porter 1024 0) = false ∧ Agent.wf (.porter 0 16) = false ∧ Agent.wf (.group 512 0) = false ∧
    Agent.wf (.group 0 8) = false ∧ Agent.wf (.sequencer 512) = false ∧ Agent.wf (.chute 8) = false ∧ Instr.wf (.ack (.cluster 64) 0) = false := by decide
theorem test_wf_atomic : AtomOp.wf ⟨.add, 2, [⟨64, 0, 0, 0⟩]⟩ = false ∧ AtomOp.wf ⟨.add, 2, [⟨0, 128, 0, 0⟩]⟩ = false ∧
    AtomOp.wf ⟨.add, 2, [⟨0, 2, 0, 0⟩]⟩ = false := by decide
theorem test_wf_bringup : Bringup.wf { engines := List.replicate 33 0 } = false ∧ Bringup.wf { modules := List.replicate 9 0 } = false ∧
    Bringup.wf { repaired := List.replicate 9 0 } = false ∧ Instr.wf (.coldStart { repaired := List.replicate 9 0 }) = false := by decide
theorem test_wf_set : setOk 0 49152 = false ∧ setOk 64 2048 = false ∧ WayCount.wf ⟨64, 2048, 0, 1⟩ = false ∧ Instr.wf (.wayDeleteEnd 0 49152) = false ∧
    Instr.wf (.retirementWindow [⟨64, 2048, 0, 1⟩]) = false := by decide
theorem test_wf_config : CfgOp.wf (.read 4096) = false ∧ CfgOp.wf (.barSize 64) = false := by decide
theorem test_wf_hostOp : HostOp.wf (.read 0) = false ∧ HostOp.wf (.read 4097) = false ∧ HostOp.wf (.write [] false) = false := by decide
theorem test_wf_codeword : Instr.wf (.chuteBlockReceive 0 91 0 0) = false := by decide
theorem test_wf_page : Instr.wf (.atsInvalidate 0 12 (2 ^ 52)) = false := by decide
theorem test_wf_rails : Instr.wf (.throttleTick []) = false := by decide
theorem test_wf_stage : Instr.wf (.startWatchdog 0 0) = false ∧ Instr.wf (.startWatchdog 15 0) = false ∧ Instr.wf (.startWatchdog 1 (2 ^ 64)) = false ∧
    Instr.wf (.pwrPgTimeout 15) = false ∧ Instr.wf (.pwrPgFall 0 15) = false := by decide

/-! ### Words: no row of the table gives bits; the instructions that the sequencer and the thread groups fetch do have words -/

theorem test_decode_none : decodeTableWord 8 5 = none := rfl

/-- Source: the worked example of 04_sequencer_and_schedule_images.md. -/
theorem test_words_of_the_layer_loop :
    decodeS 0x10FFFF0000040000 = some (.loop 65535 0x400) ∧ decodeS 0x10001B0000001000 = some (.loop 27 0x10) ∧
    decodeS 0x0800735000000001 = some (.wait 7 3 0 5 1) ∧ decodeS 0x0100400000000000 = some (.step 0x0040) ∧
    decodeS 0x1100000000000000 = some .endloop := by decide
/-- Source: Table SQ-2 and Table SQ-3: MOVE, slot 0x0100 in [55:40], PF 39, CL 38, CHAN [37:34]; CALL, target in [17:0]. -/
theorem test_words_move_call : decodeS 0x0201008800000000 = some (.move 0x0100 1 0 2) ∧ decodeS 0x120000000003FFFF = some (.call 0x3FFFF) := by decide
/-- Source: R57: a reserved opcode, a reserved field that is not zero. -/
theorem test_words_reserved : decodeS 0x0400000000000000 = none ∧ decodeS 0x1100000000000001 = none := by decide
/-- Source: R92, Table TG-2, Table TG-3: class 0, OP 3 FMA, VD 1, VA 2, VB 3, VC 4, SB; a reserved bit of format R. -/
theorem test_word_fma : VWord.legal 0x00C00420C4400000 = true ∧ VWord.vd 0x00C00420C4400000 = 1 ∧ VWord.va 0x00C00420C4400000 = 2 ∧
    VWord.vb 0x00C00420C4400000 = 3 ∧ VWord.vc 0x00C00420C4400000 = 4 ∧ VWord.sb 0x00C00420C4400000 = true ∧ VWord.legal 0x00C00420C4400001 = false := by decide

/-! ### Worked examples of the spec -/

/-- Source: 02, the CB4 block: exact sum 335,872, residue 5, block result and accumulation 10.16015625 = 0x41229000. -/
def cb4Pairs : List (EVal × EVal) :=
  [(elemVal .e4m3 0x3C, elemVal .e4m3 0x28), (elemVal .e4m3 0xC4, elemVal .e4m3 0x40), (elemVal .e4m3 0x20, elemVal .e4m3 0xB4), (elemVal .e4m3 0x7E, elemVal .e4m3 0x08)]
theorem test_block_sum : blockSum cb4Pairs = (335872, .none) ∧ residueProducts cb4Pairs = 5 ∧ (335872 : Int) % 7 = 5 := by decide
theorem test_accumulate : accumulate 0x41200000 (blockResult 335872 .none (-9) (-9) 124 127) = 0x41229000 := by decide
/-- Source: 02, the MXFP8 output block with maxabs 5.3 (0x40A9999A) and −0.01 (0xBC23D70A): scale code 121, codes 0x7B and 0xB2. -/
theorem test_requantise : requantise .e4m3 false [0x40A9999A, 0xBC23D70A] = (121, [0x7B, 0xB2]) := by decide +kernel
/-- Source: 06: the key/value line 0x2468ACF1 has its home in slice 54, set 8,883; in quadrant mode on die 2 in slice 32, set 35,535. -/
theorem test_home : (State.reset.setFld Reg.LRD_ILV_CFG [] F.LRD_ILV_CFG_MODE 0).home 0x2468ACF1 = (54, 8883) ∧
    ((State.reset.setFld Reg.LRD_ILV_CFG [] F.LRD_ILV_CFG_MODE 1).setReg Reg.LRD_QMAP [2] 0x20000).home 0x2468ACF1 = (32, 35535) := by decide +kernel
/-- Source: 16: that line lies on channel 29, and on channel 7 once package 7 is folded out. -/
theorem test_channel : State.reset.channelOf 610839793 = 29 ∧
    ((State.reset.setFld Reg.CEL_CAP [] F.CEL_CAP_FOLDED 1).setFld Reg.CEL_CAP [] F.CEL_CAP_FOLD_PKG 7).channelOf 610839793 = 7 := by decide +kernel
/-- Source: Table MM-10. -/
theorem test_wrap : reached 0xFFFFF320 0x2C0 = false ∧ reached 0 0x2C0 = false ∧ reached 0x2BF 0x2C0 = false ∧ reached 0x2C0 0x2C0 = true := by decide
/-- Source: 07, Table CO-9: 2²⁴, 1.0, 1.0 and −2²⁴ in this order leave +0; with the first last they leave 2.0. -/
def partOf (x : Nat) : RedOp := { op := .add, ty := .fp32, operand := BitVec.ofNat 2048 x }
theorem test_reduction : redRun .fp32 [partOf 0x4B800000, partOf 0x3F800000, partOf 0x3F800000, partOf 0xCB800000] 0 = 0 ∧
    redRun .fp32 [partOf 0x3F800000, partOf 0x3F800000, partOf 0xCB800000, partOf 0x4B800000] 0 = 0x40000000 := by decide +kernel
/-- Source: 05, the combined FP32 add with returns, and the same parts as an exchange. -/
def fourParts : List AtomPart := [⟨0, 0, 0x40000000, 0⟩, ⟨5, 0, 0x3F000000, 0⟩, ⟨9, 0, 0xC0800000, 0⟩, ⟨40, 0, 0x40400000, 0⟩]
theorem test_atomic_add : atomApply ⟨.add, 0, fourParts⟩ fourParts 0x3F800000 =
    (0x40200000, [(0, 0x3F800000), (5, 0x40400000), (9, 0x40600000), (40, 0xBF000000)]) := by decide +kernel
theorem test_atomic_xchg : atomApply ⟨.xchg, 0, fourParts⟩ fourParts 0x3F800000 =
    (0x40400000, [(0, 0x3F800000), (5, 0x40000000), (9, 0x3F000000), (40, 0xC0800000)]) := by decide +kernel
/-- Source: 13, the routes after the loss of C2 (die 2): links 1, 2 and 6 are closed. -/
def lostC2 : State := (linkUp 7 (linkUp 5 (linkUp 4 (linkUp 3 (linkUp 0))))).setDieState 2 3
theorem test_routes : lostC2.routeLink 0 5 = some 0 ∧ lostC2.routeLink 3 0 = some 3 ∧ lostC2.routeLink 4 5 = some 5 ∧ lostC2.routeLink 5 0 = some 7 ∧
    lostC2.routeLink 5 4 = some 7 ∧ lostC2.routeLink 1 0 = some 0 ∧ lostC2.routeLink 1 3 = some 3 ∧ lostC2.routeLink 0 2 = none := by decide +kernel
/-- Source: 19, the three hangs: GOOD 1,204 and FAILS 3 at start 1,208 give Boxroom mode; after RETRY, start 1,209 is a start as any. -/
theorem test_three_hangs : (({ pilot := { rpmc0 := 1207, good := 1204, fails := 3 } } : State).countStart true).2 = true := by decide +kernel
theorem test_after_retry : (({ pilot := { rpmc0 := 1208, good := 1208, fails := 0 } } : State).countStart true).2 = false := by decide +kernel
/-- Source: 01: core 300's Pantry window, its last byte, and its core state window. -/
theorem test_core300 : pantryAddr 300 0 = 0x02004B000000 ∧ pantryAddr 300 (pantrySize - 1) = 0x02004B27FFFF ∧ regionOf 0x02004B000000 = .pantry 300 0 ∧
    Reg.CST_TALLY.addr [300, 0] = 0x14B00000 + 0x10000 := by decide
/-- Source: 04: the third word after a fetch at the sequencer: LOOP pushes a frame (R60). -/
theorem test_loop_pushes : (match exec (.loop 0) (seqAt (.loop 27 0x10)) with | .next t => (t.seq 0).loops.length | _ => 0) = 1 := by decide +kernel

/-! ### A step takes the command in front; on an empty queue a reference cycle passes -/

theorem test_step_front : (match step { pending := [.extestExit, .vendorscan] } with | .next t => t.pending | _ => []) = [.vendorscan] := by decide +kernel
theorem test_step_idle : (match step .reset with | .next t => (t.reg Reg.CLK_REFCNT [5]).toNat | _ => 0) = 1 := by decide +kernel

/-! ### Both outcomes of a comparison -/

theorem test_wait_reached : reached ((onSeq (seqAt (.wait 5 0 0 2 0)) (fun x => { x with hold := .wait })).tally 0 5) 0 = true ∧
    reached (State.reset.tally 0 5) 1 = false := by decide +kernel

/-! ### Hypotheses of the statements: clause by clause, a state and operands that meet them together -/

theorem test_LoopsAndCalls_witness :
    (∃ (n : CoreId) (s : State) (c : BitVec 16) (st : BitVec 32), (AtS s n 0x10 (.loop c st))) ∧
    (∃ (n : CoreId) (s : State) (f : LoopFrame) (fs : List LoopFrame), (AtS s n 0x11 .endloop) ∧ ((s.seq n).loops = f :: fs) ∧ (f.index < f.countM1)) ∧
    (∃ (n : CoreId) (s : State) (f : LoopFrame) (fs : List LoopFrame), (AtS s n 0x11 .endloop) ∧ ((s.seq n).loops = f :: fs) ∧ (f.countM1 ≤ f.index)) ∧
    (∃ (n : CoreId) (s : State) (t : BitVec 18), (AtS s n 0x12 (.call t))) ∧
    (∃ (n : CoreId) (s : State) (p : BitVec 18) (ps : List (BitVec 18)), (AtS s n 0x13 .ret) ∧ ((s.seq n).calls = p :: ps)) ∧
    (∃ (n : CoreId) (s : State) (c : BitVec 16) (st : BitVec 32), (AtWord s n (.loop c st)) ∧ (8 ≤ (s.seq n).loops.length)) ∧
    (∃ (n : CoreId) (s : State), (AtWord s n .endloop) ∧ ((s.seq n).loops = [])) ∧
    (∃ (n : CoreId) (s : State) (t : BitVec 18), (AtWord s n (.call t)) ∧ (8 ≤ (s.seq n).calls.length)) ∧
    (∃ (n : CoreId) (s : State), (AtWord s n .ret) ∧ ((s.seq n).calls = [])) :=
  ⟨⟨0, (seqAt (.loop 2 3)), 2, 3, ⟨by decide +kernel, fetchedS (by decide +kernel)⟩⟩,
   ⟨0, (onSeq (seqAt .endloop) (fun q => { q with loops := [⟨1, 2, 1, 4⟩] })), ⟨1, 2, 1, 4⟩, [], ⟨by decide +kernel, fetchedS (by decide +kernel)⟩, by decide +kernel, by decide +kernel⟩,
   ⟨0, (onSeq (seqAt .endloop) (fun q => { q with loops := [⟨1, 2, 2, 4⟩] })), ⟨1, 2, 2, 4⟩, [], ⟨by decide +kernel, fetchedS (by decide +kernel)⟩, by decide +kernel, by decide +kernel⟩,
   ⟨0, (seqAt (.call 5)), 5, ⟨by decide +kernel, fetchedS (by decide +kernel)⟩⟩,
   ⟨0, (onSeq (seqAt .ret) (fun q => { q with calls := [7] })), 7, [], ⟨by decide +kernel, fetchedS (by decide +kernel)⟩, by decide +kernel⟩,
   ⟨0, (onSeq (seqAt (.loop 2 3)) (fun q => { q with loops := List.replicate 8 ⟨1, 2, 2, 4⟩ })), 2, 3, ⟨by decide +kernel, _, rfl, by decide +kernel, by decide +kernel, rfl⟩, by decide +kernel⟩,
   ⟨0, (seqAt .endloop), ⟨by decide +kernel, _, rfl, by decide +kernel, by decide +kernel, rfl⟩, by decide +kernel⟩,
   ⟨0, (onSeq (seqAt (.call 5)) (fun q => { q with calls := List.replicate 8 0 })), 5, ⟨by decide +kernel, _, rfl, by decide +kernel, by decide +kernel, rfl⟩, by decide +kernel⟩,
   ⟨0, (seqAt .ret), ⟨by decide +kernel, _, rfl, by decide +kernel, by decide +kernel, rfl⟩, by decide +kernel⟩⟩

theorem test_SequencerInstructions_witness :
    (∃ (n : CoreId) (s : State) (tally : BitVec 12) (x : BitVec 4) (set : BitVec 1) (scope : BitVec 3) (imm : Word) (e : Word), (AtS s n 0x08 (.wait tally x set scope imm)) ∧ (e = (if set = 1 then imm else (s.seq n).exps.getD x.toNat 0 + imm))) ∧
    (∃ (n : CoreId) (s : State) (i : SInstr), (AtS s n 0x09 i)) ∧
    (∃ (n : CoreId) (s : State) (i : SInstr), (AtS s n 0x0A i)) ∧
    (∃ (n : CoreId) (s : State) (i : SInstr), (AtS s n 0x18 i) ∧ (s.stopPending n = false)) ∧
    (∃ (n : CoreId) (s : State) (i : SInstr), (AtS s n 0x18 i) ∧ (s.stopPending n = true)) ∧
    (∃ (n : CoreId) (s : State) (i : SInstr) (b : Nat) (j : Nat), (AtS s n 0x19 i) ∧ ((s.seq n).stream = some (b, j)) ∧ (s.stopPending n = false) ∧ (s.peerReady b j = false) ∧ (s.reg Reg.BAY_WAKE [b, j] = 0)) ∧
    (∃ (n : CoreId) (s : State) (i : SInstr), (AtS s n 0x1F i)) ∧
    (∃ (n : CoreId) (s : State) (word : BitVec 4) (lo : BitVec 6) (widthM1 : BitVec 3) (table : BitVec 16) (b : Nat) (r : Region) (v : Nat) (e : Nat), (AtS s n 0x14 (.select word lo widthM1 table)) ∧ (s.bayOfCore n = some b) ∧ (s.region n = some r) ∧ (s.poisoned (s.ctlAddr b word.toNat) 8 = false) ∧ (v = bitsOf (ofLeBytes (s.bytes (s.ctlAddr b word.toNat) 8)) (lo.toNat + widthM1.toNat) lo.toNat) ∧ (32 * table.toNat + 8 * v + 8 ≤ r.len) ∧ (s.pantryPoison n (r.base + (32 * table.toNat + 8 * v)) 8 = false) ∧ (e = s.pantryNat n (r.base + (32 * table.toNat + 8 * v)) 8) ∧ (e < 2 ^ 18)) :=
  ⟨⟨0, (seqAt (.wait 5 2 0 2 3)), 5, 2, 0, 2, 3, _, ⟨by decide +kernel, fetchedS (by decide +kernel)⟩, rfl⟩,
   ⟨0, (seqAt (.sig 2 0 0 1 5 1)), (.sig 2 0 0 1 5 1), ⟨by decide +kernel, fetchedS (by decide +kernel)⟩⟩,
   ⟨0, (seqAt (.fence 2 1 0)), (.fence 2 1 0), ⟨by decide +kernel, fetchedS (by decide +kernel)⟩⟩,
   ⟨0, (seqAt (.cheap 1)), (.cheap 1), ⟨by decide +kernel, fetchedS (by decide +kernel)⟩, by decide +kernel⟩,
   ⟨0, ((seqAt (.cheap 1)).setImg 0 0 { bay.img 0 0 with status := .stopping }), (.cheap 1), ⟨by decide +kernel, fetchedS (by decide +kernel)⟩, by decide +kernel⟩,
   ⟨0, (seqAt (.yield 1)), (.yield 1), 0, 0, ⟨by decide +kernel, fetchedS (by decide +kernel)⟩, by decide +kernel, by decide +kernel, by decide +kernel, by decide +kernel⟩,
   ⟨0, (seqAt (.halt 9)), (.halt 9), ⟨by decide +kernel, fetchedS (by decide +kernel)⟩⟩,
   ⟨0, (seqAt (.select 0 0 1 4)), 0, 0, 1, 4, 0, ⟨0, 0, 65536, 0, [], 0, 0, []⟩, _, _, ⟨by decide +kernel, fetchedS (by decide +kernel)⟩, by decide +kernel, by decide +kernel, by decide +kernel, rfl, by decide +kernel, by decide +kernel, rfl, by decide +kernel⟩⟩

theorem test_SequencerDescriptors_witness :
    (∃ (n : CoreId) (s : State) (slot : BitVec 16) (bank : Nat) (d : StepIssue) (r : StepIssue), (AtS s n 0x01 (.step slot)) ∧ ((s.stepUnit n).running = some r) ∧ ((s.stepUnit n).queued = none) ∧ (s.readStep n (s.seq n).pc slot.toNat (s.seq n).loops ((s.seq n).stepsIssued + 1) = .inr (bank, d))) ∧
    (∃ (n : CoreId) (s : State) (slot : BitVec 16) (r : StepIssue) (k : StepIssue), (AtS s n 0x01 (.step slot)) ∧ ((s.stepUnit n).running = some r) ∧ ((s.stepUnit n).queued = some k)) ∧
    (∃ (n : CoreId) (s : State) (slot : BitVec 16) (pf : BitVec 1) (cl : BitVec 1) (chan : BitVec 4), (AtS s n 0x02 (.move slot pf cl chan)) ∧ (pf = 0) ∧ (s.queueRoom (movePorter n cl) chan.toNat = true)) ∧
    (∃ (n : CoreId) (s : State) (slot : BitVec 16) (pf : BitVec 1) (cl : BitVec 1) (chan : BitVec 4), (AtS s n 0x02 (.move slot pf cl chan)) ∧ (pf = 0) ∧ (s.queueRoom (movePorter n cl) chan.toNat = false)) ∧
    (∃ (n : CoreId) (s : State) (slot : BitVec 16) (pf : BitVec 1) (cl : BitVec 1) (chan : BitVec 4), (HeldS s n .move (.move slot pf cl chan)) ∧ (pf = 0) ∧ (s.queueRoom (movePorter n cl) chan.toNat = true)) ∧
    (∃ (n : CoreId) (s : State) (slot : BitVec 16) (g : BitVec 4) (en : BitVec 1) (tally : BitVec 12) (r : Region), (AtS s n 0x03 (.launch slot g en tally)) ∧ (g.toNat + 1 ≤ (s.freeSlots n).length) ∧ (s.region n = some r)) ∧
    (∃ (n : CoreId) (s : State) (slot : BitVec 16) (g : BitVec 4) (en : BitVec 1) (tally : BitVec 12), (AtS s n 0x03 (.launch slot g en tally)) ∧ ((s.freeSlots n).length < g.toNat + 1)) ∧
    (∃ (n : CoreId) (s : State) (slot : BitVec 16) (g : BitVec 4) (en : BitVec 1) (tally : BitVec 12) (r : Region), (HeldS s n .launch (.launch slot g en tally)) ∧ (g.toNat + 1 ≤ (s.freeSlots n).length) ∧ (s.region n = some r)) ∧
    (∃ (n : CoreId) (s : State) (c : Scan) (p : Prefetch), ((s.seq n).status = .running) ∧ (s.scanWalk n scanFuel (s.scanStart n) = (c, some p))) :=
  ⟨⟨0, (((seqAt (.step 8)).setStep 0 { running := some (stp 1 0) }).setReg Reg.DEV_INV_ENGINE [0] 15), 8, _, _, (stp 1 0), ⟨by decide +kernel, fetchedS (by decide +kernel)⟩, by decide +kernel, by decide +kernel, inrGet (by decide +kernel)⟩,
   ⟨0, ((seqAt (.step 8)).setStep 0 { running := some ⟨0, 0, 0, 1, 0, 0, []⟩, queued := some ⟨0, 0, 0, 2, 0, 0, []⟩ }), 8, ⟨0, 0, 0, 1, 0, 0, []⟩, ⟨0, 0, 0, 2, 0, 0, []⟩, ⟨by decide +kernel, fetchedS (by decide +kernel)⟩, by decide +kernel, by decide +kernel⟩,
   ⟨0, (seqAt (.move 8 0 0 1)), 8, 0, 0, 1, ⟨by decide +kernel, fetchedS (by decide +kernel)⟩, by decide +kernel, by decide +kernel⟩,
   ⟨0, ((seqAt (.move 8 0 0 1)).setChan 0 1 { queue := List.replicate 16 { raw := 0 } }), 8, 0, 0, 1, ⟨by decide +kernel, fetchedS (by decide +kernel)⟩, by decide +kernel, by decide +kernel⟩,
   ⟨0, (onSeq (seqAt (.move 8 0 0 1)) (fun q => { q with status := .stallChan, hold := .move })), 8, 0, 0, 1, ⟨by decide +kernel, fetchedS (by decide +kernel)⟩, by decide +kernel, by decide +kernel⟩,
   ⟨0, (seqAt (.launch 8 7 0 0)), 8, 7, 0, 0, ⟨0, 0, 65536, 0, [], 0, 0, []⟩, ⟨by decide +kernel, fetchedS (by decide +kernel)⟩, by decide +kernel, by decide +kernel⟩,
   ⟨0, ((seqAt (.launch 8 7 0 0)).setGroup 0 0 { status := .ready, live := 1 }), 8, 7, 0, 0, ⟨by decide +kernel, fetchedS (by decide +kernel)⟩, by decide +kernel⟩,
   ⟨0, (onSeq (seqAt (.launch 8 7 0 0)) (fun q => { q with status := .stallStep, hold := .launch })), 8, 7, 0, 0, ⟨0, 0, 65536, 0, [], 0, 0, []⟩, ⟨by decide +kernel, fetchedS (by decide +kernel)⟩, by decide +kernel, by decide +kernel⟩,
   ⟨0, ((seqAt (.move 32 1 0 1)).setImg 0 0 { status := .running, regions := [⟨0, 0, 65536, 0, [], 0, 1024, []⟩] }), _, _, by decide +kernel, pairSome (by decide +kernel)⟩⟩

theorem test_SequencerEnds_witness :
    (∃ (n : CoreId) (s : State) (tally : BitVec 12) (x : BitVec 4) (set : BitVec 1) (scope : BitVec 3) (imm : Word), (HeldS s n .wait (.wait tally x set scope imm)) ∧ (reached (s.tally n tally.toNat) (s.seq n).waitTarget = true)) ∧
    (∃ (n : CoreId) (s : State) (scope : BitVec 3) (remote : BitVec 1) (dev : BitVec 11) (core : BitVec 9) (tally : BitVec 12) (amount : BitVec 16), (HeldS s n .sig (.sig scope remote dev core tally amount)) ∧ (remote = 0) ∧ (s.workDone n = true) ∧ (s.frozenCore core.toNat = none)) ∧
    (∃ (n : CoreId) (s : State) (scope : BitVec 3) (acq : BitVec 1) (rel : BitVec 1), (HeldS s n .fence (.fence scope acq rel)) ∧ ((rel = 1 → s.workDone n = true))) ∧
    (∃ (n : CoreId) (s : State) (live : BitVec 40) (b : Nat) (j : Nat) (m : State), (HeldS s n .cheap (.cheap live)) ∧ (s.workDone n = true) ∧ ((s.seq n).stream = some (b, j)) ∧ (((s.undoRunAhead n).setSeq n { ((s.undoRunAhead n).seq n) with status := .stopped, hold := .free, live := live }).recordStop b j n live = .ok m) ∧ (n.val ∉ (m.bay b).stopped) ∧ ((m.setBay b { (m.bay b) with stopped := n :: (m.bay b).stopped }).allDone b = false)) ∧
    (∃ (n : CoreId) (s : State) (live : BitVec 40) (b : Nat) (j : Nat) (m : State), (HeldS s n .yielding (.yield live)) ∧ (s.workDone n = true) ∧ ((s.seq n).stream = some (b, j)) ∧ (((s.undoRunAhead n).setSeq n { ((s.undoRunAhead n).seq n) with status := .stopped, hold := .free, live := live }).recordStop b j n live = .ok m) ∧ (n.val ∉ (m.bay b).stopped) ∧ ((m.setBay b { (m.bay b) with stopped := n :: (m.bay b).stopped }).allDone b = false)) ∧
    (∃ (n : CoreId) (s : State) (code : BitVec 16) (b : Nat) (j : Nat) (m : State), (HeldS s n .halt (.halt code)) ∧ (s.workDone n = true) ∧ ((s.seq n).stream = some (b, j)) ∧ (((s.undoRunAhead n).setSeq n { ((s.undoRunAhead n).seq n) with status := .halted, hold := .free, haltCode := code }).recordStop b j n 0 = .ok m) ∧ (n.val ∉ (m.img b j).haltedCores) ∧ ((m.setImg b j { (m.img b j) with haltedCores := n :: (m.img b j).haltedCores }).allDone b = false)) :=
  ⟨⟨0, (onSeq (seqAt (.wait 5 2 0 2 0)) (fun q => { q with status := .inWait, hold := .wait })), 5, 2, 0, 2, 0, ⟨by decide +kernel, fetchedS (by decide +kernel)⟩, by decide +kernel⟩,
   ⟨0, (onSeq (seqAt (.sig 2 0 0 1 5 1)) (fun q => { q with hold := .sig })), 2, 0, 0, 1, 5, 1, ⟨by decide +kernel, fetchedS (by decide +kernel)⟩, by decide +kernel, by decide +kernel, by decide +kernel⟩,
   ⟨0, (onSeq (seqAt (.fence 2 1 1)) (fun q => { q with hold := .fence })), 2, 1, 1, ⟨by decide +kernel, fetchedS (by decide +kernel)⟩, by decide +kernel⟩,
   ⟨0, (celled (onSeq (seqAt (.cheap 1)) (fun q => { q with hold := .cheap }))), 1, 0, 0, _, ⟨by decide +kernel, fetchedS (by decide +kernel)⟩, by decide +kernel, by decide +kernel, movedGet (by decide +kernel), by decide +kernel, by decide +kernel⟩,
   ⟨0, (celled (onSeq (seqAt (.yield 1)) (fun q => { q with hold := .yielding }))), 1, 0, 0, _, ⟨by decide +kernel, fetchedS (by decide +kernel)⟩, by decide +kernel, by decide +kernel, movedGet (by decide +kernel), by decide +kernel, by decide +kernel⟩,
   ⟨0, (celled (onSeq (seqAt (.halt 1)) (fun q => { q with hold := .halt }))), 1, 0, 0, _, ⟨by decide +kernel, fetchedS (by decide +kernel)⟩, by decide +kernel, by decide +kernel, movedGet (by decide +kernel), by decide +kernel, by decide +kernel⟩⟩

theorem test_EngineWork_witness :
    (∃ (n : CoreId) (e : EngineId) (s : State) (x : Engine) (d : StepIssue) (t : BitVec 128), (s.engine n e = x) ∧ ((s.stepUnit n).running = some d) ∧ (d.takes e = true) ∧ (x.enter = none) ∧ (x.stopped = false) ∧ ((s.stepUnit n).failing = 0) ∧ (x.entry ≤ d.field 63 53) ∧ (s.tileEntry n d e x.entry = (t, false)) ∧ (entryValid t = false)) ∧
    (∃ (n : CoreId) (e : EngineId) (s : State) (x : Engine) (d : StepIssue) (t : BitVec 128) (tile : Tile), (s.engine n e = x) ∧ ((s.stepUnit n).running = some d) ∧ (d.takes e = true) ∧ (x.enter = none) ∧ (x.drain = none) ∧ (x.stopped = false) ∧ ((s.stepUnit n).failing = 0) ∧ (x.entry ≤ d.field 63 53) ∧ (s.tileEntry n d e x.entry = (t, false)) ∧ (entryValid t = true) ∧ (fetchFault d t false = 0) ∧ (d.mRows ≤ 256) ∧ (tile = { entry := t, half := x.half, acc0 := if d.accIn then x.acc else [] })) ∧
    (∃ (n : CoreId) (e : EngineId) (s : State) (sums : List SumError) (shadows : List ShadowError) (d : StepIssue) (t : Tile) (acc : Tbl Word) (poison : Bool), ((s.stepUnit n).running = some d) ∧ ((s.engine n e).enter = some t) ∧ (entered d t = false) ∧ (s.rowPass n d (s.engine n e) t sums shadows = (acc, false, false, poison))) ∧
    (∃ (n : CoreId) (e : EngineId) (s : State) (d : StepIssue) (t : Tile), ((s.stepUnit n).running = some d) ∧ ((s.engine n e).drain = some t) ∧ (d.accOut = false) ∧ (t.outRow ≤ entryRows t.entry) ∧ (t.checked = true)) ∧
    (∃ (n : CoreId) (e : EngineId) (s : State) (d : StepIssue) (t : Tile), ((s.stepUnit n).running = some d) ∧ ((s.engine n e).drain = some t) ∧ (d.accOut = false) ∧ (entryRows t.entry < t.outRow) ∧ (opCopy d.op = false) ∧ ((s.stepUnit n).failing = 0)) ∧
    (∃ (n : CoreId) (s : State) (d : StepIssue), ((s.stepUnit n).running = some d) ∧ ((s.stepUnit n).queued = none) ∧ ((s.stepUnit n).ready d = true) ∧ (d.field 224 224 = 0)) ∧
    (∃ (n : CoreId) (s : State) (d : StepIssue), ((s.stepUnit n).running = some d) ∧ ((s.stepUnit n).queued = none) ∧ ((s.stepUnit n).ready d = true) ∧ (d.field 224 224 = 1) ∧ (Open s n)) :=
  ⟨⟨0, 0, (stepAt (stp 0x20 0) {} 0), _, (stp 0x20 0), 0, rfl, by decide +kernel, by decide +kernel, by decide +kernel, by decide +kernel, by decide +kernel, by decide +kernel, by decide +kernel, by decide +kernel⟩,
   ⟨0, 0, (stepAt (stp 0x20 0)), _, (stp 0x20 0), (2 ^ 73), _, rfl, by decide +kernel, by decide +kernel, by decide +kernel, by decide +kernel, by decide +kernel, by decide +kernel, by decide +kernel, by decide +kernel, by decide +kernel, by decide +kernel, by decide +kernel, rfl⟩,
   ⟨0, 0, (stepAt (stp 0x20 0) { enter := some { entry := 2 ^ 73 } }), [], [], (stp 0x20 0), { entry := 2 ^ 73 }, _, _, by decide +kernel, by decide +kernel, by decide +kernel, quadGet (by decide +kernel) (by decide +kernel)⟩,
   ⟨0, 0, (stepAt (stp 0x20 0) { drain := some { entry := 2 ^ 73, checked := true } }), (stp 0x20 0), { entry := 2 ^ 73, checked := true }, by decide +kernel, by decide +kernel, by decide +kernel, by decide +kernel, by decide +kernel⟩,
   ⟨0, 0, (stepAt (stp 1 0) { drain := some { entry := 2 ^ 73, outRow := 1 } }), (stp 1 0), { entry := 2 ^ 73, outRow := 1 }, by decide +kernel, by decide +kernel, by decide +kernel, by decide +kernel, by decide +kernel, by decide +kernel⟩,
   ⟨0, (stepAt (stp 0x20 0) { entry := 1 }), (stp 0x20 0), by decide +kernel, by decide +kernel, by decide +kernel, by decide +kernel⟩,
   ⟨0, (stepAt (stp 0x20 (2 ^ 224)) { entry := 1 }), (stp 0x20 (2 ^ 224)), by decide +kernel, by decide +kernel, by decide +kernel, by decide +kernel, ⟨rfl, rfl, rfl⟩⟩⟩

theorem test_MismatchReplaysTile_witness :
    (∃ (n : CoreId) (e : EngineId) (s : State) (sums : List SumError) (shadows : List ShadowError) (d : StepIssue) (tile : Tile) (acc : Tbl Word) (residue : Bool) (shadow : Bool) (poison : Bool), ((s.stepUnit n).running = some d) ∧ ((s.engine n e).enter = some tile) ∧ (entered d tile = false) ∧ (tile.replay = false) ∧ (s.rowPass n d (s.engine n e) tile sums shadows = (acc, residue, shadow, poison)) ∧ ((residue || shadow) = true)) :=
  ⟨0, 0, (stepAt (stp 0x10 (2 ^ 29)) { enter := some { entry := 2 ^ 73 } }), [], [⟨0, 0, 0x3F800000⟩], (stp 0x10 (2 ^ 29)), { entry := 2 ^ 73 }, _, _, _, _, by decide +kernel, by decide +kernel, by decide +kernel, by decide +kernel, quadEta _, by decide +kernel⟩

theorem test_ImageCommands_witness :
    (∃ (b : BayId) (j : ImgId) (_f : Option Nat) (s : State), (s.instActive (s.instOfBay b) = true) ∧ (loadable (s.img b j).status = true)) ∧
    (∃ (b : BayId) (j : ImgId) (s : State) (src : ImgSrc), ((s.img b j).status = .loading) ∧ ((s.bay b).switch ≠ 2) ∧ (src = { s := s, base := (s.reg Reg.BAY_IMG_ADDR [b, j]).toNat, len := s.fld Reg.BAY_IMG_LEN [b, j] F.BAY_IMG_LEN_LEN, failAt := (s.img b j).failAt }) ∧ (src.reason b j = 0)) ∧
    (∃ (b : BayId) (j : ImgId) (s : State) (src : ImgSrc), ((s.img b j).status = .loading) ∧ ((s.bay b).switch ≠ 2) ∧ (src = { s := s, base := (s.reg Reg.BAY_IMG_ADDR [b, j]).toNat, len := s.fld Reg.BAY_IMG_LEN [b, j] F.BAY_IMG_LEN_LEN, failAt := (s.img b j).failAt }) ∧ (src.reason b j ≠ 0)) ∧
    (∃ (b : BayId) (j : ImgId) (_s : State) (src : ImgSrc), (src.early b j ≠ 0)) ∧
    (∃ (b : BayId) (j : ImgId) (s : State), (s.instActive (s.instOfBay b) = true) ∧ ((s.img b j).status = .stopped)) ∧
    (∃ (b : BayId) (j : ImgId) (s : State), (s.instActive (s.instOfBay b) = true) ∧ ((s.img b j).status = .loaded)) ∧
    (∃ (b : BayId) (j : ImgId) (s : State), (s.instActive (s.instOfBay b) = true) ∧ ((s.img b j).status = .running) ∧ (s.resuming b j = false) ∧ (s.onCores b j = true)) ∧
    (∃ (b : BayId) (j : ImgId) (s : State), (s.instActive (s.instOfBay b) = true) ∧ ((s.img b j).status = .running) ∧ (s.resuming b j = false) ∧ (s.onCores b j = false)) ∧
    (∃ (b : BayId) (j : ImgId) (s : State), (s.instActive (s.instOfBay b) = true) ∧ ((s.img b j).status = .running) ∧ (s.resuming b j = false) ∧ (s.onCores b j = false)) ∧
    (∃ (b : BayId) (j : ImgId) (s : State), (s.instActive (s.instOfBay b) = true) ∧ ((s.img b j).status = .running) ∧ (s.resuming b j = false)) ∧
    (∃ (b : BayId) (j : ImgId) (s : State), (s.instActive (s.instOfBay b) = true) ∧ ((s.img b j).status ≠ .loading) ∧ ((s.img b j).status ≠ .running) ∧ ((s.img b j).status ≠ .stopping)) ∧
    (∃ (b : BayId) (j : ImgId) (s : State), (s.instActive (s.instOfBay b) = true) ∧ ((s.img b j).status = .running)) :=
  ⟨⟨0, 1, none, bay, by decide +kernel, by decide +kernel⟩,
   ⟨0, 1, loadAt, _, by decide +kernel, by decide +kernel, rfl, by decide +kernel⟩,
   ⟨0, 1, (bay.setImg 0 1 { status := .loading }), _, by decide +kernel, by decide +kernel, rfl, by decide +kernel⟩,
   ⟨0, 1, bay, ⟨bay, 0, 32, none⟩, by decide +kernel⟩,
   ⟨0, 1, (bay.setImg 0 1 { status := .stopped }), by decide +kernel, by decide +kernel⟩,
   ⟨0, 1, (bay.setImg 0 1 { status := .loaded }), by decide +kernel, by decide +kernel⟩,
   ⟨0, 0, bay, by decide +kernel, by decide +kernel, by decide +kernel, by decide +kernel⟩,
   ⟨0, 1, (bay.setImg 0 1 { status := .running }), by decide +kernel, by decide +kernel, by decide +kernel, by decide +kernel⟩,
   ⟨0, 1, (bay.setImg 0 1 { status := .running }), by decide +kernel, by decide +kernel, by decide +kernel, by decide +kernel⟩,
   ⟨0, 0, bay, by decide +kernel, by decide +kernel, by decide +kernel⟩,
   ⟨0, 1, bay, by decide +kernel, by decide +kernel, by decide +kernel, by decide +kernel⟩,
   ⟨0, 0, bay, by decide +kernel, by decide +kernel⟩⟩

theorem test_VectorArithmetic_witness :
    (∃ (n : CoreId) (g : SlotId) (s : State) (w : VWord), (AtV s n g 0 w) ∧ (w.op ≠ 0x0B)) ∧
    (∃ (n : CoreId) (g : SlotId) (s : State) (w : VWord), (AtV s n g 0 w) ∧ (w.op = 0x0B)) ∧
    (∃ (n : CoreId) (g : SlotId) (s : State) (w : VWord), (AtV s n g 1 w)) ∧
    (∃ (n : CoreId) (g : SlotId) (s : State) (w : VWord), (AtV s n g 2 w)) ∧
    (∃ (n : CoreId) (g : SlotId) (s : State) (w : VWord), (AtV s n g 3 w)) ∧
    (∃ (n : CoreId) (g : SlotId) (s : State) (w : VWord), (AtV s n g 10 w) ∧ (8 ≤ w.op)) ∧
    (∃ (n : CoreId) (g : SlotId) (s : State) (w : VWord) (lo : DWord) (hi : DWord) (y : Group), (AtV s n g 10 w) ∧ (w.op < 8) ∧ (lo = (s.group n g).exec w &&& 0xFFFFFFFF) ∧ (hi = (s.group n g).exec w &&& ~~~ 0xFFFFFFFF) ∧ (y = (if lo = 0 then s.group n g else (s.group n g).packBlock (s.group n g) w lo))) :=
  ⟨⟨0, 0, (grpAt (vw 0 0 0)), (vw 0 0 0), ⟨by decide +kernel, fetchedV (by decide +kernel), by decide +kernel, by decide +kernel⟩, by decide +kernel⟩,
   ⟨0, 0, (grpAt (vw 0 11 0)), (vw 0 11 0), ⟨by decide +kernel, fetchedV (by decide +kernel), by decide +kernel, by decide +kernel⟩, by decide +kernel⟩,
   ⟨0, 0, (grpAt (vw 1 0 (2 ^ 49))), (vw 1 0 (2 ^ 49)), ⟨by decide +kernel, fetchedV (by decide +kernel), by decide +kernel, by decide +kernel⟩⟩,
   ⟨0, 0, (grpAt (vw 2 0 (2 ^ 49))), (vw 2 0 (2 ^ 49)), ⟨by decide +kernel, fetchedV (by decide +kernel), by decide +kernel, by decide +kernel⟩⟩,
   ⟨0, 0, (grpAt (vw 3 0 0)), (vw 3 0 0), ⟨by decide +kernel, fetchedV (by decide +kernel), by decide +kernel, by decide +kernel⟩⟩,
   ⟨0, 0, (grpAt (vw 10 8 0)), (vw 10 8 0), ⟨by decide +kernel, fetchedV (by decide +kernel), by decide +kernel, by decide +kernel⟩, by decide +kernel⟩,
   ⟨0, 0, (grpAt (vw 10 0 0)), (vw 10 0 0), _, _, _, ⟨by decide +kernel, fetchedV (by decide +kernel), by decide +kernel, by decide +kernel⟩, by decide +kernel, rfl, rfl, rfl⟩⟩

theorem test_PredicateScalarLane_witness :
    (∃ (n : CoreId) (g : SlotId) (s : State) (w : VWord), (AtV s n g 4 w) ∧ (w.op ≤ 5)) ∧
    (∃ (n : CoreId) (g : SlotId) (s : State) (w : VWord), (AtV s n g 4 w) ∧ (0x10 ≤ w.op) ∧ (w.op ≤ 0x13)) ∧
    (∃ (n : CoreId) (g : SlotId) (s : State) (w : VWord), (AtV s n g 4 w) ∧ (w.op = 0x14)) ∧
    (∃ (n : CoreId) (g : SlotId) (s : State) (w : VWord), (AtV s n g 4 w) ∧ (w.op = 0x15)) ∧
    (∃ (n : CoreId) (g : SlotId) (s : State) (w : VWord), (AtV s n g 5 w)) ∧
    (∃ (n : CoreId) (g : SlotId) (s : State) (w : VWord), (AtV s n g 6 w) ∧ (w.op = 0x00)) ∧
    (∃ (n : CoreId) (g : SlotId) (s : State) (w : VWord), (AtV s n g 6 w) ∧ (w.op = 0x01)) ∧
    (∃ (n : CoreId) (g : SlotId) (s : State) (w : VWord), (AtV s n g 6 w) ∧ (w.op = 0x02)) ∧
    (∃ (n : CoreId) (g : SlotId) (s : State) (w : VWord), (AtV s n g 6 w) ∧ (w.op = 0x03)) ∧
    (∃ (n : CoreId) (g : SlotId) (s : State) (w : VWord), (AtV s n g 6 w) ∧ (w.op = 0x04)) ∧
    (∃ (n : CoreId) (g : SlotId) (s : State) (w : VWord), (AtV s n g 6 w) ∧ (w.op = 0x05)) ∧
    (∃ (n : CoreId) (g : SlotId) (s : State) (w : VWord), (AtV s n g 6 w) ∧ (w.op = 0x06)) ∧
    (∃ (n : CoreId) (g : SlotId) (s : State) (w : VWord), (AtV s n g 6 w) ∧ (w.op = 0x08)) ∧
    (∃ (n : CoreId) (g : SlotId) (s : State) (w : VWord), (AtV s n g 6 w) ∧ (w.op = 0x09)) ∧
    (∃ (n : CoreId) (g : SlotId) (s : State) (w : VWord), (AtV s n g 6 w) ∧ (w.op = 0x0A)) ∧
    (∃ (n : CoreId) (g : SlotId) (s : State) (w : VWord) (v : Word), (AtV s n g 6 w) ∧ (w.op = 0x10) ∧ (v = foldOf (foldElem 0x10 w) ((threads ((s.group n g).exec w)).map ((s.group n g).vreg w.va)))) ∧
    (∃ (n : CoreId) (g : SlotId) (s : State) (w : VWord) (v : Word), (AtV s n g 6 w) ∧ (w.op = 0x11) ∧ (v = foldOf (foldElem 0x11 w) ((threads ((s.group n g).exec w)).map ((s.group n g).vreg w.va)))) ∧
    (∃ (n : CoreId) (g : SlotId) (s : State) (w : VWord) (v : Word), (AtV s n g 6 w) ∧ (w.op = 0x12) ∧ (v = foldOf (foldElem 0x12 w) ((threads ((s.group n g).exec w)).map ((s.group n g).vreg w.va)))) :=
  ⟨⟨0, 0, (grpAt (vw 4 0 0)), (vw 4 0 0), ⟨by decide +kernel, fetchedV (by decide +kernel), by decide +kernel, by decide +kernel⟩, by decide +kernel⟩,
   ⟨0, 0, (grpAt (vw 4 16 0)), (vw 4 16 0), ⟨by decide +kernel, fetchedV (by decide +kernel), by decide +kernel, by decide +kernel⟩, by decide +kernel, by decide +kernel⟩,
   ⟨0, 0, (grpAt (vw 4 20 0)), (vw 4 20 0), ⟨by decide +kernel, fetchedV (by decide +kernel), by decide +kernel, by decide +kernel⟩, by decide +kernel⟩,
   ⟨0, 0, (grpAt (vw 4 21 0)), (vw 4 21 0), ⟨by decide +kernel, fetchedV (by decide +kernel), by decide +kernel, by decide +kernel⟩, by decide +kernel⟩,
   ⟨0, 0, (grpAt (vw 5 0 0)), (vw 5 0 0), ⟨by decide +kernel, fetchedV (by decide +kernel), by decide +kernel, by decide +kernel⟩⟩,
   ⟨0, 0, (grpAt (vw 6 0 0)), (vw 6 0 0), ⟨by decide +kernel, fetchedV (by decide +kernel), by decide +kernel, by decide +kernel⟩, by decide +kernel⟩,
   ⟨0, 0, (grpAt (vw 6 1 0)), (vw 6 1 0), ⟨by decide +kernel, fetchedV (by decide +kernel), by decide +kernel, by decide +kernel⟩, by decide +kernel⟩,
   ⟨0, 0, (grpAt (vw 6 2 0)), (vw 6 2 0), ⟨by decide +kernel, fetchedV (by decide +kernel), by decide +kernel, by decide +kernel⟩, by decide +kernel⟩,
   ⟨0, 0, (grpAt (vw 6 3 0)), (vw 6 3 0), ⟨by decide +kernel, fetchedV (by decide +kernel), by decide +kernel, by decide +kernel⟩, by decide +kernel⟩,
   ⟨0, 0, (grpAt (vw 6 4 0)), (vw 6 4 0), ⟨by decide +kernel, fetchedV (by decide +kernel), by decide +kernel, by decide +kernel⟩, by decide +kernel⟩,
   ⟨0, 0, (grpAt (vw 6 5 0)), (vw 6 5 0), ⟨by decide +kernel, fetchedV (by decide +kernel), by decide +kernel, by decide +kernel⟩, by decide +kernel⟩,
   ⟨0, 0, (grpAt (vw 6 6 0)), (vw 6 6 0), ⟨by decide +kernel, fetchedV (by decide +kernel), by decide +kernel, by decide +kernel⟩, by decide +kernel⟩,
   ⟨0, 0, (grpAt (vw 6 8 0)), (vw 6 8 0), ⟨by decide +kernel, fetchedV (by decide +kernel), by decide +kernel, by decide +kernel⟩, by decide +kernel⟩,
   ⟨0, 0, (grpAt (vw 6 9 0)), (vw 6 9 0), ⟨by decide +kernel, fetchedV (by decide +kernel), by decide +kernel, by decide +kernel⟩, by decide +kernel⟩,
   ⟨0, 0, (grpAt (vw 6 10 0)), (vw 6 10 0), ⟨by decide +kernel, fetchedV (by decide +kernel), by decide +kernel, by decide +kernel⟩, by decide +kernel⟩,
   ⟨0, 0, (grpAt (vw 6 16 0)), (vw 6 16 0), _, ⟨by decide +kernel, fetchedV (by decide +kernel), by decide +kernel, by decide +kernel⟩, by decide +kernel, rfl⟩,
   ⟨0, 0, (grpAt (vw 6 17 0)), (vw 6 17 0), _, ⟨by decide +kernel, fetchedV (by decide +kernel), by decide +kernel, by decide +kernel⟩, by decide +kernel, rfl⟩,
   ⟨0, 0, (grpAt (vw 6 18 0)), (vw 6 18 0), _, ⟨by decide +kernel, fetchedV (by decide +kernel), by decide +kernel, by decide +kernel⟩, by decide +kernel, rfl⟩⟩

theorem test_VectorReplay_witness :
    (∃ (n : CoreId) (g : SlotId) (s : State) (t : State) (c : Fin 3 → Instr), (c ∈ [Instr.vectorFpOp n g, Instr.vectorIntOp n g, Instr.vectorImmOp n g, Instr.specialFunction n g, Instr.radd n g, Instr.pk n g, Instr.unpk n g]) ∧ (exec (c 0) s = .next t)) ∧
    (∃ (n : CoreId) (g : SlotId) (s : State) (w : VWord), (AtV s n g 3 w) ∧ ((s.group n g).exec w ≠ 0)) ∧
    (∃ (n : CoreId) (g : SlotId) (s : State) (w : VWord), (AtV s n g 3 w) ∧ ((s.group n g).exec w ≠ 0)) :=
  ⟨⟨0, 0, (grpAt (vw 0 0 0)), _, (Instr.vectorFpOp 0 0), List.mem_cons_self, rfl⟩,
   ⟨0, 0, (grpAt (vw 3 0 0)), (vw 3 0 0), ⟨by decide +kernel, fetchedV (by decide +kernel), by decide +kernel, by decide +kernel⟩, by decide +kernel⟩,
   ⟨0, 0, (grpAt (vw 3 0 0)), (vw 3 0 0), ⟨by decide +kernel, fetchedV (by decide +kernel), by decide +kernel, by decide +kernel⟩, by decide +kernel⟩⟩

theorem test_GroupLoadsStores_witness :
    (∃ (n : CoreId) (g : SlotId) (s : State) (u : State) (t : State) (c : Instr) (op : Nat) (w : VWord) (as : List Access) (ps : List LoadPart), ((op, c) ∈ [(0, Instr.ld n g), (2, Instr.lds n g)]) ∧ (AtV s n g 7 w) ∧ (w.op = op) ∧ ((s.group n g).exec w ≠ 0) ∧ (s.checkAddrs n w.spaceM w.bytes .read false (accesses (s.group n g) ((s.group n g).exec w) w.spaceM w.sbM w.va w.offset w.unif) = some (u, as, [])) ∧ ((u.countReplays n w.spaceM as).loadParts n g w.bytes as = some (t, ps))) ∧
    (∃ (n : CoreId) (g : SlotId) (s : State) (c : Instr) (op : Nat) (w : VWord), ((op, c) ∈ [(0, Instr.ld n g), (2, Instr.lds n g)]) ∧ (AtV s n g 7 w) ∧ (w.op = op) ∧ ((s.group n g).exec w = 0) ∧ (w.ordM ≠ 1)) ∧
    (∃ (n : CoreId) (g : SlotId) (s : State) (u : State) (t : State) (w : VWord) (as : List Access), (AtV s n g 7 w) ∧ (w.op = 1) ∧ ((s.group n g).exec w ≠ 0) ∧ ((w.ordM = 2 → s.widen n w.scopeM < 6)) ∧ (w.unif = false) ∧ (s.checkAddrs n w.spaceM w.bytes .write false (accesses (s.group n g) ((s.group n g).exec w) w.spaceM w.sbM w.va w.offset w.unif) = some (u, as, [])) ∧ ((u.countReplays n w.spaceM as).storeParts n g (s.group n g) w as = some t)) ∧
    (∃ (n : CoreId) (g : SlotId) (s : State) (u : State) (t : State) (w : VWord) (as : List Access) (bs : List Access), (AtV s n g 7 w) ∧ (w.op = 1) ∧ ((s.group n g).exec w ≠ 0) ∧ ((w.ordM = 2 → s.widen n w.scopeM < 6)) ∧ (w.unif = true) ∧ (s.checkAddrs n w.spaceM w.bytes .write false (accesses (s.group n g) ((s.group n g).exec w) w.spaceM w.sbM w.va w.offset w.unif) = some (u, as, [])) ∧ (bs = as.map (fun a => { a with thread := (threads ((s.group n g).exec w)).getLastD 0 })) ∧ ((u.countReplays n w.spaceM bs).storeParts n g (s.group n g) w bs = some t)) ∧
    (∃ (n : CoreId) (l : Nat) (s : State) (u : State) (c : CupLine), ((s.shelf n).fills.find? (fun f => f.1 == l) = some (l, false)) ∧ ((s.countMiss (clusterOf n) l false).cupRead (clusterOf n) l (((((List.range 8).filterMap (fun g => (s.group n g).load)).flatMap (·.parts)).find? (fun p => p.got.isNone && p.pa / 128 == l && !p.ext)).bind (·.pin)) = some (u, c))) :=
  ⟨⟨0, 0, (grpAt (vw 7 0 (2 * 2 ^ 22))), _, _, (Instr.ld 0 0), 0, (vw 7 0 (2 * 2 ^ 22)), _, _, by decide +kernel, ⟨by decide +kernel, fetchedV (by decide +kernel), by decide +kernel, by decide +kernel⟩, by decide +kernel, by decide +kernel, tripleGet (by decide +kernel), someGet2 (by decide +kernel)⟩,
   ⟨0, 0, (onGrp (grpAt (vw 7 0 0)) (fun x => { x with active := 0 })), (Instr.ld 0 0), 0, (vw 7 0 0), by decide +kernel, ⟨by decide +kernel, fetchedV (by decide +kernel), by decide +kernel, by decide +kernel⟩, by decide +kernel, by decide +kernel, by decide +kernel⟩,
   ⟨0, 0, (grpAt (vw 7 1 (2 * 2 ^ 22))), _, _, (vw 7 1 (2 * 2 ^ 22)), _, ⟨by decide +kernel, fetchedV (by decide +kernel), by decide +kernel, by decide +kernel⟩, by decide +kernel, by decide +kernel, by decide +kernel, by decide +kernel, tripleGet (by decide +kernel), someGet (by decide +kernel)⟩,
   ⟨0, 0, (grpAt (vw 7 1 (2 * 2 ^ 22 + 2 ^ 15))), _, _, (vw 7 1 (2 * 2 ^ 22 + 2 ^ 15)), _, _, ⟨by decide +kernel, fetchedV (by decide +kernel), by decide +kernel, by decide +kernel⟩, by decide +kernel, by decide +kernel, by decide +kernel, by decide +kernel, tripleGet (by decide +kernel), rfl, someGet (by decide +kernel)⟩,
   ⟨0, 64, ((celled bay).setShelf 0 { fills := [(64, false)] }), _, _, by decide +kernel, someGet2 (by decide +kernel)⟩⟩

theorem test_GroupAtomics_witness :
    (∃ (n : CoreId) (g : SlotId) (s : State) (u : State) (t : State) (c : Instr) (op : Nat) (w : VWord) (as : List Access) (here : List Access) (away : List Access) (vs : List (Nat × Word)) (l : MemWait), ((op, c) ∈ [(0, Instr.atomAdd n g 0), (1, Instr.atomMin n g), (2, Instr.atomMax n g), (3, Instr.atomAnd n g), (4, Instr.atomOr n g), (5, Instr.atomXor n g), (6, Instr.atomXchg n g), (7, Instr.atomCas n g)]) ∧ (AtV s n g 8 w) ∧ (w.op = op) ∧ ((s.group n g).exec w ≠ 0) ∧ ((2 ≤ w.ordA → s.widen n w.scopeA < 6)) ∧ (s.checkAddrs n w.spaceA 4 .both true (accesses (s.group n g) ((s.group n g).exec w) w.spaceA w.sbA w.va 0 false) = some (u, as, [])) ∧ (here = as.filter (fun a => !hasHome a.pa)) ∧ (away = as.filter (fun a => hasHome a.pa)) ∧ ((∀ a ∈ here, u.poisoned a.pa 4 = false)) ∧ (((u.when (decide (op ≤ 5)) (fun u => u.bump Reg.CST_VEC_CNT [n] F.CST_VEC_CNT_ATOM_COMB (as.length - (byAddress as).length))).countReplays n w.spaceA as).atomPantry (s.group n g) w here = (t, vs)) ∧ (l = { word := w, parts := as.map (fun a => { thread := a.thread, va := a.va, pa := a.pa }), left := (atomOps op away).length, vals := vs })) :=
  ⟨0, 0, (grpAt (vw 8 0 0)), _, _, (Instr.atomAdd 0 0 0), 0, (vw 8 0 0), _, _, _, _, _, by decide +kernel, ⟨by decide +kernel, fetchedV (by decide +kernel), by decide +kernel, by decide +kernel⟩, by decide +kernel, by decide +kernel, by decide +kernel, tripleGet (by decide +kernel), rfl, rfl, by decide +kernel, pairEta _, rfl⟩

theorem test_PantryScalarLoad_witness :
    (∃ (n : CoreId) (g : SlotId) (s : State) (w : VWord) (a : Nat), (AtV s n g 7 w) ∧ (w.op = 2) ∧ (w.spaceM = false) ∧ (w.ordM ≠ 1) ∧ ((s.group n g).exec w ≠ 0) ∧ (a = threadAddr false ((s.group n g).sreg w.sbM) 0 w.offset) ∧ (a < pantrySize) ∧ (a % 8 = 0) ∧ (s.pantryPoison n a 8 = false)) :=
  ⟨0, 0, (grpAt (vw 7 2 (3 * 2 ^ 22 + 2 ^ 15))), (vw 7 2 (3 * 2 ^ 22 + 2 ^ 15)), _, ⟨by decide +kernel, fetchedV (by decide +kernel), by decide +kernel, by decide +kernel⟩, by decide +kernel, by decide +kernel, by decide +kernel, by decide +kernel, rfl, by decide +kernel, by decide +kernel, by decide +kernel⟩

theorem test_GroupControl_witness :
    (∃ (n : CoreId) (g : SlotId) (s : State) (w : VWord), (AtV s n g 9 w) ∧ (w.op = 0x00)) ∧
    (∃ (n : CoreId) (g : SlotId) (s : State) (w : VWord), (AtV s n g 9 w) ∧ (w.op = 0x01)) ∧
    (∃ (n : CoreId) (g : SlotId) (s : State) (w : VWord), (AtV s n g 9 w) ∧ (w.op = 0x02)) ∧
    (∃ (n : CoreId) (g : SlotId) (s : State) (w : VWord), (AtV s n g 9 w) ∧ (w.op = 0x03)) ∧
    (∃ (n : CoreId) (g : SlotId) (s : State) (w : VWord), (AtV s n g 9 w) ∧ (w.op = 0x04) ∧ ((s.group n g).stack.length < 16) ∧ ((s.group n g).active &&& (s.group n g).preg w.pkC = 0)) ∧
    (∃ (n : CoreId) (g : SlotId) (s : State) (w : VWord), (AtV s n g 9 w) ∧ (w.op = 0x04) ∧ ((s.group n g).stack.length < 16) ∧ ((s.group n g).active &&& (s.group n g).preg w.pkC ≠ 0)) ∧
    (∃ (n : CoreId) (g : SlotId) (s : State) (w : VWord) (e : MaskEntry) (r : List MaskEntry), (AtV s n g 9 w) ∧ (w.op = 0x05) ∧ ((s.group n g).stack = e :: r) ∧ (e.kind = .split) ∧ (e.rpc = (s.group n g).pc) ∧ (e.pend &&& (s.group n g).live ≠ 0)) ∧
    (∃ (n : CoreId) (g : SlotId) (s : State) (w : VWord) (e : MaskEntry) (r : List MaskEntry), (AtV s n g 9 w) ∧ (w.op = 0x05) ∧ ((s.group n g).stack = e :: r) ∧ (e.kind = .split) ∧ (e.rpc = (s.group n g).pc) ∧ (e.pend &&& (s.group n g).live = 0)) ∧
    (∃ (n : CoreId) (g : SlotId) (s : State) (w : VWord), (AtV s n g 9 w) ∧ (w.op = 0x06) ∧ ((s.group n g).stack.length < 16)) ∧
    (∃ (n : CoreId) (g : SlotId) (s : State) (w : VWord) (e : MaskEntry) (r : List MaskEntry) (a : DWord), (AtV s n g 9 w) ∧ (w.op = 0x07) ∧ ((s.group n g).stack = e :: r) ∧ (e.kind = .loop) ∧ (a = (s.group n g).active &&& ~~~ ((s.group n g).preg w.pkC))) ∧
    (∃ (n : CoreId) (g : SlotId) (s : State) (w : VWord) (e : MaskEntry) (r : List MaskEntry) (a : DWord), (AtV s n g 9 w) ∧ (w.op = 0x08) ∧ ((s.group n g).stack = e :: r) ∧ (e.kind = .loop) ∧ (a = (s.group n g).active &&& (s.group n g).preg w.pkC)) ∧
    (∃ (n : CoreId) (g : SlotId) (s : State) (w : VWord) (e : MaskEntry) (r : List MaskEntry), (AtV s n g 9 w) ∧ (w.op = 0x09) ∧ ((s.group n g).stack = e :: r) ∧ (e.kind = .loop) ∧ (e.rpc = (s.group n g).pc)) ∧
    (∃ (n : CoreId) (g : SlotId) (s : State) (w : VWord) (e : MaskEntry) (r : List MaskEntry), (AtV s n g 9 w) ∧ (w.op = 0x0A) ∧ ((s.group n g).stack = e :: r) ∧ (e.kind = .split) ∧ (e.pend &&& (s.group n g).live ≠ 0)) ∧
    (∃ (n : CoreId) (g : SlotId) (s : State) (w : VWord), (AtV s n g 9 w) ∧ (w.op = 0x0A) ∧ ((∀ e r, (s.group n g).stack = e :: r → e.kind ≠ .split ∨ e.pend &&& (s.group n g).live = 0))) :=
  ⟨⟨0, 0, (grpAt (vw 9 0 0)), (vw 9 0 0), ⟨by decide +kernel, fetchedV (by decide +kernel), by decide +kernel, by decide +kernel⟩, by decide +kernel⟩,
   ⟨0, 0, (grpAt (vw 9 1 0)), (vw 9 1 0), ⟨by decide +kernel, fetchedV (by decide +kernel), by decide +kernel, by decide +kernel⟩, by decide +kernel⟩,
   ⟨0, 0, (grpAt (vw 9 2 0)), (vw 9 2 0), ⟨by decide +kernel, fetchedV (by decide +kernel), by decide +kernel, by decide +kernel⟩, by decide +kernel⟩,
   ⟨0, 0, (grpAt (vw 9 3 0)), (vw 9 3 0), ⟨by decide +kernel, fetchedV (by decide +kernel), by decide +kernel, by decide +kernel⟩, by decide +kernel⟩,
   ⟨0, 0, (grpAt (vw 9 4 (2 ^ 9))), (vw 9 4 (2 ^ 9)), ⟨by decide +kernel, fetchedV (by decide +kernel), by decide +kernel, by decide +kernel⟩, by decide +kernel, by decide +kernel, by decide +kernel⟩,
   ⟨0, 0, (grpAt (vw 9 4 0)), (vw 9 4 0), ⟨by decide +kernel, fetchedV (by decide +kernel), by decide +kernel, by decide +kernel⟩, by decide +kernel, by decide +kernel, by decide +kernel⟩,
   ⟨0, 0, (grpAt (vw 9 5 0) { stack := [⟨.split, 3, 1, 0, 0⟩] }), (vw 9 5 0), ⟨.split, 3, 1, 0, 0⟩, [], ⟨by decide +kernel, fetchedV (by decide +kernel), by decide +kernel, by decide +kernel⟩, by decide +kernel, by decide +kernel, by decide +kernel, by decide +kernel, by decide +kernel⟩,
   ⟨0, 0, (grpAt (vw 9 5 0) { stack := [⟨.split, 3, 0, 0, 0⟩] }), (vw 9 5 0), ⟨.split, 3, 0, 0, 0⟩, [], ⟨by decide +kernel, fetchedV (by decide +kernel), by decide +kernel, by decide +kernel⟩, by decide +kernel, by decide +kernel, by decide +kernel, by decide +kernel, by decide +kernel⟩,
   ⟨0, 0, (grpAt (vw 9 6 0)), (vw 9 6 0), ⟨by decide +kernel, fetchedV (by decide +kernel), by decide +kernel, by decide +kernel⟩, by decide +kernel, by decide +kernel⟩,
   ⟨0, 0, (grpAt (vw 9 7 0) { stack := [⟨.loop, 3, 0, 0, 0⟩] }), (vw 9 7 0), ⟨.loop, 3, 0, 0, 0⟩, [], _, ⟨by decide +kernel, fetchedV (by decide +kernel), by decide +kernel, by decide +kernel⟩, by decide +kernel, by decide +kernel, by decide +kernel, rfl⟩,
   ⟨0, 0, (grpAt (vw 9 8 0) { stack := [⟨.loop, 3, 0, 0, 0⟩] }), (vw 9 8 0), ⟨.loop, 3, 0, 0, 0⟩, [], _, ⟨by decide +kernel, fetchedV (by decide +kernel), by decide +kernel, by decide +kernel⟩, by decide +kernel, by decide +kernel, by decide +kernel, rfl⟩,
   ⟨0, 0, (grpAt (vw 9 9 0) { stack := [⟨.loop, 3, 0, 0, 0⟩] }), (vw 9 9 0), ⟨.loop, 3, 0, 0, 0⟩, [], ⟨by decide +kernel, fetchedV (by decide +kernel), by decide +kernel, by decide +kernel⟩, by decide +kernel, by decide +kernel, by decide +kernel, by decide +kernel⟩,
   ⟨0, 0, (grpAt (vw 9 10 0) { stack := [⟨.split, 3, 1, 0, 0⟩] }), (vw 9 10 0), ⟨.split, 3, 1, 0, 0⟩, [], ⟨by decide +kernel, fetchedV (by decide +kernel), by decide +kernel, by decide +kernel⟩, by decide +kernel, by decide +kernel, by decide +kernel, by decide +kernel⟩,
   ⟨0, 0, (grpAt (vw 9 10 0)), (vw 9 10 0), ⟨by decide +kernel, fetchedV (by decide +kernel), by decide +kernel, by decide +kernel⟩, by decide +kernel, by intro e r h; cases h⟩⟩

theorem test_GroupWaits_witness :
    (∃ (n : CoreId) (g : SlotId) (s : State) (w : VWord), (AtV s n g 9 w) ∧ (w.op = 0x0B)) ∧
    (∃ (n : CoreId) (g : SlotId) (s : State) (i : Nat) (scope : Nat) (target : Word), ((s.group n g).status = .waitTally i target scope) ∧ (reached (s.tally n i) target = true)) ∧
    (∃ (n : CoreId) (g : SlotId) (s : State) (w : VWord), (AtV s n g 9 w) ∧ (w.op = 0x0C) ∧ (s.sameBay n w.coreC = true) ∧ (s.frozenCore w.coreC = none) ∧ (s.widen n w.scopeC < 6)) ∧
    (∃ (n : CoreId) (g : SlotId) (s : State) (w : VWord), (AtV s n g 9 w) ∧ (w.op = 0x0D) ∧ ((w.relC = true → s.widen n w.scopeC < 6))) ∧
    (∃ (n : CoreId) (g : SlotId) (s : State) (w : VWord), (AtV s n g 9 w) ∧ (w.op = 0x0E) ∧ ((s.group n g).active = (s.group n g).live) ∧ ((∀ h ∈ s.kernelSlots n (s.group n g).kernel, ∀ id, (s.group n h).status = .waitBar id → id = w.idC))) ∧
    (∃ (n : CoreId) (g : SlotId) (s : State) (w : VWord) (y : Group), (AtV s n g 9 w) ∧ (w.op = 0x0F) ∧ (y = { s.group n g with live := (s.group n g).live &&& ~~~ (s.group n g).exec w, active := (s.group n g).active &&& ~~~ (s.group n g).exec w })) ∧
    (∃ (n : CoreId) (g : SlotId) (s : State), ((s.group n g).status = .ready) ∧ ((s.group n g).live = 0) ∧ ((s.group n g).sent = []) ∧ ((s.group n g).load = none) ∧ ((s.group n g).atom = none)) ∧
    (∃ (n : CoreId) (g : SlotId) (s : State) (w : VWord), (AtV s n g 9 w) ∧ (w.op = 0x10) ∧ ((s.group n g).exec w ≠ 0)) ∧
    (∃ (w : Writer) (n : CoreId) (g : SlotId) (s : State), (s.closedFor w = false) ∧ (s.mayCore w n = true) ∧ (s.gated (clusterOf n) = false) ∧ ((s.group n g).status = .parked)) ∧
    (∃ (w : Writer) (n : CoreId) (g : SlotId) (s : State), (s.closedFor w = false) ∧ (s.mayCore w n = true) ∧ (s.gated (clusterOf n) = false) ∧ ((s.group n g).status = .parked)) ∧
    (∃ (w : Writer) (n : CoreId) (g : SlotId) (s : State), (s.closedFor w = false) ∧ (s.mayCore w n = true) ∧ (s.gated (clusterOf n) = false) ∧ ((s.group n g).status = .parked)) ∧
    (∃ (w : Writer) (n : CoreId) (off : Nat) (v : DWord) (s : State) (x : Group), (s.closedFor w = false) ∧ (s.mayCore w n = true) ∧ (s.gated (clusterOf n) = false) ∧ ((s.wantWake (clusterOf n)).mayDebug w n = true) ∧ ((s.group n (slotOfOffset off)).status = .parked) ∧ ((s.group n (slotOfOffset off)).write (slotOfOffset off) off v = some x)) ∧
    (∃ (w : Writer) (n : CoreId) (g : SlotId) (s : State), (s.closedFor w = false) ∧ (s.mayCore w n = true) ∧ (s.gated (clusterOf n) = false) ∧ ((s.group n g).status ≠ .parked)) :=
  ⟨⟨0, 0, (grpAt (vw 9 11 0)), (vw 9 11 0), ⟨by decide +kernel, fetchedV (by decide +kernel), by decide +kernel, by decide +kernel⟩, by decide +kernel⟩,
   ⟨0, 0, (onGrp bay (fun x => { x with status := .waitTally 5 0 2 })), 5, 2, 0, by decide +kernel, by decide +kernel⟩,
   ⟨0, 0, (grpAt (vw 9 12 (2 ^ 11 + 2 * 2))), (vw 9 12 (2 ^ 11 + 2 * 2)), ⟨by decide +kernel, fetchedV (by decide +kernel), by decide +kernel, by decide +kernel⟩, by decide +kernel, by decide +kernel, by decide +kernel, by decide +kernel⟩,
   ⟨0, 0, (grpAt (vw 9 13 (2 ^ 10 + 2 * 2))), (vw 9 13 (2 ^ 10 + 2 * 2)), ⟨by decide +kernel, fetchedV (by decide +kernel), by decide +kernel, by decide +kernel⟩, by decide +kernel, by decide +kernel⟩,
   ⟨0, 0, (grpAt (vw 9 14 0)), (vw 9 14 0), ⟨by decide +kernel, fetchedV (by decide +kernel), by decide +kernel, by decide +kernel⟩, by decide +kernel, by decide +kernel, noBar (by decide +kernel)⟩,
   ⟨0, 0, (grpAt (vw 9 15 0)), (vw 9 15 0), _, ⟨by decide +kernel, fetchedV (by decide +kernel), by decide +kernel, by decide +kernel⟩, by decide +kernel, rfl⟩,
   ⟨0, 0, (onGrp bay (fun x => { x with status := .ready })), by decide +kernel, by decide +kernel, by decide +kernel, by decide +kernel, by decide +kernel⟩,
   ⟨0, 0, (grpAt (vw 9 16 0)), (vw 9 16 0), ⟨by decide +kernel, fetchedV (by decide +kernel), by decide +kernel, by decide +kernel⟩, by decide +kernel, by decide +kernel⟩,
   ⟨(.fn 0), 0, 0, (onGrp bay (fun x => { x with status := .parked })), by decide +kernel, by decide +kernel, by decide +kernel, by decide +kernel⟩,
   ⟨(.fn 0), 0, 0, (onGrp bay (fun x => { x with status := .parked })), by decide +kernel, by decide +kernel, by decide +kernel, by decide +kernel⟩,
   ⟨(.fn 0), 0, 0, (onGrp bay (fun x => { x with status := .parked })), by decide +kernel, by decide +kernel, by decide +kernel, by decide +kernel⟩,
   ⟨(.fn 0), 0, 0x4000, 5, ((onGrp bay (fun x => { x with status := .parked })).setFld Reg.SEC_STATE [] F.SEC_STATE_DEBUG 2), _, by decide +kernel, by decide +kernel, by decide +kernel, by decide +kernel, by decide +kernel, someGet (by decide +kernel)⟩,
   ⟨(.fn 0), 0, 0, bay, by decide +kernel, by decide +kernel, by decide +kernel, by decide +kernel⟩⟩

theorem test_LarderCommands_witness :
    (∃ (w : Writer) (_gr : Fin 512) (_d : DieId) (s : State), (isManager w = true) ∧ (s.larderCtl.qmap = none) ∧ (s.quadrant = true)) ∧
    (∃ (s : State) (u : State) (g : Nat) (d : Nat) (ls : List Nat), (s.order = 0) ∧ (s.larderCtl.qmap = some (g, d)) ∧ (ls = (s.larder.map (·.1)).filter (inGranule g)) ∧ (s.homes.any (fun e => inGranule g e.1 && !e.2.running.isEmpty) = false) ∧ (ls.any s.heldLine = false) ∧ (u = ((((ls.foldl (fun s l => s.evict l) s).shelvesDrop (inGranule g)).setFld Reg.LRD_QMAP [g / 32] ⟨2 * (g % 32) + 1, 2 * (g % 32)⟩ d).setCtl (fun c => { c with qmap := none })).setFld Reg.LRD_MH_STAT [] F.LRD_MH_STAT_QMAP_BUSY 0)) ∧
    (∃ (g : ClusterId) (i : InstId) (va : BitVec 48) (s : State) (u : State) (pa : Nat) (leaf : DWord), (s.translate g i va.toNat .read = .ok u pa leaf)) ∧
    (∃ (g : ClusterId) (i : InstId) (va : BitVec 48) (rd : Bool) (s : State) (u : State) (pa : Nat) (leaf : DWord), (s.translate g i va.toNat (if rd then .both else .write) = .ok u pa leaf)) ∧
    (∃ (w : Writer) (i : Fin 64) (_size : Fin 4) (_vpn : BitVec 36) (s : State) (u : State), (isManager w = true) ∧ (u = s.tdiBreak i) ∧ (u.bit Reg.LRD_TLB_STAT [] F.LRD_TLB_STAT_BUSY = false) ∧ (i.val ≤ 32)) ∧
    (∃ (w : Writer) (i : InstId) (s : State) (c : Instr) (op : Nat) (va : Nat) (len : Nat), ((op, c) ∈ [(1, Instr.prefetch w i), (2, Instr.flush w i), (3, Instr.invalidate w i), (4, Instr.rangeDiscard w i)]) ∧ (s.closedFor w = false) ∧ (mayRange w i = true) ∧ (s.rangeOps.get none i = none) ∧ (va = s.fld Reg.LRD_RNG_ADDR [i] F.LRD_RNG_ADDR_VA) ∧ (len = s.fld Reg.LRD_RNG_LEN [i] F.LRD_RNG_LEN_LEN) ∧ (va % 128 = 0) ∧ (len % 128 = 0) ∧ (len ≠ 0)) ∧
    (∃ (i : InstId) (s : State) (u : State) (r : RangeOp), (s.rangeOps.get none i = some r) ∧ (s.rangeAct i r.op r.va = .done u) ∧ (128 < r.left)) ∧
    (∃ (i : InstId) (s : State) (u : State) (r : RangeOp), (s.rangeOps.get none i = some r) ∧ (s.rangeAct i r.op r.va = .done u) ∧ (r.left ≤ 128)) ∧
    (∃ (w : Writer) (way : Fin 16) (i : Fin 64) (s : State) (u : State) (c : Instr) (op : Nat), ((op, c) ∈ [(1, Instr.grantPin w way i), (2, Instr.grantLocker w way i)]) ∧ (isManager w = true) ∧ (u = s.tdiBreak i) ∧ (u.larderCtl.pin = none) ∧ (u.pinRefusal op way i = 0)) ∧
    (∃ (w : Writer) (way : Fin 16) (i : Fin 64) (s : State) (u : State), (isManager w = true) ∧ (u = s.tdiBreak i) ∧ (u.larderCtl.pin = none) ∧ (u.pinRefusal 3 way i = 0) ∧ ((u.wrote Reg.LRD_PIN_CMD [] (i + 256 * way + 12288)).unitOfWay way = none)) ∧
    (∃ (s : State) (u : State) (p : PinCmd), (s.order = 0) ∧ (s.larderCtl.pin = some p) ∧ (p.op = 1) ∧ ((s.wayLines p.way).any (fun e => e.2.red || e.2.refetch || !(s.homeLine e.1).running.isEmpty) = false) ∧ (u = (((s.wayLines p.way).foldl (fun s e => s.evict e.1) s).setCtl (fun c => { c with pin := none })).setFld Reg.LRD_MH_STAT [] F.LRD_MH_STAT_PIN_BUSY 0)) ∧
    (∃ (w : Writer) (way : Fin 16) (i : Fin 64) (s : State) (u : State) (v : State) (k : Nat), (isManager w = true) ∧ (u = s.tdiBreak i) ∧ (u.larderCtl.pin = none) ∧ (u.pinRefusal 3 way i = 0) ∧ ((u.wrote Reg.LRD_PIN_CMD [] (i + 256 * way + 12288)).unitOfWay way = some k) ∧ (v = ((u.wrote Reg.LRD_PIN_CMD [] (i + 256 * way + 12288)).setCtl (fun c => { c with pin := some ⟨4, way, u.wayOwner way⟩ })).setFld Reg.LRD_MH_STAT [] F.LRD_MH_STAT_PIN_BUSY 1)) ∧
    (∃ (s : State) (u : State) (p : PinCmd), (s.order = 0) ∧ (s.larderCtl.pin = some p) ∧ (p.op = 2) ∧ ((s.wayLines p.way).any (fun e => e.2.red || e.2.refetch || !(s.homeLine e.1).running.isEmpty) = false) ∧ (u = (((s.wayLines p.way).foldl (fun s e => s.evict e.1) s).setCtl (fun c => { c with pin := none })).setFld Reg.LRD_MH_STAT [] F.LRD_MH_STAT_PIN_BUSY 0)) ∧
    (∃ (s : State) (p : PinCmd), (s.order = 0) ∧ (s.larderCtl.pin = some p) ∧ (p.op = 4) ∧ ((s.wayLines p.way).any (fun e => e.2.red || e.2.refetch || !(s.homeLine e.1).running.isEmpty) = false)) ∧
    (∃ (s : State) (u : State) (p : PinCmd), (s.order = 0) ∧ (s.larderCtl.pin = some p) ∧ (p.op = 3) ∧ ((s.wayLines p.way).any (fun e => e.2.red || e.2.refetch || !(s.homeLine e.1).running.isEmpty) = false) ∧ (u = (((s.wayLines p.way).foldl (fun s e => s.evict e.1) s).setCtl (fun c => { c with pin := none })).setFld Reg.LRD_MH_STAT [] F.LRD_MH_STAT_PIN_BUSY 0)) ∧
    (∃ (w : Writer) (way : Fin 16) (i : Fin 64) (s : State) (u : State) (c : Instr) (op : Nat) (r : Nat), ((op, c) ∈ [(1, Instr.grantPin w way i), (2, Instr.grantLocker w way i), (3, Instr.revoke w way i)]) ∧ (isManager w = true) ∧ (u = s.tdiBreak i) ∧ (u.larderCtl.pin = none) ∧ (r = u.pinRefusal op way i) ∧ (r ≠ 0)) :=
  ⟨⟨(.fn 0), 3, 1, (State.reset.setFld Reg.LRD_ILV_CFG [] F.LRD_ILV_CFG_MODE 1), by decide +kernel, by decide +kernel, by decide +kernel⟩,
   ⟨(owned { larderCtl := { qmap := some (3, 1) }, larder := [(25165824, some {})] }), _, 3, 1, _, by decide +kernel, by decide +kernel, rfl, by decide +kernel, by decide +kernel, rfl⟩,
   ⟨0, 0, 0, paged, _, _, _, trGet (by decide +kernel)⟩,
   ⟨0, 0, 0, true, paged, _, _, _, trGet (by decide +kernel)⟩,
   ⟨(.fn 0), 0, 0, 0, State.reset, _, by decide +kernel, rfl, by decide +kernel, by decide +kernel⟩,
   ⟨(.fn 0), 0, (State.reset.setReg Reg.LRD_RNG_LEN [0] 128), (.prefetch (.fn 0) 0), 1, _, _, by decide +kernel, by decide +kernel, by decide +kernel, by decide +kernel, rfl, rfl, by decide +kernel, by decide +kernel, by decide +kernel⟩,
   ⟨0, (owned { paged with rangeOps := [(0, some ⟨2, 0, 256⟩)] }), _, ⟨2, 0, 256⟩, by decide +kernel, rangeGet (by decide +kernel), by decide +kernel⟩,
   ⟨0, (owned { paged with rangeOps := [(0, some ⟨2, 0, 128⟩)] }), _, ⟨2, 0, 128⟩, by decide +kernel, rangeGet (by decide +kernel), by decide +kernel⟩,
   ⟨(.fn 0), 0, 0, State.reset, _, (.grantPin (.fn 0) 0 0), 1, by decide +kernel, by decide +kernel, rfl, by decide +kernel, by decide +kernel⟩,
   ⟨(.fn 0), 0, 0, (State.reset.setFld Reg.LRD_PIN_CFG [0] F.LRD_PIN_CFG_WAYS 1), _, by decide +kernel, rfl, by decide +kernel, by decide +kernel, by decide +kernel⟩,
   ⟨(owned { larderCtl := { pin := some ⟨1, 0, 0⟩ } }), _, ⟨1, 0, 0⟩, by decide +kernel, by decide +kernel, by decide +kernel, by decide +kernel, rfl⟩,
   ⟨(.fn 0), 0, 0, (((State.reset.setFld Reg.LRD_PIN_CFG [0] F.LRD_PIN_CFG_WAYS 1).setFld Reg.LRD_PIN_CFG [0] F.LRD_PIN_CFG_LOCKER 1).setFld Reg.LRD_MH_STAT [] F.LRD_MH_STAT_UNITS 1), _, _, 0, by decide +kernel, rfl, by decide +kernel, by decide +kernel, by decide +kernel, rfl⟩,
   ⟨(owned { larderCtl := { pin := some ⟨2, 0, 0⟩ } }), _, ⟨2, 0, 0⟩, by decide +kernel, by decide +kernel, by decide +kernel, by decide +kernel, rfl⟩,
   ⟨(owned { larderCtl := { pin := some ⟨4, 0, 0⟩ } }), ⟨4, 0, 0⟩, by decide +kernel, by decide +kernel, by decide +kernel, by decide +kernel⟩,
   ⟨(owned { larderCtl := { pin := some ⟨3, 0, 0⟩ } }), _, ⟨3, 0, 0⟩, by decide +kernel, by decide +kernel, by decide +kernel, by decide +kernel, rfl⟩,
   ⟨(.fn 0), 0, 0, (State.reset.setFld Reg.LRD_PIN_CFG [0] F.LRD_PIN_CFG_WAYS 1), _, (.grantPin (.fn 0) 0 0), 1, _, by decide +kernel, by decide +kernel, rfl, by decide +kernel, rfl, by decide +kernel⟩⟩

theorem test_CoherenceRequests_witness :
    (∃ (g : ClusterId) (who : Agent) (l : Nat) (tag : Nat) (data : Line) (mask : BitVec 128) (poison : Bool) (op : RedOp) (at_ : AtomOp) (c : Instr) (r : CohReq) (s : State) (u : State), ((c, r) ∈ [(Instr.rds g l, { kind := .rds, who := .cluster g, line := l }), (Instr.rdu g l, { kind := .rdu, who := .cluster g, line := l }), (Instr.upg g l, { kind := .upg, who := .cluster g, line := l }), (Instr.wru g l data, { kind := .wru, who := .cluster g, line := l, data := data }), (Instr.rdn who l tag, { kind := .rdn, who := who, line := l, tag := tag }), (Instr.wrn who l tag data mask poison, { kind := .wrn, who := who, line := l, tag := tag, data := data, mask := mask, poison := poison }), (Instr.red who l tag op, { kind := .red, who := who, line := l, tag := tag, red := some op }), (Instr.atm who l tag at_, { kind := .atm, who := who, line := l, tag := tag, atm := some at_ })]) ∧ (u = s.countLrd (s.bayOfAgent r.who) r.charge)) ∧
    (∃ (g : ClusterId) (l : Nat) (s : State) (c : CupLine), (s.cupLine g l = some c) ∧ (c.st = .m ∨ c.st = .o)) ∧
    (∃ (g : ClusterId) (l : Nat) (s : State) (c : CupLine), (s.cupLine g l = some c) ∧ (c.st = .e ∨ c.st = .s)) ∧
    (∃ (g : ClusterId) (l : Nat) (s : State) (u : State) (c : CupLine) (t : Txn), (s.receive (.snoop .snpS g l) = some u) ∧ (u.cupLine g l = some c) ∧ (c.st ≠ .s) ∧ (u.snooping l = some t)) ∧
    (∃ (g : ClusterId) (l : Nat) (s : State) (u : State) (c : CupLine), (s.receive (.snoop .snpS g l) = some u) ∧ (u.cupLine g l = some c) ∧ (c.st = .s)) ∧
    (∃ (g : ClusterId) (l : Nat) (s : State) (u : State), (s.receive (.snoop .snpC g l) = some u)) ∧
    (∃ (g : ClusterId) (l : Nat) (s : State) (u : State), (s.receive (.snoop .snpI g l) = some u)) ∧
    (∃ (d : DieId) (l : Nat) (s : State) (u : State) (v : State) (w : State) (t : Txn) (t' : Txn), (s.receive (.rsp d l) = some u) ∧ (s.snooping l = some t) ∧ (t' = { t with dies := t.dies.erase d }) ∧ (v = (u.setHome l { u.homeLine l with running := (u.homeLine l).running.map (fun x => if x = t then t' else x) }).setPres l) ∧ (v.grant t' = some w)) :=
  ⟨⟨0, (.cluster 0), 64, 0, 0, 0, false, (⟨.add, .fp32, false, 0xF, 0⟩ : RedOp), ⟨.add, 0, []⟩, (.rds 0 64), { kind := .rds, who := .cluster 0, line := 64 }, State.reset, _, by decide +kernel, rfl⟩,
   ⟨0, 64, { cups := [(0, [(64, some ⟨.m, 0, 0⟩)])] }, ⟨.m, 0, 0⟩, by decide +kernel, by decide +kernel⟩,
   ⟨0, 64, { cups := [(0, [(64, some ⟨.e, 0, 0⟩)])] }, ⟨.e, 0, 0⟩, by decide +kernel, by decide +kernel⟩,
   ⟨0, 64, { cups := [(0, [(64, some ⟨.m, 0, 0⟩)])], net := [.snoop .snpS 0 64], homes := [(64, { running := [{ req := { kind := .rds, who := .cluster 0, line := 64 }, dies := [0] }] })] }, _, ⟨.m, 0, 0⟩, { req := { kind := .rds, who := .cluster 0, line := 64 }, dies := [0] }, someGet (by decide +kernel), by decide +kernel, by decide +kernel, by decide +kernel⟩,
   ⟨0, 64, { cups := [(0, [(64, some ⟨.s, 0, 0⟩)])], net := [.snoop .snpS 0 64] }, _, ⟨.s, 0, 0⟩, someGet (by decide +kernel), by decide +kernel, by decide +kernel⟩,
   ⟨0, 64, { cups := [(0, [(64, some ⟨.m, 0, 0⟩)])], net := [.snoop .snpC 0 64] }, _, someGet (by decide +kernel)⟩,
   ⟨0, 64, { cups := [(0, [(64, some ⟨.m, 0, 0⟩)])], net := [.snoop .snpI 0 64] }, _, someGet (by decide +kernel)⟩,
   ⟨0, 64, { larder := [(64, some {})], net := [.rsp 0 64], homes := [(64, { running := [{ req := { kind := .rds, who := .cluster 0, line := 64 }, dies := [0] }] })] }, _, _, _, { req := { kind := .rds, who := .cluster 0, line := 64 }, dies := [0] }, _, someGet (by decide +kernel), by decide +kernel, rfl, rfl, someGet (by decide +kernel)⟩⟩

theorem test_CoherenceGrants_witness :
    (∃ (g : ClusterId) (l : Nat) (s : State) (d : Line) (p : BitVec 16) (st : CupState), (s.net.find? (CohMsg.isDat (.cluster g) l) = some (.dat (.cluster g) l d p st))) ∧
    (∃ (g : ClusterId) (l : Nat) (s : State) (u : State) (c : CupLine), (s.receive (.gntM (.cluster g) l) = some u) ∧ ((u.homeLine l).running.find? (fun t => t.req.who == .cluster g && t.req.kind == .wru) = none) ∧ (u.cupLine g l = some c)) ∧
    (∃ (g : ClusterId) (l : Nat) (s : State) (u : State) (t : Txn), (s.receive (.gntM (.cluster g) l) = some u) ∧ ((u.homeLine l).running.find? (fun t => t.req.who == .cluster g && t.req.kind == .wru) = some t)) ∧
    (∃ (who : Agent) (l : Nat) (s : State) (u : State), (s.receive (.ack who l) = some u)) ∧
    (∃ (l : Nat) (s : State) (u : State) (r : CohReq), (s.net.find? (CohMsg.isFwd l) = some (.fwd r)) ∧ ({ s with net := s.net.erase (.fwd r) }.resident l none = some u) ∧ (r.kind = .rdu)) ∧
    (∃ (l : Nat) (s : State) (u : State) (r : CohReq), (s.net.find? (CohMsg.isFwd l) = some (.fwd r)) ∧ ({ s with net := s.net.erase (.fwd r) }.resident l none = some u) ∧ (r.kind = .wru)) ∧
    (∃ (l : Nat) (s : State) (u : State) (r : CohReq), (s.net.find? (CohMsg.isFwd l) = some (.fwd r)) ∧ ({ s with net := s.net.erase (.fwd r) }.resident l none = some u) ∧ (r.kind = .rds) ∧ (u.ownerOf l = none)) ∧
    (∃ (n : Nat) (g : Nat) (l : Nat) (tag : Nat) (t : Nat) (s : State) (d : Line) (p : Bool) (vs : List (Nat × Word)), (s.net.find? (isCmp (.group n g) l tag) = some (.cmp (.group n g) l t d p vs))) ∧
    (∃ (q : Nat) (c : Nat) (l : Nat) (tag : Nat) (t : Nat) (s : State) (d : Line) (p : Bool) (vs : List (Nat × Word)), (s.net.find? (isCmp (.porter q c) l tag) = some (.cmp (.porter q c) l t d p vs))) ∧
    (∃ (l : Nat) (s : State) (u : State) (v : State) (t : Txn), ((s.homeLine l).running.find? (·.filling) = some t) ∧ (s.resident l none = some u) ∧ (u.proceed t = some v)) :=
  ⟨⟨0, 64, { net := [.dat (.cluster 0) 64 0 0 .s] }, 0, 0, .s, by decide +kernel⟩,
   ⟨0, 64, { cups := [(0, [(64, some ⟨.s, 0, 0⟩)])], net := [.gntM (.cluster 0) 64] }, _, ⟨.s, 0, 0⟩, someGet (by decide +kernel), by decide +kernel, by decide +kernel⟩,
   ⟨0, 64, { net := [.gntM (.cluster 0) 64], homes := [(64, { running := [{ req := { kind := .wru, who := .cluster 0, line := 64 } }] })] }, _, { req := { kind := .wru, who := .cluster 0, line := 64 } }, someGet (by decide +kernel), by decide +kernel⟩,
   ⟨(.cluster 0), 64, { net := [.ack (.cluster 0) 64] }, _, someGet (by decide +kernel)⟩,
   ⟨64, { larder := [(64, some {})], net := [.fwd { kind := .rdu, who := .cluster 0, line := 64 }] }, _, { kind := .rdu, who := .cluster 0, line := 64 }, by decide +kernel, someGet (by decide +kernel), by decide +kernel⟩,
   ⟨64, { larder := [(64, some {})], net := [.fwd { kind := .wru, who := .cluster 0, line := 64 }] }, _, { kind := .wru, who := .cluster 0, line := 64 }, by decide +kernel, someGet (by decide +kernel), by decide +kernel⟩,
   ⟨64, { larder := [(64, some {})], net := [.fwd { kind := .rds, who := .cluster 0, line := 64 }] }, _, { kind := .rds, who := .cluster 0, line := 64 }, by decide +kernel, someGet (by decide +kernel), by decide +kernel, by decide +kernel⟩,
   ⟨0, 0, 64, 5, 5, { net := [.cmp (.group 0 0) 64 5 0 false []] }, 0, false, [], by decide +kernel⟩,
   ⟨0, 1, 64, 5, 5, { net := [.cmp (.porter 0 1) 64 5 0 false []] }, 0, false, [], by decide +kernel⟩,
   ⟨64, { larder := [(64, some {})], homes := [(64, { running := [{ req := { kind := .rds, who := .cluster 0, line := 64 }, filling := true }] })] }, _, _, { req := { kind := .rds, who := .cluster 0, line := 64 }, filling := true }, by decide +kernel, someGet (by decide +kernel), someGet (by decide +kernel)⟩⟩

theorem test_ReductionsAndOrder_witness :
    (∃ (sl : SliceId) (u : SlotId) (s : State) (r : CohReq), ((s.slice sl).offline.getLsbD u = false) ∧ ((s.slice sl).units.get none u = none) ∧ ((s.slice sl).queue.find? (fun r => !((s.slice sl).units.filterMap (·.2)).contains r.line) = some r)) ∧
    (∃ (sl : SliceId) (u : SlotId) (s : State) (v : State) (l : Nat) (y : LarderLine) (rs : List CohReq) (left : List CohReq), ((s.slice sl).units.get none u = some l) ∧ (s.larderLine l = some y) ∧ (rs = bindTake l (s.fld Reg.LRD_RED_CFG [] F.LRD_RED_CFG_BIND_MAX) (s.slice sl).queue) ∧ (left = rs.foldl List.erase (s.slice sl).queue) ∧ (s.larderPut l { y with data := (bindRun rs y.data).1, red := left.any (fun r => r.line == l) } = some v)) ∧
    (∃ (sl : SliceId) (u : SlotId) (s : State) (l : Nat) (off : BitVec 8), ((s.slice sl).units.get none u = some l) ∧ (off = (s.slice sl).offline ||| BitVec.ofNat 8 (2 ^ u.val)) ∧ (off ≠ 0xFF)) ∧
    (∃ (l : Nat) (s : State) (r : CohReq), (s.cellarWaits l = false) ∧ (s.net.find? (CohMsg.isMred l) = some (.mred r))) ∧
    (∃ (w : Writer) (_reason : Fin 4) (s : State), (w = .storekeeper) ∧ (s.order = 0)) ∧
    (∃ (w : Writer) (s : State), (w = .storekeeper) ∧ (s.order = 1)) ∧
    (∃ (s : State), (s.order = 2) ∧ (s.drained = true)) ∧
    (∃ (s : State), (s.order = 3)) ∧
    (∃ (l : Nat) (t : Nat) (sl : Nat) (s : State) (w : Agent) (p : Bool) (vs : List (Nat × Word)), (s.net.find? (CohMsg.isMack l) = some (.mack w l t p vs)) ∧ (sl = (s.home l).1)) :=
  ⟨⟨0, 0, { slices := [(0, { queue := [{ kind := .red, who := .cluster 0, line := 64, red := some (⟨.add, .fp32, false, 0xF, 0⟩ : RedOp) }] })] }, { kind := .red, who := .cluster 0, line := 64, red := some (⟨.add, .fp32, false, 0xF, 0⟩ : RedOp) }, by decide +kernel, by decide +kernel, by decide +kernel⟩,
   ⟨0, 0, { slices := [(0, { queue := [{ kind := .red, who := .cluster 0, line := 64, red := some (⟨.add, .fp32, false, 0xF, 0⟩ : RedOp) }], units := [(0, some 64)] })], larder := [(64, some {})] }, _, 64, {}, _, _, by decide +kernel, by decide +kernel, rfl, rfl, someGet (by decide +kernel)⟩,
   ⟨0, 0, { slices := [(0, { units := [(0, some 64)] })] }, 64, _, by decide +kernel, rfl, by decide +kernel⟩,
   ⟨64, (celled { net := [.mred { kind := .red, who := .cluster 0, line := 64, red := some (⟨.add, .fp32, false, 0xF, 0⟩ : RedOp) }] }), { kind := .red, who := .cluster 0, line := 64, red := some (⟨.add, .fp32, false, 0xF, 0⟩ : RedOp) }, by decide +kernel, by decide +kernel⟩,
   ⟨.storekeeper, 0, (owned .reset), by decide +kernel, by decide +kernel⟩,
   ⟨.storekeeper, (State.reset.setFld Reg.LRD_COH_STAT [] F.LRD_COH_STAT_ORDER 1), by decide +kernel, by decide +kernel⟩,
   ⟨(State.reset.setFld Reg.LRD_COH_STAT [] F.LRD_COH_STAT_ORDER 2), by decide +kernel, by decide +kernel⟩,
   ⟨(State.reset.setFld Reg.LRD_COH_STAT [] F.LRD_COH_STAT_ORDER 3), by decide +kernel⟩,
   ⟨64, 5, _, { net := [.mack (.cluster 0) 64 5 false []] }, (.cluster 0), false, [], by decide +kernel, rfl⟩⟩

theorem test_TallyWrites_witness :
    (∃ (w : Writer) (n : CoreId) (_i : Fin 4096) (_v : DWord) (s : State), (s.closedFor w = false) ∧ (s.mayCore w n = true) ∧ (s.fld Reg.PWR_CL [clusterOf n] F.PWR_CL_STATE = 0)) ∧
    (∃ (w : Writer) (n : CoreId) (_i : Fin 4096) (v : DWord) (s : State), (s.closedFor w = false) ∧ (s.mayCore w n = true) ∧ (s.fld Reg.PWR_CL [clusterOf n] F.PWR_CL_STATE = 0) ∧ (fieldOf v 31 0 ≠ 0)) ∧
    (∃ (w : Writer) (n : CoreId) (_i : Fin 4096) (v : DWord) (s : State), (s.closedFor w = false) ∧ (s.mayCore w n = true) ∧ (s.fld Reg.PWR_CL [clusterOf n] F.PWR_CL_STATE = 0) ∧ (fieldOf v 31 0 = 0)) :=
  ⟨⟨(.fn 0), 0, 5, 1, State.reset, by decide +kernel, by decide +kernel, by decide +kernel⟩,
   ⟨(.fn 0), 0, 5, 1, State.reset, by decide +kernel, by decide +kernel, by decide +kernel, by decide +kernel⟩,
   ⟨(.fn 0), 0, 4095, 0, State.reset, by decide +kernel, by decide +kernel, by decide +kernel, by decide +kernel⟩⟩

theorem test_PorterCommands_witness :
    (∃ (p : Fin 1024) (c : Fin 16) (s : State) (t : State) (d : PDesc) (q : List PDesc), (c.val < chanCount p) ∧ ((s.porter p).status = 0) ∧ ((s.chan p c).act = none) ∧ ((s.chan p c).status = .idle ∨ (s.chan p c).status = .holding) ∧ ((s.chan p c).queue = d :: q) ∧ (t = s.setChan p c { s.chan p c with queue := q, act := some { desc := d }, status := .active, prog := 0, tag := d.tag, poison := false, partials := false }) ∧ (t.descCode p c d = 0)) ∧
    (∃ (p : Fin 1024) (c : Fin 16) (s : State) (t : State) (u : State) (v : State) (w : State) (a : Active) (b : Active) (g : Gathered) (n : Nat) (bs : List Byte) (poison : Bool), ((s.porter p).status = 0) ∧ ((s.chan p c).status = .active) ∧ ((s.chan p c).act = some a) ∧ (a.desc.kind ≠ 4) ∧ (a.pos < a.desc.dlen) ∧ (n = a.desc.nextLen a.pos) ∧ ((a.src.getD {}).missing = []) ∧ (s.fetchFor (regIo (porterWriter p)) p c a.desc (a.src.getD {}) a.pos n = .ok t g) ∧ (g.missing = []) ∧ (poison = (a.desc.kind != 2 && g.poisoned (a.desc.needs a.pos n))) ∧ ((s.keepPilot t).undefinedBytes a.desc (a.desc.dstAddr a.pos) (if a.desc.kind = 2 then a.desc.fillBytes (a.desc.dstAddr a.pos) n else a.desc.bytesFrom g.byte a.pos n) = (u, bs)) ∧ (v = (s.keepPilot t).keepPilot u) ∧ (v.putBytes (regIo (porterWriter p)) p c a n bs poison = .done w) ∧ (b = { a with pos := a.pos + n, src := none })) ∧
    (∃ (p : Fin 1024) (c : Fin 16) (s : State) (t : State) (a : Active), ((s.porter p).status = 0) ∧ ((s.chan p c).status = .active) ∧ ((s.chan p c).act = some a) ∧ (a.desc.kind = 4) ∧ (a.pos < a.desc.slen) ∧ (a.desc.dst + a.pos < 2 ^ 48) ∧ (s.rangeAct (s.porterInst p c) a.desc.rangeOp (a.desc.dst + a.pos) = .done t)) ∧
    (∃ (p : Fin 1024) (c : Fin 16) (s : State) (a : Active), ((s.chan p c).status = .active) ∧ ((s.chan p c).act = some a) ∧ ((if a.desc.kind = 4 then a.desc.slen else a.desc.dlen) ≤ a.pos) ∧ (a.out = []) ∧ (a.desc.sys = false) ∧ (a.desc.tmode ≠ 3) ∧ (a.desc.kind ≠ 4) ∧ (a.held = 0)) ∧
    (∃ (p : Fin 1024) (s : State) (cause : Nat) (addr : Nat) (r : List (Nat × Nat)), ((s.porter p).errors = (cause, addr) :: r) ∧ ((s.porter p).status = 0)) ∧
    (∃ (p : Fin 1024) (s : State), ((s.porter p).status = 1) ∧ ((s.porter p).errors = []) ∧ ((s.porter p).chans.any (fun e => e.2.flying) = false)) ∧
    (∃ (w : Writer) (p : Fin 1024) (s : State), (mayPorter w p = true) ∧ ((s.porter p).status = 2)) ∧
    (∃ (w : Writer) (p : Fin 1024) (s : State) (t : State), (mayPorter w p = true) ∧ ((s.porter p).status = 2) ∧ ((s.porter p).chans.all (fun e => !(e.2.partials && e.2.status == .stopped)) = true) ∧ (t = s.wroteCtl p 2)) ∧
    (∃ (w : Writer) (p : Fin 1024) (c : Fin 16) (s : State) (t : State), (mayPorter w p = true) ∧ ((s.chan p c).status = .error) ∧ (t = s.wroteCtl p (3 + 16 * c))) ∧
    (∃ (w : Writer) (p : Fin 1024) (c : Fin 16) (s : State) (t : State), (mayPorter w p = true) ∧ ((s.chan p c).status = .error) ∧ (t = s.wroteCtl p (4 + 16 * c))) ∧
    (∃ (w : Writer) (g : ClusterId) (s : State) (t : State) (u : State) (v : State) (a : Nat) (pa : Nat) (leaf : DWord) (bs : List Byte), (isManager w = true) ∧ (s.queueRoom (512 + g) 0 = true) ∧ (t = s.wrote Reg.PTR_CL_CH0_POST [g] 1) ∧ (a = (s.reg Reg.PTR_CL_CH0_DESC [g]).toNat / 128 * 128) ∧ (t.placeGlobal (512 + g) 0 a 0 = .ok u pa leaf) ∧ (u.readGlobal (.cupboard g) none a 128 = .done v (bs, false))) ∧
    (∃ (w : Writer) (p : Fin 1024) (s : State), (mayPorter w p = true) ∧ ((s.porter p).status ≠ 2)) :=
  ⟨⟨0, 1, (bay.setChan 0 1 { queue := [fillDesc] }), _, fillDesc, [], by decide +kernel, by decide +kernel, by decide +kernel, by decide +kernel, by decide +kernel, rfl, by decide +kernel⟩,
   ⟨0, 1, (bay.setChan 0 1 { status := .active, act := some { desc := fillDesc } }), _, _, _, _, { desc := fillDesc }, _, _, _, _, _, by decide +kernel, by decide +kernel, by decide +kernel, by decide +kernel, by decide +kernel, rfl, by decide +kernel, fetchGet (by decide +kernel), by decide +kernel, rfl, pairEta _, rfl, putGet (by decide +kernel), rfl⟩,
   ⟨0, 1, ((owned paged).setChan 0 1 { status := .active, act := some { desc := rangeDesc } }), _, { desc := rangeDesc }, by decide +kernel, by decide +kernel, by decide +kernel, by decide +kernel, by decide +kernel, by decide +kernel, rangeGet (by decide +kernel)⟩,
   ⟨0, 1, (bay.setChan 0 1 { status := .active, act := some { desc := fillDesc, pos := 4 } }), { desc := fillDesc, pos := 4 }, by decide +kernel, by decide +kernel, by decide +kernel, by decide +kernel, by decide +kernel, by decide +kernel, by decide +kernel, by decide +kernel⟩,
   ⟨0, { porters := [(0, { errors := [(1, 128)] })] }, 1, 128, [], by decide +kernel, by decide +kernel⟩,
   ⟨0, { porters := [(0, { status := 1 })] }, by decide +kernel, by decide +kernel, by decide +kernel⟩,
   ⟨(.fn 0), 0, { porters := [(0, { status := 2 })] }, by decide +kernel, by decide +kernel⟩,
   ⟨(.fn 0), 0, { porters := [(0, { status := 2 })] }, _, by decide +kernel, by decide +kernel, by decide +kernel, rfl⟩,
   ⟨(.fn 0), 0, 1, (bay.setChan 0 1 { status := .error }), _, by decide +kernel, by decide +kernel, rfl⟩,
   ⟨(.fn 0), 0, 1, (bay.setChan 0 1 { status := .error }), _, by decide +kernel, by decide +kernel, rfl⟩,
   ⟨(.fn 0), 0, (celled bay), _, _, _, _, _, _, _, by decide +kernel, by decide +kernel, rfl, rfl, placeGet (by decide +kernel), cleanGet (by decide +kernel)⟩,
   ⟨(.fn 0), 0, bay, by decide +kernel, by decide +kernel⟩⟩

theorem test_BaysAndServing_witness :
    (∃ (w : Writer) (b : BayId) (inst : Fin 64) (ordered : Bool) (s : State) (u : State) (v : State), (isManager w = true) ∧ (u = s.tdiBreak (s.instOfBay b)) ∧ (u.bit Reg.BAY_CFG [b] F.BAY_CFG_EN = false) ∧ (inst.val ≤ 32) ∧ (v = ((u.setFld Reg.BAY_CFG [b] F.BAY_CFG_INSTANCE inst).tdiBreak inst).setFld Reg.BAY_CFG [b] F.BAY_CFG_ORDERED (if ordered then 1 else 0)) ∧ (v.mayForm b inst = true)) ∧
    (∃ (w : Writer) (b : BayId) (s : State) (u : State), (isManager w = true) ∧ (u = s.tdiBreak (s.instOfBay b)) ∧ ((∀ j, j < 4 → (u.img b j).status = .empty))) ∧
    (∃ (w : Writer) (b : BayId) (s : State) (u : State) (j : Nat), (isManager w = true) ∧ (u = s.tdiBreak (s.instOfBay b)) ∧ (j < 4) ∧ ((u.img b j).status ≠ .empty)) ∧
    (∃ (w : Writer) (b : BayId) (_i : Fin 16) (_v : DWord) (s : State) (n : Nat), (s.closedFor w = false) ∧ (s.mayWord w b = true) ∧ (s.bit Reg.BAY_CFG [b] F.BAY_CFG_EN = true) ∧ ((s.coresOf b).head? = some n) ∧ (s.gated (clusterOf n) = false)) ∧
    (∃ (b : BayId) (s : State) (t : Nat), ((s.bay b).on = true) ∧ ((s.bay b).switch = 0) ∧ (s.chooseNext b = some t) ∧ ((s.critical b (s.bay b).cur = true → s.critical b t = true))) ∧
    (∃ (b : BayId) (s : State), ((s.bay b).on = true) ∧ ((s.bay b).switch = 0) ∧ (s.chooseNext b = none)) ∧
    (∃ (n : CoreId) (s : State) (s1 : State) (s2 : State) (u : State) (v : State) (b : Nat) (j : Nat), (s.bayOfCore n = some b) ∧ (j = (s.bay b).cur) ∧ ((s.bay b).switch = 2) ∧ (n.val ∈ (s.bay b).resuming) ∧ (s.gated (clusterOf n) = false) ∧ (s.spillOthers b j n (onesOf 40 (s.reg Reg.BAY_CLAIM [b, j]).toNat) = .ok s1) ∧ (s1.restoreOwn b j n (onesOf 40 ((s1.range n).saved.get 0 j).toNat) = .ok s2) ∧ (s2.reloadSeq b j n = some u) ∧ (v = u.when (!(u.bay b).on) (fun u => u.beginSlice b j))) ∧
    (∃ (b : BayId) (s : State), (slowOf (s.bay b).winA 0 ≤ s.fld Reg.BAY_SLOW [b] F.BAY_SLOW_LIMIT)) ∧
    (∃ (b : BayId) (i : Fin 131072) (s : State) (u : State), (u = (s.setBay b { s.bay b with winA := 0 }).setFld Reg.BAY_SLOW [b] F.BAY_SLOW_SLOW (slowOf (s.bay b).winA i)) ∧ (i ≠ 0)) ∧
    (∃ (b : BayId) (s : State), (s.servingOn b = true) ∧ ((s.serve b).running = false) ∧ ((s.serve b).begun = true)) ∧
    (∃ (b : BayId) (s : State) (off : Nat), (s.servingOn b = true) ∧ ((s.serve b).running = false) ∧ ((s.serve b).begun = false) ∧ (s.configCheck b = some off)) ∧
    (∃ (b : BayId) (slot : Fin 1024) (_draft : Fin 1024) (logits : List (List Word)) (s : State) (u : State) (q : Sequence) (len : Nat) (n : Nat) (d : Nat) (ds : List Draft), (s.sequence b slot = some q) ∧ (s.servingOn b = true) ∧ (q.inRound = true) ∧ (s.seqState b slot = 2) ∧ (q.drafts = []) ∧ (len = s.seqLen b slot) ∧ (u = s.growTo b slot (len + 1 + s.draftCount b slot q)) ∧ (n = min (min (u.draftCount b slot q) (16 * u.pageCount b slot - len - 1)) logits.length) ∧ (n ≠ 0) ∧ (ds = (logits.take n).zipIdx.map (fun e => (⟨sample q.req.settings e.1 (u.nextSeq b slot + e.2) 1, probabilities q.req.settings e.1⟩ : Draft))) ∧ (d = u.draftBay b)) ∧
    (∃ (b : BayId) (slot : Fin 1024) (_logits : List (List Word)) (s : State) (q : Sequence), (s.sequence b slot = some q) ∧ (s.servingOn b = true) ∧ (q.inRound = true)) ∧
    (∃ (b : BayId) (slot : Fin 1024) (_logits : List (List Word)) (s : State) (u : State) (q : Sequence), (s.sequence b slot = some q) ∧ (s.servingOn b = true) ∧ (q.inRound = true) ∧ (u = (s.discardCold b q).setSequence b slot (some { q with inRound := false, rows := 0, drafts := [] }))) ∧
    (∃ (b : BayId) (c : Fin 4) (s : State) (p : Post) (prod : Nat), ((s.serve b).due.find? (fun p => p.ring == c.val) = some p) ∧ (s.servingOn b = true) ∧ (prod = s.virtNat b ((s.serve b).crHdr c) 4) ∧ ((prod + 2 ^ 32 - s.virtNat b ((s.serve b).crHdr c + 64) 4) % 2 ^ 32 < (s.serve b).crEntries c)) :=
  ⟨⟨(.fn 0), 0, 0, false, ((paged.setReg Reg.DEV_INV_CLUSTER [] 1).setReg Reg.BAY_CLUSTERS [0] 1), _, _, by decide +kernel, rfl, by decide +kernel, by decide +kernel, rfl, by decide +kernel⟩,
   ⟨(.fn 0), 0, State.reset, _, by decide +kernel, rfl, by decide +kernel⟩,
   ⟨(.fn 0), 0, bay, _, 0, by decide +kernel, rfl, by decide +kernel, by decide +kernel⟩,
   ⟨(.fn 0), 0, 15, 5, bay, 0, by decide +kernel, by decide +kernel, by decide +kernel, by decide +kernel, by decide +kernel⟩,
   ⟨0, (bay.setImg 0 1 { status := .running }), 1, by decide +kernel, by decide +kernel, by decide +kernel, by decide +kernel⟩,
   ⟨0, bay, by decide +kernel, by decide +kernel, by decide +kernel⟩,
   ⟨0, (bay.setBay 0 { switch := 2, resuming := [0] }), _, _, _, _, 0, _, by decide +kernel, rfl, by decide +kernel, by decide +kernel, by decide +kernel, movedGet (by decide +kernel), movedGet (by decide +kernel), someGet (by decide +kernel), rfl⟩,
   ⟨0, (bay.setReg Reg.BAY_SLOW [0] (BitVec.allOnes 64)), by decide +kernel⟩,
   ⟨0, 1, bay, _, rfl, by decide +kernel⟩,
   ⟨0, (servingAt { begun := true }), by decide +kernel, by decide +kernel, by decide +kernel⟩,
   ⟨0, (servingAt { cfg := servingCfg }), 0, by decide +kernel, by decide +kernel, by decide +kernel, by decide +kernel⟩,
   ⟨0, 0, 0, [[0]], (servingAt { cfg := servingCfg, begun := true, seqs := [(0, some openSeq)] }), _, openSeq, _, _, _, _, by decide +kernel, by decide +kernel, by decide +kernel, by decide +kernel, by decide +kernel, rfl, rfl, rfl, by decide +kernel, rfl, rfl⟩,
   ⟨0, 0, [], (servingAt { seqs := [(0, some openSeq)] }), openSeq, by decide +kernel, by decide +kernel, by decide +kernel⟩,
   ⟨0, 0, [], (servingAt { seqs := [(0, some openSeq)] }), _, openSeq, by decide +kernel, by decide +kernel, by decide +kernel, rfl⟩,
   ⟨0, 0, (servingAt { cfg := servingCfg, due := [⟨0, none, 0, false, 0⟩] }), ⟨0, none, 0, false, 0⟩, _, by decide +kernel, by decide +kernel, rfl, by decide +kernel⟩⟩

theorem test_Hatches_witness :
    (∃ (w : Writer) (v : VfId) (s : State) (u : State) (ws : List Nat), (isTenant w (v + 1) = true) ∧ (s.power.mode ≠ 2) ∧ (u = s.wrote Reg.HAT_TPOST [v.val] 1) ∧ (ws = (List.range 8).map (fun k => (u.reg Reg.HAT_TSTAGE [v.val, k]).toNat)) ∧ (u.postCause (v + 1) 0 (bitsOf (ws.headD 0) 47 32) = 0)) ∧
    (∃ (w : Writer) (v : VfId) (s : State) (u : State) (ws : List Nat), (isManager w = true) ∧ (s.power.mode ≠ 2) ∧ (u = s.wrote Reg.HAT_MPOST [v.val] 1) ∧ (ws = (List.range 8).map (fun k => (u.reg Reg.HAT_MSTAGE [v.val, k]).toNat)) ∧ (u.postCause (v + 1) 1 (bitsOf (ws.headD 0) 47 32) = 0)) ∧
    (∃ (w : Writer) (v : VfId) (s : State) (u : State) (ws : List Nat) (c : Nat), (isTenant w (v + 1) = true) ∧ (s.power.mode ≠ 2) ∧ (u = s.wrote Reg.HAT_TPOST [v.val] 1) ∧ (ws = (List.range 8).map (fun k => (u.reg Reg.HAT_TSTAGE [v.val, k]).toNat)) ∧ (c = u.postCause (v + 1) 0 (bitsOf (ws.headD 0) 47 32)) ∧ (c ≠ 0)) ∧
    (∃ (i : Instr) (w : Writer) (v : VfId) (s : State), (i ∈ [Instr.tenantPost w v, .managerPost w v]) ∧ (s.power.mode = 2)) ∧
    (∃ (w : Writer) (v : VfId) (c : Word) (s : State), (isManager w = true) ∧ ((c.toNat + 2 ^ 32 - s.ringCons (v + 1) 0) % 2 ^ 32 ≤ (s.ringProd (v + 1) 0 + 2 ^ 32 - s.ringCons (v + 1) 0) % 2 ^ 32)) ∧
    (∃ (w : Writer) (v : VfId) (c : Word) (s : State), (isTenant w (v + 1) = true) ∧ ((c.toNat + 2 ^ 32 - s.ringCons (v + 1) 1) % 2 ^ 32 ≤ (s.ringProd (v + 1) 1 + 2 ^ 32 - s.ringCons (v + 1) 1) % 2 ^ 32)) ∧
    (∃ (v : VfId) (s : State) (m : HatMsg) (r : List HatMsg), (s.hatRoom (v + 1) = true) ∧ (s.hatQueue.get [] (v + 1) = []) ∧ (s.hatLost.get 0 (v + 1) = 0) ∧ (s.hatOut.get [] (v + 1) = m :: r)) ∧
    (∃ (v : VfId) (s : State) (m : HatMsg) (r : List HatMsg), (s.hatRoom (v + 1) = false) ∧ ((s.hatQueue.get [] (v + 1)).length < 16) ∧ (s.hatOut.get [] (v + 1) = m :: r)) :=
  ⟨⟨(.fn 1), 0, ((instIn 1).setReg Reg.HAT_TSTAGE [0, 0] 0x10000000000), _, _, by decide +kernel, by decide +kernel, rfl, rfl, by decide +kernel⟩,
   ⟨(.fn 0), 0, ((instIn 1).setReg Reg.HAT_MSTAGE [0, 0] 0x10000000000), _, _, by decide +kernel, by decide +kernel, rfl, rfl, by decide +kernel⟩,
   ⟨(.fn 1), 0, (instIn 1), _, _, _, by decide +kernel, by decide +kernel, rfl, rfl, rfl, by decide +kernel⟩,
   ⟨(.tenantPost (.fn 1) 0), (.fn 1), 0, { power := { mode := 2 } }, by decide +kernel, by decide +kernel⟩,
   ⟨(.fn 0), 0, 1, (State.reset.setReg Reg.HAT_T2M_IDX [0] 1), by decide +kernel, by decide +kernel⟩,
   ⟨(.fn 1), 0, 1, (State.reset.setReg Reg.HAT_M2T_IDX [0] 1), by decide +kernel, by decide +kernel⟩,
   ⟨0, (instIn 1 { hatOut := [(1, [⟨3, 1⟩])] }), ⟨3, 1⟩, [], by decide +kernel, by decide +kernel, by decide +kernel, by decide +kernel⟩,
   ⟨0, (instIn 0 { hatOut := [(1, [⟨3, 1⟩])] }), ⟨3, 1⟩, [], by decide +kernel, by decide +kernel, by decide +kernel⟩⟩

theorem test_InstanceCommands_witness :
    (∃ (w : Writer) (v : VfId) (s : State) (u : State) (t : State), (isManager w = true) ∧ (u = s.tdiBreak (v + 1)) ∧ (u.inst (v + 1) = 0) ∧ (t = u.wrote Reg.HAT_INST_CMD [v + 1] 1) ∧ (t.fld Reg.SEC_STATE [] F.SEC_STATE_LC ≠ 2) ∧ (t.vfOn = true) ∧ (t.vfReady = true)) ∧
    (∃ (w : Writer) (v : VfId) (s : State), (isManager w = true) ∧ (s.inst (v + 1) = 1)) ∧
    (∃ (w : Writer) (v : VfId) (s : State) (u : State), (isManager w = true) ∧ (u = s.tdiBreak (v + 1)) ∧ (u.inst (v + 1) = 3 ∨ u.inst (v + 1) = 4)) ∧
    (∃ (w : Writer) (v : VfId) (s : State) (u : State) (t : State), (isManager w = true) ∧ (u = s.tdiBreak (v + 1)) ∧ (u.inst (v + 1) = 3) ∧ (t = u.wrote Reg.HAT_INST_CMD [v + 1] 4)) ∧
    (∃ (w : Writer) (v : VfId) (s : State) (u : State) (t : State), (isManager w = true) ∧ (u = s.tdiBreak (v + 1)) ∧ (u.inst (v + 1) = 4) ∧ (t = u.wrote Reg.HAT_INST_CMD [v + 1] 5) ∧ (t.saveReason (v + 1) = 0)) ∧
    (∃ (w : Writer) (v : VfId) (s : State) (u : State) (t : State), (isManager w = true) ∧ (u = s.tdiBreak (v + 1)) ∧ (u.inst (v + 1) = 4) ∧ (t = u.wrote Reg.HAT_INST_CMD [v + 1] 6) ∧ (t.saveAddr (v + 1) % 64 = 0) ∧ (t.storeBacked (t.saveAddr (v + 1)) 256 = true)) ∧
    (∃ (w : Writer) (v : VfId) (s : State) (u : State), (isManager w = true) ∧ (u = s.tdiBreak (v + 1)) ∧ (u.inst (v + 1) = 3)) ∧
    (∃ (w : Writer) (v : VfId) (s : State) (u : State) (t : State), (isManager w = true) ∧ (u = s.tdiBreak (v + 1)) ∧ (u.inst (v + 1) = 3) ∧ (t = u.wrote Reg.HAT_INST_CMD [v + 1] 8) ∧ (t.removable (v + 1) = true)) :=
  ⟨⟨(.fn 0), 0, (instIn 0 { vfOn := true, vfReady := true }), _, _, by decide +kernel, rfl, by decide +kernel, rfl, by decide +kernel, by decide +kernel, by decide +kernel⟩,
   ⟨(.fn 0), 0, (instIn 1), by decide +kernel, by decide +kernel⟩,
   ⟨(.fn 0), 0, (instIn 4), _, by decide +kernel, rfl, by decide +kernel⟩,
   ⟨(.fn 0), 0, (instIn 3), _, _, by decide +kernel, rfl, by decide +kernel, rfl⟩,
   ⟨(.fn 0), 0, (celled ((instIn 4).setReg Reg.HAT_INST_SLEN [1] (BitVec.allOnes 64))), _, _, by decide +kernel, rfl, by decide +kernel, rfl, by decide +kernel⟩,
   ⟨(.fn 0), 0, (celled (instIn 4)), _, _, by decide +kernel, rfl, by decide +kernel, rfl, by decide +kernel, by decide +kernel⟩,
   ⟨(.fn 0), 0, (instIn 3), _, by decide +kernel, rfl, by decide +kernel⟩,
   ⟨(.fn 0), 0, (instIn 3), _, _, by decide +kernel, rfl, by decide +kernel, rfl, by decide +kernel⟩⟩

theorem test_InstanceCommandRefused_witness :
    (∃ (w : Writer) (v : VfId) (s : State) (c : Instr) (ok : List Nat), (isManager w = true) ∧ (s.fld Reg.HST_TDI_STAT [v + 1] F.HST_TDI_STAT_STATE = 0) ∧ ((c, ok) ∈ [(Instr.enable w v, [0]), (Instr.quiesce w v, [1]), (Instr.instanceResume w v, [3, 4]), (Instr.freeze w v, [3]), (Instr.save w v, [4]), (Instr.restore w v, [4]), (Instr.reset w v, [3]), (Instr.remove w v, [3])]) ∧ (s.inst (v + 1) ∉ ok)) :=
  ⟨(.fn 0), 0, (instIn 1), (.enable (.fn 0) 0), [0], by decide +kernel, by decide +kernel, by decide +kernel, by decide +kernel⟩

theorem test_InstanceEnds_witness :
    (∃ (v : VfId) (s : State), (s.inst (v + 1) = 2) ∧ (s.fld Reg.HAT_INST_QCFG [v + 1] F.HAT_INST_QCFG_FORCE_US ≠ 0)) ∧
    (∃ (v : VfId) (s : State), (s.inst (v + 1) = 2) ∧ (s.quiet (v + 1) = true) ∧ (s.flr.get 0 (v + 1) = 0)) ∧
    (∃ (v : VfId) (s : State), (s.inst (v + 1) = 2) ∧ (s.quiet (v + 1) = true) ∧ (s.flr.get 0 (v + 1) ≠ 0)) ∧
    (∃ (v : VfId) (s : State) (u : State) (bs : List Byte), (s.inst (v + 1) = 5) ∧ (u = { s with free := s.free + 1 }) ∧ (bs = u.saveRecord (v + 1) s.free)) ∧
    (∃ (v : VfId) (s : State) (x : SaveSrc), (s.inst (v + 1) = 6) ∧ (x = { s := s, base := s.saveAddr (v + 1) })) ∧
    (∃ (v : VfId) (s : State), (s.inst (v + 1) = 7) ∧ ((s.clearInst (v + 1)).flr.get 0 (v + 1) = 0)) ∧
    (∃ (v : VfId) (s : State), (s.inst (v + 1) ≠ 0)) ∧
    (∃ (l : Nat) (k : Nat) (s : State) (x : LarderLine), (s.larderLine l = some x) ∧ (s.sharedRange l = some k) ∧ (x.refetch = false)) ∧
    (∃ (l : Nat) (k : Nat) (host : Line) (s : State) (u : State) (x : LarderLine) (d : Line), (s.larderLine l = some x) ∧ (s.sharedRange l = some k) ∧ (x.refetch = true) ∧ (s.backing k l host = (d, false)) ∧ (u = ({ s with larder := s.larder.set none l (some { x with refetch := false, poison := false, data := d, enc := encodingOf d x.pinned s.compress }) }.log { kind := 0x08, index := (s.home l).1, cls := .corrected, address := 128 * l, sub := x.way, aux := (s.home l).2 }))) ∧
    (∃ (l : Nat) (k : Nat) (s : State) (x : LarderLine), (s.larderLine l = some x) ∧ (s.sharedRange l = some k) ∧ (x.refetch = true)) :=
  ⟨⟨0, ((instIn 2).setFld Reg.HAT_INST_QCFG [1] F.HAT_INST_QCFG_FORCE_US 1), by decide +kernel, by decide +kernel⟩,
   ⟨0, (instIn 2), by decide +kernel, by decide +kernel, by decide +kernel⟩,
   ⟨0, (instIn 2 { flr := [(1, 1)] }), by decide +kernel, by decide +kernel, by decide +kernel⟩,
   ⟨0, (instIn 5), _, _, by decide +kernel, rfl, rfl⟩,
   ⟨0, (instIn 6), _, by decide +kernel, rfl⟩,
   ⟨0, (instIn 7), by decide +kernel, by decide +kernel⟩,
   ⟨0, (instIn 1), by decide +kernel⟩,
   ⟨64, 0, (sharedAt {}), {}, by decide +kernel, by decide +kernel, by decide +kernel⟩,
   ⟨64, 0, 5, ((sharedAt { refetch := true }).setFld Reg.HAT_SHR_BACK [0] F.HAT_SHR_BACK_BACK 65536), _, { refetch := true }, _, by decide +kernel, by decide +kernel, by decide +kernel, cleanPair (by decide +kernel), rfl⟩,
   ⟨64, 0, (sharedAt { refetch := true }), { refetch := true }, by decide +kernel, by decide +kernel, by decide +kernel⟩⟩

theorem test_JoistMessages_witness :
    (∃ (d : DieId) (k : Nat) (s : State) (u : State) (m : JoistMsg) (c : Nat) (off : Nat) (n : Nat), (JoistAt s d k m u) ∧ (m.type = 0x0A) ∧ (regionOf m.addr = .pantry c off) ∧ (n = min 256 (Config.joistAux 0 m.aux)) ∧ (u.backed m.addr = true) ∧ (off + n ≤ pantrySize)) ∧
    (∃ (d : DieId) (k : Nat) (s : State) (u : State) (m : JoistMsg) (c : Nat) (off : Nat) (n : Nat), (JoistAt s d k m u) ∧ (m.type = 0x0B) ∧ (regionOf m.addr = .pantry c off) ∧ (n = min (16 * m.dslots) (Config.joistAux 1 m.aux)) ∧ (u.backed m.addr = true) ∧ (off + n ≤ pantrySize)) ∧
    (∃ (d : DieId) (k : Nat) (s : State) (u : State) (m : JoistMsg), (JoistAt s d k m u) ∧ (m.type = 0x0A) ∧ ((∀ c off, regionOf m.addr ≠ .pantry c off))) ∧
    (∃ (d : DieId) (k : Nat) (s : State) (u : State) (m : JoistMsg), (JoistAt s d k m u) ∧ (m.type = 0x0C) ∧ (m.dagent < 16)) ∧
    (∃ (d : Fin 6) (k : Nat) (s : State) (u : State) (m : JoistMsg), (JoistAt s d k m u) ∧ (m.type = 0x27)) ∧
    (∃ (d : Fin 6) (k : Nat) (s : State) (u : State) (m : JoistMsg), (JoistAt s d k m u) ∧ (m.type = 0x32)) ∧
    (∃ (d : Fin 6) (k : Nat) (s : State) (u : State) (m : JoistMsg), (JoistAt s d k m u) ∧ (m.type = 0x31)) ∧
    (∃ (d : Fin 6) (k : Nat) (s : State) (u : State) (m : JoistMsg), (JoistAt s d k m u) ∧ (m.type = 0x42)) ∧
    (∃ (d : Fin 6) (k : Nat) (s : State) (u : State) (m : JoistMsg), (JoistAt s d k m u) ∧ (m.type = 0x43)) :=
  ⟨⟨0, 0, (joistAt (jm 0x0A 0x20000000000)), _, (jm 0x0A 0x20000000000), 0, 0, _, ⟨rfl, rfl⟩, by decide +kernel, by decide +kernel, rfl, by decide +kernel, minFits _ (by decide)⟩,
   ⟨0, 0, (joistAt (jm 0x0B (0x20000000000 + 2 ^ 81))), _, (jm 0x0B (0x20000000000 + 2 ^ 81)), 0, 0, _, ⟨rfl, rfl⟩, by decide +kernel, by decide +kernel, rfl, by decide +kernel, Nat.le_trans (Nat.add_le_add_left (Nat.min_le_left _ _) _) (by decide)⟩,
   ⟨0, 0, (joistAt (jm 0x0A 0)), _, (jm 0x0A 0), ⟨rfl, rfl⟩, by decide +kernel, by intro c off h; cases h⟩,
   ⟨0, 0, (joistAt (jm 12 0)), _, (jm 12 0), ⟨rfl, rfl⟩, by decide +kernel, by decide +kernel⟩,
   ⟨0, 0, (joistAt (jm 39 0)), _, (jm 39 0), ⟨rfl, rfl⟩, by decide +kernel⟩,
   ⟨0, 0, (joistAt (jm 50 0)), _, (jm 50 0), ⟨rfl, rfl⟩, by decide +kernel⟩,
   ⟨0, 0, (joistAt (jm 49 0)), _, (jm 49 0), ⟨rfl, rfl⟩, by decide +kernel⟩,
   ⟨0, 0, (joistAt (jm 66 0)), _, (jm 66 0), ⟨rfl, rfl⟩, by decide +kernel⟩,
   ⟨0, 0, (joistAt (jm 67 0)), _, (jm 67 0), ⟨rfl, rfl⟩, by decide +kernel⟩⟩

theorem test_JoistLinks_witness :
    (∃ (k : Fin 16) (m : Fin 24) (f : BitVec 2048) (s : State) (u : State) (j : Nat), (j = k.val / 2) ∧ (s.linkState j = 2) ∧ ((s.fld Reg.JST_LINK_STAT [j] F.JST_LINK_STAT_MODULES).testBit m = true) ∧ (flitGood f = false) ∧ (u = (s.bump Reg.JST_LINK_CNT [j] F.JST_LINK_CNT_CRC_ERR 1).setJoistLink j { s.joistLink j with crc := (s.joistLink j).crc.set 0 m ((s.joistLink j).crc.get 0 m + 1) })) ∧
    (∃ (k : Fin 16) (m : Fin 24) (f : BitVec 2048) (s : State) (t : State) (u : State) (j : Nat) (back : Nat), (j = k.val / 2) ∧ (s.linkState j = 2) ∧ ((s.fld Reg.JST_LINK_STAT [j] F.JST_LINK_STAT_MODULES).testBit m = true) ∧ (flitGood f = true) ∧ (t = s.setJoistLink j { s.joistLink j with silent := (s.joistLink j).silent.erase (wireFrom k) }) ∧ (back = 2 * j + (1 - k.val % 2)) ∧ (u = (t.setJoist back ((t.joist back).told joistKind f)).when (flitField f joistKind.nak 1 == 1) (fun s => s.bump Reg.JST_LINK_CNT [j] F.JST_LINK_CNT_REPLAY 1))) ∧
    (∃ (k : Fin 16) (s : State), ((s.joist k).buf ≠ [])) ∧
    (∃ (d : Fin 6) (_who : Agent) (m : JoistMsg) (s : State) (u : State) (j : Nat) (ch : Nat) (back : Nat) (w : Wire) (b : Wire), (m.legal = true) ∧ (m.slots.length = m.dslots) ∧ (m.ddie ≠ d.val) ∧ (m.sdie = d.val) ∧ (s.routeOf d m.ddie = some j) ∧ (ch = (joistChannel m.type).getD 0) ∧ (s.openLink j = true) ∧ ((s.joist (wireOf j d)).room joistKind ch (1 + m.dslots) = true) ∧ (back = 2 * j + (1 - wireOf j d % 2)) ∧ ((s.joist (wireOf j d)).sendSlots joistKind (s.joist back) ch (m.hdr :: m.slots) = (w, b)) ∧ (u = ({ s with joistOut := s.joistOut.erase (d.val, m) }.setJoist (wireOf j d) w).setJoist back b)) ∧
    (∃ (j : LinkId) (s : State) (x : JoistLink), (s.linkState j = 2) ∧ (x = s.joistLink j)) ∧
    (∃ (j : LinkId) (lanes : Fin 9) (s : State) (u : State) (v : State) (m : Nat), ((s.joistLink j).retraining = some m) ∧ (u = s.setJoistLink j { s.joistLink j with retraining := none }) ∧ (v = u.when (decide (0 < lanes.val)) (fun s => s.bump Reg.JST_LINK_STAT [j] F.JST_LINK_STAT_REPAIRED lanes))) ∧
    (∃ (j : LinkId) (d : Fin 6) (s : State) (u : State), (s.linkState j = 2) ∧ ((farEnd j d).isSome = true) ∧ (d.val ∉ (s.joistLink j).silent) ∧ (u = s.setJoistLink j { s.joistLink j with silent := d.val :: (s.joistLink j).silent }) ∧ ((List.range 8).all (fun k => (farEnd k d).isNone || u.linkState k != 2 || (u.joistLink k).silent.contains d.val) = false)) ∧
    (∃ (j : LinkId) (d : Fin 6) (s : State) (u : State), (s.linkState j = 2) ∧ ((farEnd j d).isSome = true) ∧ (d.val ∉ (s.joistLink j).silent) ∧ (u = s.setJoistLink j { s.joistLink j with silent := d.val :: (s.joistLink j).silent }) ∧ ((List.range 8).all (fun k => (farEnd k d).isNone || u.linkState k != 2 || (u.joistLink k).silent.contains d.val) = true) ∧ (d.val < 4)) ∧
    (∃ (r : Fin 12) (_s : State), (r.val < 4)) ∧
    (∃ (r : Fin 12) (_s : State), (r.val = 8 ∨ r.val = 9)) ∧
    (∃ (w : Writer) (d : DieId) (s : State), (isManager w = true) ∧ (s.quadrant = true) ∧ (s.dieState d = 3) ∧ (cool (s.fld Reg.PWR_DIE_STAT [d] F.PWR_DIE_STAT_TC) = true) ∧ (cool (s.fld Reg.PWR_DIE_STAT [d] F.PWR_DIE_STAT_TU) = true)) ∧
    (∃ (d : DieId) (x : Bringup) (s : State), (s.dieState d = 4) ∧ (x.dies.getLsbD d = false)) ∧
    (∃ (d : DieId) (x : Bringup) (s : State) (u : State) (v : State) (lost : Nat), (s.dieState d = 4) ∧ (x.dies.getLsbD d = true) ∧ (x.undercrofts.getLsbD d = true) ∧ (u = (s.resetClocks d).bringDie x d) ∧ (v = ((List.range 8).foldl (fun s j => s.relink x d j) u).installRoutes) ∧ (lost = v.fld Reg.LRD_COH_STAT [] F.LRD_COH_STAT_LOST)) :=
  ⟨⟨0, 0, 0, (linkUp 0), _, _, rfl, by decide +kernel, by decide +kernel, noCrc_bad, rfl⟩,
   ⟨0, 0, zeroFlit, (linkUp 0), _, _, _, _, rfl, by decide +kernel, by decide +kernel, zeroFlit_good, rfl, rfl, rfl⟩,
   ⟨0, { joists := [(0, { buf := [(0, 0)] })] }, by decide +kernel⟩,
   ⟨0, .storekeeper, ⟨BitVec.ofNat 128 (0x42 * 2 ^ 120 + 2 ^ 114), []⟩, ((linkUp 0).setReg Reg.JST_ROUTE [0] 0x80), _, 0, _, _, _, _, by decide +kernel, by decide +kernel, by decide +kernel, by decide +kernel, by decide +kernel, rfl, by decide +kernel, by decide +kernel, rfl, pairEta _, rfl⟩,
   ⟨0, (linkUp 0), _, by decide +kernel, rfl⟩,
   ⟨0, 1, { joistLinks := [(0, { retraining := some 3 })] }, _, _, 3, by decide +kernel, rfl, rfl⟩,
   ⟨0, 0, (linkUp 2 (linkUp 0)), _, by decide +kernel, by decide +kernel, by decide +kernel, rfl, by decide +kernel⟩,
   ⟨0, 0, (linkUp 0), _, by decide +kernel, by decide +kernel, by decide +kernel, rfl, by decide +kernel, by decide +kernel⟩,
   ⟨3, State.reset, by decide +kernel⟩,
   ⟨8, State.reset, by decide +kernel⟩,
   ⟨(.fn 0), 0, ((State.reset.setFld Reg.LRD_ILV_CFG [] F.LRD_ILV_CFG_MODE 1).setDieState 0 3), by decide +kernel, by decide +kernel, by decide +kernel, by decide +kernel, by decide +kernel⟩,
   ⟨0, {}, (State.reset.setDieState 0 4), by decide +kernel, by decide +kernel⟩,
   ⟨0, { dies := 1, undercrofts := 1 }, (State.reset.setDieState 0 4), _, _, _, by decide +kernel, by decide +kernel, by decide +kernel, rfl, rfl, rfl⟩⟩

theorem test_ChuteMessages_witness :
    (∃ (k : Nat) (s : State) (u : State) (p : Nat) (a : Nat) (m : ChuteMsg), (ChuteAt s k p m) ∧ (m.ddev = s.spanId) ∧ (m.kind = 1) ∧ (s.chuteCheck m = 0) ∧ (s.inbound m true (m.len + 1) = some a) ∧ (s.servedDown a = false) ∧ (s.homeWrite a (leBytes (m.len + 1) m.data) m.poison = some u)) ∧
    (∃ (k : Nat) (s : State) (u : State) (p : Nat) (a : Nat) (m : ChuteMsg), (ChuteAt s k p m) ∧ (m.ddev = s.spanId) ∧ (m.kind = 2) ∧ (s.chuteCheck m = 0) ∧ (s.inbound m true (m.len + 1) = some a) ∧ (s.servedDown a = false) ∧ (s.homeWrite a (leBytes (m.len + 1) m.data) m.poison = some u)) ∧
    (∃ (k : Nat) (s : State) (u : State) (p : Nat) (a : Nat) (m : ChuteMsg), (ChuteAt s k p m) ∧ (m.ddev = s.spanId) ∧ (m.kind = 3) ∧ (s.chuteCheck m = 0) ∧ (s.inbound m true (m.len + 1) = some a) ∧ (s.servedDown a = false) ∧ (s.homeWrite a (leBytes (m.len + 1) m.data) m.poison = some u)) ∧
    (∃ (c : Instr) (k : Nat) (kind : Nat) (s : State) (t : State) (p : Nat) (a : Nat) (m : ChuteMsg), ((c, kind) ∈ [(Instr.rred k, 4), (.rredB k, 5), (.rredP k, 6)]) ∧ (ChuteAt s k p m) ∧ (m.ddev = s.spanId) ∧ (m.kind = kind) ∧ (s.chuteCheck m = 0) ∧ (s.inbound { m with addr := m.addr / 128 * 128 } true 128 = some a) ∧ (s.servedDown a = false) ∧ (hasHome a = true) ∧ (t = { State.dropIn k s with chuteReds := s.chuteReds ++ [(s.redTag, (⟨m, .chute p, none⟩ : ChuteItem))] })) ∧
    (∃ (k : Nat) (s : State) (p : Nat) (m : ChuteMsg), (ChuteAt s k p m) ∧ (m.ddev = s.spanId) ∧ (m.kind = 7) ∧ (s.chuteCheck m = 0)) ∧
    (∃ (k : Nat) (s : State) (u : State) (p : Nat) (a : Nat) (m : ChuteMsg) (bs : List Byte) (q : Bool), (ChuteAt s k p m) ∧ (m.ddev = s.spanId) ∧ (m.kind = 8) ∧ (s.chuteCheck m = 0) ∧ (s.inbound m false (m.len + 1) = some a) ∧ (s.servedDown a = false) ∧ (s.homeRead a (m.len + 1) = some (u, bs, q))) ∧
    (∃ (c : Instr) (k : Nat) (kind : Nat) (s : State) (t : State) (p : Nat) (m : ChuteMsg), ((c, kind) ∈ [(Instr.rwr k, 1), (.rwrB k, 2), (.rwrP k, 3), (.rred k, 4), (.rredB k, 5), (.rredP k, 6), (.rtinc k, 7), (.rrd k, 8)]) ∧ (ChuteAt s k p m) ∧ (m.ddev = s.spanId) ∧ (m.kind = kind) ∧ (s.chuteCheck m = 1) ∧ (t = (State.dropIn k s).bump Reg.CHU_DROP [] F.CHU_DROP_STALE 1)) ∧
    (∃ (k : Nat) (s : State) (t : State) (p : Nat) (m : ChuteMsg) (e : Nat × ChuteMsg × Agent), (ChuteAt s k p m) ∧ (m.ddev = s.spanId) ∧ (m.kind = 0x10) ∧ (t = State.dropIn k s) ∧ (s.chuteLive.find? (fun e => e.1 == p && e.2.1.score == m.score && e.2.1.tag == m.tag) = some e)) ∧
    (∃ (k : Nat) (s : State) (t : State) (p : Nat) (m : ChuteMsg) (e : Nat × ChuteMsg × Agent), (ChuteAt s k p m) ∧ (m.ddev = s.spanId) ∧ (m.kind = 0x11) ∧ (t = State.dropIn k s) ∧ (s.chuteLive.find? (fun e => e.1 == p && e.2.1.score == m.score && e.2.1.tag == m.tag) = some e)) ∧
    (∃ (c : Instr) (k : Nat) (kind : Nat) (s : State) (p : Nat) (m : ChuteMsg), ((c, kind) ∈ [(Instr.rcmp k, 0x10), (.rcmpd k, 0x11)]) ∧ (ChuteAt s k p m) ∧ (m.ddev = s.spanId) ∧ (m.kind = kind) ∧ (s.chuteLive.find? (fun e => e.1 == p && e.2.1.score == m.score && e.2.1.tag == m.tag) = none)) ∧
    (∃ (k : Nat) (s : State) (t : State) (p : Nat) (q : Nat) (m : ChuteMsg), (ChuteAt s k p m) ∧ (m.ddev ≠ s.spanId) ∧ (m.channel = some 0 ∨ m.channel = some 2) ∧ (t = State.dropIn k s) ∧ (t.chutePort (.chute p) m (t.fld Reg.CHU_RSTAT [] F.CHU_RSTAT_ALT) = some q)) ∧
    (∃ (k : Nat) (s : State) (t : State) (p : Nat) (m : ChuteMsg) (e : Nat × Nat × ChuteMsg), (ChuteAt s k p m) ∧ (m.ddev ≠ s.spanId) ∧ (m.channel = some 1) ∧ (t = State.dropIn k s) ∧ (s.chuteFwd.find? (fun e => e.1 == p && e.2.2.sdev == m.ddev && e.2.2.score == m.score && e.2.2.tag == m.tag) = some e)) ∧
    (∃ (k : Nat) (s : State) (e : Nat × ChuteMsg × Agent), (s.chuteLive[k]? = some e)) ∧
    (∃ (k : Nat) (s : State) (t : State) (p : Nat) (m : ChuteMsg), (ChuteAt s k p m) ∧ (m.ddev = s.spanId) ∧ (m.kind = 0x18) ∧ (m.data % 256 = 1) ∧ (m.data / 65536 % 65536 = s.spanId) ∧ (t = State.dropIn k s)) ∧
    (∃ (k : Nat) (s : State) (t : State) (p : Nat) (m : ChuteMsg), (ChuteAt s k p m) ∧ (m.ddev = s.spanId) ∧ (m.kind = 0x19) ∧ (t = State.dropIn k s)) ∧
    (∃ (k : Nat) (s : State) (p : Nat) (m : ChuteMsg), (ChuteAt s k p m) ∧ (m.ddev = s.spanId) ∧ (m.kind = 0x1A) ∧ (s.fld Reg.CHU_SPAN [] F.CHU_SPAN_MASTER = s.spanId)) :=
  ⟨⟨0, (chuteAt { type := 1, epoch := 1 }), _, 0, 0, { type := 1, epoch := 1 }, rfl, by decide +kernel, by decide +kernel, by decide +kernel, by decide +kernel, by decide +kernel, someGet (by decide +kernel)⟩,
   ⟨0, (chuteAt { type := 2, epoch := 1 }), _, 0, 0, { type := 2, epoch := 1 }, rfl, by decide +kernel, by decide +kernel, by decide +kernel, by decide +kernel, by decide +kernel, someGet (by decide +kernel)⟩,
   ⟨0, (chuteAt { type := 3, epoch := 1 }), _, 0, 0, { type := 3, epoch := 1 }, rfl, by decide +kernel, by decide +kernel, by decide +kernel, by decide +kernel, by decide +kernel, someGet (by decide +kernel)⟩,
   ⟨(.rred 0), 0, 4, (chuteAt { type := 4, epoch := 1 }), _, 0, 0, { type := 4, epoch := 1 }, by decide +kernel, rfl, by decide +kernel, by decide +kernel, by decide +kernel, by decide +kernel, by decide +kernel, by decide +kernel, rfl⟩,
   ⟨0, (chuteAt { type := 7, epoch := 1 }), 0, { type := 7, epoch := 1 }, rfl, by decide +kernel, by decide +kernel, by decide +kernel⟩,
   ⟨0, (chuteAt { type := 8, epoch := 1 }), _, 0, 0, { type := 8, epoch := 1 }, _, _, rfl, by decide +kernel, by decide +kernel, by decide +kernel, by decide +kernel, by decide +kernel, someGet3 (by decide +kernel)⟩,
   ⟨(.rwr 0), 0, 1, (chuteAt { type := 1, epoch := 5 }), _, 0, { type := 1, epoch := 5 }, by decide +kernel, rfl, by decide +kernel, by decide +kernel, by decide +kernel, rfl⟩,
   ⟨0, (chuteAt { type := 16 } { spanned with chuteLive := [(0, { type := 1 }, .porter 0 1)] }), _, 0, { type := 16 }, (0, { type := 1 }, .porter 0 1), rfl, by decide +kernel, by decide +kernel, rfl, by decide +kernel⟩,
   ⟨0, (chuteAt { type := 17 } { spanned with chuteLive := [(0, { type := 1 }, .porter 0 1)] }), _, 0, { type := 17 }, (0, { type := 1 }, .porter 0 1), rfl, by decide +kernel, by decide +kernel, rfl, by decide +kernel⟩,
   ⟨(.rcmp 0), 0, 16, (chuteAt { type := 16 }), 0, { type := 16 }, by decide +kernel, rfl, by decide +kernel, by decide +kernel, by decide +kernel⟩,
   ⟨0, (chuteAt { type := 1, ddev := 1 } (portIn 2 { spanned with transit := [⟨0, [0, 0, 1, 0]⟩] })), _, 0, _, { type := 1, ddev := 1 }, rfl, by decide +kernel, by decide +kernel, rfl, someGet (by decide +kernel)⟩,
   ⟨0, (chuteAt { type := 16, ddev := 1 } { spanned with chuteFwd := [(0, 2, { type := 1, sdev := 1 })] }), _, 0, { type := 16, ddev := 1 }, (0, 2, { type := 1, sdev := 1 }), rfl, by decide +kernel, by decide +kernel, rfl, by decide +kernel⟩,
   ⟨0, { spanned with chuteLive := [(0, { type := 1 }, .porter 0 1)] }, (0, { type := 1 }, .porter 0 1), by decide +kernel⟩,
   ⟨0, (chuteAt { type := 0x18, data := 1 }), _, 0, { type := 0x18, data := 1 }, rfl, by decide +kernel, by decide +kernel, by decide +kernel, by decide +kernel, rfl⟩,
   ⟨0, (chuteAt { type := 0x19 }), _, 0, { type := 0x19 }, rfl, by decide +kernel, by decide +kernel, rfl⟩,
   ⟨0, (chuteAt { type := 0x1A }), 0, { type := 0x1A }, rfl, by decide +kernel, by decide +kernel, by decide +kernel⟩⟩

theorem test_ChutePorts_witness :
    (∃ (p : PortId) (corrected : Nat) (bad : Fin 7) (_block : BitVec 30840) (s : State) (t : State), (s.portState p = 2) ∧ (0 < bad.val) ∧ (t = (s.bump Reg.CHU_PORT_FEC [p] F.CHU_PORT_FEC_CORR corrected).bump Reg.CHU_PORT_CNT [p] F.CHU_PORT_CNT_UNCORR bad)) ∧
    (∃ (p : PortId) (corrected : Nat) (_block : BitVec 30840) (s : State) (t : State), (s.portState p = 2) ∧ (t = (s.bump Reg.CHU_PORT_FEC [p] F.CHU_PORT_FEC_CORR corrected).bump Reg.CHU_PORT_CNT [p] F.CHU_PORT_CNT_UNCORR 0)) ∧
    (∃ (k : Nat) (s : State) (u : State) (p : Nat) (t : Nat) (x : ChuteItem) (m : ChuteMsg) (tx : Wire) (rx : Wire), (s.chuteOut[k]? = some x) ∧ (x.msg.ddev ≠ s.spanId ∨ x.port.isSome) ∧ (isReq x.msg = true) ∧ ((∀ i, x.who ≠ .chute i)) ∧ (x.port.or (s.chutePort x.who x.msg (s.fld Reg.CHU_RSTAT [] F.CHU_RSTAT_ALT)) = some p) ∧ (s.portState p = 2) ∧ (s.freeTag p x.msg.score = some t) ∧ (m = { x.msg with tag := t }) ∧ ((s.portTx p).room chuteKind 0 m.slots.length = true) ∧ ((s.portTx p).sendSlots chuteKind (s.portRx p) 0 m.slots = (tx, rx)) ∧ (u = (({ s with chuteOut := s.chuteOut.eraseIdx k }).setPorts p tx rx).account (s.bayOfCore m.score) Reg.BAY_CHU Reg.BAY_INST_CHU m.bytes)) ∧
    (∃ (p : PortId) (s : State), ((s.portTx p).buf ≠ [])) ∧
    (∃ (p : PortId) (lane : Fin 12) (s : State) (v : Nat), (v = s.fld Reg.CHU_PORT_STAT [p] F.CHU_PORT_STAT_LANES) ∧ (v.testBit lane = true) ∧ (s.portState p = 2)) ∧
    (∃ (p : PortId) (peer : Fin 2048) (_level : Fin 256) (s : State) (t : State), (s.portState p = 1) ∧ (s.bit Reg.CHU_PORT_CFG [p] F.CHU_PORT_CFG_EN = true) ∧ (peer.val ≠ s.spanId) ∧ (t = ((((s.setPortState p 2).setPorts p {} {}).setFld Reg.CHU_PORT_STAT [p] F.CHU_PORT_STAT_PEER peer).setFld Reg.CHU_PORT_STAT [p] F.CHU_PORT_STAT_LANES 0xFFF))) ∧
    (∃ (p : PortId) (peer : Fin 2048) (_level : Fin 256) (s : State), (s.portState p = 1) ∧ (s.bit Reg.CHU_PORT_CFG [p] F.CHU_PORT_CFG_EN = true) ∧ (peer.val = s.spanId)) ∧
    (∃ (p : PortId) (s : State), (s.portState p = 1) ∧ (s.bit Reg.CHU_PORT_CFG [p] F.CHU_PORT_CFG_EN = true)) ∧
    (∃ (w : Writer) (p : PortId) (s : State) (t : State), (isManager w = true) ∧ (t = s.wrote Reg.CHU_CMD [] (1 + 16 * p)) ∧ (t.portState p = 3)) ∧
    (∃ (w : Writer) (s : State) (t : State), (isManager w = true) ∧ (t = s.wrote Reg.CHU_CMD [] 2) ∧ ((∀ p < 8, (t.fld Reg.CHU_RSTAT [] F.CHU_RSTAT_FAILED).testBit p = true → t.portState p = 2))) ∧
    (∃ (w : Writer) (s : State) (t : State) (bs : List (Byte × Bool)), (isManager w = true) ∧ (t = s.wrote Reg.CHU_CMD [] 3) ∧ (bs = (List.range 36864).map (fun i => t.peekByte (t.fld Reg.CHU_XADDR [] F.CHU_XADDR_ADDR * 64 + i))) ∧ (t.storeBacked (t.fld Reg.CHU_XADDR [] F.CHU_XADDR_ADDR * 64) 36864 = true) ∧ (bs.any (·.2) = false)) ∧
    (∃ (w : Writer) (v : DWord) (s : State) (t : State), (isManager w = true) ∧ (s.bit Reg.CHU_SPAN [] F.CHU_SPAN_EN = false) ∧ (t = s.setFld Reg.CHU_SPAN [] F.CHU_SPAN_EN (fieldOf v F.CHU_SPAN_EN.hi F.CHU_SPAN_EN.lo))) ∧
    (∃ (_p : PortId) (s : State), (s.power.mode = 2)) :=
  ⟨⟨0, 3, 1, 0, (portIn 2), _, by decide +kernel, by decide +kernel, rfl⟩,
   ⟨0, 3, 0, (portIn 2), _, by decide +kernel, rfl⟩,
   ⟨0, (portIn 2 { chuteOut := [⟨{ type := 1, ddev := 1 }, .porter 0 1, some 0⟩] }), _, 0, 0, ⟨{ type := 1, ddev := 1 }, .porter 0 1, some 0⟩, _, _, _, by decide +kernel, by decide +kernel, by decide +kernel, (by intro i h; cases h), by decide +kernel, by decide +kernel, by decide +kernel, rfl, by decide +kernel, pairEta _, rfl⟩,
   ⟨0, { ports := [(0, { buf := [(0, 0)] })] }, by decide +kernel⟩,
   ⟨0, 0, ((portIn 2).setFld Reg.CHU_PORT_STAT [0] F.CHU_PORT_STAT_LANES 0xFFF), _, rfl, by decide +kernel, by decide +kernel⟩,
   ⟨0, 1, 5, ((portIn 1).setFld Reg.CHU_PORT_CFG [0] F.CHU_PORT_CFG_EN 1), _, by decide +kernel, by decide +kernel, by decide +kernel, rfl⟩,
   ⟨0, 0, 5, ((portIn 1).setFld Reg.CHU_PORT_CFG [0] F.CHU_PORT_CFG_EN 1), by decide +kernel, by decide +kernel, by decide +kernel⟩,
   ⟨0, ((portIn 1).setFld Reg.CHU_PORT_CFG [0] F.CHU_PORT_CFG_EN 1), by decide +kernel, by decide +kernel⟩,
   ⟨(.fn 0), 0, (portIn 3), _, by decide +kernel, rfl, by decide +kernel⟩,
   ⟨(.fn 0), State.reset, _, by decide +kernel, rfl, by decide +kernel⟩,
   ⟨(.fn 0), (State.reset.setFld Reg.CHU_XADDR [] F.CHU_XADDR_ADDR 0x200000000000), _, _, by decide +kernel, rfl, rfl, by decide +kernel, hostClean (b := 0x8000000000000) rfl (Nat.le_refl _) 36864⟩,
   ⟨(.fn 0), 1, State.reset, _, by decide +kernel, by decide +kernel, rfl⟩,
   ⟨0, { power := { mode := 2 } }, by decide +kernel⟩⟩

theorem test_RegisterWrites_witness :
    (∃ (w : Writer) (off : Nat) (v : DWord) (s : State) (u : State) (r : RegSpec) (is : List Nat) (bad : List Fld), (Reaches s w off) ∧ (MayWrite w r is) ∧ (Plain s w off r is v) ∧ (r.readOnly = false) ∧ (u = (if r.base = Reg.BAY_CLUSTERS.base then s.tdiBreak (s.instOfBay (is.headD 0)) else s)) ∧ (u.stateCause r is v = 0) ∧ (bad = ((u.linkRules r is v ++ u.powerRules r v).filter (fun e => !e.2)).map (·.1))) ∧
    (∃ (w : Writer) (off : Nat) (v : DWord) (s : State) (u : State) (r : RegSpec) (is : List Nat), (Reaches s w off) ∧ (MayWrite w r is) ∧ (Plain s w off r is v) ∧ (r.readOnly = false) ∧ (u = (if r.base = Reg.BAY_CLUSTERS.base then s.tdiBreak (s.instOfBay (is.headD 0)) else s)) ∧ (u.stateCause r is v ≠ 0)) ∧
    (∃ (w : Writer) (off : Nat) (v : DWord) (s : State) (r : RegSpec) (is : List Nat), (Reaches s w off) ∧ (isManager w = true) ∧ (Plain s w off r is v) ∧ (r.readOnly = true) ∧ (r.base ≠ Reg.LRD_RNG_ADDR.base) ∧ (r.base ≠ Reg.LRD_RNG_LEN.base) ∧ (strictBlock off = false)) ∧
    (∃ (w : Writer) (off : Nat) (v : DWord) (s : State) (r : RegSpec) (is : List Nat), (Reaches s w off) ∧ (isManager w = false) ∧ (¬ MayWrite w r is) ∧ (Plain s w off r is v)) ∧
    (∃ (w : Writer) (off : Nat) (v : DWord) (s : State) (t : State) (r : RegSpec) (is : List Nat), (Reaches s w off) ∧ (findReg off = some (r, is)) ∧ (off < 0x10000000) ∧ (¬ (0x2000000 ≤ off ∧ off < 0x3000000)) ∧ (s.specialWrite w off r is v = some t)) ∧
    (∃ (w : Writer) (off : Nat) (_v : DWord) (s : State) (r : RegSpec) (is : List Nat), (Reaches s w off) ∧ (findReg off = some (r, is)) ∧ (0x2000000 ≤ off) ∧ (off < 0x3000000)) ∧
    (∃ (w : Writer) (off : Nat) (_v : DWord) (s : State) (r : RegSpec) (is : List Nat), (Reaches s w off) ∧ (findReg off = some (r, is)) ∧ (0x10000000 ≤ off)) ∧
    (∃ (w : Writer) (_v : DWord) (s : State), (tenantOf w = none) ∧ (s.closedFor w = false)) ∧
    (∃ (w : Writer) (off : Nat) (_v : DWord) (s : State), (Reaches s w off) ∧ (findReg off = none) ∧ (aliasOf off = none) ∧ (windowOf off = none)) :=
  ⟨⟨(.fn 0), 0xb002000, 5, .reset, _, Reg.CHU_EPOCH, [0], _, ⟨by decide +kernel, by decide +kernel, by decide +kernel, by decide +kernel, by decide +kernel, nofun⟩, Or.inl rfl, ⟨rfl, by decide +kernel, by decide +kernel, rfl⟩, by decide +kernel, rfl, by decide +kernel, rfl⟩,
   ⟨(.fn 0), 0x1000000, 5, bay, _, Reg.BAY_CLUSTERS, [0], ⟨by decide +kernel, by decide +kernel, by decide +kernel, by decide +kernel, by decide +kernel, nofun⟩, Or.inl rfl, ⟨rfl, by decide +kernel, by decide +kernel, rfl⟩, by decide +kernel, rfl, by decide +kernel⟩,
   ⟨(.fn 0), 0x9000000, 5, .reset, Reg.CEL_CAP, [], ⟨by decide +kernel, by decide +kernel, by decide +kernel, by decide +kernel, by decide +kernel, nofun⟩, by decide +kernel, ⟨rfl, by decide +kernel, by decide +kernel, rfl⟩, by decide +kernel, by decide +kernel, by decide +kernel, by decide +kernel⟩,
   ⟨.storekeeper, 0xb002000, 5, .reset, Reg.CHU_EPOCH, [0], ⟨by decide +kernel, by decide +kernel, by decide +kernel, by decide +kernel, by decide +kernel, nofun⟩, by decide +kernel, (fun h => h.elim nofun (fun h => h.1.elim (by decide) (by decide))), ⟨rfl, by decide +kernel, by decide +kernel, rfl⟩⟩,
   ⟨(.fn 0), 0x1000008, 0, bay, _, Reg.BAY_CFG, [0], ⟨by decide +kernel, by decide +kernel, by decide +kernel, by decide +kernel, by decide +kernel, nofun⟩, by decide +kernel, by decide +kernel, by decide +kernel, someGet (by decide +kernel)⟩,
   ⟨(.fn 0), 0x2000000, 0, bay, Reg.HAT_TSTAGE, [0, 0], ⟨by decide +kernel, by decide +kernel, by decide +kernel, by decide +kernel, by decide +kernel, nofun⟩, by decide +kernel, by decide +kernel, by decide +kernel⟩,
   ⟨(.fn 0), 0x10010000, 0, bay, Reg.CST_TALLY, [0, 0], ⟨by decide +kernel, by decide +kernel, by decide +kernel, by decide +kernel, by decide +kernel, nofun⟩, by decide +kernel, by decide +kernel⟩,
   ⟨(.fn 0), 0, .reset, by decide +kernel, by decide +kernel⟩,
   ⟨(.fn 0), 0x7fffff8, 0, .reset, ⟨by decide +kernel, by decide +kernel, by decide +kernel, by decide +kernel, by decide +kernel, nofun⟩, by decide +kernel, by decide +kernel, by decide +kernel⟩⟩

theorem test_NarrowWriteRefused_witness :
    (∃ (w : Writer) (_off : Nat) (width : Nat) (_v : DWord) (s : State), (s.inBoxroom = false) ∧ (s.closedFor w = false) ∧ (width ≠ 8)) :=
  ⟨(.fn 0), 0xb002000, 4, 0, .reset, by decide +kernel, by decide +kernel, by decide +kernel⟩

theorem test_FieldAccessTypes_witness :
    (∃ (_r : RegSpec) (_old : DWord) (_v : DWord) (k : Nat), (k < 64)) :=
  ⟨Reg.CHU_EPOCH, 0, 0, 0, by decide +kernel⟩

theorem test_RegisterReads_witness :
    (∃ (w : Writer) (off : Nat) (h : Half) (s : State) (u : State) (v : DWord), (tenantOf w = none) ∧ ((∀ n o, windowOf off = some (n, o) → s.gated (clusterOf n) = false)) ∧ (s.regRead off h = (u, v))) ∧
    (∃ (off : Nat) (_h : Half) (s : State) (r : RegSpec) (is : List Nat), (s.inBoxroom = false) ∧ (findReg off = some (r, is))) ∧
    (∃ (_off : Nat) (_v : DWord) (s : State), (s.power.mode = 0) ∧ (2 ≤ s.debug)) ∧
    (∃ (off : Nat) (s : State) (u : State) (v : DWord), (s.power.mode = 0) ∧ (2 ≤ s.debug) ∧ (s.gatedWindow off = none) ∧ (s.regRead off .whole = (u, v))) ∧
    (∃ (off : Nat) (_x : Option DWord) (s : State), (s.power.mode ≠ 2) ∧ ((s.debug < 2 ∨ s.power.mode = 1 ∧ s.unpowered off = true))) ∧
    (∃ (d : Fin 6) (k : Nat) (s : State) (t : State) (u : State) (m : JoistMsg) (v : DWord), (JoistAt s d k m t) ∧ (m.type = 0x40) ∧ (t.regRead m.addr .whole = (u, v))) ∧
    (∃ (d : Fin 6) (k : Nat) (s : State) (t : State) (u : State) (m : JoistMsg), (JoistAt s d k m t) ∧ (m.type = 0x41) ∧ (u = t.regWrite (joistWriter m) m.addr 8 (BitVec.ofNat 64 m.data))) :=
  ⟨⟨(.fn 0), 0x1000000, .whole, bay, _, _, by decide +kernel, (by intro n o h; exact absurd (h ▸ rfl : (windowOf 0x1000000).isSome = true) (by decide +kernel)), pairEta _⟩,
   ⟨0x1000000, .whole, bay, Reg.BAY_CLUSTERS, [0], by decide +kernel, by decide +kernel⟩,
   ⟨0x1000000, 5, (debugAt 2), by decide +kernel, by decide +kernel⟩,
   ⟨0x1000000, (debugAt 2), _, _, by decide +kernel, by decide +kernel, by decide +kernel, pairEta _⟩,
   ⟨0x1000000, none, (debugAt 0), by decide +kernel, Or.inl (by decide +kernel)⟩,
   ⟨0, 0, (joistAt (jm 0x40 0x1000000)), _, _, _, _, ⟨rfl, rfl⟩, by decide +kernel, pairEta _⟩,
   ⟨0, 0, (joistAt (jm 0x41 0x1000000)), _, _, _, ⟨rfl, rfl⟩, by decide +kernel, rfl⟩⟩

theorem test_VendorScanStops_witness :
    (∃ (s : State), (s.debug = 3) ∧ (s.power.mode ≠ 2)) ∧
    (∃ (s : State), (s.debug ≠ 3 ∨ s.power.mode = 2)) :=
  ⟨⟨(debugAt 3), by decide +kernel, by decide +kernel⟩,
   ⟨.reset, Or.inl (by decide +kernel)⟩⟩

theorem test_HostRequests_witness :
    (∃ (f : InstId) (_op : CfgOp) (s : State) (t : State), (s.hostUp = true) ∧ (s.pilot.phase = 2) ∧ ((f.val = 0 ∨ s.vfOn = true ∧ s.vfReady = true ∧ s.inBoxroom = false)) ∧ (t = s.startSucceeds)) ∧
    (∃ (f : InstId) (_op : CfgOp) (s : State), (s.hostUp = true) ∧ (s.pilot.phase = 3) ∧ ((f.val = 0 ∨ s.vfOn = true ∧ s.vfReady = true ∧ s.inBoxroom = false))) ∧
    (∃ (_f : InstId) (_op : CfgOp) (s : State), (s.hostUp = true) ∧ (s.pilot.phase < 2)) ∧
    (∃ (f : InstId) (bar : Fin 6) (off : Nat) (n : Nat) (_peer : Bool) (ide : Bool) (s : State), (Serves s f ide) ∧ ((bar.val = 0 ∨ s.inBoxroom = false)) ∧ (0 < n) ∧ (off + n ≤ s.barBytes f bar)) ∧
    (∃ (f : InstId) (bar : Fin 6) (off : Nat) (bs : List Byte) (_peer : Bool) (ide : Bool) (s : State), (Serves s f ide) ∧ ((bar.val = 0 ∨ s.inBoxroom = false)) ∧ (bs ≠ []) ∧ (off + bs.length ≤ s.barBytes f bar)) ∧
    (∃ (f : InstId) (bar : Fin 6) (off : Nat) (n : Nat) (_peer : Bool) (ide : Bool) (s : State), (Serves s f ide) ∧ (s.barBytes f bar < off + n)) ∧
    (∃ (f : InstId) (_bar : Fin 6) (_off : Nat) (_peer : Bool) (ide : Bool) (s : State), (Serves s f ide)) ∧
    (∃ (k : Nat) (r : HostIn) (s : State) (t : State), (s.hostIn[k]? = some r) ∧ (r.write = none) ∧ (t = { s with hostIn := s.hostIn.eraseIdx k })) :=
  ⟨⟨0, (.barSize 20), (hosted 2), _, by decide +kernel, by decide +kernel, by decide +kernel, rfl⟩,
   ⟨0, (.barSize 20), hosted, by decide +kernel, by decide +kernel, by decide +kernel⟩,
   ⟨0, (.barSize 20), (hosted 1), by decide +kernel, by decide +kernel⟩,
   ⟨0, 0, 0, 8, false, false, hosted, ⟨by decide +kernel, by decide +kernel, by decide +kernel, by decide +kernel⟩, by decide +kernel, by decide +kernel, by decide +kernel⟩,
   ⟨0, 0, 0, [1], false, false, hosted, ⟨by decide +kernel, by decide +kernel, by decide +kernel, by decide +kernel⟩, by decide +kernel, by decide +kernel, by decide +kernel⟩,
   ⟨0, 0, 0x20000000, 8, false, false, hosted, ⟨by decide +kernel, by decide +kernel, by decide +kernel, by decide +kernel⟩, by decide +kernel⟩,
   ⟨0, 0, 0, false, false, hosted, ⟨by decide +kernel, by decide +kernel, by decide +kernel, by decide +kernel⟩⟩,
   ⟨0, ⟨0, 0, 0, 8, none, false, false⟩, { hostIn := [⟨0, 0, 0, 8, none, false, false⟩] }, _, by decide +kernel, by decide +kernel, rfl⟩⟩

theorem test_HostTraffic_witness :
    (∃ (tag : Nat) (_data : Nat) (_poison : Bool) (r : HostReq) (s : State), (s.issued tag = some r)) ∧
    (∃ (tag : Nat) (status : Fin 3) (_data : Nat) (_poison : Bool) (r : HostReq) (s : State), (s.issued tag = some r) ∧ (status ≠ 0)) ∧
    (∃ (tag : Nat) (_status : Fin 3) (_data : Nat) (_poison : Bool) (s : State), (s.issued tag = none)) ∧
    (∃ (tag : Nat) (r : HostReq) (s : State), (s.hostOut.find? (fun r => r.tag == tag) = some r)) ∧
    (∃ (tag : Nat) (size : Fin 64) (r : HostReq) (s : State) (t : State) (k : Nat), (s.hostOut.find? (fun r => r.tag == tag && r.waits) = some r) ∧ (r.write = none) ∧ (k = max 12 (min 30 size.val)) ∧ (t = s.atcPut (r.fn, k, r.addr / 2 ^ k))) ∧
    (∃ (tag : Nat) (_size : Fin 64) (r : HostReq) (s : State), (s.hostOut.find? (fun r => r.tag == tag && r.waits) = some r)) ∧
    (∃ (_f : InstId) (_size : Fin 64) (_page : Nat) (s : State), (s.hostUp = true) ∧ (s.atsInval.length < 32)) ∧
    (∃ (f : InstId) (v : Fin 256) (s : State), (v.val < vectorsOf f.val) ∧ (s.msixPend.get false (vecKey f v) = true) ∧ (s.hostUp = true)) ∧
    (∃ (_x : Bringup) (s : State), (s.hostUp = true)) ∧
    (∃ (s : State), (s.hostUp = true) ∧ (s.pilot.phase = 3) ∧ (s.vfOn = false) ∧ (s.inBoxroom = false)) ∧
    (∃ (s : State), (s.vfOn = true) ∧ (s.vfReady = false)) ∧
    (∃ (s : State), (s.hostUp = true) ∧ (s.vfOn = true)) ∧
    (∃ (s : State) (t : State), (s.hostUp = true) ∧ (t = s.hostOut.foldl (fun s r => s.failReq r) (s.setReg Reg.HST_LINK_STAT [] 0))) ∧
    (∃ (speed : Fin 8) (width : Fin 33) (s : State), (2 ≤ s.pilot.phase) ∧ (speed ≠ 0) ∧ (width ≠ 0) ∧ (s.inBoxroom = false) ∧ (s.msixPend = [])) ∧
    (∃ (speed : Fin 8) (width : Fin 33) (s : State), (2 ≤ s.pilot.phase) ∧ (speed ≠ 0) ∧ (width ≠ 0) ∧ (s.inBoxroom = true) ∧ (s.msixPend = [])) :=
  ⟨⟨5, 7, false, _, { hostOut := [hostReq] }, rfl⟩,
   ⟨5, 1, 7, false, _, { hostOut := [hostReq] }, rfl, by decide +kernel⟩,
   ⟨5, 0, 7, false, .reset, by decide +kernel⟩,
   ⟨5, _, { hostOut := [hostReq] }, rfl⟩,
   ⟨5, 12, (hostReq true), { hostOut := [hostReq true] }, _, _, by decide +kernel, by decide +kernel, rfl, rfl⟩,
   ⟨5, 12, (hostReq true), { hostOut := [hostReq true] }, by decide +kernel⟩,
   ⟨0, 12, 1, hosted, by decide +kernel, by decide +kernel⟩,
   ⟨0, 0, { hosted with msixPend := Tbl.set [] false (vecKey 0 0) true }, by decide +kernel, by decide +kernel, by decide +kernel⟩,
   ⟨{}, hosted, by decide +kernel⟩,
   ⟨hosted, by decide +kernel, by decide +kernel, by decide +kernel, by decide +kernel⟩,
   ⟨{ vfOn := true }, by decide +kernel, by decide +kernel⟩,
   ⟨{ hosted with vfOn := true }, by decide +kernel, by decide +kernel⟩,
   ⟨hosted, _, by decide +kernel, rfl⟩,
   ⟨5, 16, hosted, by decide +kernel, by decide +kernel, by decide +kernel, by decide +kernel, by decide +kernel⟩,
   ⟨5, 16, { ((hosted).setFld Reg.SEC_STATE [] F.SEC_STATE_BOXROOM 1) with pilot := { phase := 3 } }, by decide +kernel, by decide +kernel, by decide +kernel, by decide +kernel, by decide +kernel⟩⟩

theorem test_CellarChannels_witness :
    (∃ (l : Nat) (s : State) (u : State), (s.isCellarLine l = true) ∧ (s.larderLine l = none) ∧ (s.fill l none = some u) ∧ (u.packageFailed (u.channelOf l / 4) = false)) ∧
    (∃ (l : Nat) (s : State) (u : State) (v : State), (s.isCellarLine l = true) ∧ (s.larderLine l = none) ∧ (s.fill l none = some u) ∧ (u.packageFailed (u.channelOf l / 4) = false) ∧ (v = ((u.setFld Reg.CEL_EVT [] F.CEL_EVT_RETRY 1).bump Reg.CEL_CH_CNT [u.channelOf l] F.CEL_CH_CNT_RETRY 2))) ∧
    (∃ (l : Nat) (s : State) (x : LarderLine), (s.isCellarLine l = true) ∧ (s.cellarWaits l = false) ∧ (s.lineBusy l = false) ∧ (s.larderLine l = some x) ∧ (x.dead = false) ∧ (x.st = 2)) ∧
    (∃ (c : ChanId) (_temp : Byte) (s : State), (s.chanState c = 2 ∨ s.chanState c = 3)) ∧
    (∃ (c : Nat) (s : State) (t : State), (s.hasCellar = true) ∧ (s.bit Reg.CEL_STAT [] F.CEL_STAT_RETRAINING = false) ∧ (s.cellarCtl.fold = none) ∧ (s.turnChannel = some c) ∧ (t = { s with cellarCtl := if s.cellarCtl.asked.contains c then { s.cellarCtl with asked := s.cellarCtl.asked.erase c } else { s.cellarCtl with turn := (c + 1) % 32 } })) ∧
    (∃ (c : Nat) (s : State) (t : State), (s.bit Reg.CEL_STAT [] F.CEL_STAT_RETRAINING = true) ∧ (c = s.fld Reg.CEL_STAT [] F.CEL_STAT_RETRAIN_CH) ∧ (t = { s with cellarCtl := { s.cellarCtl with fails := s.cellarCtl.fails.set 0 c 0 } })) ∧
    (∃ (c : Nat) (s : State) (t : State), (s.bit Reg.CEL_STAT [] F.CEL_STAT_RETRAINING = true) ∧ (c = s.fld Reg.CEL_STAT [] F.CEL_STAT_RETRAIN_CH) ∧ (s.cellarCtl.fails.get 0 c = 2) ∧ (t = { s with cellarCtl := { s.cellarCtl with fails := s.cellarCtl.fails.set 0 c 3 } })) :=
  ⟨⟨64, celledOn, _, by decide +kernel, by decide +kernel, someGet (by decide +kernel), by decide +kernel⟩,
   ⟨64, celledOn, _, _, by decide +kernel, by decide +kernel, someGet (by decide +kernel), by decide +kernel, rfl⟩,
   ⟨64, { (owned celledOn) with larder := [(64, some { st := 2 })] }, { st := 2 }, by decide +kernel, by decide +kernel, by decide +kernel, by decide +kernel, by decide +kernel, by decide +kernel⟩,
   ⟨0, 45, (celledOn.setFld Reg.CEL_CH_STAT [0] F.CEL_CH_STAT_STATE 2), by decide +kernel⟩,
   ⟨_, (celledOn.setFld Reg.CEL_CH_STAT [0] F.CEL_CH_STAT_STATE 2), _, by decide +kernel, by decide +kernel, by decide +kernel, someGet (by decide +kernel), rfl⟩,
   ⟨_, (celledOn.setFld Reg.CEL_STAT [] F.CEL_STAT_RETRAINING 1), _, by decide +kernel, rfl, rfl⟩,
   ⟨_, { (celledOn.setFld Reg.CEL_STAT [] F.CEL_STAT_RETRAINING 1) with cellarCtl := { fails := [(0, 2)] } }, _, by decide +kernel, rfl, by decide +kernel, rfl⟩⟩

theorem test_CellarCommands_witness :
    (∃ (w : Writer) (_c : ChanId) (s : State), (CellarReady s w)) ∧
    (∃ (w : Writer) (p : Fin 8) (s : State) (u : State), (CellarReady s w) ∧ (s.foldCode p = 0) ∧ (u = (s.wrote Reg.CEL_CMD [] (1 + 256 * p)).flushAll)) ∧
    (∃ (p : Nat) (s : State) (t : State), (s.cellarCtl.fold = some p) ∧ ((∀ q < 8, q ≠ p → s.packageFailed q = false)) ∧ (t = (s.foldCellar p (s.fld Reg.CEL_CAP [] F.CEL_CAP_PKG_GIB) (s.fld Reg.DEV_INV_DIE [] F.DEV_INV_DIE_CELLAR_PKG)).setFld Reg.CEL_STAT [] F.CEL_STAT_BUSY 0)) ∧
    (∃ (w : Writer) (block : Fin 262144) (i : Fin 64) (s : State) (t : State), (CellarReady s w) ∧ (s.blockOk block = true) ∧ (i.val ≤ 32) ∧ (t = s.wrote Reg.CEL_KEY_CMD [] (2 ^ 38 + 2 ^ 32 * i + block))) ∧
    (∃ (w : Writer) (block : Fin 262144) (s : State) (t : State), (CellarReady s w) ∧ (s.blockOk block = true) ∧ (t = s.wrote Reg.CEL_KEY_CMD [] (2 * 2 ^ 38 + block))) ∧
    (∃ (w : Writer) (i : Fin 64) (s : State) (t : State), (CellarReady s w) ∧ (i.val ≤ 32) ∧ (t = s.wrote Reg.CEL_KEY_CMD [] (3 * 2 ^ 38 + 2 ^ 32 * i))) ∧
    (∃ (w : Writer) (_p : Fin 8) (s : State), (isManager w = true) ∧ (s.hasCellar = false)) ∧
    (∃ (w : Writer) (_p : Fin 8) (s : State), (isManager w = true) ∧ (s.hasCellar = true) ∧ (s.bit Reg.CEL_STAT [] F.CEL_STAT_BUSY = true)) :=
  ⟨⟨(.fn 0), 0, celledOn, ⟨by decide +kernel, by decide +kernel, by decide +kernel⟩⟩,
   ⟨(.fn 0), 0, celledOn, _, ⟨by decide +kernel, by decide +kernel, by decide +kernel⟩, by decide +kernel, rfl⟩,
   ⟨0, { celledOn with cellarCtl := { fold := some 0 } }, _, by decide +kernel, by decide +kernel, rfl⟩,
   ⟨(.fn 0), 0, 0, celledOn, _, ⟨by decide +kernel, by decide +kernel, by decide +kernel⟩, by decide +kernel, by decide +kernel, rfl⟩,
   ⟨(.fn 0), 0, celledOn, _, ⟨by decide +kernel, by decide +kernel, by decide +kernel⟩, by decide +kernel, rfl⟩,
   ⟨(.fn 0), 0, celledOn, _, ⟨by decide +kernel, by decide +kernel, by decide +kernel⟩, by decide +kernel, rfl⟩,
   ⟨(.fn 0), 0, .reset, by decide +kernel, by decide +kernel⟩,
   ⟨(.fn 0), 0, (celledOn.setFld Reg.CEL_STAT [] F.CEL_STAT_BUSY 1), by decide +kernel, by decide +kernel, by decide +kernel⟩⟩

theorem test_ClockCommands_witness :
    (∃ (count : Nat) (s : State), (s.power.mode ≠ 2) ∧ (count < 10000 ∨ 16000 < count)) ∧
    (∃ (u : Fin 6) (p : Fin 5) (v : DWord) (new : DWord) (s : State) (t : State), (p.val < pllCount u) ∧ (p.val ∉ selected u (s.reg Reg.CLK_SEL [u])) ∧ (560 ≤ fieldOf v F.CLK_PLL_FBDIV.hi F.CLK_PLL_FBDIV.lo) ∧ (fieldOf v F.CLK_PLL_FBDIV.hi F.CLK_PLL_FBDIV.lo ≤ 1120) ∧ (fieldOf v F.CLK_PLL_POSTDIV.hi F.CLK_PLL_POSTDIV.lo ≠ 0) ∧ (new = [F.CLK_PLL_FRAC, F.CLK_PLL_POSTDIV, F.CLK_PLL_FBDIV, F.CLK_PLL_EN].foldl (fun x f => withField x f.hi f.lo (fieldOf v f.hi f.lo)) (s.reg Reg.CLK_PLL [u, p])) ∧ (t = (s.setReg Reg.CLK_PLL [u, p] new).setReady u p false)) ∧
    (∃ (u : Fin 6) (p : Fin 5) (s : State) (t : State) (c : Nat), (s.clocks.started.get none (8 * u.val + p.val) = some c) ∧ (4096 ≤ ((s.reg Reg.CLK_REFCNT [u]).toNat + 2 ^ 64 - c) % 2 ^ 64) ∧ (t = s.setReady u p true)) ∧
    (∃ (u : Fin 6) (v : DWord) (new : DWord) (s : State), ((∀ f ∈ selFields u, fieldOf v f.1.hi f.1.lo < f.2)) ∧ (new = (selFields u).foldl (fun x f => withField x f.1.hi f.1.lo (fieldOf v f.1.hi f.1.lo)) (s.reg Reg.CLK_SEL [u])) ∧ (new ≠ s.reg Reg.CLK_SEL [u]) ∧ ((∀ p ∈ selected u new, s.pllReady u p = true)) ∧ (s.bit Reg.CLK_STAT [u] F.CLK_STAT_SWITCHING = false)) ∧
    (∃ (w : Writer) (_u : Fin 6) (_v : DWord) (_s : State), (w ≠ .storekeeper)) ∧
    (∃ (u : Fin 6) (v : DWord) (p : Nat) (s : State), ((∀ f ∈ selFields u, fieldOf v f.1.hi f.1.lo < f.2)) ∧ (p ∈ selected u ((selFields u).foldl (fun x f => withField x f.1.hi f.1.lo (fieldOf v f.1.hi f.1.lo)) (s.reg Reg.CLK_SEL [u]))) ∧ (s.pllReady u p = false)) :=
  ⟨⟨9999, .reset, by decide +kernel, Or.inl (by decide)⟩,
   ⟨0, 0, (BitVec.ofNat 64 (1024 * 2 ^ F.CLK_PLL_FBDIV.lo + 2 ^ F.CLK_PLL_POSTDIV.lo)), _, (State.reset.setReg Reg.CLK_SEL [0] 0), _, by decide +kernel, by decide +kernel, by decide +kernel, by decide +kernel, by decide +kernel, rfl, rfl⟩,
   ⟨0, 0, { (State.reset.setReg Reg.CLK_REFCNT [0] 5000) with clocks := { started := [(0, some 7)] } }, _, 7, by decide +kernel, by decide +kernel, rfl⟩,
   ⟨0, 1, _, ((State.reset.setReg Reg.CLK_SEL [0] 0).setReady 0 0 true), by decide +kernel, rfl, by decide +kernel, by decide +kernel, by decide +kernel⟩,
   ⟨(.fn 0), 0, 1, .reset, by decide +kernel⟩,
   ⟨0, 1, 0, ((State.reset.setReg Reg.CLK_SEL [0] 0).setReady 0 0 false), by decide +kernel, by decide +kernel, by decide +kernel⟩⟩

theorem test_ThrottleAndHeat_witness :
    (∃ (_amps : List Nat) (s : State), (s.power.mode ≠ 2)) ∧
    (∃ (d : Fin 6) (tc : Byte) (tu : Byte) (s : State) (t : State), (s.power.mode ≠ 2) ∧ (s.sampleHeat d tc tu = (t, false))) ∧
    (∃ (d : Fin 6) (tc : Byte) (tu : Byte) (s : State) (t : State), (s.power.mode ≠ 2) ∧ (s.sampleHeat d tc tu = (t, true))) ∧
    (∃ (d : Fin 6) (tc : Byte) (tu : Byte) (s : State), (d.val < 4) ∧ (s.dieUp d = true) ∧ (105 ≤ tc.toNat) ∧ (tc ≠ 0xFF) ∧ (tc.toNat < 112) ∧ (tu.toNat < 93) ∧ (s.power.hard.get 0 d = 0)) ∧
    (∃ (acc : Rat) (_e : Rat) (_gain : Nat) (len : Nat), (0 < len) ∧ (0 ≤ acc) ∧ (acc ≤ 63)) :=
  ⟨⟨[], .reset, by decide +kernel⟩,
   ⟨0, 50, 50, .reset, _, by decide +kernel, cleanPair (by decide +kernel)⟩,
   ⟨4, 112, 50, { power := { ioHot := [(4, 1)] } }, _, by decide +kernel, rfl⟩,
   ⟨0, 105, 50, (State.reset.setDieState 0 2), by decide +kernel, by decide +kernel, by decide +kernel, by decide +kernel, by decide +kernel, by decide +kernel, by decide +kernel⟩,
   ⟨0, 0, 1, 1, by decide +kernel, by decide +kernel, by decide +kernel⟩⟩

theorem test_SleepAndPoints_witness :
    (∃ (g : ClusterId) (s : State), (s.power.mode = 0) ∧ (s.clusterUp g = true) ∧ (s.clState g = 0) ∧ (s.fld Reg.PWR_CL [g] F.PWR_CL_MODE ≠ 1) ∧ (s.fld Reg.PWR_GATE [] F.PWR_GATE_CG_DELAY_US ≠ 0) ∧ (s.clusterIdle g = true)) ∧
    (∃ (g : ClusterId) (s : State), (s.power.mode = 0) ∧ (s.clState g = 1) ∧ (s.fld Reg.PWR_CL [g] F.PWR_CL_MODE = 0) ∧ (s.fld Reg.PWR_GATE [] F.PWR_GATE_PG_DELAY_US ≠ 0) ∧ (s.clusterIdle g = true) ∧ (s.holdsWords g = false)) ∧
    (∃ (g : ClusterId) (s : State), (s.power.mode = 0) ∧ (s.clState g = 2) ∧ (s.wakeReq.getLsbD g = true)) ∧
    (∃ (g : ClusterId) (s : State), (s.clState g = 3)) ∧
    (∃ (s : State), (s.power.mode = 0) ∧ (2 ≤ s.pilot.phase)) ∧
    (∃ (d : DieId) (s : State) (t : State) (c : PointChange), (s.power.change.get none d = some c) ∧ (c.raising = true) ∧ (t = (s.endChange d).setFld Reg.PWR_DIE_STAT [d] F.PWR_DIE_STAT_VDD_MV (s.pointVdd c.point)) ∧ (t.bit Reg.PWR_DIE_STAT [d] F.PWR_DIE_STAT_HARD = false)) ∧
    (∃ (d : DieId) (s : State) (c : PointChange), (s.power.change.get none d = some c) ∧ (c.raising = false)) ∧
    (∃ (d : DieId) (s : State) (c : PointChange), (s.power.change.get none d = some c)) :=
  ⟨⟨0, ({ regs := [(24, 1)] } : State), by decide +kernel, by decide +kernel, by decide +kernel, by decide +kernel, by decide +kernel, by decide +kernel⟩,
   ⟨0, (({ regs := [(24, 1)] } : State).setFld Reg.PWR_CL [0] F.PWR_CL_STATE 1), by decide +kernel, by decide +kernel, by decide +kernel, by decide +kernel, by decide +kernel, by decide +kernel⟩,
   ⟨0, { (State.reset.setFld Reg.PWR_CL [0] F.PWR_CL_STATE 2) with wakeReq := 1 }, by decide +kernel, by decide +kernel, by decide +kernel⟩,
   ⟨0, (State.reset.setFld Reg.PWR_CL [0] F.PWR_CL_STATE 3), by decide +kernel⟩,
   ⟨{ pilot := { phase := 3 } }, by decide +kernel, by decide +kernel⟩,
   ⟨0, { power := { change := [(0, some ⟨1, 0, true⟩)] } }, _, ⟨1, 0, true⟩, by decide +kernel, by decide +kernel, rfl, by decide +kernel⟩,
   ⟨0, { power := { change := [(0, some ⟨1, 2, false⟩)] } }, ⟨1, 2, false⟩, by decide +kernel, by decide +kernel⟩,
   ⟨0, { power := { change := [(0, some ⟨1, 2, false⟩)] } }, ⟨1, 2, false⟩, by decide +kernel⟩⟩

theorem test_PowerStates_witness :
    (∃ (_r : Fin 13) (_mv : BitVec 16) (s : State), (s.power.mode ≠ 2)) ∧
    (∃ (_r : Fin 13) (s : State), (s.power.mode ≠ 2)) ∧
    (∃ (_r : Fin 13) (s : State), (s.power.mode ≠ 2) ∧ (2 ≤ s.pilot.phase)) ∧
    (∃ (s : State), (s.hostUp = true) ∧ (s.power.mode = 1) ∧ (s.power.d3hot = false) ∧ (s.pilot.phase = 3) ∧ (s.bit Reg.SEC_STATE [] F.SEC_STATE_BOXROOM = false)) ∧
    (∃ (s : State), (s.hostUp = true) ∧ (s.power.mode = 0) ∧ (s.power.d3hot = false) ∧ (s.pilot.phase = 3) ∧ (s.bit Reg.SEC_STATE [] F.SEC_STATE_BOXROOM = false) ∧ ((∀ b < 64, s.bit Reg.BAY_CFG [b] F.BAY_CFG_EN = false))) ∧
    (∃ (s : State), (s.hostUp = true) ∧ (s.power.mode = 0) ∧ (s.pilot.phase = 3) ∧ (s.bit Reg.SEC_STATE [] F.SEC_STATE_BOXROOM = false) ∧ ((∀ e ∈ s.bays, e.2.on = false))) ∧
    (∃ (s : State), (s.power.mode = 1)) ∧
    (∃ (s : State), (s.power.mode ≠ 2) ∧ (2 ≤ s.pilot.phase)) ∧
    (∃ (s : State), (s.bit Reg.CHU_SPAN [] F.CHU_SPAN_EN = false)) ∧
    (∃ (r : Nat) (a : Nat), (r ≤ a)) :=
  ⟨⟨0, 700, .reset, by decide +kernel⟩,
   ⟨0, .reset, by decide +kernel⟩,
   ⟨0, { pilot := { phase := 3 } }, by decide +kernel, by decide +kernel⟩,
   ⟨{ hosted with power := { mode := 1 } }, by decide +kernel, by decide +kernel, by decide +kernel, by decide +kernel, by decide +kernel⟩,
   ⟨hosted, by decide +kernel, by decide +kernel, by decide +kernel, by decide +kernel, by decide +kernel, by decide +kernel⟩,
   ⟨hosted, by decide +kernel, by decide +kernel, by decide +kernel, by decide +kernel, by decide +kernel⟩,
   ⟨{ power := { mode := 1 } }, by decide +kernel⟩,
   ⟨{ pilot := { phase := 3 } }, by decide +kernel, by decide +kernel⟩,
   ⟨.reset, by decide +kernel⟩,
   ⟨1, 2, by decide +kernel⟩⟩

theorem test_Starts_witness :
    (∃ (x : Bringup) (s : State) (k : Nat) (v : Nat) (m : BitVec 512), (s.pilot.phase = 1) ∧ (s.pilot.enabling = none) ∧ (s.pilot.uncounted = false) ∧ (s.pilot.perst = false) ∧ (s.pilot.extest = false) ∧ (s.pilot.fails < 3) ∧ (s.pilot.rpmc0 - (if x.goodReads then s.pilot.good else 0) < 3) ∧ (x.flashOk = true) ∧ (x.pufOk = true) ∧ (s.chooseImage x = some (k, v, m)) ∧ (x.fatal = 0) ∧ (x.dies &&& x.undercrofts ≠ 0)) ∧
    (∃ (x : Bringup) (s : State), (s.pilot.phase = 1) ∧ (s.pilot.enabling = none) ∧ (s.pilot.uncounted = false) ∧ (3 ≤ max s.pilot.fails (s.pilot.rpmc0 - (if x.goodReads then s.pilot.good else 0)))) ∧
    (∃ (x : Bringup) (s : State), (s.pilot.phase = 1) ∧ (s.pilot.enabling = none) ∧ (s.pilot.uncounted = false) ∧ (s.pilot.fails < 3) ∧ (s.pilot.rpmc0 - (if x.goodReads then s.pilot.good else 0) < 3) ∧ (x.flashOk = true) ∧ (x.pufOk = true) ∧ (s.chooseImage x = none)) ∧
    (∃ (x : Bringup) (s : State) (u : State), (2 ≤ s.pilot.phase) ∧ (s.countStart x.goodReads = (u, false)) ∧ (x.fatal = 0) ∧ (x.dies &&& x.undercrofts ≠ 0)) ∧
    (∃ (_stage : Nat) (_detail : Nat) (s : State), (s.pilot.phase = 1 ∨ s.pilot.phase = 2)) ∧
    (∃ (s : State), (s.power.mode ≠ 2) ∧ (s.pilot.pwrok = true) ∧ (s.pilot.extest = false)) ∧
    (∃ (s : State), (s.pilot.extest = true)) :=
  ⟨⟨{ dies := 1, undercrofts := 1 }, .reset, _, _, _, by decide +kernel, by decide +kernel, by decide +kernel, by decide +kernel, by decide +kernel, by decide +kernel, by decide +kernel, by decide +kernel, by decide +kernel, rfl, by decide +kernel, by decide +kernel⟩,
   ⟨{}, { pilot := { fails := 3 } }, by decide +kernel, by decide +kernel, by decide +kernel, by decide +kernel⟩,
   ⟨{ images := 0 }, .reset, by decide +kernel, by decide +kernel, by decide +kernel, by decide +kernel, by decide +kernel, by decide +kernel, by decide +kernel, by decide +kernel⟩,
   ⟨{ dies := 1, undercrofts := 1 }, { pilot := { phase := 2 } }, _, by decide +kernel, cleanPair (by decide +kernel), by decide +kernel, by decide +kernel⟩,
   ⟨3, 7, .reset, Or.inl (by decide +kernel)⟩,
   ⟨.reset, by decide +kernel, by decide +kernel, by decide +kernel⟩,
   ⟨{ pilot := { extest := true } }, by decide +kernel⟩⟩

theorem test_BoardPins_witness :
    (∃ (s : State), (s.pilot.pwrok = false) ∧ (s.pilot.perst = false) ∧ (s.pilot.extest = false)) ∧
    (∃ (s : State), (s.pilot.pwrok = true)) ∧
    (∃ (s : State), (s.pilot.perst = false) ∧ (s.pilot.pwrok = true) ∧ (s.power.mode ≠ 2)) ∧
    (∃ (s : State), (s.pilot.perst = true) ∧ (s.pilot.pwrok = true) ∧ (s.pilot.extest = false) ∧ (s.power.mode ≠ 2)) ∧
    (∃ (s : State), (s.pilot.perst = true) ∧ (s.pilot.pwrok = true) ∧ (s.pilot.extest = false) ∧ (s.power.mode = 2)) ∧
    (∃ (g : Fin 5) (h : Nat) (s : State), (s.pilot.enables.getLsbD g = true) ∧ (s.pilot.enabling = some g.val) ∧ (s.pilot.nextGroup g = some h) ∧ (h < 5)) ∧
    (∃ (s : State), (s.pilot.enables.getLsbD 4 = true) ∧ (s.pilot.enabling = some 4)) ∧
    (∃ (_stage : Nat) (g : Nat) (s : State), (s.pilot.enabling = some g) ∧ (s.pilot.uncounted = false) ∧ (s.pilot.warm = false)) ∧
    (∃ (g : Fin 5) (_stage : Nat) (s : State), (s.pilot.pg.getLsbD g = true) ∧ (s.pilot.enabling = none) ∧ (s.pilot.dropping ≠ some g.val)) ∧
    (∃ (g : Nat) (_stage : Nat) (s : State) (_hg : g + 1 < 5), (s.pilot.pg.getLsbD (g + 1) = true) ∧ (s.pilot.enabling = none) ∧ (s.pilot.dropping = some (g + 1))) ∧
    (∃ (g : Nat) (s : State), (g < 4) ∧ (s.pilot.dropping = some (g + 1))) :=
  ⟨⟨{ pilot := { pwrok := false } }, by decide +kernel, by decide +kernel, by decide +kernel⟩,
   ⟨.reset, by decide +kernel⟩,
   ⟨.reset, by decide +kernel, by decide +kernel, by decide +kernel⟩,
   ⟨{ pilot := { perst := true } }, by decide +kernel, by decide +kernel, by decide +kernel, by decide +kernel⟩,
   ⟨{ pilot := { perst := true }, power := { mode := 2 } }, by decide +kernel, by decide +kernel, by decide +kernel, by decide +kernel⟩,
   ⟨0, 1, { pilot := { enables := 1, pg := 0, enabling := some 0 } }, by decide +kernel, by decide +kernel, by decide +kernel, by decide +kernel⟩,
   ⟨{ pilot := { enables := 0x1F, pg := 15, enabling := some 4 } }, by decide +kernel, by decide +kernel⟩,
   ⟨2, 1, { pilot := { enables := 3, pg := 1, enabling := some 1 } }, by decide +kernel, by decide +kernel, by decide +kernel⟩,
   ⟨0, 2, .reset, by decide +kernel, by decide +kernel, by decide +kernel⟩,
   ⟨3, 2, { pilot := { enables := 15, dropping := some 4 } }, (by decide), by decide +kernel, by decide +kernel, by decide +kernel⟩,
   ⟨3, { pilot := { enables := 15, dropping := some 4 } }, by decide +kernel, by decide +kernel⟩⟩

theorem test_SecurityCommands_witness :
    (∃ (w : Writer) (s : State) (u : State) (k : Nat), (isManager w = true) ∧ ((s.keepPilot (s.wrote Reg.SEC_CMD [] 1)).draw = (k, u))) ∧
    (∃ (w : Writer) (vendorSig : Bool) (ownerSig : Bool) (s : State) (t : State) (u : State) (a : Nat), (isManager w = true) ∧ (t = s.keepPilot (s.wrote Reg.SEC_CMD [] 2)) ∧ (a = t.fld Reg.SEC_TOKEN_ADDR [] F.SEC_TOKEN_ADDR_ADDR) ∧ (t.tokenResult false vendorSig ownerSig = 0) ∧ (u = t.keepPilot ((t.setNonce 0 false).setFld Reg.SEC_CMD_STAT [] F.SEC_CMD_STAT_RESULT 0))) ∧
    (∃ (w : Writer) (s : State) (t : State), (isManager w = true) ∧ (s.inBoxroom = false) ∧ (t = s.keepPilot (s.wrote Reg.SEC_CMD [] 3))) ∧
    (∃ (w : Writer) (s : State), (isManager w = true) ∧ (s.inBoxroom = false) ∧ (s.pilot.lifeCycle = 1)) ∧
    (∃ (w : Writer) (s : State), (isManager w = true) ∧ (s.inBoxroom = true)) ∧
    (∃ (w : Writer) (s : State) (u : State) (a : Nat) (n : Nat), (isManager w = true) ∧ (s.inBoxroom = true) ∧ (u = s.keepPilot (s.wrote Reg.SEC_CMD [] 6)) ∧ (a = u.fld Reg.SEC_TOKEN_ADDR [] F.SEC_TOKEN_ADDR_ADDR) ∧ (n = u.fld Reg.SEC_TOKEN_LEN [] F.SEC_TOKEN_LEN_LEN) ∧ (u.unreadable a n = false) ∧ (u.peekNat a 4 = 0x4B53564F) ∧ (u.peekNat (a + 8) 4 ≤ 14680064) ∧ (n = 128 + u.peekNat (a + 8) 4 + 29792) ∧ (s.pilot.svnMin ≤ u.peekNat (a + 4) 2)) ∧
    (∃ (c : Instr) (w : Writer) (s : State), (c ∈ [Instr.debugClose w, .commitSvn w]) ∧ (isManager w = true) ∧ (s.inBoxroom = true)) :=
  ⟨⟨(.fn 0), .reset, _, _, by decide +kernel, pairEta _⟩,
   ⟨(.fn 0), true, false, tokened, _, _, _, by decide +kernel, rfl, rfl, (by have hu : tokenedIn.unreadable (tokenedIn.fld Reg.SEC_TOKEN_ADDR [] F.SEC_TOKEN_ADDR_ADDR) tokenLen = false := hostReadable (by decide +kernel) (by decide +kernel) (by decide +kernel) (by decide +kernel); show tokenedIn.tokenResult false true false = 0; simp only [State.tokenResult, hu]; decide +kernel), rfl⟩,
   ⟨(.fn 0), .reset, _, by decide +kernel, by decide +kernel, rfl⟩,
   ⟨(.fn 0), { pilot := { lifeCycle := 1 } }, by decide +kernel, by decide +kernel, by decide +kernel⟩,
   ⟨(.fn 0), (State.reset.setFld Reg.SEC_STATE [] F.SEC_STATE_BOXROOM 1), by decide +kernel, by decide +kernel⟩,
   ⟨(.fn 0), imaged, imagedIn, 0x8000000000000, 29920, by decide +kernel, by decide +kernel, by decide +kernel, by decide +kernel, by decide +kernel, hostReadable (by decide +kernel) (by decide +kernel) (by decide) (by decide), by decide +kernel, by decide +kernel, by decide +kernel, by decide +kernel⟩,
   ⟨(.debugClose (.fn 0)), (.fn 0), (State.reset.setFld Reg.SEC_STATE [] F.SEC_STATE_BOXROOM 1), by decide +kernel, by decide +kernel, by decide +kernel⟩⟩

theorem test_SpdmMessages_witness :
    (∃ (f : InstId) (s : State), (Mailbox s f)) ∧
    (∃ (f : InstId) (s : State), (Mailbox s f) ∧ (1 ≤ (s.spdmOf f).stage)) ∧
    (∃ (f : InstId) (s : State), (Mailbox s f) ∧ (2 ≤ (s.spdmOf f).stage)) ∧
    (∃ (c : Instr) (code : Nat) (f : InstId) (s : State), ((c, code) ∈ [(Instr.getDigests f, 0x01), (.getCertificate f, 0x02), (.challenge f, 0x03), (.chunkGet f, 0x06)]) ∧ (Mailbox s f) ∧ (3 ≤ (s.spdmOf f).stage)) ∧
    (∃ (f : InstId) (index : Fin 256) (s : State) (b : Nat), (Mailbox s f) ∧ (3 ≤ (s.spdmOf f).stage) ∧ (index.val ≠ 0) ∧ (index.val ≠ 0xFF) ∧ (s.block f index = some b)) ∧
    (∃ (f : InstId) (s : State) (x : Spdm), (Mailbox s f) ∧ (x = s.spdmOf f) ∧ (3 ≤ x.stage) ∧ (x.session = 0)) ∧
    (∃ (f : InstId) (s : State) (x : Spdm), (Mailbox s f) ∧ (x = s.spdmOf f) ∧ (x.session = 1)) ∧
    (∃ (f : InstId) (s : State), (Mailbox s f) ∧ ((s.spdmOf f).session = 2)) ∧
    (∃ (f : InstId) (s : State) (x : Spdm), (Mailbox s f) ∧ (x = s.spdmOf f) ∧ (x.session = 2)) ∧
    (∃ (f : InstId) (s : State) (x : Spdm), (Mailbox s f) ∧ (x = s.spdmOf f) ∧ (x.session = 2)) ∧
    (∃ (f : InstId) (chunk : List Byte) (s : State) (x : Spdm), (Mailbox s f) ∧ (x = s.spdmOf f) ∧ (3 ≤ x.stage) ∧ (chunk.length ≤ 4096) ∧ ((x.chunks.map List.length).foldl (· + ·) chunk.length ≤ 65536)) ∧
    (∃ (f : InstId) (s : State) (x : Spdm), (Mailbox s f) ∧ (x = s.spdmOf f) ∧ (3 ≤ x.stage) ∧ (x.session ≠ 0)) ∧
    (∃ (v : VfId) (_x : BitVec 256) (s : State), (Mailbox s v.succ) ∧ ((s.spdmOf v.succ).session = 2)) ∧
    (∃ (f : InstId) (s : State), (Mailbox s f) ∧ ((s.spdmOf f).session = 2)) ∧
    (∃ (v : VfId) (s : State), (Mailbox s v.succ) ∧ ((s.spdmOf v.succ).session = 2) ∧ (s.tdi (v + 1) = 0) ∧ (s.lockRefused (v + 1) = false)) ∧
    (∃ (v : VfId) (s : State), (Mailbox s v.succ) ∧ ((s.spdmOf v.succ).session = 2) ∧ (s.tdi (v + 1) = 1)) ∧
    (∃ (v : VfId) (s : State) (t : State), (Mailbox s v.succ) ∧ ((s.spdmOf v.succ).session = 2) ∧ (s.inst (v + 1) ≠ 0) ∧ (t = s.abortReset (v + 1) (if s.flr.get 0 (v + 1) = 1 then 1 else 2))) ∧
    (∃ (v : VfId) (s : State), (Mailbox s v.succ) ∧ ((s.spdmOf v.succ).session = 2) ∧ (s.tdi (v + 1) = 1 ∨ s.tdi (v + 1) = 2)) ∧
    (∃ (v : VfId) (s : State), (Mailbox s v.succ) ∧ ((s.spdmOf v.succ).session = 2) ∧ (s.pilot.lifeCycle ≠ 1)) :=
  ⟨⟨0, hosted, ⟨by decide +kernel, by decide +kernel, by decide +kernel⟩⟩,
   ⟨0, { hosted with spdm := [(0, { stage := 1 })] }, ⟨by decide +kernel, by decide +kernel, by decide +kernel⟩, by decide +kernel⟩,
   ⟨0, { hosted with spdm := [(0, { stage := 2 })] }, ⟨by decide +kernel, by decide +kernel, by decide +kernel⟩, by decide +kernel⟩,
   ⟨(.getDigests 0), 1, 0, { hosted with spdm := [(0, { stage := 3 })] }, by decide +kernel, ⟨by decide +kernel, by decide +kernel, by decide +kernel⟩, by decide +kernel⟩,
   ⟨0, 1, { hosted with spdm := [(0, { stage := 3 })] }, _, ⟨by decide +kernel, by decide +kernel, by decide +kernel⟩, by decide +kernel, by decide +kernel, by decide +kernel, rfl⟩,
   ⟨0, { hosted with spdm := [(0, { stage := 3 })] }, _, ⟨by decide +kernel, by decide +kernel, by decide +kernel⟩, rfl, by decide +kernel, by decide +kernel⟩,
   ⟨0, { hosted with spdm := [(0, { stage := 3, session := 1 })] }, _, ⟨by decide +kernel, by decide +kernel, by decide +kernel⟩, rfl, by decide +kernel⟩,
   ⟨0, { hosted with spdm := [(0, { stage := 3, session := 2 })] }, ⟨by decide +kernel, by decide +kernel, by decide +kernel⟩, by decide +kernel⟩,
   ⟨0, { hosted with spdm := [(0, { stage := 3, session := 2 })] }, _, ⟨by decide +kernel, by decide +kernel, by decide +kernel⟩, rfl, by decide +kernel⟩,
   ⟨0, { hosted with spdm := [(0, { stage := 3, session := 2 })] }, _, ⟨by decide +kernel, by decide +kernel, by decide +kernel⟩, rfl, by decide +kernel⟩,
   ⟨0, [1], { hosted with spdm := [(0, { stage := 3 })] }, _, ⟨by decide +kernel, by decide +kernel, by decide +kernel⟩, rfl, by decide +kernel, by decide +kernel, by decide +kernel⟩,
   ⟨0, { hosted with spdm := [(0, { stage := 3, session := 1 })] }, _, ⟨by decide +kernel, by decide +kernel, by decide +kernel⟩, rfl, by decide +kernel, by decide +kernel⟩,
   ⟨0, 5, inSess, ⟨by decide +kernel, by decide +kernel, by decide +kernel⟩, by decide +kernel⟩,
   ⟨1, inSess, ⟨by decide +kernel, by decide +kernel, by decide +kernel⟩, by decide +kernel⟩,
   ⟨0, { instIn 1 inSess with pilot := { phase := 3, lifeCycle := 1 } }, ⟨by decide +kernel, by decide +kernel, by decide +kernel⟩, by decide +kernel, by decide +kernel, by decide +kernel⟩,
   ⟨0, (inSess.setFld Reg.HST_TDI_STAT [1] F.HST_TDI_STAT_STATE 1), ⟨by decide +kernel, by decide +kernel, by decide +kernel⟩, by decide +kernel, by decide +kernel⟩,
   ⟨0, (instIn 1 inSess), _, ⟨by decide +kernel, by decide +kernel, by decide +kernel⟩, by decide +kernel, by decide +kernel, rfl⟩,
   ⟨0, (inSess.setFld Reg.HST_TDI_STAT [1] F.HST_TDI_STAT_STATE 1), ⟨by decide +kernel, by decide +kernel, by decide +kernel⟩, by decide +kernel, Or.inl (by decide +kernel)⟩,
   ⟨0, inSess, ⟨by decide +kernel, by decide +kernel, by decide +kernel⟩, by decide +kernel, by decide +kernel⟩⟩

theorem test_Retirement_witness :
    (∃ (_ways : List WayCount) (s : State), (s.fld Reg.ERR_THR [] F.ERR_THR_ENGINE = 0) ∧ (s.fld Reg.ERR_THR [] F.ERR_THR_CUPBOARD = 0) ∧ (s.fld Reg.ERR_THR [] F.ERR_THR_LARDER = 0)) ∧
    (∃ (w : WayCount) (s : State), (w.unit.val < 64) ∧ (s.overThreshold F.ERR_THR_LARDER w.count = true) ∧ (s.replays = [])) ∧
    (∃ (u : Fin 128) (st : Nat) (way : Nat) (s : State), (u.val < 64) ∧ (s.larderCtl.deleting.find? (fun e => e.1 == u.val && e.2.1 == st) = some (u.val, st, way)) ∧ (s.mayLeave u st way = true) ∧ (s.pilot.deletions.length < 4096)) :=
  ⟨⟨[], (State.reset.setReg Reg.ERR_THR [] 0), by decide +kernel, by decide +kernel, by decide +kernel⟩,
   ⟨⟨0, 0, 0, 5⟩, (State.reset.setFld Reg.ERR_THR [] F.ERR_THR_LARDER 1), by decide +kernel, by decide +kernel, by decide +kernel⟩,
   ⟨0, 0, 0, (owned { larderCtl := { deleting := [(0, 0, 0)] } }), by decide +kernel, by decide +kernel, by decide +kernel, by decide +kernel⟩⟩

theorem test_StepTakesTheFrontCommand_witness :
    (∃ (s : State), (s.pending = [])) :=
  ⟨.reset, by decide +kernel⟩

theorem test_PilotStaysLegal_witness :
    (∃ (s : State) (t : State), (s.pilot.Ok) ∧ (step s = .next t)) :=
  ⟨{ pending := [.extestExit] }, _, (by unfold Pilot.Ok; decide +kernel), rfl⟩

theorem test_FlashCountersNeverDecrease_witness :
    (∃ (s : State) (t : State), (step s = .next t)) :=
  ⟨{ pending := [.extestExit] }, _, rfl⟩

theorem test_QueueLeftAlone_witness :
    (∃ (c : Instr) (s : State) (t : State), (exec c s = .next t)) ∧
    (∃ (s : State), (s.pending = [])) :=
  ⟨⟨.extestExit, .reset, _, rfl⟩,
   ⟨.reset, by decide +kernel⟩⟩

theorem test_LemgusSEncoding_witness :
    (∃ (i : SInstr), (i.legal = true)) ∧
    (∃ (i : SInstr), (i.legal = false)) :=
  ⟨⟨(.wait 1 0 0 2 5), by decide +kernel⟩,
   ⟨(.fence 0 0 0), by decide +kernel⟩⟩

theorem test_MemoryWrites_witness :
    (∃ (_s : State) (a : Nat) (c : Nat) (bs : List Byte), (c < a ∨ a + bs.length ≤ c)) ∧
    (∃ (s : State) (_a : Nat) (_bs : List Byte), (Memory.wf s.mem = true)) ∧
    (∃ (_s : State) (n : Nat) (m : Nat) (off : Nat) (bs : List Byte) (_p : Bool) (k : Nat), (n < 512) ∧ (m < 512) ∧ (off + bs.length ≤ pantrySize) ∧ (k < pantrySize)) ∧
    (∃ (s : State) (_n : Nat) (_off : Nat) (_bs : List Byte) (_p : Bool), (Memory.wf s.mem = true)) :=
  ⟨⟨.reset, 4, 3, [1, 2], Or.inl (by decide)⟩,
   ⟨.reset, 4, [1, 2], by decide +kernel⟩,
   ⟨.reset, 0, 1, 4, [1, 2], true, 4, by decide +kernel, by decide +kernel, by decide +kernel, by decide +kernel⟩,
   ⟨.reset, 0, 4, [1, 2], true, by decide +kernel⟩⟩

theorem test_ErrorRecords_witness :
    (∃ (s : State) (_r : ErrRec) (seq : Nat) (k : Nat), (seq = s.fld Reg.ERR_PROD [] F.ERR_PROD_PROD) ∧ (k < 8)) ∧
    (∃ (s : State) (_r : ErrRec), (1024 ≤ (s.fld Reg.ERR_PROD [] F.ERR_PROD_PROD + 2 ^ 32 - s.fld Reg.ERR_CONS [] F.ERR_CONS_CONS) % 2 ^ 32)) ∧
    (∃ (_s : State) (r : ErrRec) (k : Nat), (r.cls = .fatal) ∧ (k < 8)) ∧
    (∃ (s : State) (t : State) (r : ErrRec), (t = s.log r)) :=
  ⟨⟨.reset, { kind := 0x15, index := 8, cls := .corrected }, _, 7, rfl, by decide +kernel⟩,
   ⟨(State.reset.setFld Reg.ERR_PROD [] F.ERR_PROD_PROD 1024), { kind := 0x15, index := 8, cls := .corrected }, by decide +kernel⟩,
   ⟨.reset, { kind := 0x15, index := 8, cls := .fatal }, 7, by decide +kernel, by decide +kernel⟩,
   ⟨.reset, _, { kind := 0x15, index := 8, cls := .corrected }, rfl⟩⟩

theorem test_TallyReached_witness :
    (∃ (n : CoreId) (s : State) (tally : BitVec 12) (x : BitVec 4) (set : BitVec 1) (scope : BitVec 3) (imm : Word), (HeldS s n .wait (.wait tally x set scope imm))) ∧
    (∃ (n : CoreId) (g : SlotId) (s : State) (i : Nat) (scope : Nat) (target : Word), ((s.group n g).status = .waitTally i target scope)) :=
  ⟨⟨0, (onSeq (seqAt (.wait 5 0 0 2 0)) (fun x => { x with hold := .wait })), 5, 0, 0, 2, 0, ⟨by decide +kernel, fetchedS (by decide +kernel)⟩⟩,
   ⟨0, 0, (onGrp bay (fun x => { x with status := .waitTally 5 0 2 })), 5, 2, 0, by decide +kernel⟩⟩

theorem test_BayEventsRaiseOnce_witness :
    (∃ (_s : State) (_b : BayId) (bits : Nat) (k : Nat), (bits < 256) ∧ (k < 8)) ∧
    (∃ (s : State) (b : BayId) (bits : Nat) (k : Nat), (bits < 256) ∧ (k < 8) ∧ (bits.testBit k = true) ∧ (s.fld Reg.BAY_EVT [b] ⟨k, k⟩ = 0) ∧ ((s.fld Reg.BAY_EVT_EN [b] F.BAY_EVT_EN_EN).testBit k = true)) ∧
    (∃ (s : State) (b : BayId) (bits : Nat), (bits < 256) ∧ ((∀ k < 8, bits.testBit k = true → s.fld Reg.BAY_EVT [b] ⟨k, k⟩ = 1 ∨ (s.fld Reg.BAY_EVT_EN [b] F.BAY_EVT_EN_EN).testBit k = false))) :=
  ⟨⟨.reset, 0, 255, 7, by decide +kernel, by decide +kernel⟩,
   ⟨(State.reset.setReg Reg.BAY_EVT_EN [0] 255), 0, 1, 0, by decide +kernel, by decide +kernel, by decide +kernel, by decide +kernel, by decide +kernel⟩,
   ⟨(State.reset.setReg Reg.BAY_EVT_EN [0] 0), 0, 255, by decide +kernel, (fun k hk _ => Or.inr (by revert k; decide +kernel))⟩⟩

theorem test_GroupArithmeticFrame_witness :
    (∃ (c : Instr) (n : CoreId) (g : SlotId) (m : Fin 3) (s : State) (t : State), (c ∈ [Instr.vectorFpOp n g m, .vectorIntOp n g m, .vectorImmOp n g m, .specialFunction n g m, .vectorCompare n g, .predicateLogic n g, .s2p n g, .p2s n g, .scalarOp n g, .shfl n g, .shflx n g, .shflu n g, .shfld n g, .bcast n g, .v2s n g, .s2v n g, .any n g, .all n g, .ballot n g, .radd n g m, .rmin n g, .rmax n g, .pk n g m, .unpk n g m]) ∧ (exec c s = .next t)) :=
  ⟨(.vectorIntOp 0 0 0), 0, 0, 0, .reset, _, by decide +kernel, rfl⟩

end
end Sys2Proof.Tests
end

section
/-! PROOFS. The register block (00_scope.md): what a write and a read do by the kind of register and the path (R3-R6, R267, R311, R382), and what registers hold after
reset (R7). -/
namespace Sys2Proof.Machine

/-! ### A register write by field and by kind of register -/

/-- With no field left out for a reserved value: the RW bits of `v` over `old`, less the ones that `v` has at RW1C bits (R5). -/
theorem RegSpec.getLsbD_written_nil (r : RegSpec) (old v : DWord) {k : Nat} (hk : k < 64) :
    (r.written old v []).getLsbD k =
      ((old.getLsbD k && !r.rwMask.testBit k || v.getLsbD k && r.rwMask.testBit k) && !(r.w1cMask.testBit k && v.getLsbD k)) := by
  rw [Bool.and_comm (r.w1cMask.testBit k)]
  simp only [RegSpec.written, List.foldl_nil, BitVec.getLsbD_and, BitVec.getLsbD_or, BitVec.getLsbD_not, BitVec.getLsbD_ofNat, hk, decide_true, Bool.true_and]

section
variable {s t : State} {w : Writer} {off : Nat} {v : DWord} {r : RegSpec} {is : List Nat}

theorem Reaches.not_ringWord (h : Reaches s w off) : isRingWord off = false := by
  obtain ⟨-, -, -, -, hring, -⟩ := h
  exact hring

/-- A 64-bit write by someone who reaches the offset passes every gate of R4, R252 and R372, to the unit that the offset names. -/
theorem State.regWrite_of_reaches (h : Reaches s w off) : s.regWrite w off 8 v = s.keepPilot (s.writeUnit w off v) := by
  obtain ⟨hbox, hopen, halign, hsec, -, hown⟩ := h
  simp only [State.regWrite, State.writeAt, hbox, hopen, halign, hsec, if_false, Bool.false_eq_true, false_and, not_true_eq_false, or_self, ne_eq]
  cases ht : tenantOf w with
  | none => rfl
  | some i => simp only [hown i ht, if_true]

theorem exec_regWrite_of_reaches (h : Reaches s w off) : exec (.regWrite w off 8 v) s = .next (s.keepPilot (s.writeUnit w off v)) :=
  congrArg Host.Outcome.next (State.regWrite_of_reaches h)

/-- SEC_CMD lies in the block that Boxroom mode leaves open (R372): its write commands the Pilot in every mode. -/
theorem State.regWrite_secCmd (hten : tenantOf w = none) (hopen : s.closedFor w = false) : s.regWrite w Reg.SEC_CMD.base 8 v = s.secWrite w v := by
  have hbox : boxroomReads Reg.SEC_CMD.base = true := by decide
  have halign : Reg.SEC_CMD.base % 8 = 0 := by decide
  simp [State.regWrite, State.writeAt, hopen, hten, hbox, halign]

theorem State.writeUnit_window (hring : isRingWord off = false) (hf : findReg off = some (r, is)) (ho : 0x10000000 ≤ off) :
    s.writeUnit w off v = s.windowWrite w off r is v := by
  simp only [State.writeUnit, hring, hf, ho, if_true, if_false, Bool.false_eq_true]

theorem State.writeUnit_hatch (hring : isRingWord off = false) (hf : findReg off = some (r, is)) (hlo : 0x2000000 ≤ off) (hhi : off < 0x3000000) :
    s.writeUnit w off v = s.hatchWrite w r is v := by
  have ho : ¬ 0x10000000 ≤ off := by omega
  simp only [State.writeUnit, hring, hf, ho, hlo, hhi, and_self, if_true, if_false, Bool.false_eq_true]

theorem State.writeUnit_special (hring : isRingWord off = false) (hf : findReg off = some (r, is)) (hwin : off < 0x10000000)
    (hhat : ¬ (0x2000000 ≤ off ∧ off < 0x3000000)) (hs : s.specialWrite w off r is v = some t) : s.writeUnit w off v = t := by
  simp only [State.writeUnit, hring, hf, Nat.not_le.mpr hwin, hhat, hs, if_false, Bool.false_eq_true]

theorem State.writeUnit_noReg (hring : isRingWord off = false) (hf : findReg off = none) (ha : aliasOf off = none) (hwin : windowOf off = none) :
    s.writeUnit w off v = s.refuse w off causeNoReg := by
  simp only [State.writeUnit, hring, hf, ha, hwin, if_false, Bool.false_eq_true, Option.isSome_none]

/-- At a plain register the writer and the access types alone decide: the range registers of the inst., then the manager's. -/
theorem State.writeUnit_plain (hring : isRingWord off = false) (hp : Plain s w off r is v) :
    s.writeUnit w off v =
      if (r.base = Reg.LRD_RNG_ADDR.base ∨ r.base = Reg.LRD_RNG_LEN.base) ∧ mayRange w (is.headD 0) then s.plainWrite w off r is v
      else if ¬ isManager w then s.refuse w off causeActor
      else if r.readOnly then (if strictBlock off then s.refuse w off causeActor else s)
      else s.plainWrite w off r is v := by
  obtain ⟨hf, hwin, hhat, hs⟩ := hp
  simp only [State.writeUnit, hring, hf, Nat.not_le.mpr hwin, hhat, hs, if_false, Bool.false_eq_true]

theorem State.writeUnit_mayWrite (hring : isRingWord off = false) (hp : Plain s w off r is v) (hm : MayWrite w r is) (hro : r.readOnly = false) :
    s.writeUnit w off v = s.plainWrite w off r is v := by
  rw [State.writeUnit_plain hring hp]
  rcases hm with hman | hrange
  · simp [hman, hro]
  · rw [if_pos hrange]

theorem State.writeUnit_readOnly (hring : isRingWord off = false) (hp : Plain s w off r is v) (hman : isManager w = true) (hro : r.readOnly = true)
    (ha : r.base ≠ Reg.LRD_RNG_ADDR.base) (hl : r.base ≠ Reg.LRD_RNG_LEN.base) (hstrict : strictBlock off = false) : s.writeUnit w off v = s := by
  simp [State.writeUnit_plain hring hp, ha, hl, hman, hro, hstrict]

theorem State.writeUnit_wrongActor (hring : isRingWord off = false) (hp : Plain s w off r is v) (hman : isManager w = false) (hm : ¬ MayWrite w r is) :
    s.writeUnit w off v = s.refuse w off causeActor := by
  have hrange := fun h => hm (Or.inr h)
  rw [State.writeUnit_plain hring hp, if_neg hrange]
  simp [hman]

/-- `u` is the state in which a plain write to `r` is judged: writing BAY_CLUSTERS moves a locked TDI of the Bay's inst. to ERROR first (R321). -/
theorem State.plainWrite_done {u : State} {bad : List Fld} (hu : u = if r.base = Reg.BAY_CLUSTERS.base then s.tdiBreak (s.instOfBay (is.headD 0)) else s)
    (hc : u.stateCause r is v = 0) (hbad : bad = ((u.linkRules r is v ++ u.powerRules r v).filter (fun e => !e.2)).map (·.1)) :
    s.plainWrite w off r is v =
      ((u.setReg r is (r.written (u.reg r is) v bad)).when (!bad.isEmpty) (fun s => s.refuse w off causeReserved)).afterWrite r is (u.reg r is) := by
  simp only [State.plainWrite, ← hu, hc, ← hbad]

theorem State.plainWrite_refused {u : State} (hu : u = if r.base = Reg.BAY_CLUSTERS.base then s.tdiBreak (s.instOfBay (is.headD 0)) else s)
    (hc : u.stateCause r is v ≠ 0) : s.plainWrite w off r is v = u.refuse w off (u.stateCause r is v) := by
  simp only [State.plainWrite, ← hu]
end

/-! ### Register reads by path -/
section
variable {s t u : State} {w : Writer} {off : Nat} {h : Half} {v : DWord} {r : RegSpec} {is : List Nat}

theorem State.regRead_state (hbox : s.inBoxroom = false) (hf : findReg off = some (r, is)) : (s.regRead off h).1 = s.clearRead r is h := by
  simp only [State.regRead, hbox, hf, if_false, Bool.false_eq_true, false_and]

/-- Outside a gated core window, a read on the manager's side answers with what the register block returns. -/
theorem State.rcRead_manager (hten : tenantOf w = none) (hgate : ∀ n o, windowOf off = some (n, o) → s.gated (clusterOf n) = false)
    (hread : s.regRead off h = (u, v)) : s.rcRead w off h = u.reply { who := w, len := (halfHi h + 1 - halfLo h) / 8, data := v.toNat } := by
  cases hwin : windowOf off with
  | none => simp only [State.rcRead, hwin, hten, hread]
  | some c => simp only [State.rcRead, hwin, hgate c.1 c.2 hwin, hten, hread, if_false, Bool.false_eq_true]

/-- In D0 the debug port writes as the writer `.tap`, in the Owner and Vendor debug states (R382). -/
theorem State.regAcc_write (hmode : s.power.mode = 0) (hdbg : 2 ≤ s.debug) : s.regAcc off (some v) = s.regWrite .tap off 8 v := by
  simp [State.regAcc, hmode, Nat.not_lt.mpr hdbg]

theorem State.regAcc_read (hmode : s.power.mode = 0) (hdbg : 2 ≤ s.debug) (hgate : s.gatedWindow off = none) (hread : s.regRead off .whole = (u, v)) :
    s.regAcc off none = s.keepPilot (u.reply { who := .tap, len := 8, data := v.toNat }) := by
  simp [State.regAcc, hmode, Nat.not_lt.mpr hdbg, hgate, hread]

/-- Where the debug port reaches no register, zeros are shifted out. -/
theorem State.regAcc_zeros {x : Option DWord} (hmode : s.power.mode ≠ 2) (hno : s.debug < 2 ∨ s.power.mode = 1 ∧ s.unpowered off = true) :
    s.regAcc off x = s.reply { who := .tap, len := 8 } := by
  simp only [State.regAcc, hmode, hno, if_true, if_false]
  rfl

/-- The `k`-th message at die `d`, of a type that the unit serves, is taken and served. -/
theorem State.joistTake_of_joistAt {d k : Nat} {m : JoistMsg} {types : List Nat} (f : State → JoistMsg → State) (hat : JoistAt s d k m t)
    (htype : m.type ∈ types) : s.joistTake d k types f = f t m := by
  obtain ⟨hget, rfl⟩ := hat
  simp only [State.joistTake, hget, List.contains_iff_mem, htype, if_true]
end

/-! ### Reset -/

/-- After reset every register holds the value of its table (R7). -/
theorem State.fld_reset (r : RegSpec) (is : List Nat) (f : Fld) : State.reset.fld r is f = fieldOf (resetOf r.fields (is.getLastD 0)) f.hi f.lo := rfl

end Sys2Proof.Machine

namespace Sys2Proof.Proofs
open Sys2Proof Sys2Proof.Machine

/-- Settles O33, by cases: a one clears the bit, the bit is RW, or neither. -/
theorem fieldAccessTypes : Obligations.FieldAccessTypes := by
  intro r old v k hk
  rw [RegSpec.getLsbD_written_nil r old v hk]
  cases r.w1cMask.testBit k && v.getLsbD k with
  | true => simp
  | false =>
    cases r.rwMask.testBit k with
    | true => simp
    | false => simp

/-- Settles O31: each kind of register by its lemma about the unit's write. -/
theorem registerWrites : Obligations.RegisterWrites := by
  refine ⟨?plain, ?state, ?readOnly, ?actor, ?special, ?hatch, ?window, ?secCmd, ?noReg⟩
  case plain =>
    intro w off v s u r is bad hr hm hp hro hu hc hbad
    rw [exec_regWrite_of_reaches hr, State.writeUnit_mayWrite hr.not_ringWord hp hm hro, State.plainWrite_done hu hc hbad]
  case state =>
    intro w off v s u r is hr hm hp hro hu hc
    rw [exec_regWrite_of_reaches hr, State.writeUnit_mayWrite hr.not_ringWord hp hm hro, State.plainWrite_refused hu hc]
  case readOnly =>
    intro w off v s r is hr hman hp hro ha hl hstrict
    rw [exec_regWrite_of_reaches hr, State.writeUnit_readOnly hr.not_ringWord hp hman hro ha hl hstrict]
    rfl
  case actor =>
    intro w off v s r is hr hman hm hp
    rw [exec_regWrite_of_reaches hr, State.writeUnit_wrongActor hr.not_ringWord hp hman hm]
  case special =>
    intro w off v s t r is hr hf hwin hhat hs
    rw [exec_regWrite_of_reaches hr, State.writeUnit_special hr.not_ringWord hf hwin hhat hs]
  case hatch =>
    intro w off v s r is hr hf hlo hhi
    rw [exec_regWrite_of_reaches hr, State.writeUnit_hatch hr.not_ringWord hf hlo hhi]
  case window =>
    intro w off v s r is hr hf ho
    rw [exec_regWrite_of_reaches hr, State.writeUnit_window hr.not_ringWord hf ho]
  case secCmd =>
    intro w v s hten hopen
    exact congrArg Host.Outcome.next (State.regWrite_secCmd hten hopen)
  case noReg =>
    intro w off v s hr hf ha hwin
    rw [exec_regWrite_of_reaches hr, State.writeUnit_noReg hr.not_ringWord hf ha hwin]

/-- Settles O34: each path ends in the register block's own read or write. -/
theorem registerReads : Obligations.RegisterReads := by
  refine ⟨?manager, ?sideEffect, ?tapWrite, ?tapRead, ?tapZeros, ?joistRead, ?joistWrite⟩
  case manager =>
    intro w off h s u v hten hgate hread
    exact congrArg (fun t => Host.Outcome.next (s.keepPilot t)) (State.rcRead_manager hten hgate hread)
  case sideEffect =>
    intro off h s r is hbox hf
    exact State.regRead_state hbox hf
  case tapWrite =>
    intro off v s hmode hdbg
    exact congrArg Host.Outcome.next (State.regAcc_write hmode hdbg)
  case tapRead =>
    intro off s u v hmode hdbg hgate hread
    exact congrArg Host.Outcome.next (State.regAcc_read hmode hdbg hgate hread)
  case tapZeros =>
    intro off x s hmode hno
    exact congrArg Host.Outcome.next (State.regAcc_zeros hmode hno)
  case joistRead =>
    intro d k s t u m v hat htype hread
    refine congrArg (fun t => Host.Outcome.next (s.keepPilot t)) ((State.joistTake_of_joistAt _ hat (by simp [htype])).trans ?_)
    simp only [hread]
  case joistWrite =>
    intro d k s t u m hat htype hu
    refine congrArg Host.Outcome.next ((State.joistTake_of_joistAt _ hat (by simp [htype])).trans ?_)
    simp only [hu]

/-- Settles O50: the registers by `State.fld_reset`, the units by the empty tables. -/
theorem resetValues : Obligations.ResetValues := by
  refine ⟨?_, fun _ _ => rfl, fun _ => rfl, fun _ => rfl, rfl, rfl, rfl, rfl, rfl, rfl⟩
  simp only [State.fld_reset]
  decide

end Sys2Proof.Proofs
end

section
/-! PROOFS. Memory behind the caches (01_device_at_work.md): what a write leaves at every address (R10), and how the Pantries' windows lie apart in it (R127). -/
namespace Sys2Proof.Machine

/-- Memory after a write, at every address: the data inside the write, the old byte outside it. -/
theorem State.byte_setBytes (s : State) (a c : Nat) (bs : List Byte) :
    (s.setBytes a bs).byte c = if a ≤ c ∧ c < a + bs.length then bs.getD (c - a) 0 else s.byte c := by
  split
  · next hin =>
    have hi : c - a < bs.length := by omega
    have hread := State.byte_setBytes_in s a (c - a) bs hi
    rw [Nat.add_sub_cancel' hin.1] at hread
    rw [hread, List.getD_eq_getElem bs 0 hi]
  · next hout => exact State.byte_setBytes_out s a c bs (by omega)

/-- A Pantry write changes memory as the plain write at its global address does: the poison marks are no part of memory. -/
theorem State.byte_setPantry (s : State) (n off c : Nat) (bs : List Byte) (p : Bool) :
    (s.setPantry n off bs p).byte c = (s.setBytes (pantryAddr n off) bs).byte c := by
  simp only [State.byte, State.setPantry, State.markWrite_mem]

theorem pantryAddr_sub (n off k : Nat) : pantryAddr n k - pantryAddr n off = k - off := by
  simp only [pantryAddr]; omega

/-- A Pantry is smaller than its window, so a block of one Pantry covers a byte of a Pantry only in the same core's, at the same offsets (R127). -/
theorem pantryAddr_mem_block {n m off len k : Nat} (hlen : off + len ≤ pantrySize) (hk : k < pantrySize) :
    (pantryAddr n off ≤ pantryAddr m k ∧ pantryAddr m k < pantryAddr n off + len) ↔ m = n ∧ off ≤ k ∧ k < off + len := by
  simp only [pantryAddr, pantrySize] at *; omega

/-- A Pantry after a Pantry write, at every offset. -/
theorem State.byte_setPantry_pantryAddr (s : State) {n m off k : Nat} {bs : List Byte} (p : Bool) (hlen : off + bs.length ≤ pantrySize) (hk : k < pantrySize) :
    (s.setPantry n off bs p).byte (pantryAddr m k) =
      if m = n ∧ off ≤ k ∧ k < off + bs.length then bs.getD (k - off) 0 else s.byte (pantryAddr m k) := by
  simp only [State.byte_setPantry, State.byte_setBytes, pantryAddr_mem_block hlen hk]
  split
  · next hin =>
    obtain ⟨rfl, -⟩ := hin
    rw [pantryAddr_sub]
  · rfl

end Sys2Proof.Machine

namespace Sys2Proof.Proofs
open Sys2Proof Sys2Proof.Machine

/-- Settles O56: the laws of a plain write (inside, outside, form), carried to a Pantry by its addresses. -/
theorem memoryWrites : Obligations.MemoryWrites := by
  refine ⟨?readBack, ?untouched, ?canonical, ?pantry, ?pantryCanonical⟩
  case readBack => exact State.byte_setBytes_in
  case untouched => exact State.byte_setBytes_out
  case canonical => exact State.setBytes_wf
  case pantry => exact fun s _ _ _ _ p _ _ _ hlen hk => State.byte_setPantry_pantryAddr s p hlen hk
  case pantryCanonical => exact State.setPantry_wf

end Sys2Proof.Proofs
end

section
/-! PROOFS. Arithmetic and its checks (02_number_formats_and_arithmetic.md): error records and the counters beside them (R386, R395), an instruction of a thread group
with and without a residue mismatch (R28, R90, R415), and the matrix engines' tiles from fetch to commit (R31, R33, R36, R51). -/
namespace Sys2Proof.Machine

/-! ### What an error record writes (R386-R388) -/

@[simp] theorem State.reg_raise (s : State) (f v : Nat) (q : RegSpec) (js : List Nat) : (s.raise f v).reg q js = s.reg q js := by
  simp only [State.raise]; split <;> rfl

/-- A conditional update that leaves a register alone when it is made leaves it alone. -/
theorem State.reg_when {s : State} {c : Bool} {f : State → State} {q : RegSpec} {js : List Nat} (h : c = true → (f s).reg q js = s.reg q js) :
    (s.when c f).reg q js = s.reg q js := by
  cases c with
  | true => exact h rfl
  | false => rfl

theorem State.reg_setFld_ne (s : State) (r q : RegSpec) (is js : List Nat) (f : Fld) (v : Nat) (h : r.addr is ≠ q.addr js) :
    (s.setFld r is f v).reg q js = s.reg q js := State.reg_setReg_ne s r q is js _ h

theorem State.reg_setWords_ne (s : State) (r q : RegSpec) (pre js : List Nat) (w : Nat) (vs : List Nat)
    (h : ∀ k, k < w + vs.length → r.addr (pre ++ [k]) ≠ q.addr js) : (s.setWords r pre w vs).reg q js = s.reg q js := by
  induction vs generalizing s w with
  | nil => rfl
  | cons v vs ih =>
    simp only [List.length_cons] at h
    rw [State.setWords, ih _ _ (fun k hk => h k (by omega)), State.reg_setReg_ne _ _ _ _ _ _ (h w (by omega))]

theorem State.reg_countRecord_ne (s : State) (f : Fld) (q : RegSpec) (js : List Nat) (h : Reg.ERR_CNT.addr [] ≠ q.addr js) :
    (s.countRecord f).reg q js = s.reg q js := by
  simp only [State.countRecord]
  split
  · rw [State.reg_raise, State.reg_setFld_ne _ _ _ _ _ _ _ h, State.reg_setFld_ne _ _ _ _ _ _ _ h]
  · rw [State.reg_setFld_ne _ _ _ _ _ _ _ h]

/-- The record in its slot of the ring, before PROD counts it (R387). -/
def State.logRing (s : State) (r : ErrRec) : State :=
  let seq := s.fld Reg.ERR_PROD [] F.ERR_PROD_PROD
  let full := decide (1024 ≤ (seq + 2 ^ 32 - s.fld Reg.ERR_CONS [] F.ERR_CONS_CONS) % 2 ^ 32)
  (s.when full (fun s => (s.bump Reg.ERR_STAT [] F.ERR_STAT_LOST 1).setFld Reg.ERR_STAT [] F.ERR_STAT_OVF 1)).setWords Reg.ERR_REC [seq % 1024] 0
    (r.words seq (s.reg Reg.CLK_REFCNT [5]).toNat)

/-- What follows PROD for a record with the words `ws`: ERR_FATAL, the counts, the vector (R386, R388). -/
def State.logCount (s : State) (r : ErrRec) (ws : List Nat) : State :=
  let s := s.when (r.cls == .fatal) (fun s => (s.setWords Reg.ERR_FATAL [] 0 ws).setFld Reg.ERR_STAT [] F.ERR_STAT_FATAL 1)
  let s := s.countRecord (match r.cls with
    | .corrected => F.ERR_CNT_CORRECTED
    | .contained => F.ERR_CNT_CONTAINED
    | .fatal => F.ERR_CNT_FATAL)
  s.when ((s.fld Reg.ERR_CTL [] F.ERR_CTL_IRQ).testBit r.cls.code) (fun s => s.raise 0 96)

theorem State.log_eq_ring_prod_count (s : State) (r : ErrRec) :
    s.log r = ((s.logRing r).setFld Reg.ERR_PROD [] F.ERR_PROD_PROD (s.fld Reg.ERR_PROD [] F.ERR_PROD_PROD + 1)).logCount r
      (r.words (s.fld Reg.ERR_PROD [] F.ERR_PROD_PROD) (s.reg Reg.CLK_REFCNT [5]).toNat) := rfl

theorem ErrRec.length_words (r : ErrRec) (seq time : Nat) : (r.words seq time).length = 8 := rfl

/-- An offset that no record writes but by counting in PROD: outside ERR_STAT, ERR_CNT, ERR_FATAL and the ring. -/
def BesideRecords (a : Nat) : Prop := a ≤ 0x400008 ∨ 0x420000 ≤ a

theorem BesideRecords.ne_of_between {a b : Nat} (h : BesideRecords a) (hb : 0x400008 < b ∧ b < 0x420000) : b ≠ a := by
  simp only [BesideRecords] at h; omega

section
variable (s : State) (r : ErrRec) {q : RegSpec} {js : List Nat} (h : BesideRecords (q.addr js))
include h

theorem BesideRecords.ne_fatal {k : Nat} (hk : k < 8) : Reg.ERR_FATAL.addr [k] ≠ q.addr js :=
  h.ne_of_between (by simp only [RegSpec.addr, Reg.ERR_FATAL, addrOf]; omega)

theorem BesideRecords.ne_rec (i : Nat) {k : Nat} (hk : k < 8) : Reg.ERR_REC.addr [i % 1024, k] ≠ q.addr js :=
  h.ne_of_between (by simp only [RegSpec.addr, Reg.ERR_REC, addrOf]; omega)

theorem BesideRecords.ne_stat : Reg.ERR_STAT.addr [] ≠ q.addr js := h.ne_of_between (by decide)

theorem BesideRecords.ne_cnt : Reg.ERR_CNT.addr [] ≠ q.addr js := h.ne_of_between (by decide)

theorem State.reg_logRing : (s.logRing r).reg q js = s.reg q js := by
  rw [State.logRing, State.reg_setWords_ne _ _ _ _ _ _ _ (fun k hk => h.ne_rec _ (by simpa [ErrRec.length_words] using hk)),
    State.reg_when (fun _ => by rw [State.bump, State.reg_setFld_ne _ _ _ _ _ _ _ h.ne_stat, State.reg_setFld_ne _ _ _ _ _ _ _ h.ne_stat])]

theorem State.reg_logCount {ws : List Nat} (hws : ws.length = 8) : (s.logCount r ws).reg q js = s.reg q js := by
  rw [State.logCount, State.reg_when (f := fun s => s.raise 0 96) (fun _ => State.reg_raise _ _ _ _ _), State.reg_countRecord_ne _ _ _ _ h.ne_cnt,
    State.reg_when (fun _ => by
      rw [State.reg_setFld_ne _ _ _ _ _ _ _ h.ne_stat, State.reg_setWords_ne _ _ _ _ _ _ _ (fun k hk => h.ne_fatal (by simpa [hws] using hk))])]

/-- A record leaves every register but its own alone. -/
theorem State.reg_log_beside (hp : Reg.ERR_PROD.addr [] ≠ q.addr js) : (s.log r).reg q js = s.reg q js := by
  rw [State.log_eq_ring_prod_count, State.reg_logCount _ _ h (r.length_words _ _), State.reg_setFld_ne _ _ _ _ _ _ _ hp, State.reg_logRing _ _ h]

end

/-- A record is counted in PROD, which wraps (R387). -/
theorem State.fld_prod_log (s : State) (r : ErrRec) :
    (s.log r).fld Reg.ERR_PROD [] F.ERR_PROD_PROD = (s.fld Reg.ERR_PROD [] F.ERR_PROD_PROD + 1) % 2 ^ 32 := by
  have h : BesideRecords (Reg.ERR_PROD.addr []) := .inl (by decide)
  rw [State.log_eq_ring_prod_count, State.fld, State.reg_logCount _ _ h (r.length_words _ _)]
  exact State.fld_setFld_self _ _ _ _ _ (by decide) (by decide)

/-! ### The replay counters of a core (R395) -/

/-- A counter field counts one, and stops at its largest value (R395). -/
theorem State.fld_bump_self (s : State) (r : RegSpec) (is : List Nat) (f : Fld) (n : Nat) (h : f.lo ≤ f.hi) (hw : f.hi < 64) :
    (s.bump r is f n).fld r is f = min (2 ^ (f.hi + 1 - f.lo) - 1) (s.fld r is f + n) := by
  have hp := Nat.two_pow_pos (f.hi + 1 - f.lo)
  rw [State.bump, State.fld_setFld_self _ _ _ _ _ h hw, satAdd]
  exact Nat.mod_eq_of_lt (by omega)

theorem arithCnt_beside (n : Nat) : BesideRecords (Reg.CST_ARITH_CNT.addr [n]) := by
  simp only [BesideRecords, RegSpec.addr, Reg.CST_ARITH_CNT, addrOf]; omega

theorem arithCnt_ne_prod (n : Nat) : Reg.CST_ARITH_CNT.addr [n] ≠ Reg.ERR_PROD.addr [] := by
  simp only [RegSpec.addr, Reg.CST_ARITH_CNT, Reg.ERR_PROD, addrOf]; omega

/-- A replay of core `n`: counted in a field of CST_ARITH_CNT, and one record written (R31, R415). -/
def State.logReplay (s : State) (n : Nat) (f : Fld) (r : ErrRec) : State := (s.bump Reg.CST_ARITH_CNT [n] f 1).logCore n r

theorem State.logReplay_same (s : State) (n : Nat) (f : Fld) (r : ErrRec) : SameButRegs s (s.logReplay n f r) :=
  (State.bump_same _ _ _ _ _).trans (State.logCore_same _ _ _)

@[simp] theorem State.logReplay_mem (s : State) (n : Nat) (f : Fld) (r : ErrRec) : (s.logReplay n f r).mem = s.mem := (s.logReplay_same n f r).field State.mem
@[simp] theorem State.logReplay_seqs (s : State) (n : Nat) (f : Fld) (r : ErrRec) : (s.logReplay n f r).seqs = s.seqs := (s.logReplay_same n f r).field State.seqs
@[simp] theorem State.logReplay_steps (s : State) (n : Nat) (f : Fld) (r : ErrRec) : (s.logReplay n f r).steps = s.steps := (s.logReplay_same n f r).field State.steps
@[simp] theorem State.logReplay_groups (s : State) (n : Nat) (f : Fld) (r : ErrRec) : (s.logReplay n f r).groups = s.groups := (s.logReplay_same n f r).field State.groups
@[simp] theorem State.logReplay_replays (s : State) (n : Nat) (f : Fld) (r : ErrRec) : (s.logReplay n f r).replays = s.replays := (s.logReplay_same n f r).field State.replays
@[simp] theorem State.group_logReplay (s : State) (n : Nat) (f : Fld) (r : ErrRec) (i j : Nat) : (s.logReplay n f r).group i j = s.group i j := by
  simp only [State.group, State.logReplay_groups]

theorem State.fld_prod_logReplay (s : State) (n : Nat) (f : Fld) (r : ErrRec) :
    (s.logReplay n f r).fld Reg.ERR_PROD [] F.ERR_PROD_PROD = (s.fld Reg.ERR_PROD [] F.ERR_PROD_PROD + 1) % 2 ^ 32 := by
  rw [State.logReplay, State.logCore, State.fld_prod_log, State.bump, State.fld_setFld_ne _ _ _ _ _ _ _ _ (arithCnt_ne_prod n)]

theorem State.fld_arithCnt_logReplay (s : State) (n : Nat) (f : Fld) (r : ErrRec) (h : f.lo ≤ f.hi) (hw : f.hi < 64) :
    (s.logReplay n f r).fld Reg.CST_ARITH_CNT [n] f = min (2 ^ (f.hi + 1 - f.lo) - 1) (s.fld Reg.CST_ARITH_CNT [n] f + 1) := by
  rw [State.logReplay, State.logCore, State.fld, State.reg_log_beside _ _ (arithCnt_beside n) (arithCnt_ne_prod n).symm]
  exact State.fld_bump_self _ _ _ _ _ h hw

/-! ### A thread group reaching an instruction (R91, R92, R415) -/

@[simp] theorem State.keepPilot_setGroup (s : State) (n g : Nat) (x : Group) : s.keepPilot (s.setGroup n g x) = s.setGroup n g x := rfl

@[simp] theorem State.hatPush_groups (s : State) (i : Nat) (m : HatMsg) : (s.hatPush i m).groups = s.groups := by
  simp only [State.hatPush]; split <;> rfl

section
variable {s : State} {n g c : Nat} {w : VWord}

/-- The legal instruction at the group's PC, of a row that accepts it, gets the row's meaning. -/
theorem State.reachV_of_atV {is : Nat → Nat → Bool} (f : Group → VWord → State) (h : AtV s n g c w) (his : is c w.op = true) :
    s.reachV n g is f = f (s.group n g) w := by
  obtain ⟨hiss, hfetch, hlegal, rfl⟩ := h
  simp only [State.reachV, hiss, hfetch, hlegal, his, not_true_eq_false, if_false, if_true]

/-- Two meanings that stand in a reflexive relation at every word do so however the group reaches its instruction. -/
theorem State.reachV_rel {R : State → State → Prop} (hrefl : ∀ t, R t t) (s : State) (n g : Nat) (is : Nat → Nat → Bool) {f f' : Group → VWord → State}
    (h : ∀ x w, R (f x w) (f' x w)) : R (s.reachV n g is f) (s.reachV n g is f') := by
  simp only [State.reachV]
  split
  · exact hrefl s
  · split
    · exact hrefl _
    · split
      · exact hrefl _
      · split
        · exact h _ _
        · exact hrefl s

/-- With no mismatch the instruction has its effect. -/
theorem State.checked_none (s : State) (n g : Nat) (on : Bool) (mask : DWord) (f : State → State) : s.checked n g 0 on mask f = f s := by
  simp only [State.checked, true_or, if_true]

/-- The corrected record of a group's replay (Table NM-9). -/
def replayRec (n g pc : Nat) : ErrRec := { kind := 0x02, index := n, cls := .corrected, address := pc, sub := g }

theorem not_spared {mism : Nat} {mask : DWord} (hm : mism ≠ 0) (hmask : mask ≠ 0) : ¬ (mism = 0 ∨ ¬ true = true ∨ mask = 0) := by
  rintro (h | h | h)
  exacts [hm h, h rfl, hmask h]

/-- A mismatch that the replay ends is counted and recorded, and the instruction has its effect. -/
theorem State.checked_replayed (s : State) (n g : Nat) {mask : DWord} (hmask : mask ≠ 0) (f : State → State) :
    s.checked n g 1 true mask f = f (s.logReplay n F.CST_ARITH_CNT_VEC_REPLAY (replayRec n g (s.group n g).pc.toNat)) := by
  rw [State.checked, if_neg (not_spared (by decide) hmask)]
  exact if_pos rfl

/-- A mismatch that recurs on the replay parks the group with code 0x09. -/
theorem State.checked_parks (s : State) (n g : Nat) {mask : DWord} (hmask : mask ≠ 0) (f : State → State) :
    s.checked n g 2 true mask f = (s.logReplay n F.CST_ARITH_CNT_VEC_REPLAY (replayRec n g (s.group n g).pc.toNat)).parkRec n g 0x09 0 mask
      { kind := 0x02, index := n, cls := .contained, address := (s.group n g).pc.toNat } := by
  rw [State.checked, if_neg (not_spared (by decide) hmask)]
  exact if_neg (by decide)

end

/-- Group slots, memory and sequencers are the same. -/
def SameWork (t u : State) : Prop := u.groups = t.groups ∧ u.mem = t.mem ∧ u.seqs = t.seqs

theorem SameWork.refl (t : State) : SameWork t t := ⟨rfl, rfl, rfl⟩

theorem SameButRegs.sameWork_setGroup {s t : State} (h : SameButRegs s t) (n g : Nat) (y : Group) : SameWork (s.setGroup n g y) (t.setGroup n g y) := by
  unfold SameButRegs at h; rw [h]; exact ⟨rfl, rfl, rfl⟩

/-- A replay that ends the mismatch gives the group what it gets without one. -/
theorem State.checked_sameWork (s : State) (n g : Nat) (on : Bool) (mask : DWord) (y : Group) :
    SameWork (s.checked n g 0 on mask (fun t => t.setGroup n g y)) (s.checked n g 1 on mask (fun t => t.setGroup n g y)) := by
  rw [State.checked_none]
  by_cases hon : on = true ∧ mask ≠ 0
  · obtain ⟨rfl, hmask⟩ := hon
    rw [State.checked_replayed s n g hmask]
    exact (s.logReplay_same n _ _).sameWork_setGroup n g y
  · have hoff : (1 : Nat) = 0 ∨ ¬ on = true ∨ mask = 0 := by tauto
    simp only [State.checked, hoff, if_true]
    exact SameWork.refl _

/-- Row `c` gives group `g` of core `n`, at a word that `is` accepts, what `y` says, under a residue check where `on` says so. -/
def CheckedRow (n : CoreId) (g : SlotId) (c : Fin 3 → Instr) (is : Nat → Nat → Bool) (on : VWord → Bool) (y : Group → VWord → Group) : Prop :=
  ∀ (s : State) (m : Fin 3), exec (c m) s = .next (s.keepPilot (s.reachV n g is (fun x w => s.checked n g m (on w) (x.exec w) (fun t => t.setGroup n g (y x w)))))

section
variable {s t : State} {n : CoreId} {g : SlotId} {k : Nat} {w : VWord} {c : Fin 3 → Instr} {is : Nat → Nat → Bool} {on : VWord → Bool} {y : Group → VWord → Group}

/-- Without a mismatch the group gets the row's result and nothing else changes. -/
theorem CheckedRow.effect (hc : CheckedRow n g c is on y) (hat : AtV s n g k w) (his : is k w.op = true) :
    exec (c 0) s = .next (s.setGroup n g (y (s.group n g) w)) := by
  rw [hc s 0, State.reachV_of_atV _ hat his, Fin.val_zero, State.checked_none, State.keepPilot_setGroup]

/-- A mismatch that the replay ends: the replay is counted and recorded beside the row's result (R415). -/
theorem CheckedRow.corrected (hc : CheckedRow n g c is on y) (hat : AtV s n g k w) (his : is k w.op = true) (hon : on w = true) (hexec : (s.group n g).exec w ≠ 0) :
    exec (c 1) s = .next (s.keepPilot ((s.logReplay n F.CST_ARITH_CNT_VEC_REPLAY (replayRec n g (s.group n g).pc.toNat)).setGroup n g (y (s.group n g) w))) := by
  rw [hc s 1, State.reachV_of_atV _ hat his, hon, Fin.val_one, State.checked_replayed _ _ _ hexec]

/-- A mismatch that recurs: the replay is counted and recorded, and the group parks (R415). -/
theorem CheckedRow.parks (hc : CheckedRow n g c is on y) (hat : AtV s n g k w) (his : is k w.op = true) (hon : on w = true) (hexec : (s.group n g).exec w ≠ 0) :
    exec (c 2) s = .next (s.keepPilot ((s.logReplay n F.CST_ARITH_CNT_VEC_REPLAY (replayRec n g (s.group n g).pc.toNat)).parkRec n g 0x09 0 ((s.group n g).exec w)
      { kind := 0x02, index := n, cls := .contained, address := (s.group n g).pc.toNat })) := by
  rw [hc s 2, State.reachV_of_atV _ hat his, hon, Fin.val_two, State.checked_parks _ _ _ hexec]

/-- A mismatch that the replay ends leaves the same work as no mismatch (R415). -/
theorem CheckedRow.replayed (hc : CheckedRow n g c is on y) (ht : exec (c 0) s = .next t) : ∃ u, exec (c 1) s = .next u ∧ SameWork t u := by
  rw [hc s 0] at ht
  cases ht
  exact ⟨_, hc s 1, State.reachV_rel SameWork.refl s n g is (fun x w => s.checked_sameWork n g (on w) (x.exec w) (y x w))⟩

end

section
variable (n : CoreId) (g : SlotId)

theorem vectorFpOp_row : CheckedRow n g (.vectorFpOp n g) (fun c _ => c == 0) (fun w => checkedFp w.op) (fun x w =>
    let y := x.writeV (x.exec w) w.vd (fun t => (fpResult x w t).1)
    (if w.op = 0x0B then y.writeV (x.exec w) (w.vd + 1) (fun t => ((fpResult x w t).2).getD 0) else y).next) := fun _ _ => rfl

theorem vectorIntOp_row : CheckedRow n g (.vectorIntOp n g) (fun c _ => c == 1) (fun w => decide (w.op ≤ 2)) (fun x w =>
    x.vdSet w (fun t => intOp w.op (w.ty == 3) t (x.opA w t) (x.opB w t))) := fun _ _ => rfl

theorem vectorImmOp_row : CheckedRow n g (.vectorImmOp n g) (fun c _ => c == 2) (fun w => w.op == 1 || w.op == 8 || w.op == 9) (fun x w =>
    x.vdSet w (fun t => immOp w.op (x.vreg w.va t) w.imm)) := fun _ _ => rfl

theorem specialFunction_row : CheckedRow n g (.specialFunction n g) (fun c _ => c == 3) (fun _ => true) (fun x w =>
    x.vdSet w (fun t => specialFn w.op (x.opA w t))) := fun _ _ => rfl

theorem radd_row : CheckedRow n g (.radd n g) (fun c o => c == 6 && o == 0x10) (fun _ => true) (fun x w =>
    let v := foldOf (foldElem 0x10 w) ((threads (x.exec w)).map (x.vreg w.va))
    (x.setS w.sdX (BitVec.ofNat 64 (if w.ty = 0 then toF32 (f32 v) else v).toNat)).next) := fun _ _ => rfl

theorem pk_row : CheckedRow n g (.pk n g) (fun c o => c == 0xA && decide (o < 8)) (fun _ => true) (fun x w =>
    let lo := x.exec w &&& 0xFFFFFFFF
    let hi := x.exec w &&& ~~~ 0xFFFFFFFF
    let y := if lo = 0 then x else x.packBlock x w lo
    (if hi = 0 then y else x.packBlock y w hi).next) := fun _ _ => rfl

theorem unpk_row : CheckedRow n g (.unpk n g) (fun c o => c == 0xA && decide (8 ≤ o)) (fun _ => true) (fun x w =>
    x.vdSet w (fun t => unpkValue w.op (x.opA w t) (x.opB w t))) := fun _ _ => rfl

end

/-- The group that a park leaves (R116). -/
theorem State.group_parkRec (s : State) (n g code addr : Nat) (fmask : DWord) (r : ErrRec) :
    (s.parkRec n g code addr fmask r).group n g =
      { s.group n g with status := .parked, fault := code % 256, faddr := BitVec.ofNat 64 addr, fmask := fmask, load := none, atom := none, storing := false } := by
  simp only [State.parkRec, State.group]
  split <;> simp [State.setGroup]

/-! ### The engines of a core (R31, R33, R36, R51) -/

@[simp] theorem State.keepPilot_setEngine (s : State) (n e : Nat) (x : Engine) : s.keepPilot (s.setEngine n e x) = s.setEngine n e x := rfl
@[simp] theorem State.keepPilot_setStep (s : State) (n : Nat) (u : StepUnit) : s.keepPilot (s.setStep n u) = s.setStep n u := rfl
@[simp] theorem State.engine_keepPilot (s t : State) (m f : Nat) : (s.keepPilot t).engine m f = t.engine m f := rfl
@[simp] theorem State.engine_logReplay (s : State) (n : Nat) (fl : Fld) (r : ErrRec) (m f : Nat) : (s.logReplay n fl r).engine m f = s.engine m f := by
  simp only [State.engine, State.stepUnit, State.logReplay_steps]

/-- An engine that is set reads back; every other engine of every core is left alone. -/
theorem State.engine_setEngine (s : State) (n e m f : Nat) (x : Engine) : (s.setEngine n e x).engine m f = if m = n ∧ f = e then x else s.engine m f := by
  simp only [State.engine, State.setEngine, State.setStep, State.stepUnit, Tbl.get_set, StepUnit.engine]
  by_cases hm : m = n
  · subst hm
    simp only [if_true, StepUnit.setEngine, Tbl.get_set, true_and, eq_comm]
  · simp only [hm, Ne.symm hm, if_false, false_and]

section
variable {s : State} {n e : Nat} {d : StepIssue} {entry : BitVec 128}

/-- The engine may fetch its next tile entry for the running Step `d`: it takes part, has no tile entering, no fault stops it, and its list is not at its end (R36, R44, R53). -/
def FetchReady (s : State) (n e : Nat) (d : StepIssue) : Prop :=
  (s.stepUnit n).running = some d ∧ d.takes e = true ∧ (s.engine n e).enter = none ∧ (s.engine n e).stopped = false ∧ (s.stepUnit n).failing = 0 ∧
    (s.engine n e).entry ≤ d.field 63 53

/-- An entry that is not valid is skipped (R44). -/
theorem State.tileFetch_skip (h : FetchReady s n e d) (hentry : s.tileEntry n d e (s.engine n e).entry = (entry, false)) (hv : entryValid entry = false) :
    s.tileFetch n e = s.setEngine n e { s.engine n e with entry := (s.engine n e).entry + 1, done := (s.engine n e).done + 1 } := by
  obtain ⟨hrun, htakes, henter, hstop, hfail, hleft⟩ := h
  rw [State.engine] at *
  simp only [State.tileFetch, hrun, htakes, henter, hstop, hfail, Nat.not_lt.mpr hleft, hentry, hv]
  simp

/-- A valid entry without a fault starts its tile, with the kept sums under ACC_IN (R33, R36, R45). -/
theorem State.tileFetch_start (h : FetchReady s n e d) (hentry : s.tileEntry n d e (s.engine n e).entry = (entry, false)) (hv : entryValid entry = true)
    (hdrain : (s.engine n e).drain = none) (hfault : fetchFault d entry false = 0) (hrows : d.mRows ≤ 256) {tile : Tile}
    (htile : tile = { entry := entry, half := (s.engine n e).half, acc0 := if d.accIn then (s.engine n e).acc else [] }) :
    s.tileFetch n e = s.setEngine n e { s.engine n e with
      entry := (s.engine n e).entry + 1, half := 1 - (s.engine n e).half, kept := none, enter := some tile, acc := tile.begin (s.engine n e).acc } := by
  obtain ⟨hrun, htakes, henter, hstop, hfail, hleft⟩ := h
  subst htile
  rw [State.engine] at *
  simp only [State.tileFetch, hrun, htakes, henter, hstop, hfail, Nat.not_lt.mpr hleft, hentry, hv, hdrain, hfault, Nat.not_lt.mpr hrows]
  simp

end

theorem exec_tileFetch (n : CoreId) (e : EngineId) (s : State) : exec (.tileFetch n e) s = .next (s.keepPilot (s.tileFetch n e)) := rfl
theorem exec_outputRowWrite (n : CoreId) (e : EngineId) (bad : Bool) (s : State) :
    exec (.outputRowWrite n e bad) s = .next (s.keepPilot (s.outputRow n e bad)) := rfl
theorem exec_tileComplete (n : CoreId) (e : EngineId) (s : State) : exec (.tileComplete n e) s = .next (s.keepPilot (s.tileComplete n e)) := rfl
theorem exec_stepCommit (n : CoreId) (s : State) : exec (.stepCommit n) s = .next (s.keepPilot (s.stepCommit n)) := rfl

section
variable {s : State} {n : CoreId} {e : EngineId} {sums : List SumError} {shadows : List ShadowError} {d : StepIssue} {tile : Tile} {acc : Tbl Word}
  {residue shadow poison : Bool}

/-- A row goes through the array: without a mismatch its sums stand and the tile goes on (R34), with one the tile's checks have failed (Table NM-9). -/
theorem exec_engineRowEntry (hrun : (s.stepUnit n).running = some d) (henter : (s.engine n e).enter = some tile) (hent : entered d tile = false)
    (hrow : s.rowPass n d (s.engine n e) tile sums shadows = (acc, residue, shadow, poison)) :
    exec (.engineRowEntry n e sums shadows) s = .next (s.keepPilot (
      if residue || shadow then s.mismatch n e tile false (residue && shadow)
      else s.setEngine n e (toDrain d { s.engine n e with acc := acc, enter := some { tile.nextRow d with poison := tile.poison || poison } }))) := by
  change execEngineRowEntry n e sums shadows s = _
  simp only [execEngineRowEntry, hrun, henter, hent, hrow]
  rfl

end

/-! ### A tile under a mismatch (R31, Table NM-9) -/

/-- The tile at work in engine `e` of core `n` starts again with the sums it began from, and the retirement window counts it (R31, R392). -/
def State.replayTile (s : State) (n e : Nat) (t : Tile) : State :=
  { s with replays := s.replays.set 0 (4 * n + e) (s.replays.get 0 (4 * n + e) + 1) }.setEngine n e
    { s.engine n e with acc := t.begin (s.engine n e).acc, enter := some t.again }

/-- The corrected record of a tile's replay (Table NM-9). -/
def tileRec (n e seq : Nat) (dual : Bool) : ErrRec :=
  { kind := 0x01, index := 4 * n + e, cls := .corrected, address := seq, dual := dual, aux := if dual then 0x800 + (4 * n + e) else 0 }

/-- A row's mismatch on a tile that has not been replayed. -/
theorem State.mismatch_first (s : State) (n e : Nat) {t : Tile} (dual : Bool) (ht : t.replay = false) :
    s.mismatch n e t false dual = (s.replayTile n e t).logReplay n (F.replayCount e) (tileRec n e (s.stepUnit n).curSeq.toNat dual) := by
  simp only [State.mismatch, ht, Bool.false_eq_true, if_false, Bool.false_and]
  rfl

theorem State.fld_replayTile (s : State) (n e : Nat) (t : Tile) (r : RegSpec) (is : List Nat) (f : Fld) : (s.replayTile n e t).fld r is f = s.fld r is f := rfl
theorem State.replayTile_mem (s : State) (n e : Nat) (t : Tile) : (s.replayTile n e t).mem = s.mem := rfl
theorem State.replayTile_seqs (s : State) (n e : Nat) (t : Tile) : (s.replayTile n e t).seqs = s.seqs := rfl

theorem State.replayTile_replays (s : State) (n e : Nat) (t : Tile) : (s.replayTile n e t).replays.get 0 (4 * n + e) = s.replays.get 0 (4 * n + e) + 1 :=
  Tbl.get_set_self s.replays 0 (4 * n + e) (s.replays.get 0 (4 * n + e) + 1)

theorem State.engine_replayTile (s : State) (n e m f : Nat) (t : Tile) : (s.replayTile n e t).engine m f =
    if m = n ∧ f = e then { s.engine n e with acc := t.begin (s.engine n e).acc, enter := some t.again } else s.engine m f :=
  State.engine_setEngine _ _ _ _ _ _

/-! ### The output stage and the ends of tiles and Steps (R33, R36, R51) -/

section
variable {s : State} {n e : Nat} {d : StepIssue} {tile : Tile}

/-- A row of a draining tile whose checks have passed is written (R24, R36). -/
theorem State.outputRow_checked (hrun : (s.stepUnit n).running = some d) (hdrain : (s.engine n e).drain = some tile) (hout : d.accOut = false)
    (hrow : tile.outRow ≤ entryRows tile.entry) (hchk : tile.checked = true) :
    s.outputRow n e false = (s.writeRow n d (s.engine n e) tile).setEngine n e { s.engine n e with drain := some { tile with outRow := tile.outRow + 1 } } := by
  simp only [State.outputRow, hrun, hdrain, hout, hchk, Nat.not_lt.mpr hrow]
  simp [hchk]

/-- A tile whose last row is written leaves the output stage to the tile that has entered (R33, R36). -/
theorem State.tileComplete_done (hrun : (s.stepUnit n).running = some d) (hdrain : (s.engine n e).drain = some tile) (hout : d.accOut = false)
    (hrow : entryRows tile.entry < tile.outRow) (hop : opCopy d.op = false) (hfail : (s.stepUnit n).failing = 0) :
    s.tileComplete n e = s.setStep n ({ s.stepUnit n with poison := (s.stepUnit n).poison || tile.poison }.setEngine e
      (toDrain d { s.engine n e with drain := none, done := (s.engine n e).done + 1 })) := by
  rw [State.engine] at *
  simp only [State.tileComplete, hrun, hdrain, hout, hop, Nat.not_le.mpr hrow, State.endFailing, State.stepUnit_setStep_self, StepUnit.setEngine, hfail]
  simp

/-- An increment for an open core applies at once (R176, R181). -/
theorem State.addTally_open (h : Open s n) (i : Nat) (x : Incr) : s.addTally n i x = s.applyTally n i x := by
  obtain ⟨hfrozen, hdie, hgated⟩ := h
  rw [State.addTally, hfrozen]
  exact (if_neg (Bool.eq_false_iff.mp hdie)).trans (if_neg (Bool.eq_false_iff.mp hgated))

theorem StepUnit.queued_none {u : StepUnit} (h : u.queued = none) : { u with queued := none } = u := by rw [← h]

/-- The running Step `d` retires: the LAST fields, and an empty Shelf (R51, R126). -/
def State.retireStep (s : State) (n : Nat) (d : StepIssue) : State :=
  (s.setStep n { s.stepUnit n with running := none, lastSeq := d.seq, lastEnd := 0, lastPoison := (s.stepUnit n).poison, poison := false }).clearShelf n

theorem State.seq_retireStep (s : State) (n m : Nat) (d : StepIssue) : (s.retireStep n d).seq m = s.seq m := rfl

/-- Said of any value `v`: with the increment's own, the kernel would try to evaluate it. -/
theorem State.seqs_setReg_tallySet (s : State) (r : RegSpec) (is : List Nat) (v : DWord) (m : Tbl Bool) :
    { s.setReg r is v with tallySet := m }.seqs = s.seqs := rfl

theorem State.applyTally_seqs (s : State) (n i : Nat) (x : Incr) : (s.applyTally n i x).seqs = s.seqs := by
  rw [State.applyTally]
  exact State.seqs_setReg_tallySet s _ _ _ _

theorem State.seq_applyTally (s : State) (n i m : Nat) (x : Incr) : (s.applyTally n i x).seq m = s.seq m := by
  rw [State.seq, State.applyTally_seqs, State.seq]

/-- The Steps done count up to `d`, and what waited for them is let go (R51, R73). -/
def State.countStep (s : State) (n : Nat) (d : StepIssue) : State :=
  (s.setSeq n { s.seq n with stepsDone := max (s.seq n).stepsDone d.ord }).releaseHeld n

/-- The commit of a Step with none queued behind it (R51). -/
theorem State.stepCommit_alone (hrun : (s.stepUnit n).running = some d) (hqueue : (s.stepUnit n).queued = none) (hready : (s.stepUnit n).ready d = true) :
    s.stepCommit n = ((s.retireStep n d).when (d.field 224 224 == 1) (fun s =>
      s.addTally n (d.field 191 180) { amount := 1, kind := 2, scope := 2, core := n })).countStep n d := by
  have hunit := congrArg (fun u : StepUnit => { u with running := none, lastSeq := d.seq, lastEnd := 0, lastPoison := u.poison, poison := false })
    (StepUnit.queued_none hqueue)
  rw [State.retireStep, ← hunit]
  simp only [State.stepCommit, hrun, hready, hqueue, not_true_eq_false, if_false]
  rfl

end

end Sys2Proof.Machine

namespace Sys2Proof.Proofs
open Sys2Proof Sys2Proof.Machine

/-- Settles O10: a replay writes registers alone before the instruction has its effect; a park keeps the group's registers and PC. -/
theorem vectorReplay : Obligations.VectorReplay := by
  refine ⟨?same, ?counted, ?parked⟩
  case same =>
    intro n g s t c hc ht
    simp only [List.mem_cons, List.not_mem_nil, or_false] at hc
    rcases hc with rfl | rfl | rfl | rfl | rfl | rfl | rfl
    · exact (vectorFpOp_row n g).replayed ht
    · exact (vectorIntOp_row n g).replayed ht
    · exact (vectorImmOp_row n g).replayed ht
    · exact (specialFunction_row n g).replayed ht
    · exact (radd_row n g).replayed ht
    · exact (pk_row n g).replayed ht
    · exact (unpk_row n g).replayed ht
  case counted =>
    intro n g s w hat hexec
    refine ⟨_, (specialFunction_row n g).corrected hat rfl rfl hexec, ?_⟩
    rw [State.fld_keepPilot, State.fld_keepPilot, State.fld_setGroup, State.fld_setGroup]
    exact ⟨s.fld_arithCnt_logReplay n F.CST_ARITH_CNT_VEC_REPLAY _ (by decide) (by decide), s.fld_prod_logReplay n _ _⟩
  case parked =>
    intro n g s w hat hexec
    refine ⟨_, (specialFunction_row n g).parks hat rfl rfl hexec, ?_⟩
    rw [State.group_keepPilot, State.group_parkRec, State.group_logReplay]
    exact ⟨rfl, rfl, rfl, rfl, rfl⟩

/-- Settles O8: each class by its row's result without a mismatch. -/
theorem vectorArithmetic : Obligations.VectorArithmetic := by
  refine ⟨?fp, ?unpackPair, ?int, ?imm, ?special, ?unpk, ?pk⟩
  case fp =>
    intro n g s w hat hop
    have h := (vectorFpOp_row n g).effect hat rfl
    simpa only [if_neg hop, Group.vdSet] using h
  case unpackPair =>
    intro n g s w hat hop
    have h := (vectorFpOp_row n g).effect hat rfl
    simpa only [fpResult, hop, if_true, Option.getD_some] using h
  case int => exact fun n g s w hat => (vectorIntOp_row n g).effect hat rfl
  case imm => exact fun n g s w hat => (vectorImmOp_row n g).effect hat rfl
  case special => exact fun n g s w hat => (specialFunction_row n g).effect hat rfl
  case unpk =>
    intro n g s w hat hop
    exact (unpk_row n g).effect hat (by simpa using hop)
  case pk =>
    rintro n g s w lo hi y hat hop rfl rfl rfl
    exact (pk_row n g).effect hat (by simpa using hop)

/-- Settles O6: the row's mismatch replays the tile, then the replay is counted and recorded. -/
theorem mismatchReplaysTile : Obligations.MismatchReplaysTile := by
  intro n e s sums shadows d tile acc residue shadow poison hrun henter hent hreplay hrow hbad
  have hexec := exec_engineRowEntry hrun henter hent hrow
  rw [if_pos hbad, State.mismatch_first s n e _ hreplay] at hexec
  refine ⟨_, hexec, ?_, ?_, ?_, ?_, ?_, ?_⟩
  · rw [State.engine_keepPilot, State.engine_logReplay, State.engine_replayTile, if_pos ⟨rfl, rfl⟩]
  · rw [State.fld_keepPilot, State.fld_prod_logReplay, State.fld_replayTile]
  · rw [State.keepPilot_replays, State.logReplay_replays, State.replayTile_replays]
  · intro m f hother
    rw [State.engine_keepPilot, State.engine_logReplay, State.engine_replayTile, if_neg hother]
  · intro m
    rw [State.seq_keepPilot, State.seq, State.logReplay_seqs, State.replayTile_seqs, State.seq]
  · rw [State.keepPilot_mem, State.logReplay_mem, State.replayTile_mem]

/-- Settles O5: each event by its unit's lemma; at a commit the Shelf and the Tally leave the sequencer as it was, so it counts its Steps as before. -/
theorem engineWork : Obligations.EngineWork := by
  refine ⟨?skip, ?start, ?row, ?output, ?tileEnd, ?commit, ?commitTally⟩
  case skip =>
    rintro n e s _ d t rfl hrun htakes henter hstop hfail hleft hentry hv
    rw [exec_tileFetch, State.tileFetch_skip ⟨hrun, htakes, henter, hstop, hfail, hleft⟩ hentry hv, State.keepPilot_setEngine]
  case start =>
    rintro n e s _ d t tile rfl hrun htakes henter hdrain hstop hfail hleft hentry hv hfault hrows htile
    rw [exec_tileFetch, State.tileFetch_start ⟨hrun, htakes, henter, hstop, hfail, hleft⟩ hentry hv hdrain hfault hrows htile, State.keepPilot_setEngine]
  case row =>
    intro n e s sums shadows d t acc poison hrun henter hent hrow
    rw [exec_engineRowEntry hrun henter hent hrow, if_neg (by decide), State.keepPilot_setEngine]
  case output =>
    intro n e s d t hrun hdrain hout hrow hchk
    rw [exec_outputRowWrite, State.outputRow_checked hrun hdrain hout hrow hchk]
  case tileEnd =>
    intro n e s d t hrun hdrain hout hrow hop hfail
    rw [exec_tileComplete, State.tileComplete_done hrun hdrain hout hrow hop hfail, State.keepPilot_setStep]
  case commit =>
    intro n s d hrun hqueue hready htally
    rw [exec_stepCommit, State.stepCommit_alone hrun hqueue hready, htally, State.when, if_neg (by decide), State.countStep, State.seq_retireStep]
    rfl
  case commitTally =>
    intro n s d hrun hqueue hready htally hopen
    have hretired : Open (s.retireStep n d) n := hopen
    rw [exec_stepCommit, State.stepCommit_alone hrun hqueue hready, htally, State.when, if_pos (by decide), State.addTally_open hretired, State.countStep,
      State.seq_applyTally, State.seq_retireStep]
    rfl

end Sys2Proof.Proofs
end

section
/-! PROOFS. The sequencer and schedule images (04_sequencer_and_schedule_images.md): Lemgus-S words (R57), the instructions of the sequencer and the ends of their
waits (R58-R72), the waits of thread groups (R110-R118), and the commands of an image slot (R79-R83). -/
namespace Sys2Proof.Machine

/-! ### Lemgus-S words (R57) -/

theorem bitsS_encodeS_opcode (i : SInstr) : bitsS (encodeS i) 56 8 = i.opcode := BitVec.extractLsb'_append_eq_left

/-- A field of the operands reads the same in the word. -/
theorem bitsS_encodeS (i : SInstr) {lo w : Nat} (h : lo + w ≤ 56) : bitsS (encodeS i) lo w = i.operands.extractLsb' lo w :=
  BitVec.extractLsb'_append_eq_of_add_le h

/-- Each row of Table SQ-3 reads back the fields that it lays out, and zeros between them. -/
theorem fieldsS_encodeS (i : SInstr) : fieldsS (encodeS i) = some i := by
  cases i <;>
    simp (disch := decide) [fieldsS, bitsS_encodeS_opcode, bitsS_encodeS, SInstr.opcode, SInstr.operands, BitVec.extractLsb'_append_eq_of_le,
      BitVec.extractLsb'_append_eq_of_add_le, reservedZero, -Nat.reduceAdd]

/-- Of the words that instructions have, decoding refuses those with a reserved code alone. -/
theorem decodeS_encodeS (i : SInstr) : decodeS (encodeS i) = if i.legal then some i else none := by
  rw [decodeS, fieldsS_encodeS]
  rfl

/-- An instruction is decoded by the opcode byte of Table SQ-2 alone. -/
theorem fieldsS_opcode {x : BitVec 64} {i : SInstr} (h : fieldsS x = some i) : (bitsS x 56 8).toNat = i.opcode.toNat := by
  unfold fieldsS at h
  split at h <;> simp only [reservedZero, Option.ite_none_right_eq_some, Option.some.injEq, reduceCtorEq] at h
  all_goals
    obtain ⟨-, rfl⟩ := h
    assumption

theorem decodeS_opcode {x : BitVec 64} {i : SInstr} (h : decodeS x = some i) : fieldOf x 63 56 = i.opcode.toNat := by
  obtain ⟨hfields, -⟩ := Option.filter_eq_some_iff.mp h
  rw [← fieldsS_opcode hfields, bitsS, BitVec.extractLsb'_toNat]
  rfl

/-! ### Reaching an instruction (R58, R71) -/

section
variable {s : State} {n op : Nat} {i : SInstr}

theorem AtS.reachS (h : AtS s n op i) (f : Seq → SInstr → State) : s.reachS n op f = f (s.seq n) i := by
  obtain ⟨hmoving, hfetch⟩ := h
  exact State.reachS_ok f hmoving hfetch

theorem HeldS.heldS {hold : SeqHold} (h : HeldS s n hold i) (f : Seq → SInstr → State) : s.heldS n hold f = f (s.seq n) i := by
  obtain ⟨hhold, hfetch⟩ := h
  exact State.heldS_ok f hhold hfetch

/-- The fault that an instruction shows is what its fetch answers. -/
theorem AtWord.fetchS_fault (h : AtWord s n i) {c : Nat} (hfault : ∀ r, s.staticFault n r (s.seq n).loops.length (s.seq n).calls.length i = c + 1) :
    s.fetchS n (some i.opcode.toNat) (s.seq n).pc (s.seq n).loops.length (s.seq n).calls.length = .fault (c + 1) := by
  obtain ⟨-, r, hregion, hlen, hpoison, hdecode⟩ := h
  simp only [State.fetchS, hregion, Nat.not_lt.mpr hlen, hpoison, decodeS_opcode hdecode, hdecode, hfault, bne_self_eq_false, Bool.and_false,
    Bool.false_eq_true, if_false]

/-- An instruction that shows a fault stops the sequencer with it (R71). -/
theorem AtWord.reachS_fault (h : AtWord s n i) {c : Nat} (hfault : ∀ r, s.staticFault n r (s.seq n).loops.length (s.seq n).calls.length i = c + 1)
    (f : Seq → SInstr → State) : s.reachS n i.opcode.toNat f = s.seqFault n (c + 1) := by
  have hfetch := h.fetchS_fault hfault
  obtain ⟨hmoving, -⟩ := h
  simp only [State.reachS, hmoving, hfetch, not_true_eq_false, if_false]

end

/-! ### LOOP, ENDLOOP, CALL, RET (R66) -/

section
variable {s : State} {n : Nat}

theorem AtS.loopS {c : BitVec 16} {st : BitVec 32} (h : AtS s n 0x10 (.loop c st)) :
    s.loopS n = s.setSeq n { (s.seq n).goto ((s.seq n).pc + 1) with loops := ⟨(s.seq n).pc + 1, c.toNat, 0, st⟩ :: (s.seq n).loops } := h.reachS _

theorem AtS.endloopS (h : AtS s n 0x11 .endloop) : s.endloopS n =
    s.setSeq n { (s.seq n).goto (loopEnd (s.seq n).loops (s.seq n).pc).2 with loops := (loopEnd (s.seq n).loops (s.seq n).pc).1 } := h.reachS _

theorem loopEnd_again {f : LoopFrame} (h : f.index < f.countM1) (fs : List LoopFrame) (pc : BitVec 18) :
    loopEnd (f :: fs) pc = ({ f with index := f.index + 1 } :: fs, f.start) := if_pos h

theorem loopEnd_done {f : LoopFrame} (h : f.countM1 ≤ f.index) (fs : List LoopFrame) (pc : BitVec 18) : loopEnd (f :: fs) pc = (fs, pc + 1) :=
  if_neg (by omega)

theorem AtS.callS {t : BitVec 18} (h : AtS s n 0x12 (.call t)) :
    s.callS n = s.setSeq n { (s.seq n).goto t with calls := ((s.seq n).pc + 1) :: (s.seq n).calls } := h.reachS _

theorem AtS.retS (h : AtS s n 0x13 .ret) {p : BitVec 18} {ps : List (BitVec 18)} (hcalls : (s.seq n).calls = p :: ps) :
    s.retS n = s.setSeq n { (s.seq n).goto p with calls := ps } := by
  rw [State.retS, h.reachS, hcalls]

theorem AtWord.loopS_full {c : BitVec 16} {st : BitVec 32} (h : AtWord s n (.loop c st)) (hfull : 8 ≤ (s.seq n).loops.length) :
    s.loopS n = s.seqFault n 0x04 := h.reachS_fault (fun _ => if_pos hfull) _

theorem AtWord.endloopS_empty (h : AtWord s n .endloop) (hempty : (s.seq n).loops = []) : s.endloopS n = s.seqFault n 0x04 :=
  h.reachS_fault (fun _ => if_pos (List.length_eq_zero_iff.mpr hempty)) _

theorem AtWord.callS_full {t : BitVec 18} (h : AtWord s n (.call t)) (hfull : 8 ≤ (s.seq n).calls.length) : s.callS n = s.seqFault n 0x05 :=
  h.reachS_fault (fun _ => if_pos hfull) _

theorem AtWord.retS_empty (h : AtWord s n .ret) (hempty : (s.seq n).calls = []) : s.retS n = s.seqFault n 0x05 :=
  h.reachS_fault (fun _ => if_pos (List.length_eq_zero_iff.mpr hempty)) _

end

theorem exec_loop (n : CoreId) (s : State) : exec (.loop n) s = .next (s.keepPilot (s.loopS n)) := rfl
theorem exec_endloop (n : CoreId) (s : State) : exec (.endloop n) s = .next (s.keepPilot (s.endloopS n)) := rfl
theorem exec_call (n : CoreId) (s : State) : exec (.call n) s = .next (s.keepPilot (s.callS n)) := rfl
theorem exec_ret (n : CoreId) (s : State) : exec (.ret n) s = .next (s.keepPilot (s.retS n)) := rfl

/-! ### SELECT, WAIT, SIG, FENCE, CHEAP, YIELD, HALT as they are reached (R63-R70) -/

section
variable {s : State} {n : Nat} {i : SInstr}

theorem AtS.waitS {tally : BitVec 12} {x : BitVec 4} {set : BitVec 1} {scope : BitVec 3} {imm : Word} (h : AtS s n 0x08 (.wait tally x set scope imm)) {e : Word}
    (he : e = if set = 1 then imm else (s.seq n).exps.getD x.toNat 0 + imm) :
    s.waitS n = s.setSeq n { (s.seq n) with
      exps := setAt (s.seq n).exps x.toNat e, status := .inWait, hold := .wait, waitTally := tally.toNat, waitExp := x.toNat, waitTarget := e, since := s.now } := by
  subst he
  exact h.reachS _

theorem AtS.sigS (h : AtS s n 0x09 i) : s.sigS n = s.setSeq n { (s.seq n) with hold := .sig, status := .running } := h.reachS _

theorem AtS.fenceS (h : AtS s n 0x0A i) : s.fenceS n = s.setSeq n { (s.seq n) with hold := .fence, status := .running } := h.reachS _

/-- A CHEAP with no stop pending is passed (R69). -/
theorem AtS.cheapS_passes (h : AtS s n 0x18 i) (hstop : s.stopPending n = false) :
    s.cheapS n = s.setSeq n { (s.seq n).goto ((s.seq n).pc + 1) with maxGap := max (s.seq n).maxGap (s.seq n).gap, gap := 0 } := by
  rw [State.cheapS, h.reachS, hstop]
  rfl

theorem AtS.cheapS_holds (h : AtS s n 0x18 i) (hstop : s.stopPending n = true) :
    s.cheapS n = s.setSeq n { (s.seq n) with maxGap := max (s.seq n).maxGap (s.seq n).gap, gap := 0, hold := .cheap } := by
  rw [State.cheapS, h.reachS, hstop]
  rfl

/-- A YIELD that nobody waits for is passed (R70). -/
theorem AtS.yieldS_passes (h : AtS s n 0x19 i) {b j : Nat} (hstream : (s.seq n).stream = some (b, j)) (hstop : s.stopPending n = false)
    (hpeer : s.peerReady b j = false) (hwake : s.reg Reg.BAY_WAKE [b, j] = 0) : s.yieldS n = s.setSeq n ((s.seq n).goto ((s.seq n).pc + 1)) := by
  rw [State.yieldS, h.reachS, hstream]
  exact if_neg (by simp [hstop, hpeer, hwake])

theorem AtS.haltS (h : AtS s n 0x1F i) : s.haltS n = s.setSeq n { (s.seq n) with hold := .halt } := h.reachS _

/-- The selected index, from `v` bits of a control word into a table of the region (R67). -/
theorem AtS.selectS {word : BitVec 4} {lo : BitVec 6} {widthM1 : BitVec 3} {table : BitVec 16} (h : AtS s n 0x14 (.select word lo widthM1 table))
    {b v e : Nat} {r : Region} (hbay : s.bayOfCore n = some b) (hregion : s.region n = some r) (hword : s.poisoned (s.ctlAddr b word.toNat) 8 = false)
    (hv : v = bitsOf (ofLeBytes (s.bytes (s.ctlAddr b word.toNat) 8)) (lo.toNat + widthM1.toNat) lo.toNat)
    (hin : 32 * table.toNat + 8 * v + 8 ≤ r.len) (hentry : s.pantryPoison n (r.base + (32 * table.toNat + 8 * v)) 8 = false)
    (he : e = s.pantryNat n (r.base + (32 * table.toNat + 8 * v)) 8) (hlt : e < 2 ^ 18) :
    s.selectS n = s.setSeq n ((s.seq n).goto (BitVec.ofNat 18 e)) := by
  rw [State.selectS, h.reachS, hbay, hregion]
  simp only [hword, ← hv, ← he, Nat.not_lt.mpr hin, hentry, Nat.not_le.mpr hlt, Bool.false_eq_true, if_false]

end

theorem exec_wait (n : CoreId) (s : State) : exec (.wait n) s = .next (s.keepPilot (s.waitS n)) := rfl
theorem exec_sig (n : CoreId) (s : State) : exec (.sig n) s = .next (s.keepPilot (s.sigS n)) := rfl
theorem exec_fence (n : CoreId) (s : State) : exec (.fence n) s = .next (s.keepPilot (s.fenceS n)) := rfl
theorem exec_cheap (n : CoreId) (s : State) : exec (.cheap n) s = .next (s.keepPilot (s.cheapS n)) := rfl
theorem exec_yield (n : CoreId) (s : State) : exec (.yield n) s = .next (s.keepPilot (s.yieldS n)) := rfl
theorem exec_halt (n : CoreId) (s : State) : exec (.halt n) s = .next (s.keepPilot (s.haltS n)) := rfl
theorem exec_select (n : CoreId) (s : State) : exec (.select n) s = .next (s.keepPilot (s.selectS n)) := rfl

/-! ### STEP, MOVE and LAUNCH (R58-R62, R72) -/

theorem Tbl.filter_ins {α : Type} (k : Nat) (v : α) (t : Tbl α) : (Tbl.ins k v t).filter (fun e => decide (e.1 ≠ k)) = t.filter (fun e => decide (e.1 ≠ k)) := by
  induction t with
  | nil => simp [Tbl.ins]
  | cons e r ih =>
    simp only [Tbl.ins]
    split
    · simp
    · rw [List.filter_cons, List.filter_cons, ih]

/-- Of two writes to a number the second stands. -/
theorem Tbl.set_set {α : Type} [DecidableEq α] (t : Tbl α) (d : α) (k : Nat) (v w : α) : (Tbl.set t d k v).set d k w = Tbl.set t d k w := by
  have herase : (Tbl.set t d k v).filter (fun e => decide (e.1 ≠ k)) = t.filter (fun e => decide (e.1 ≠ k)) := by
    rw [Tbl.set]
    split
    · simp only [List.filter_filter, Bool.and_self]
    · simp only [Tbl.filter_ins, List.filter_filter, Bool.and_self]
  rw [Tbl.set, herase, ← Tbl.set]

theorem State.setSeq_setSeq (s : State) (n : Nat) (q r : Seq) : (s.setSeq n q).setSeq n r = s.setSeq n r := by
  simp only [State.setSeq, Tbl.set_set]

@[simp] theorem State.kern_setKern_self (s : State) (n : Nat) (k : Kernels) : (s.setKern n k).kern n = k := Tbl.get_set_self _ _ _ _

/-- What lets a sequencer move on also says that it waits for nothing and issues nothing again. -/
theorem Seq.moving_iff {q : Seq} : q.moving = true ↔ q.status = .running ∧ q.hold = .free ∧ q.reissue = [] := by
  simp [Seq.moving, and_assoc]

section
variable {s : State} {n : Nat}

theorem AtS.stepS {slot : BitVec 16} (h : AtS s n 0x01 (.step slot)) : s.stepS n = s.tryStep n (s.seq n).pc slot.toNat none := by
  obtain ⟨-, hfree, hreissue⟩ := Seq.moving_iff.mp h.1
  rw [State.stepS, hreissue]
  simp only [hfree, reduceCtorEq, if_false]
  exact h.reachS _

/-- The sequencer once its STEP has issued `d` from bank `bank` (R58, R77). -/
def Seq.issued (q : Seq) (bank : Nat) (d : StepIssue) : Seq :=
  { q.advance with bank := bank, stepsIssued := q.stepsIssued + 1, chainPc := if !d.accIn then q.pc else q.chainPc,
                   chainLoops := if !d.accIn then q.loops else q.chainLoops }

/-- Behind a running Step the issued one is queued. -/
theorem State.issueStep_queues {d r : StepIssue} (hrun : (s.stepUnit n).running = some r) :
    s.issueStep n d = s.setStep n { s.stepUnit n with queued := some d } := by
  rw [State.issueStep]
  split
  · next hnone => exact absurd (hrun.symm.trans hnone) (by simp)
  · rfl

theorem State.tryStep_queues {slot bank : Nat} {d r : StepIssue} (hrun : (s.stepUnit n).running = some r) (hqueue : (s.stepUnit n).queued = none)
    (hread : s.readStep n (s.seq n).pc slot (s.seq n).loops ((s.seq n).stepsIssued + 1) = .inr (bank, d)) :
    s.tryStep n (s.seq n).pc slot none = (s.setSeq n ((s.seq n).issued bank d)).setStep n { s.stepUnit n with queued := some d } := by
  have hroom : s.stepRoom n = true := by simp [State.stepRoom, hqueue]
  rw [State.tryStep, hroom, if_neg (by decide)]
  simp only [hread]
  exact State.issueStep_queues (s := s.setSeq n ((s.seq n).issued bank d)) hrun

theorem State.tryStep_stalls {slot : Nat} {r k : StepIssue} (hrun : (s.stepUnit n).running = some r) (hqueue : (s.stepUnit n).queued = some k) :
    s.tryStep n (s.seq n).pc slot none = s.holdS n .step .stallStep := by
  have hfull : s.stepRoom n = false := by simp [State.stepRoom, hrun, hqueue]
  rw [State.tryStep, hfull]
  rfl

/-- A MOVE with PF = 0 is posted where its channel has room. -/
theorem State.tryMove_posts {slot chan : Nat} {pf cl : BitVec 1} (hpf : pf = 0) (hroom : s.queueRoom (movePorter n cl) chan = true) :
    s.tryMove n slot pf cl chan = (s.setSeq n (s.seq n).advance).post (movePorter n cl) chan (s.moveDesc n slot) := by
  subst hpf
  simp [State.tryMove, hroom]

theorem State.tryMove_stalls {slot chan : Nat} {pf cl : BitVec 1} (hpf : pf = 0) (hfull : s.queueRoom (movePorter n cl) chan = false) :
    s.tryMove n slot pf cl chan = s.holdS n .move .stallChan := by
  subst hpf
  simp [State.tryMove, hfull]

theorem AtS.moveS {slot : BitVec 16} {pf cl : BitVec 1} {chan : BitVec 4} (h : AtS s n 0x02 (.move slot pf cl chan)) :
    s.moveS n = s.tryMove n slot.toNat pf cl chan.toNat := h.reachS _

theorem HeldS.moveEnqueue {slot : BitVec 16} {pf cl : BitVec 1} {chan : BitVec 4} (h : HeldS s n .move (.move slot pf cl chan)) :
    s.moveEnqueue n = s.tryMove n slot.toNat pf cl chan.toNat := h.heldS _

theorem AtS.launchS {slot : BitVec 16} {g : BitVec 4} {en : BitVec 1} {tally : BitVec 12} (h : AtS s n 0x03 (.launch slot g en tally)) :
    s.launchS n = s.tryLaunch n slot.toNat (g.toNat + 1) (en == 1) tally.toNat := h.reachS _

theorem HeldS.launchStart {slot : BitVec 16} {g : BitVec 4} {en : BitVec 1} {tally : BitVec 12} (h : HeldS s n .launch (.launch slot g en tally)) :
    s.launchStart n = s.tryLaunch n slot.toNat (g.toNat + 1) (en == 1) tally.toNat := h.heldS _

theorem State.tryLaunch_stalls {slot groups tally : Nat} {en : Bool} (hfull : (s.freeSlots n).length < groups) :
    s.tryLaunch n slot groups en tally = s.holdS n .launch .stallChan := if_pos hfull

/-- The walk that finds a prefetch MOVE starts it (R72). -/
theorem State.prefetchStart_starts {c : Scan} {p : Prefetch} (hstatus : (s.seq n).status = .running)
    (hwalk : s.scanWalk n scanFuel (s.scanStart n) = (c, some p)) :
    s.prefetchStart n = (s.setSeq n { (s.seq n) with scan := c, started := p.number :: (s.seq n).started }).post p.porter p.chan p.desc := by
  simp only [State.prefetchStart, hstatus, hwalk, State.seq_setSeq_self, State.setSeq_setSeq]
  rfl

end

/-! #### The groups of a LAUNCH (R62, R89) -/

/-- Groups put in the slots of a list: in the slot at place `k`, counted from `i`, the group `x k`. -/
def State.placeGroups (s : State) (n : Nat) (x : Nat → Group) (i : Nat) (slots : List Nat) : State :=
  (slots.zipIdx i).foldl (fun s e => s.setGroup n e.1 (x e.2)) s

theorem State.placeGroups_cons (s : State) (n : Nat) (x : Nat → Group) (i g : Nat) (slots : List Nat) :
    s.placeGroups n x i (g :: slots) = (s.setGroup n g (x i)).placeGroups n x (i + 1) slots := rfl

/-- What a group's placement leaves alone is the same after all of them. -/
theorem State.placeGroups_field {α : Type} (f : State → α) (hf : ∀ s n g y, f (s.setGroup n g y) = f s) (s : State) (n : Nat) (x : Nat → Group) (i : Nat)
    (slots : List Nat) : f (s.placeGroups n x i slots) = f s := by
  induction slots generalizing s i with
  | nil => rfl
  | cons g slots ih => rw [State.placeGroups_cons, ih, hf]

theorem State.group_setGroup (s : State) (n g h : Nat) (y : Group) : (s.setGroup n g y).group n h = if g = h then y else s.group n h := by
  simp only [State.group, State.setGroup, Tbl.get_set, Nat.add_left_cancel_iff]

theorem State.group_placeGroups_other (s : State) (n : Nat) (x : Nat → Group) (i : Nat) {g : Nat} {slots : List Nat} (hg : g ∉ slots) :
    (s.placeGroups n x i slots).group n g = s.group n g := by
  induction slots generalizing s i with
  | nil => rfl
  | cons h slots ih =>
    obtain ⟨hne, hmem⟩ := not_or.mp (mt List.mem_cons.mpr hg)
    rw [State.placeGroups_cons, ih _ _ hmem, State.group_setGroup, if_neg (Ne.symm hne)]

theorem State.group_placeGroups (s : State) (n : Nat) (x : Nat → Group) (i : Nat) {slots : List Nat} (hnodup : slots.Nodup) {k : Nat} (hk : k < slots.length) :
    (s.placeGroups n x i slots).group n slots[k] = x (i + k) := by
  induction slots generalizing s i k with
  | nil => simp at hk
  | cons h slots ih =>
    obtain ⟨hhead, htail⟩ := List.nodup_cons.mp hnodup
    cases k with
    | zero =>
      rw [State.placeGroups_cons, List.getElem_cons_zero, State.group_placeGroups_other _ _ _ _ hhead, State.group_setGroup, if_pos rfl, Nat.add_zero]
    | succ k =>
      rw [State.placeGroups_cons, List.getElem_cons_succ, ih _ _ htail (Nat.lt_of_succ_lt_succ hk), Nat.add_right_comm, Nat.add_assoc]

section
variable {s : State} {n slot groups tally : Nat} {en : Bool} {r : Region}

theorem State.freeSlots_nodup (s : State) (n : Nat) : (s.freeSlots n).Nodup := List.nodup_range.filter _

/-- Group `k` of the kernel that descriptor `slot` of region `r` starts on core `n`, as LAUNCH places it. -/
def State.launchGroup (s : State) (n : Nat) (r : Region) (slot k : Nat) : Group :=
  Group.initial (BitVec.ofNat 18 (s.pantryNat n (r.base + 32 * slot) 4)) k (s.kern n).next
    [s.pantryNat n (r.base + 32 * slot + 4) 4, s.pantryNat n (r.base + 32 * slot + 8) 4, s.pantryNat n (r.base + 32 * slot + 12) 4]

/-- With free slots for its groups the kernel starts, on an empty Shelf (R62, R126). -/
theorem State.tryLaunch_starts (hfree : groups ≤ (s.freeSlots n).length) (hregion : s.region n = some r) :
    s.tryLaunch n slot groups en tally =
      (((s.setSeq n (s.seq n).advance).setKern n { next := (s.kern n).next + 1, running := (s.kern n).running ++ [⟨(s.kern n).next, groups, en, tally⟩] }).placeGroups
        n (s.launchGroup n r slot) 0 ((s.freeSlots n).take groups)).clearShelf n := by
  simp only [State.tryLaunch, Nat.not_lt.mpr hfree, hregion, if_false]
  rfl

/-- A command whose meaning is to place a kernel of `g + 1` groups, for which there are slots, starts it and moves the sequencer on. -/
theorem launch_effect {c : Instr} {g : Nat} (hexec : exec c s = .next (s.keepPilot (s.tryLaunch n slot (g + 1) en tally)))
    (hfree : g + 1 ≤ (s.freeSlots n).length) (hregion : s.region n = some r) :
    ∃ t, exec c s = .next t ∧ t.seq n = (s.seq n).advance ∧
      t.kern n = { next := (s.kern n).next + 1, running := (s.kern n).running ++ [⟨(s.kern n).next, g + 1, en, tally⟩] } ∧
      (∀ k, k ≤ g → t.group n ((s.freeSlots n).getD k 8) = s.launchGroup n r slot k) ∧ t.regs = s.regs ∧ t.mem = s.mem := by
  rw [State.tryLaunch_starts hfree hregion] at hexec
  refine ⟨_, hexec, ?seq, ?kern, fun k hk => ?group, ?regs, ?mem⟩
  case seq =>
    refine (State.placeGroups_field (fun t => t.seq n) (fun _ _ _ _ => rfl) _ _ _ _ _).trans ?_
    rw [State.seq_setKern, State.seq_setSeq_self]
  case kern =>
    exact (State.placeGroups_field (fun t => t.kern n) (fun _ _ _ _ => rfl) _ _ _ _ _).trans (State.kern_setKern_self _ _ _)
  case group =>
    have hlen : k < ((s.freeSlots n).take (g + 1)).length := by rw [List.length_take]; omega
    rw [List.getD_eq_getElem _ _ (by omega), ← List.getElem_take (h := hlen)]
    exact (State.group_placeGroups _ n (s.launchGroup n r slot) 0 ((s.freeSlots_nodup n).take) hlen).trans (by rw [Nat.zero_add])
  case regs => exact State.placeGroups_field State.regs (fun _ _ _ _ => rfl) _ _ _ _ _
  case mem => exact State.placeGroups_field State.mem (fun _ _ _ _ => rfl) _ _ _ _ _

end

theorem exec_step (n : CoreId) (s : State) : exec (.step n) s = .next (s.keepPilot (s.stepS n)) := rfl
theorem exec_move (n : CoreId) (s : State) : exec (.move n) s = .next (s.keepPilot (s.moveS n)) := rfl
theorem exec_moveEnqueue (n : CoreId) (s : State) : exec (.moveEnqueue n) s = .next (s.keepPilot (s.moveEnqueue n)) := rfl
theorem exec_launch (n : CoreId) (s : State) : exec (.launch n) s = .next (s.keepPilot (s.launchS n)) := rfl
theorem exec_launchStart (n : CoreId) (s : State) : exec (.launchStart n) s = .next (s.keepPilot (s.launchStart n)) := rfl
theorem exec_prefetchMoveStart (n : CoreId) (s : State) : exec (.prefetchMoveStart n) s = .next (s.keepPilot (s.prefetchStart n)) := rfl

@[simp] theorem State.keepPilot_post_setSeq (s : State) (n p c : Nat) (q : Seq) (d : PDesc) :
    s.keepPilot ((s.setSeq n q).post p c d) = (s.setSeq n q).post p c d := rfl

/-! ### The ends of waits and stops (R63-R65, R69, R70) -/

/-- The Pilot and the queue of `t` are those of `s`. -/
def SamePilot (s t : State) : Prop := t.pilot = s.pilot ∧ t.pending = s.pending

/-- A command that leaves the Pilot and the queue alone loses nothing by what keeps them. -/
theorem SamePilot.keepPilot {s t : State} (h : SamePilot s t) : s.keepPilot t = t := by
  obtain ⟨hpilot, hpending⟩ := h
  rw [State.keepPilot, ← hpilot, ← hpending]

theorem SamePilot.trans {s t u : State} (h : SamePilot s t) (k : SamePilot t u) : SamePilot s u := ⟨k.1.trans h.1, k.2.trans h.2⟩

theorem State.setSeq_samePilot (s : State) (n : Nat) (q : Seq) : SamePilot s (s.setSeq n q) := ⟨rfl, rfl⟩

theorem SameButRegs.samePilot {s t : State} (h : SameButRegs s t) : SamePilot s t := ⟨h.field State.pilot, h.field State.pending⟩

theorem State.wantWake_samePilot (s : State) (g : Nat) : SamePilot s (s.wantWake g) := by
  rw [State.wantWake]
  split <;> exact ⟨rfl, rfl⟩

/-- Said of any value `v`: with the increment's own, the kernel would try to evaluate it. -/
theorem State.setReg_tallySet_samePilot (s : State) (r : RegSpec) (is : List Nat) (v : DWord) (m : Tbl Bool) :
    SamePilot s { s.setReg r is v with tallySet := m } := ⟨rfl, rfl⟩

theorem State.applyTally_samePilot (s : State) (n i : Nat) (x : Incr) : SamePilot s (s.applyTally n i x) := by
  rw [State.applyTally]
  exact s.setReg_tallySet_samePilot _ _ _ _

theorem State.addTally_samePilot (s : State) (n i : Nat) (x : Incr) : SamePilot s (s.addTally n i x) := by
  rw [State.addTally]
  split
  · exact (s.bump_same _ _ _ _).samePilot
  · split
    · exact (s.bump_same _ _ _ _).samePilot
    · split
      · exact s.wantWake_samePilot (clusterOf n)
      · exact s.applyTally_samePilot n i x

theorem State.acquire_samePilot (s : State) (n scope : Nat) : SamePilot s (s.acquire n scope) := by
  rw [State.acquire, State.when]
  split <;> exact ⟨rfl, rfl⟩

theorem State.acquire_mem (s : State) (n scope : Nat) : (s.acquire n scope).mem = s.mem := by
  rw [State.acquire, State.when]
  split <;> rfl

/-- The scope audit writes registers alone (R182). -/
theorem State.audit_same (s : State) (n i scope : Nat) : SameButRegs s (s.audit n i scope) := by
  simp only [State.audit]
  split
  · exact SameButRegs.refl s
  · split
    · exact SameButRegs.refl s
    · exact (((State.bump_same _ _ _ _ _).trans (State.setFld_same _ _ _ _ _)).trans (State.setFld_same _ _ _ _ _)).trans (State.setFld_same _ _ _ _ _)

section
variable {s m : State} {n b j : Nat} {scope : BitVec 3}

/-- A WAIT whose Tally has reached its target completes as an acquire; the time since it began counts in R when a remote increment ended it (R363). -/
theorem HeldS.waitReached {tally : BitVec 12} {x : BitVec 4} {set : BitVec 1} {imm : Word} (h : HeldS s n .wait (.wait tally x set scope imm))
    (hreached : reached (s.tally n tally.toNat) (s.seq n).waitTarget = true) :
    s.waitReached n = (({ s with critR := s.critR + (if bitAt (s.reg Reg.CST_TALLY [n, tally.toNat]) 52 then s.now - (s.seq n).since else 0) }.audit
      n tally.toNat scope.toNat).acquire n scope.toNat).setSeq n (s.seq n).advance := by
  rw [State.waitReached, h.heldS]
  exact if_neg (by simp [hreached])

/-- A SIG to a core of this device whose inst. is not FROZEN increments once the earlier work is done (R64). -/
theorem HeldS.sigIssue_local {remote : BitVec 1} {dev : BitVec 11} {core : BitVec 9} {tally : BitVec 12} {amount : BitVec 16}
    (h : HeldS s n .sig (.sig scope remote dev core tally amount)) (hlocal : remote = 0) (hdone : s.workDone n = true) (hlive : s.frozenCore core.toNat = none) :
    s.sigIssue n = (s.setSeq n (s.seq n).advance).addTally core.toNat tally.toNat { amount := amount.toNat, kind := 1, scope := scope.toNat, core := n } := by
  have hlive' : (s.setSeq n (s.seq n).advance).frozenCore core.toNat = none := hlive
  subst hlocal
  rw [State.sigIssue, h.heldS]
  simp only [hdone, hlive', not_true_eq_false, Option.isSome_none, Bool.false_eq_true, and_false, if_false, if_true]

theorem HeldS.fenceComplete {acq rel : BitVec 1} (h : HeldS s n .fence (.fence scope acq rel)) (hdone : rel = 1 → s.workDone n = true) :
    s.fenceComplete n = (if acq = 1 then s.acquire n scope.toNat else s).setSeq n (s.seq n).advance := by
  have hgo : ¬ (rel = 1 ∧ ¬ s.workDone n = true) := fun hwait => hwait.2 (hdone hwait.1)
  rw [State.fenceComplete, h.heldS]
  simp only [hgo, if_false, State.when, beq_iff_eq]

theorem HeldS.cheapStop {live : BitVec 40} (h : HeldS s n .cheap (.cheap live)) (hdone : s.workDone n = true) :
    s.cheapStop n = (s.stopHere n live).getD s := by
  rw [State.cheapStop, h.heldS]
  exact if_pos hdone

theorem HeldS.yieldStop {live : BitVec 40} (h : HeldS s n .yielding (.yield live)) (hdone : s.workDone n = true) :
    s.yieldStop n = (s.stopHere n live).getD s := by
  rw [State.yieldStop, h.heldS]
  exact if_pos hdone

theorem HeldS.haltStop {code : BitVec 16} (h : HeldS s n .halt (.halt code)) (hdone : s.workDone n = true) :
    s.haltStop n = (s.haltHere n code).getD s := by
  rw [State.haltStop, h.heldS]
  exact if_pos hdone

/-- A core that is not the last of its Bay stops: its context recorded, it counts among the stopped (R69, R70). -/
theorem State.stopHere_notLast {live : BitVec 40} (hstream : (s.seq n).stream = some (b, j))
    (hrecord : ((s.undoRunAhead n).setSeq n { ((s.undoRunAhead n).seq n) with status := .stopped, hold := .free, live := live }).recordStop b j n live = .ok m)
    (hnew : n ∉ (m.bay b).stopped) (hrest : (m.setBay b { (m.bay b) with stopped := n :: (m.bay b).stopped }).allDone b = false) :
    s.stopHere n live = some (m.setBay b { (m.bay b) with stopped := n :: (m.bay b).stopped }) := by
  obtain ⟨record, hname⟩ : ∃ record, State.recordStop = record := ⟨_, rfl⟩ -- named, so that the kernel does not evaluate the record's stores
  rw [hname] at hrecord
  rw [State.stopHere, hname]
  simp only [hstream, hrecord, List.contains_iff_mem, hnew, if_false, hrest, Bool.false_eq_true]

/-- A core that is not the last of its Bay halts (R70). -/
theorem State.haltHere_notLast {code : BitVec 16} (hstream : (s.seq n).stream = some (b, j))
    (hrecord : ((s.undoRunAhead n).setSeq n { ((s.undoRunAhead n).seq n) with status := .halted, hold := .free, haltCode := code }).recordStop b j n 0 = .ok m)
    (hnew : n ∉ (m.img b j).haltedCores) (hrest : (m.setImg b j { (m.img b j) with haltedCores := n :: (m.img b j).haltedCores }).allDone b = false) :
    s.haltHere n code = some (m.setImg b j { (m.img b j) with haltedCores := n :: (m.img b j).haltedCores }) := by
  obtain ⟨record, hname⟩ : ∃ record, State.recordStop = record := ⟨_, rfl⟩ -- named as above
  rw [hname] at hrecord
  rw [State.haltHere, hname]
  simp only [hstream, hrecord, List.contains_iff_mem, hnew, if_false, hrest, Bool.false_eq_true]

end

theorem exec_waitTargetReached (n : CoreId) (s : State) : exec (.waitTargetReached n) s = .next (s.keepPilot (s.waitReached n)) := rfl
theorem exec_sigIssue (n : CoreId) (s : State) : exec (.sigIssue n) s = .next (s.keepPilot (s.sigIssue n)) := rfl
theorem exec_fenceComplete (n : CoreId) (s : State) : exec (.fenceComplete n) s = .next (s.keepPilot (s.fenceComplete n)) := rfl
theorem exec_cheapStop (n : CoreId) (s : State) : exec (.cheapStop n) s = .next (s.keepPilot (s.cheapStop n)) := rfl
theorem exec_yieldStop (n : CoreId) (s : State) : exec (.yieldStop n) s = .next (s.keepPilot (s.yieldStop n)) := rfl
theorem exec_haltStop (n : CoreId) (s : State) : exec (.haltStop n) s = .next (s.keepPilot (s.haltStop n)) := rfl

/-! ### Commands of an image slot (R79, R82, R83, Table SQ-11) -/

theorem State.img_setImg (s : State) (b j b' j' : Nat) (x : ImgSlot) :
    (s.setImg b j x).img b' j' = if 4 * b + j = 4 * b' + j' then x else s.img b' j' := by
  simp only [State.img, State.setImg, Tbl.get_set]

/-- The release of a slot's ranges changes the cores' ranges alone. -/
theorem State.releaseRanges_field {α : Type} (f : State → α) (hf : ∀ s n x, f (s.setRange n x) = f s) (s : State) (b j : Nat) :
    f (s.releaseRanges b j) = f s := by
  rw [State.releaseRanges]
  generalize s.coresOf b = cores
  induction cores generalizing s with
  | nil => rfl
  | cons n cores ih => rw [List.foldl_cons, ih, hf]

section
variable {s : State} {b j cmd : Nat} {ok : SlotStatus → Bool}

/-- A command that Table SQ-11 allows in the slot's state is taken. -/
theorem State.imgCmd_taken (f : State → State) (hactive : s.instActive (s.instOfBay b) = true) (hok : ok (s.img b j).status = true) :
    s.imgCmd b j cmd ok f = f (s.wrote Reg.BAY_IMG_CMD [b, j] cmd) := by
  simp only [State.imgCmd, hactive, hok, Bool.true_or, not_true_eq_false, if_false]

theorem State.imgCmd_refused (f : State → State) (hactive : s.instActive (s.instOfBay b) = true) (hok : ok (s.img b j).status = false) :
    s.imgCmd b j cmd ok f = s.imgRefused b j := by
  simp only [State.imgCmd, hactive, hok, Bool.true_or, not_true_eq_false, if_false, Bool.false_eq_true, not_false_eq_true, if_true]

/-- A command that releases the slot's ranges and sets it to `x` changes no other slot, no memory and no sequencer. -/
theorem release_effect {c : Instr} {x : ImgSlot}
    (hexec : exec c s = .next (s.keepPilot (((s.wrote Reg.BAY_IMG_CMD [b, j] cmd).releaseRanges b j).setImg b j x))) :
    ∃ t, exec c s = .next t ∧ t.img b j = x ∧ t.reg Reg.BAY_IMG_CMD [b, j] = BitVec.ofNat 64 cmd ∧
      (∀ b' j', 4 * b' + j' ≠ 4 * b + j → t.img b' j' = s.img b' j') ∧ t.mem = s.mem ∧ t.seqs = s.seqs := by
  refine ⟨_, hexec, ?slot, ?command, fun b' j' hother => ?others, ?mem, ?seqs⟩
  case slot => rw [State.img_keepPilot, State.img_setImg, if_pos rfl]
  case command =>
    rw [State.reg_keepPilot, State.reg_setImg, State.releaseRanges_field (fun t => t.reg Reg.BAY_IMG_CMD [b, j]) (fun _ _ _ => rfl)]
    exact State.reg_setReg_self _ _ _ _
  case others =>
    rw [State.img_keepPilot, State.img_setImg, if_neg (Ne.symm hother), State.releaseRanges_field (fun t => t.img b' j') (fun _ _ _ => rfl), State.img_wrote]
  case mem => exact State.releaseRanges_field State.mem (fun _ _ _ => rfl) _ b j
  case seqs => exact State.releaseRanges_field State.seqs (fun _ _ _ => rfl) _ b j

/-- The image that the reads of slot `j`'s LOAD bring. -/
def State.loadSrc (s : State) (b j : Nat) : ImgSrc :=
  { s := s, base := (s.reg Reg.BAY_IMG_ADDR [b, j]).toNat, len := s.fld Reg.BAY_IMG_LEN [b, j] F.BAY_IMG_LEN_LEN, failAt := (s.img b j).failAt }

theorem State.loadEnd_places (hload : (s.img b j).status = .loading) (hswitch : (s.bay b).switch ≠ 2) (hreason : (s.loadSrc b j).reason b j = 0) :
    s.loadEnd b j = s.place (s.loadSrc b j) b j := by
  have hgo : ¬ ((s.img b j).status ≠ .loading ∨ (s.bay b).switch = 2) := by simp [hload, hswitch]
  rw [State.loadSrc] at *
  rw [State.loadEnd, if_neg hgo]
  dsimp only
  split
  · rfl
  · next hne => exact absurd hreason hne

theorem State.loadEnd_refuses (hload : (s.img b j).status = .loading) (hswitch : (s.bay b).switch ≠ 2) (hreason : (s.loadSrc b j).reason b j ≠ 0) :
    s.loadEnd b j = (s.loadRefused (s.loadSrc b j) b j).setImg b j { status := .refused, refuse := (s.loadSrc b j).reason b j } := by
  have hgo : ¬ ((s.img b j).status ≠ .loading ∨ (s.bay b).switch = 2) := by simp [hload, hswitch]
  rw [State.loadSrc] at *
  rw [State.loadEnd, if_neg hgo]
  dsimp only
  split
  · next heq => exact absurd heq hreason
  · rfl

/-- A load refused before a section was read has begun to place nothing (R79). -/
theorem State.loadRefused_early (s : State) {x : ImgSrc} (hearly : x.early b j ≠ 0) : s.loadRefused x b j = s := by
  have hbegun : x.begun b j = [] := if_pos hearly
  rw [State.loadRefused, hbegun]

/-- A STOPPED slot resumes where it stopped (R83). -/
theorem State.startSlot_stopped (hstatus : (s.img b j).status = .stopped) :
    s.startSlot b j = (s.setImg b j { s.img b j with status := .running, dormant := false, fresh := false, later := 0 }).becameReady b j := by
  simp only [State.startSlot, hstatus, State.when, reduceCtorEq, beq_iff_eq, if_false]
  rfl

/-- A LOADED slot begins afresh, its serving program reads its configuration (R82, R203). -/
theorem State.startSlot_loaded (hstatus : (s.img b j).status = .loaded) :
    s.startSlot b j = ((s.startServing b j).setImg b j
      { s.img b j with status := .running, dormant := false, fresh := true, later := 0, haltedCores := [] }).becameReady b j := by
  simp only [State.startSlot, hstatus, State.when, beq_self_eq_true, if_true]

theorem State.stopCmd_onCores (hresume : s.resuming b j = false) (hon : s.onCores b j = true) :
    s.stopCmd b j = s.setImg b j { s.img b j with status := .stopping } := by
  simp only [State.stopCmd, State.stopSlot, hresume, hon, Bool.false_eq_true, if_false, if_true]

theorem State.stopCmd_offCores (hresume : s.resuming b j = false) (hon : s.onCores b j = false) :
    s.stopCmd b j = (s.setImg b j { s.img b j with status := .stopped, dormant := false }).bayEvent b 1 := by
  simp only [State.stopCmd, State.stopSlot, hresume, hon, Bool.false_eq_true, if_false]

theorem State.abortCmd_now (hresume : s.resuming b j = false) : s.abortCmd b j = s.abortSlot b j := by
  simp only [State.abortCmd, hresume, Bool.false_eq_true, if_false]

/-- Off the cores an abort stops no core and frees none (R83). -/
theorem State.abortSlot_offCores (hon : s.onCores b j = false) :
    s.abortSlot b j = ((s.setImg b j { s.img b j with status := .aborted, later := 0, dormant := false }).releaseRanges b j).spnSlot b := by
  simp only [State.abortSlot, hon, Bool.false_eq_true, if_false]

theorem imgCmd_beside (b j : Nat) : BesideRecords (Reg.BAY_IMG_CMD.addr [b, j]) := by
  simp only [BesideRecords, RegSpec.addr, Reg.BAY_IMG_CMD, addrOf]; omega

theorem imgCmd_ne_prod (b j : Nat) : Reg.ERR_PROD.addr [] ≠ Reg.BAY_IMG_CMD.addr [b, j] := by
  simp only [RegSpec.addr, Reg.BAY_IMG_CMD, Reg.ERR_PROD, addrOf]; omega

theorem State.imgRefused_same (s : State) (b j : Nat) : SameButRegs s (s.imgRefused b j) := s.refuse_same _ _ _ _

theorem State.fld_prod_refuse (s : State) (w : Writer) (off cause reason : Nat) :
    (s.refuse w off cause reason).fld Reg.ERR_PROD [] F.ERR_PROD_PROD = (s.fld Reg.ERR_PROD [] F.ERR_PROD_PROD + 1) % 2 ^ 32 := s.fld_prod_log _

/-- The record of a discarded slot command leaves the command register alone. -/
theorem State.reg_imgCmd_imgRefused (s : State) (b j : Nat) : (s.imgRefused b j).reg Reg.BAY_IMG_CMD [b, j] = s.reg Reg.BAY_IMG_CMD [b, j] :=
  s.reg_log_beside _ (imgCmd_beside b j) (imgCmd_ne_prod b j)

end

theorem exec_load (b : BayId) (j : ImgId) (f : Option Nat) (s : State) : exec (.load b j f) s = .next (s.keepPilot (s.loadCmd b j f)) := rfl
theorem exec_loadEnd (b : BayId) (j : ImgId) (s : State) : exec (.loadEnd b j) s = .next (s.keepPilot (s.loadEnd b j)) := rfl
theorem exec_start (b : BayId) (j : ImgId) (s : State) : exec (.start b j) s = .next (s.keepPilot (s.startCmd b j)) := rfl
theorem exec_stop (b : BayId) (j : ImgId) (s : State) : exec (.stop b j) s = .next (s.keepPilot (s.stopImg b j)) := rfl
theorem exec_abort (b : BayId) (j : ImgId) (s : State) : exec (.abort b j) s = .next (s.keepPilot (s.abortImg b j)) := rfl
theorem exec_unload (b : BayId) (j : ImgId) (s : State) : exec (.unload b j) s = .next (s.keepPilot (s.unloadImg b j)) := rfl

/-! ### Waits, signals and ends of groups (R62, R89, R98, R110-R113) -/

section
variable {s : State} {n g : Nat} {w : VWord}

theorem AtV.control (h : AtV s n g 9 w) {op : Nat} (hop : w.op = op) (f : Group → VWord → State) : s.control n g op f = f (s.group n g) w :=
  State.reachV_of_atV f h (by simp [hop])

theorem AtV.wtally (h : AtV s n g 9 w) (hop : w.op = 0x0B) : s.wtally n g = s.setGroup n g
    { s.group n g with status := .waitTally w.tallyC (BitVec.ofNat 32 ((s.group n g).sreg w.saC).toNat) w.scopeC, spin := 0 } := h.control hop _

/-- A WTALLY whose Tally has reached its target completes as an acquire (R110). -/
theorem State.wtallyReached_ends {i scope : Nat} {target : Word} (hstatus : (s.group n g).status = .waitTally i target scope)
    (hreached : reached (s.tally n i) target = true) :
    s.wtallyReached n g = ((s.audit n i scope).acquire n scope).setGroup n g { (s.group n g).next with status := .ready } := by
  simp only [State.wtallyReached, hstatus, hreached, not_true_eq_false, if_false]

/-- A release within the device waits for nothing: every store is visible at once (log 42). -/
theorem State.releaseReady_device {scope : Nat} (hscope : s.widen n scope < 6) (f : State → State) : s.releaseReady n g scope f = f s := if_pos hscope

/-- A SIGT to a core of the same Bay, whose inst. is not FROZEN, at a scope within the device (R111). -/
theorem AtV.sigt (h : AtV s n g 9 w) (hop : w.op = 0x0C) (hbay : s.sameBay n w.coreC = true) (hlive : s.frozenCore w.coreC = none)
    (hscope : s.widen n w.scopeC < 6) : s.sigt n g =
      (s.setGroup n g (s.group n g).next).addTally w.coreC w.tallyC { amount := w.amountC, kind := 1, scope := w.scopeC, core := n } := by
  rw [State.sigt, h.control hop]
  simp only [hbay, hlive, not_true_eq_false, Option.isSome_none, Bool.false_eq_true, if_false]
  rw [State.releaseReady_device hscope]

theorem AtV.groupFence (h : AtV s n g 9 w) (hop : w.op = 0x0D) (hscope : w.relC = true → s.widen n w.scopeC < 6) : s.groupFence n g =
    if w.acqC then (s.setGroup n g (s.group n g).next).acquire n w.scopeC else s.setGroup n g (s.group n g).next := by
  rw [State.groupFence, h.control hop]
  dsimp only
  split
  · next hrel => rw [State.releaseReady_device (hscope hrel), State.when]
  · rw [State.when]

/-- The whole group reaches a barrier at which no other group of its kernel waits with another ID (R113). -/
theorem AtV.gbar (h : AtV s n g 9 w) (hop : w.op = 0x0E) (hwhole : (s.group n g).active = (s.group n g).live)
    (hid : ∀ h ∈ s.kernelSlots n (s.group n g).kernel, ∀ id, (s.group n h).status = .waitBar id → id = w.idC) :
    s.gbar n g = (s.setGroup n g { s.group n g with status := .waitBar w.idC, spin := 0 }).openBar n (s.group n g).kernel := by
  rw [State.gbar, h.control hop]
  refine if_neg ?_
  rintro (hpart | hother)
  · exact hpart hwhole
  · obtain ⟨k, hk, hdiff⟩ := List.any_eq_true.mp hother
    split at hdiff
    · next id hstatus => exact bne_iff_ne.mp hdiff (hid k hk id hstatus)
    · exact Bool.false_ne_true hdiff

theorem AtV.exit (h : AtV s n g 9 w) (hop : w.op = 0x0F) {y : Group}
    (hy : y = { s.group n g with live := (s.group n g).live &&& ~~~ (s.group n g).exec w, active := (s.group n g).active &&& ~~~ (s.group n g).exec w }) :
    s.exit n g = s.setGroup n g (if y.live = 0 then y else if y.active = 0 then y.leave else y.next) := by
  rw [State.exit, h.control hop, hy]

theorem State.groupEnd_ends (hready : (s.group n g).status = .ready) (hlive : (s.group n g).live = 0) (hsent : (s.group n g).sent = [])
    (hload : (s.group n g).load = none) (hatom : (s.group n g).atom = none) : s.groupEnd n g = s.endGroup n g :=
  if_pos ⟨hready, hlive, hsent, by rw [hload]; rfl, by rw [hatom]; rfl⟩

/-- A TRAP of some thread parks the group with code 0x0B and its CODE (R116). -/
theorem AtV.trap (h : AtV s n g 9 w) (hop : w.op = 0x10) (hexec : (s.group n g).exec w ≠ 0) :
    s.trap n g = (s.setGroup n g { s.group n g with trapCode := w.codeC }).park n g 0x0B ((s.group n g).exec w) := by
  rw [State.trap, h.control hop]
  exact if_neg hexec

end

/-! #### What a park writes (R116) -/

theorem State.hatPush_regs (s : State) (i : Nat) (m : HatMsg) : (s.hatPush i m).regs = s.regs := by
  rw [State.hatPush]; split <;> rfl

theorem State.hatPush_mem (s : State) (i : Nat) (m : HatMsg) : (s.hatPush i m).mem = s.mem := by
  rw [State.hatPush]; split <;> rfl

/-- A Bay's event flags lie beside every other register. -/
theorem State.reg_bayEvent_ne (s : State) (b bits : Nat) {q : RegSpec} {js : List Nat} (h : Reg.BAY_EVT.addr [b] ≠ q.addr js) :
    (s.bayEvent b bits).reg q js = s.reg q js := by
  rw [State.bayEvent, State.events, State.reg_when (f := fun t => t.raise 0 b) (fun _ => State.reg_raise _ _ _ _ _), State.reg_setReg_ne _ _ _ _ _ _ h]

theorem bayEvt_ne_prod (b : Nat) : Reg.BAY_EVT.addr [b] ≠ Reg.ERR_PROD.addr [] := by
  simp only [RegSpec.addr, Reg.BAY_EVT, Reg.ERR_PROD, addrOf]; omega

theorem vecCnt_ne_prod (n : Nat) : Reg.CST_VEC_CNT.addr [n] ≠ Reg.ERR_PROD.addr [] := by
  simp only [RegSpec.addr, Reg.CST_VEC_CNT, Reg.ERR_PROD, addrOf]; omega

section
variable (s : State) (n g code addr : Nat) (fmask : DWord) (r : ErrRec)

/-- The group parked, its park counted and recorded, before the Bay and the tenant are told. -/
def State.parkLog (s : State) (n g code addr : Nat) (fmask : DWord) (r : ErrRec) : State :=
  ((s.setGroup n g { s.group n g with
      status := .parked, fault := code % 256, faddr := BitVec.ofNat 64 addr, fmask := fmask, load := none, atom := none, storing := false }).bump
        Reg.CST_VEC_CNT [n] F.CST_VEC_CNT_PARKS 1).logCore n { r with cls := .contained, syndrome := code, sub := g }

/-- Telling the Bay and the tenant changes what a park's record has left in no respect that `f` sees. -/
theorem State.parkRec_field {α : Type} (f : State → α) (hf : ∀ t b i m, f ((t.bayEvent b 2).hatPush i m) = f t) :
    f (s.parkRec n g code addr fmask r) = f (s.parkLog n g code addr fmask r) := by
  rw [State.parkRec]
  split
  · rw [hf]; rfl
  · rfl

theorem State.parkRec_mem : (s.parkRec n g code addr fmask r).mem = s.mem := by
  rw [State.parkRec_field s n g code addr fmask r State.mem (fun t b i m => by rw [State.hatPush_mem, State.bayEvent_mem]), State.parkLog,
    State.logCore_mem]
  rfl

theorem State.fld_prod_parkRec : (s.parkRec n g code addr fmask r).fld Reg.ERR_PROD [] F.ERR_PROD_PROD =
    (s.fld Reg.ERR_PROD [] F.ERR_PROD_PROD + 1) % 2 ^ 32 := by
  rw [State.parkRec_field s n g code addr fmask r (fun t => t.fld Reg.ERR_PROD [] F.ERR_PROD_PROD) (fun t b i m => by
    rw [State.fld, State.reg, State.hatPush_regs, ← State.reg, State.reg_bayEvent_ne _ _ _ (bayEvt_ne_prod b), State.fld])]
  rw [State.parkLog, State.logCore, State.fld_prod_log, State.bump, State.fld_setFld_ne _ _ _ _ _ _ _ _ (vecCnt_ne_prod n), State.fld_setGroup]

end

/-! #### Parked groups (R117, R118) -/

@[simp] theorem State.group_wantWake (s : State) (c n g : Nat) : (s.wantWake c).group n g = s.group n g := by
  rw [State.wantWake]; split <;> rfl

theorem State.wantWake_groups (s : State) (c : Nat) : (s.wantWake c).groups = s.groups := by
  rw [State.wantWake]; split <;> rfl

theorem State.fld_prod_wantWake (s : State) {c : Nat} (hc : c < 64) :
    (s.wantWake c).fld Reg.ERR_PROD [] F.ERR_PROD_PROD = s.fld Reg.ERR_PROD [] F.ERR_PROD_PROD := by
  have hne : Reg.PWR_CL.addr [c] ≠ Reg.ERR_PROD.addr [] := by simp only [RegSpec.addr, Reg.PWR_CL, Reg.ERR_PROD, addrOf]; omega
  rw [State.wantWake]
  split
  · rfl
  · exact State.fld_setFld_ne _ _ _ _ _ _ _ _ hne
  · rfl
  · rfl

section
variable {s : State} {w : Writer} {n g cmd : Nat} (hopen : s.closedFor w = false) (hmay : s.mayCore w n = true) (hawake : s.gated (clusterOf n) = false)
include hopen hmay hawake

/-- A write by one whose path is open and who reaches the core, with its cluster awake, is performed (R358). -/
theorem State.coreWrite_performed (off : Nat) (v : DWord) (f : State → State) : s.coreWrite w n off v f = f (s.wantWake (clusterOf n)) := by
  simp only [State.coreWrite, State.tenantWrite, hopen, hmay, hawake, not_true_eq_false, if_false, Bool.false_eq_true]

theorem State.groupCmd_parked (f : State → Group → State) (hpark : (s.group n g).status = .parked) :
    s.groupCmd w n g cmd f =
      f ((s.wantWake (clusterOf n)).wrote Reg.CST_GRP_CTL [n, g] cmd) { s.group n g with spin := 0, status := .ready, fault := 0 } := by
  simp only [State.groupCmd, State.coreWrite_performed hopen hmay hawake, State.group_wantWake, hpark, ne_eq, not_true_eq_false, if_false]

theorem State.groupCmd_refused (f : State → Group → State) (hpark : (s.group n g).status ≠ .parked) :
    s.groupCmd w n g cmd f = (s.wantWake (clusterOf n)).refuse w (Reg.CST_GRP_CTL.addr [n, g]) causeState := by
  simp only [State.groupCmd, State.coreWrite_performed hopen hmay hawake, State.group_wantWake, ne_eq, hpark, not_false_eq_true, if_true]

theorem State.groupStateWrite_parked {off : Nat} {v : DWord} {x : Group} (hdebug : (s.wantWake (clusterOf n)).mayDebug w n = true)
    (hpark : (s.group n (slotOfOffset off)).status = .parked) (hx : (s.group n (slotOfOffset off)).write (slotOfOffset off) off v = some x) :
    s.groupStateWrite w n off v = (s.wantWake (clusterOf n)).setGroup n (slotOfOffset off) x := by
  simp only [State.groupStateWrite, State.coreWrite_performed hopen hmay hawake, State.group_wantWake, hdebug, hpark, hx, ne_eq, not_true_eq_false, if_false]

end

theorem exec_wtally (n : CoreId) (g : SlotId) (s : State) : exec (.wtally n g) s = .next (s.keepPilot (s.wtally n g)) := rfl
theorem exec_wtallyTargetReached (n : CoreId) (g : SlotId) (s : State) : exec (.wtallyTargetReached n g) s = .next (s.keepPilot (s.wtallyReached n g)) := rfl
theorem exec_sigt (n : CoreId) (g : SlotId) (s : State) : exec (.sigt n g) s = .next (s.keepPilot (s.sigt n g)) := rfl
theorem exec_groupFence (n : CoreId) (g : SlotId) (s : State) : exec (.groupFence n g) s = .next (s.keepPilot (s.groupFence n g)) := rfl
theorem exec_gbar (n : CoreId) (g : SlotId) (s : State) : exec (.gbar n g) s = .next (s.keepPilot (s.gbar n g)) := rfl
theorem exec_exit (n : CoreId) (g : SlotId) (s : State) : exec (.exit n g) s = .next (s.keepPilot (s.exit n g)) := rfl
theorem exec_groupEnd (n : CoreId) (g : SlotId) (s : State) : exec (.groupEnd n g) s = .next (s.keepPilot (s.groupEnd n g)) := rfl
theorem exec_trap (n : CoreId) (g : SlotId) (s : State) : exec (.trap n g) s = .next (s.keepPilot (s.trap n g)) := rfl
theorem exec_resume (w : Writer) (n : CoreId) (g : SlotId) (s : State) : exec (.resume w n g) s = .next (s.keepPilot (s.resumeV w n g)) := rfl
theorem exec_resumeNext (w : Writer) (n : CoreId) (g : SlotId) (s : State) : exec (.resumeNext w n g) s = .next (s.keepPilot (s.resumeNext w n g)) := rfl
theorem exec_discard (w : Writer) (n : CoreId) (g : SlotId) (s : State) : exec (.discard w n g) s = .next (s.keepPilot (s.discardV w n g)) := rfl
theorem exec_groupStateWrite (w : Writer) (n : CoreId) (off : Nat) (v : DWord) (s : State) :
    exec (.groupStateWrite w n off v) s = .next (s.keepPilot (s.groupStateWrite w n off v)) := rfl

end Sys2Proof.Machine

namespace Sys2Proof.Proofs
open Sys2Proof Sys2Proof.Machine

/-- Settles O55, by what decoding an instruction's word answers. -/
theorem lemgusSEncoding : Obligations.LemgusSEncoding := by
  refine ⟨fun i hlegal => ?_, fun i hreserved => ?_⟩
  · rw [decodeS_encodeS, if_pos hlegal]
  · rw [decodeS_encodeS, hreserved, if_neg Bool.false_ne_true]

/-- Settles O1: each instruction by what its unit does with its stack; a stack that is full or empty is the fault that the instruction itself shows. -/
theorem loopsAndCalls : Obligations.LoopsAndCalls := by
  refine ⟨?loop, ?again, ?done, ?call, ?ret, ?loopFull, ?endloopEmpty, ?callFull, ?retEmpty⟩
  case loop =>
    intro n s c st hat
    rw [exec_loop, hat.loopS, State.keepPilot_setSeq]
  case again =>
    intro n s f fs hat hloops hindex
    rw [exec_endloop, hat.endloopS, hloops, loopEnd_again hindex, State.keepPilot_setSeq]
  case done =>
    intro n s f fs hat hloops hindex
    rw [exec_endloop, hat.endloopS, hloops, loopEnd_done hindex, State.keepPilot_setSeq]
  case call =>
    intro n s t hat
    rw [exec_call, hat.callS, State.keepPilot_setSeq]
  case ret =>
    intro n s p ps hat hcalls
    rw [exec_ret, hat.retS hcalls, State.keepPilot_setSeq]
  case loopFull => exact fun n s c st hat hfull => by rw [exec_loop, hat.loopS_full hfull]
  case endloopEmpty => exact fun n s hat hempty => by rw [exec_endloop, hat.endloopS_empty hempty]
  case callFull => exact fun n s t hat hfull => by rw [exec_call, hat.callS_full hfull]
  case retEmpty => exact fun n s hat hempty => by rw [exec_ret, hat.retS_empty hempty]

/-- Settles O2: each instruction by what its unit does when it is reached; all of it lies in the sequencer's own state. -/
theorem sequencerInstructions : Obligations.SequencerInstructions := by
  refine ⟨?wait, ?sig, ?fence, ?cheapPasses, ?cheapHolds, ?yield, ?halt, ?select⟩
  case wait => exact fun n s tally x set scope imm e hat he => by rw [exec_wait, hat.waitS he, State.keepPilot_setSeq]
  case sig => exact fun n s i hat => by rw [exec_sig, hat.sigS, State.keepPilot_setSeq]
  case fence => exact fun n s i hat => by rw [exec_fence, hat.fenceS, State.keepPilot_setSeq]
  case cheapPasses => exact fun n s i hat hstop => by rw [exec_cheap, hat.cheapS_passes hstop, State.keepPilot_setSeq]
  case cheapHolds => exact fun n s i hat hstop => by rw [exec_cheap, hat.cheapS_holds hstop, State.keepPilot_setSeq]
  case yield =>
    intro n s i b j hat hstream hstop hpeer hwake
    rw [exec_yield, hat.yieldS_passes hstream hstop hpeer hwake, State.keepPilot_setSeq]
  case halt => exact fun n s i hat => by rw [exec_halt, hat.haltS, State.keepPilot_setSeq]
  case select =>
    intro n s word lo widthM1 table b r v e hat hbay hregion hword hv hin hentry he hlt
    rw [exec_select, hat.selectS hbay hregion hword hv hin hentry he hlt, State.keepPilot_setSeq]

/-- Settles O3: a STEP is queued behind the running one, a MOVE posted, a kernel's groups placed in the free slots, or the sequencer stalls; a stall ends in the same. -/
theorem sequencerDescriptors : Obligations.SequencerDescriptors := by
  refine ⟨?step, ?stepStalls, ?move, ?moveStalls, ?moveEnqueues, ?launch, ?launchStalls, ?launchStarts, ?prefetch⟩
  case step =>
    intro n s slot bank d r hat hrun hqueue hread
    rw [exec_step, hat.stepS, State.tryStep_queues hrun hqueue hread]
    refine ⟨_, rfl, State.stepUnit_setStep_self _ _ _, ?_⟩
    rw [State.seq_keepPilot, State.seq_setStep, State.seq_setSeq_self]
    exact ⟨rfl, rfl, rfl, rfl, rfl⟩
  case stepStalls =>
    intro n s slot r k hat hrun hqueue
    rw [exec_step, hat.stepS, State.tryStep_stalls hrun hqueue, State.holdS, State.keepPilot_setSeq]
  case move =>
    intro n s slot pf cl chan hat hpf hroom
    rw [exec_move, hat.moveS, State.tryMove_posts hpf hroom, State.keepPilot_post_setSeq]
  case moveStalls =>
    intro n s slot pf cl chan hat hpf hfull
    rw [exec_move, hat.moveS, State.tryMove_stalls hpf hfull, State.holdS, State.keepPilot_setSeq]
  case moveEnqueues =>
    intro n s slot pf cl chan hheld hpf hroom
    rw [exec_moveEnqueue, hheld.moveEnqueue, State.tryMove_posts hpf hroom, State.keepPilot_post_setSeq]
  case launch => exact fun n s slot g en tally r hat hfree hregion => launch_effect (by rw [exec_launch, hat.launchS]) hfree hregion
  case launchStalls =>
    intro n s slot g en tally hat hfull
    rw [exec_launch, hat.launchS, State.tryLaunch_stalls hfull, State.holdS, State.keepPilot_setSeq]
  case launchStarts => exact fun n s slot g en tally r hheld hfree hregion => launch_effect (by rw [exec_launchStart, hheld.launchStart]) hfree hregion
  case prefetch =>
    intro n s c p hstatus hwalk
    rw [exec_prefetchMoveStart, State.prefetchStart_starts hstatus hwalk, State.keepPilot_post_setSeq]

/-- Settles O4: the waits end as their units say; a stop with another core at work ends at the core's own mark. -/
theorem sequencerEnds : Obligations.SequencerEnds := by
  refine ⟨?wait, ?sig, ?fence, ?cheap, ?yield, ?halt⟩
  case wait =>
    intro n s tally x set scope imm hheld hreached
    refine ⟨_, exec_waitTargetReached n s, ?_, ?_⟩
    · rw [hheld.waitReached hreached, State.seq_keepPilot, State.seq_setSeq_self]
    · rw [hheld.waitReached hreached, State.keepPilot_mem, State.setSeq_mem, State.acquire_mem]
      exact (State.audit_same _ _ _ _).field State.mem
  case sig =>
    intro n s scope remote dev core tally amount hheld hlocal hdone hlive
    rw [exec_sigIssue, hheld.sigIssue_local hlocal hdone hlive]
    rw [((s.setSeq_samePilot n (s.seq n).advance).trans (State.addTally_samePilot _ core.toNat tally.toNat _)).keepPilot]
  case fence =>
    intro n s scope acq rel hheld hdone
    rw [exec_fenceComplete, hheld.fenceComplete hdone]
    refine congrArg Host.Outcome.next (SamePilot.keepPilot ?_)
    split
    · exact s.acquire_samePilot n scope.toNat
    · exact ⟨rfl, rfl⟩
  case cheap =>
    intro n s live b j m hheld hdone hstream hrecord hnew hrest
    rw [exec_cheapStop, hheld.cheapStop hdone, State.stopHere_notLast hstream hrecord hnew hrest, Option.getD_some]
  case yield =>
    intro n s live b j m hheld hdone hstream hrecord hnew hrest
    rw [exec_yieldStop, hheld.yieldStop hdone, State.stopHere_notLast hstream hrecord hnew hrest, Option.getD_some]
  case halt =>
    intro n s code b j m hheld hdone hstream hrecord hnew hrest
    rw [exec_haltStop, hheld.haltStop hdone, State.haltHere_notLast hstream hrecord hnew hrest, Option.getD_some]

/-- Settles O7: a command that Table SQ-11 allows is taken and has its slot's effect, any other is refused as a discarded register write. -/
theorem imageCommands : Obligations.ImageCommands := by
  refine ⟨?load, ?place, ?refuse, ?early, ?resume, ?fresh, ?stopOn, ?stopOff, ?abortOff, ?abort, ?unload, ?unloadRefused⟩
  case load =>
    intro b j f s hactive hloadable
    refine release_effect ?_
    rw [exec_load, State.loadCmd, State.imgCmd_taken _ hactive hloadable, State.loadStart, State.img_wrote]
  case place =>
    rintro b j s _ hload hswitch rfl hreason
    rw [exec_loadEnd, State.loadEnd_places hload hswitch hreason, State.loadSrc]
  case refuse =>
    rintro b j s _ hload hswitch rfl hreason
    rw [exec_loadEnd, State.loadEnd_refuses hload hswitch hreason, State.loadSrc]
  case early => exact fun b j s src hearly => s.loadRefused_early hearly
  case resume =>
    intro b j s hactive hstatus
    rw [exec_start, State.startCmd, State.imgCmd_taken _ hactive (by rw [hstatus]; rfl), State.startSlot_stopped (by exact hstatus), State.img_wrote]
  case fresh =>
    intro b j s hactive hstatus
    rw [exec_start, State.startCmd, State.imgCmd_taken _ hactive (by rw [hstatus]; rfl), State.startSlot_loaded (by exact hstatus), State.img_wrote]
  case stopOn =>
    intro b j s hactive hstatus hresume hon
    rw [exec_stop, State.stopImg, State.imgCmd_taken _ hactive (by rw [hstatus]; rfl), State.stopCmd_onCores (by exact hresume) (by exact hon), State.img_wrote]
    rfl
  case stopOff =>
    intro b j s hactive hstatus hresume hon
    rw [exec_stop, State.stopImg, State.imgCmd_taken _ hactive (by rw [hstatus]; rfl), State.stopCmd_offCores (by exact hresume) (by exact hon), State.img_wrote]
  case abortOff =>
    intro b j s hactive hstatus hresume hon
    rw [exec_abort, State.abortImg, State.imgCmd_taken _ hactive (by rw [hstatus]; rfl), State.abortCmd_now (by exact hresume),
      State.abortSlot_offCores (by exact hon), State.img_wrote]
  case abort =>
    intro b j s hactive hstatus hresume
    rw [exec_abort, State.abortImg, State.imgCmd_taken _ hactive (by rw [hstatus]; rfl), State.abortCmd_now (by exact hresume)]
  case unload =>
    intro b j s hactive hload hrun hstop
    refine release_effect ?_
    rw [exec_unload, State.unloadImg, State.imgCmd_taken _ hactive (by simp [hload, hrun, hstop]), State.unloadSlot, State.img_wrote]
  case unloadRefused =>
    intro b j s hactive hstatus
    have himgs : (s.imgRefused b j).imgs = s.imgs := (s.imgRefused_same b j).field State.imgs
    have hexec : exec (.unload b j) s = .next (s.keepPilot (s.imgRefused b j)) := by
      rw [exec_unload, State.unloadImg, State.imgCmd_refused _ hactive (by rw [hstatus]; rfl)]
    refine ⟨_, hexec, ?_, ?_, ?_, himgs, (s.imgRefused_same b j).field State.mem⟩
    · rw [State.img_keepPilot, State.img, himgs, State.img]
    · rw [State.fld_keepPilot]
      exact s.fld_prod_refuse _ _ _ _
    · rw [State.reg_keepPilot, State.reg_imgCmd_imgRefused]

/-- Settles O15: each wait, signal and end by its instruction's lemma; a command or write of a parked group by who reaches it and how the group stands. -/
theorem groupWaits : Obligations.GroupWaits := by
  refine ⟨?wtally, ?reached, ?sigt, ?fence, ?gbar, ?exit, ?ended, ?trap, ?resume, ?resumeNext, ?discard, ?write, ?refused⟩
  case wtally => exact fun n g s w hat hop => by rw [exec_wtally, hat.wtally hop, State.keepPilot_setGroup]
  case reached => exact fun n g s i scope target hstatus hreached => by rw [exec_wtallyTargetReached, State.wtallyReached_ends hstatus hreached]
  case sigt => exact fun n g s w hat hop hbay hlive hscope => by rw [exec_sigt, hat.sigt hop hbay hlive hscope]
  case fence => exact fun n g s w hat hop hscope => by rw [exec_groupFence, hat.groupFence hop hscope]
  case gbar => exact fun n g s w hat hop hwhole hid => by rw [exec_gbar, hat.gbar hop hwhole hid]
  case exit => exact fun n g s w y hat hop hy => by rw [exec_exit, hat.exit hop hy, State.keepPilot_setGroup]
  case ended => exact fun n g s hready hlive hsent hload hatom => by rw [exec_groupEnd, State.groupEnd_ends hready hlive hsent hload hatom]
  case trap =>
    intro n g s w hat hop hexec
    refine ⟨_, exec_trap n g s, ?_⟩
    rw [hat.trap hop hexec, State.park, State.group_keepPilot, State.group_parkRec, State.group_setGroup, if_pos rfl, State.keepPilot_mem, State.parkRec_mem,
      State.fld_keepPilot, State.fld_prod_parkRec, State.fld_setGroup]
    exact ⟨rfl, rfl, rfl, rfl, rfl, rfl, rfl, rfl⟩
  case resume =>
    intro w n g s hopen hmay hawake hpark
    rw [exec_resume, State.resumeV, State.groupCmd_parked hopen hmay hawake _ hpark]
  case resumeNext =>
    intro w n g s hopen hmay hawake hpark
    rw [exec_resumeNext, State.resumeNext, State.groupCmd_parked hopen hmay hawake _ hpark, Group.next]
  case discard =>
    intro w n g s hopen hmay hawake hpark
    rw [exec_discard, State.discardV, State.groupCmd_parked hopen hmay hawake _ hpark]
  case write =>
    intro w n off v s x hopen hmay hawake hdebug hpark hx
    rw [exec_groupStateWrite, State.groupStateWrite_parked hopen hmay hawake hdebug hpark hx]
  case refused =>
    intro w n g s hopen hmay hawake hpark
    have hcluster : clusterOf n < 64 := by rw [clusterOf]; omega
    refine ⟨_, exec_resume w n g s, ?_⟩
    rw [State.resumeV, State.groupCmd_refused hopen hmay hawake _ hpark, State.keepPilot_groups, State.fld_keepPilot, State.fld_prod_refuse,
      State.fld_prod_wantWake s hcluster, (State.refuse_same _ _ _ _ _).field State.groups]
    exact ⟨s.wantWake_groups _, rfl⟩

end Sys2Proof.Proofs
end

section
/-! PROOFS. Arithmetic of thread groups (05_thread_groups.md): predicates, scalars and cross-lane instructions (R90, R93, R99), and what a group's arithmetic leaves
unchanged (R91, R116). -/
namespace Sys2Proof.Machine

/-! ### Rows without a residue check (R90, R93, R99) -/

/-- Row `c` gives group `g` of core `n`, at a word that `is` accepts, what `y` says. -/
def PlainRow (n : CoreId) (g : SlotId) (c : Instr) (is : Nat → Nat → Bool) (y : Group → VWord → Group) : Prop :=
  ∀ s : State, exec c s = .next (s.keepPilot (s.reachV n g is (fun x w => s.setGroup n g (y x w))))

theorem PlainRow.effect {s : State} {n : CoreId} {g : SlotId} {k : Nat} {w : VWord} {c : Instr} {is : Nat → Nat → Bool} {y : Group → VWord → Group}
    (hc : PlainRow n g c is y) (hat : AtV s n g k w) (his : is k w.op = true) : exec c s = .next (s.setGroup n g (y (s.group n g) w)) := by
  rw [hc s, State.reachV_of_atV _ hat his, State.keepPilot_setGroup]

/-- The predicate that a compare leaves: the outcomes of the executing threads, the old bits of the others. -/
def Group.compared (x : Group) (w : VWord) : DWord :=
  (x.preg w.pdR &&& ~~~ (x.exec w)) |||
    BitVec.ofNat 64 (maskOf ((threads (x.exec w)).filter (fun t => compareOp w.op w.ty (x.opA w t) (x.opB w t))))

/-- The value of a fold over the executing threads, as the scalar register takes it (R99). -/
def Group.folded (x : Group) (op : Nat) (w : VWord) : DWord :=
  let v := foldOf (foldElem op w) ((threads (x.exec w)).map (x.vreg w.va))
  BitVec.ofNat 64 (if w.ty = 0 then toF32 (f32 v) else v).toNat

section
variable (n : CoreId) (g : SlotId)

theorem vectorCompare_row : PlainRow n g (.vectorCompare n g) (fun c o => c == 4 && decide (o ≤ 5)) (fun x w => (x.setP w.pdR (x.compared w)).next) :=
  fun _ => rfl

theorem predicateLogic_row : PlainRow n g (.predicateLogic n g) (fun c o => c == 4 && decide (0x10 ≤ o) && decide (o ≤ 0x13)) (fun x w =>
    x.whole w (fun x => x.setP w.pdR (predOp w.op (x.preg (w.va % 8)) (x.preg (w.vb % 8))))) := fun _ => rfl

theorem s2p_row : PlainRow n g (.s2p n g) (fun c o => c == 4 && o == 0x14) (fun x w => x.whole w (fun x => x.setP w.pdR (x.sreg (w.va % 32)))) := fun _ => rfl

theorem p2s_row : PlainRow n g (.p2s n g) (fun c o => c == 4 && o == 0x15) (fun x w => x.whole w (fun x => x.setS (w.vd % 32) (x.preg (w.va % 8)))) := fun _ => rfl

theorem scalarOp_row : PlainRow n g (.scalarOp n g) (fun c _ => c == 5) (fun x w => x.whole w (fun y =>
    y.setS w.sdS (scalarValue w.op (y.sreg w.saS) (if w.im then BitVec.signExtend 64 w.imm else x.sreg w.sbS)))) := fun _ => rfl

theorem shfl_row : PlainRow n g (.shfl n g) (fun c o => c == 6 && o == 0x00) (fun x w => x.vdSet w (fun t => x.vreg w.va ((x.vreg w.vb t).toNat % 64))) :=
  fun _ => rfl

theorem shflx_row : PlainRow n g (.shflx n g) (fun c o => c == 6 && o == 0x01) (fun x w => x.vdSet w (fun t => x.vreg w.va (t ^^^ w.laneX))) := fun _ => rfl

theorem shflu_row : PlainRow n g (.shflu n g) (fun c o => c == 6 && o == 0x02) (fun x w =>
    x.vdSet w (fun t => x.vreg w.va (if w.laneX ≤ t then t - w.laneX else t))) := fun _ => rfl

theorem shfld_row : PlainRow n g (.shfld n g) (fun c o => c == 6 && o == 0x03) (fun x w =>
    x.vdSet w (fun t => x.vreg w.va (if t + w.laneX ≤ 63 then t + w.laneX else t))) := fun _ => rfl

theorem bcast_row : PlainRow n g (.bcast n g) (fun c o => c == 6 && o == 0x04) (fun x w => x.vdSet w (fun _ => x.vreg w.va w.laneX)) := fun _ => rfl

theorem v2s_row : PlainRow n g (.v2s n g) (fun c o => c == 6 && o == 0x05) (fun x w =>
    (x.setS w.sdX (BitVec.ofNat 64 (x.vreg w.va w.laneX).toNat)).next) := fun _ => rfl

theorem s2v_row : PlainRow n g (.s2v n g) (fun c o => c == 6 && o == 0x06) (fun x w => x.vdSet w (fun _ => BitVec.ofNat 32 (x.sreg w.sdX).toNat)) := fun _ => rfl

theorem any_row : PlainRow n g (.any n g) (fun c o => c == 6 && o == 0x08) (fun x w =>
    (x.setP w.pdX (if x.exec w &&& x.preg w.psX ≠ 0 then BitVec.allOnes 64 else 0)).next) := fun _ => rfl

theorem all_row : PlainRow n g (.all n g) (fun c o => c == 6 && o == 0x09) (fun x w =>
    (x.setP w.pdX (if x.exec w &&& ~~~ (x.preg w.psX) = 0 then BitVec.allOnes 64 else 0)).next) := fun _ => rfl

theorem ballot_row : PlainRow n g (.ballot n g) (fun c o => c == 6 && o == 0x0A) (fun x w => (x.setS w.sdX (x.exec w &&& x.preg w.psX)).next) := fun _ => rfl

theorem rmin_row : PlainRow n g (.rmin n g) (fun c o => c == 6 && o == 0x11) (fun x w => (x.setS w.sdX (x.folded 0x11 w)).next) := fun _ => rfl

theorem rmax_row : PlainRow n g (.rmax n g) (fun c o => c == 6 && o == 0x12) (fun x w => (x.setS w.sdX (x.folded 0x12 w)).next) := fun _ => rfl

end

/-! #### Compares (R90) -/

/-- A mask has the listed bits. -/
theorem testBit_maskOf (is : List Nat) (t : Nat) : (maskOf is).testBit t = decide (t ∈ is) := by
  have hfold (m : Nat) : (is.foldl (fun m i => m ||| 2 ^ i) m).testBit t = (m.testBit t || decide (t ∈ is)) := by
    induction is generalizing m with
    | nil => simp
    | cons i is ih => simp [ih, Nat.testBit_two_pow, eq_comm, Bool.or_assoc]
  simpa [maskOf] using hfold 0

theorem mem_threads {m : DWord} {t : Nat} : t ∈ threads m ↔ t < 64 ∧ m.getLsbD t = true := by
  simp [threads, onesOf, BitVec.getLsbD]

theorem Group.setP_zero (x : Group) (v : DWord) : x.setP 0 v = x := if_pos rfl

theorem Group.preg_setP_self (x : Group) {r : Nat} (hr : r ≠ 0) (v : DWord) : (x.setP r v).preg r = v := by
  simp only [Group.setP, Group.preg, if_neg hr, Tbl.get_set_self]

/-- A write of a predicate register changes the predicate registers alone. -/
theorem Group.setP_eq (x : Group) (r : Nat) (v : DWord) : x.setP r v = { x with p := (x.setP r v).p } := by
  rw [Group.setP]; split <;> rfl

theorem Group.getLsbD_compared (x : Group) (w : VWord) {t : Nat} (ht : t < 64) : (x.compared w).getLsbD t =
    if (x.exec w).getLsbD t then compareOp w.op w.ty (x.opA w t) (x.opB w t) else (x.preg w.pdR).getLsbD t := by
  rw [Group.compared, BitVec.getLsbD_or, BitVec.getLsbD_and, BitVec.getLsbD_not, BitVec.getLsbD_ofNat, testBit_maskOf]
  cases hexec : (x.exec w).getLsbD t <;> simp [mem_threads, ht, hexec, -BitVec.getLsbD_eq_getElem]

/-! ### What a group's arithmetic leaves unchanged (R91, R116) -/

/-- `t` is `s` but for registers, interrupts, messages to tenants, and group `g` of core `n`. -/
structure SameButGroup (n g : Nat) (s t : State) : Prop where
  rest : t = { s with regs := t.regs, msixPend := t.msixPend, msixSent := t.msixSent, hatOut := t.hatOut, groups := t.groups }
  others : ∀ k, k ≠ 8 * n + g → t.groups.get {} k = s.groups.get {} k

section
variable {n g : Nat} {s t u : State}

theorem SameButGroup.refl (s : State) : SameButGroup n g s s := ⟨rfl, fun _ _ => rfl⟩

theorem SameButGroup.trans (h : SameButGroup n g s t) (k : SameButGroup n g t u) : SameButGroup n g s u := by
  refine ⟨?_, fun i hi => (k.others i hi).trans (h.others i hi)⟩
  rw [k.rest, h.rest]

theorem SameButGroup.field {α : Type} (h : SameButGroup n g s t) (f : State → α) :
    f t = f { s with regs := t.regs, msixPend := t.msixPend, msixSent := t.msixSent, hatOut := t.hatOut, groups := t.groups } := congrArg f h.rest

theorem SameButGroup.keepPilot (h : SameButGroup n g s t) : s.keepPilot t = t := SamePilot.keepPilot ⟨h.field State.pilot, h.field State.pending⟩

theorem SameButGroup.group {k j : Nat} (h : SameButGroup n g s t) (hother : 8 * k + j ≠ 8 * n + g) : t.group k j = s.group k j := h.others _ hother

theorem SameButRegs.sameButGroup (h : SameButRegs s t) : SameButGroup n g s t := by
  unfold SameButRegs at h
  rw [h]
  exact ⟨rfl, fun _ _ => rfl⟩

variable (n g) (s)

theorem State.setGroup_sameButGroup (x : Group) : SameButGroup n g s (s.setGroup n g x) :=
  ⟨rfl, fun _ hk => Tbl.get_set_ne _ _ _ _ _ _ (Ne.symm hk)⟩

theorem State.hatPush_sameButGroup (i : Nat) (m : HatMsg) : SameButGroup n g s (s.hatPush i m) := by
  rw [State.hatPush]
  split
  · exact .refl s
  · exact ⟨rfl, fun _ _ => rfl⟩

/-- A park touches its group, the registers, and the queue of messages to its tenant (R116). -/
theorem State.parkRec_sameButGroup (code addr : Nat) (fmask : DWord) (r : ErrRec) : SameButGroup n g s (s.parkRec n g code addr fmask r) := by
  have hlog : SameButGroup n g s (s.parkLog n g code addr fmask r) :=
    (s.setGroup_sameButGroup n g _).trans ((State.bump_same _ _ _ _ _).trans (State.logCore_same _ _ _)).sameButGroup
  rw [State.parkRec]
  split
  · exact hlog.trans ((State.bayEvent_same _ _ _).sameButGroup.trans (State.hatPush_sameButGroup _ _ _ _ _))
  · exact hlog

theorem State.park_sameButGroup (code : Nat) (fmask : DWord) : SameButGroup n g s (s.park n g code fmask) := s.parkRec_sameButGroup n g code _ fmask _

/-- However a group reaches its instruction, it changes no more than the instruction's meaning does or a park. -/
theorem State.reachV_sameButGroup (is : Nat → Nat → Bool) {f : Group → VWord → State} (h : ∀ x w, SameButGroup n g s (f x w)) :
    SameButGroup n g s (s.reachV n g is f) := by
  simp only [State.reachV]
  split
  · exact .refl s
  · split
    · exact s.park_sameButGroup n g _ _
    · split
      · exact s.park_sameButGroup n g _ _
      · split
        · exact h _ _
        · exact .refl s

/-- A residue check adds a replay's record, or a park (R415). -/
theorem State.checked_sameButGroup (m : Nat) (on : Bool) (mask : DWord) {f : State → State} (h : ∀ t, SameButGroup n g t (f t)) :
    SameButGroup n g s (s.checked n g m on mask f) := by
  have hlog (r : ErrRec) : SameButGroup n g s (s.logReplay n F.CST_ARITH_CNT_VEC_REPLAY r) := (s.logReplay_same n _ r).sameButGroup
  simp only [State.checked]
  split
  · exact h s
  · split
    · exact (hlog _).trans (h _)
    · exact (hlog _).trans (State.parkRec_sameButGroup _ _ _ _ _ _ _)

end

/-- Command `c` changes group `g` of core `n`, registers, interrupts and messages to tenants alone. -/
def ChangesGroupAlone (n : CoreId) (g : SlotId) (c : Instr) : Prop := ∀ s t : State, exec c s = .next t → SameButGroup n g s t

section
variable {n : CoreId} {g : SlotId} {is : Nat → Nat → Bool} {y : Group → VWord → Group}

theorem changesGroupAlone_of_exec {c : Instr} {f : State → State} (hc : ∀ s, exec c s = .next (s.keepPilot (f s))) (hf : ∀ s, SameButGroup n g s (f s)) :
    ChangesGroupAlone n g c := by
  intro s t ht
  rw [hc s, (hf s).keepPilot] at ht
  cases ht
  exact hf s

theorem PlainRow.changesGroupAlone {c : Instr} (hc : PlainRow n g c is y) : ChangesGroupAlone n g c :=
  changesGroupAlone_of_exec hc fun s => s.reachV_sameButGroup n g is fun _ _ => s.setGroup_sameButGroup n g _

theorem CheckedRow.changesGroupAlone {c : Fin 3 → Instr} {on : VWord → Bool} (hc : CheckedRow n g c is on y) (m : Fin 3) : ChangesGroupAlone n g (c m) :=
  changesGroupAlone_of_exec (hc · m) fun s => s.reachV_sameButGroup n g is fun _ _ =>
    s.checked_sameButGroup n g m _ _ fun t => t.setGroup_sameButGroup n g _

end

end Sys2Proof.Machine

namespace Sys2Proof.Proofs
open Sys2Proof Sys2Proof.Machine

/-- Settles O60: every one of these rows reaches its group, checks at most its residue, and sets that group or parks it. -/
theorem groupArithmeticFrame : Obligations.GroupArithmeticFrame := by
  intro c n g m s t hc ht
  have halone : ChangesGroupAlone n g c := by
    simp only [List.mem_cons, List.not_mem_nil, or_false] at hc
    rcases hc with rfl | rfl | rfl | rfl | rfl | rfl | rfl | rfl | rfl | rfl | rfl | rfl | rfl | rfl | rfl | rfl | rfl | rfl | rfl | rfl | rfl | rfl | rfl | rfl
    exacts [(vectorFpOp_row n g).changesGroupAlone m, (vectorIntOp_row n g).changesGroupAlone m, (vectorImmOp_row n g).changesGroupAlone m,
      (specialFunction_row n g).changesGroupAlone m, (vectorCompare_row n g).changesGroupAlone, (predicateLogic_row n g).changesGroupAlone,
      (s2p_row n g).changesGroupAlone, (p2s_row n g).changesGroupAlone, (scalarOp_row n g).changesGroupAlone, (shfl_row n g).changesGroupAlone,
      (shflx_row n g).changesGroupAlone, (shflu_row n g).changesGroupAlone, (shfld_row n g).changesGroupAlone, (bcast_row n g).changesGroupAlone,
      (v2s_row n g).changesGroupAlone, (s2v_row n g).changesGroupAlone, (any_row n g).changesGroupAlone, (all_row n g).changesGroupAlone,
      (ballot_row n g).changesGroupAlone, (radd_row n g).changesGroupAlone m, (rmin_row n g).changesGroupAlone, (rmax_row n g).changesGroupAlone,
      (pk_row n g).changesGroupAlone m, (unpk_row n g).changesGroupAlone m]
  have hsame := halone s t ht
  refine ⟨hsame.field State.mem, hsame.field State.poison, hsame.field State.larder, hsame.field State.cups, hsame.field State.shelves,
    hsame.field State.porters, hsame.field State.seqs, hsame.field State.steps, hsame.field State.kernels, hsame.field State.tallySet,
    hsame.field State.imgs, fun k h hother => hsame.group ?_⟩
  simp only [Fin.ne_iff_vne] at hother
  omega

/-- Settles O9: each row by its result; a compare thread by thread of its predicate. -/
theorem predicateScalarLane : Obligations.PredicateScalarLane := by
  refine ⟨?compare, ?logic, ?s2p, ?p2s, ?scalar, ?shfl, ?shflx, ?shflu, ?shfld, ?bcast, ?v2s, ?s2v, ?any, ?all, ?ballot, ?radd, ?rmin, ?rmax⟩
  case compare =>
    intro n g s w hat hop
    refine ⟨_, (vectorCompare_row n g).effect hat (by simpa using hop), ?_, fun hpd => ?_, fun hpd t ht => ?_⟩
    · rw [Group.setP_eq]; rfl
    · rw [hpd, Group.setP_zero]; rfl
    · exact (congrArg (·.getLsbD t) (Group.preg_setP_self (s.group n g) hpd _)).trans ((s.group n g).getLsbD_compared w ht)
  case logic => exact fun n g s w hat hlo hhi => (predicateLogic_row n g).effect hat (by simp [hlo, hhi])
  case s2p => exact fun n g s w hat hop => (s2p_row n g).effect hat (by simp [hop])
  case p2s => exact fun n g s w hat hop => (p2s_row n g).effect hat (by simp [hop])
  case scalar => exact fun n g s w hat => (scalarOp_row n g).effect hat rfl
  case shfl => exact fun n g s w hat hop => (shfl_row n g).effect hat (by simp [hop])
  case shflx => exact fun n g s w hat hop => (shflx_row n g).effect hat (by simp [hop])
  case shflu => exact fun n g s w hat hop => (shflu_row n g).effect hat (by simp [hop])
  case shfld =>
    intro n g s w hat hop
    simpa only [Nat.lt_succ_iff] using (shfld_row n g).effect hat (by simp [hop])
  case bcast => exact fun n g s w hat hop => (bcast_row n g).effect hat (by simp [hop])
  case v2s => exact fun n g s w hat hop => (v2s_row n g).effect hat (by simp [hop])
  case s2v => exact fun n g s w hat hop => (s2v_row n g).effect hat (by simp [hop])
  case any =>
    intro n g s w hat hop
    simpa only [ne_eq, ite_not] using (any_row n g).effect hat (by simp [hop])
  case all => exact fun n g s w hat hop => (all_row n g).effect hat (by simp [hop])
  case ballot => exact fun n g s w hat hop => (ballot_row n g).effect hat (by simp [hop])
  case radd =>
    rintro n g s w _ hat hop rfl
    exact (radd_row n g).effect hat (by simp [hop])
  case rmin =>
    rintro n g s w _ hat hop rfl
    exact (rmin_row n g).effect hat (by simp [hop])
  case rmax =>
    rintro n g s w _ hat hop rfl
    exact (rmax_row n g).effect hat (by simp [hop])

end Sys2Proof.Proofs
end

section
/-! PROOFS. Memory accesses of thread groups (05_thread_groups.md R100-R108) and their control transfers with the mask stack (R92, R95-R98, R114). -/
namespace Sys2Proof.Machine

/-! ### Loads (R100-R102, R116) -/

/-- LD and LDS, by their OP: the command of a row that loads. -/
def LoadRow (n : CoreId) (g : SlotId) (op : Nat) (c : Instr) : Prop := ∀ s : State, exec c s = .next (s.keepPilot (s.loadV n g op))

theorem ld_row (n : CoreId) (g : SlotId) : LoadRow n g 0 (.ld n g) := fun _ => rfl
theorem lds_row (n : CoreId) (g : SlotId) : LoadRow n g 2 (.lds n g) := fun _ => rfl

theorem loadRow_of_mem {n : CoreId} {g : SlotId} {op : Nat} {c : Instr} (h : (op, c) ∈ [(0, Instr.ld n g), (2, Instr.lds n g)]) : LoadRow n g op c := by
  simp only [List.mem_cons, Prod.mk.injEq, List.not_mem_nil, or_false] at h
  obtain ⟨rfl, rfl⟩ | ⟨rfl, rfl⟩ := h
  exacts [ld_row n g, lds_row n g]

section
variable {s u t : State} {n g op : Nat} {w : VWord} {as : List Access} {ps : List LoadPart}

/-- A load whose addresses pass and whose parts are read or asked for finishes if nothing is missing (R102). -/
theorem AtV.loadV_checked (h : AtV s n g 7 w) (hop : w.op = op) (hexec : (s.group n g).exec w ≠ 0)
    (hcheck : s.checkAddrs n w.spaceM w.bytes .read false (accesses (s.group n g) ((s.group n g).exec w) w.spaceM w.sbM w.va w.offset w.unif) = some (u, as, []))
    (hparts : (u.countReplays n w.spaceM as).loadParts n g w.bytes as = some (t, ps)) :
    s.loadV n g op = (t.setGroup n g { t.group n g with load := some { word := w, uniform := w.unif, parts := ps } }).finishLoad n g := by
  rw [State.loadV, State.reachV_of_atV _ h (by simp [hop])]
  simp only [if_neg hexec, hcheck, hparts]

/-- A load of no thread that acquires nothing goes on at the next instruction (R90). -/
theorem AtV.loadV_none (h : AtV s n g 7 w) (hop : w.op = op) (hexec : (s.group n g).exec w = 0) (hord : w.ordM ≠ 1) :
    s.loadV n g op = s.setGroup n g (s.group n g).next := by
  rw [State.loadV, State.reachV_of_atV _ h (by simp [hop])]
  simp only [if_pos hexec, State.when, beq_eq_false_iff_ne.mpr hord, Bool.false_eq_true, if_false]

end

/-! ### Stores (R103) -/

theorem exec_st (n : CoreId) (g : SlotId) (s : State) : exec (.st n g) s = .next (s.keepPilot (s.storeV n g)) := rfl

section
variable {s u t : State} {n g : Nat} {w : VWord} {as : List Access}

/-- An access that releases only within the device waits for nothing. -/
theorem State.releaseIf_device {c : Prop} [Decidable c] {scope : Nat} (hscope : c → s.widen n scope < 6) (f : State → State) :
    (if c then s.releaseReady n g scope f else f s) = f s := by
  split
  · next hrel => exact State.releaseReady_device (hscope hrel) f
  · rfl

/-- The accesses of a store: a uniform one carries the highest executing thread's data (R103). -/
def storeAccesses (x : Group) (w : VWord) (as : List Access) : List Access :=
  if w.unif then as.map (fun a => { a with thread := (threads (x.exec w)).getLastD 0 }) else as

/-- The group after its stores: on at the next instruction, or held while writes sent outside the device are unanswered (log 89). -/
def Group.stored (y : Group) : Group := if y.sent = [] then { y.next with wrote := true } else { y with storing := true }

/-- A store whose addresses pass, under no release or one within the device, makes its writes (R102, R103). -/
theorem AtV.storeV_checked (h : AtV s n g 7 w) (hop : w.op = 1) (hexec : (s.group n g).exec w ≠ 0) (hscope : w.ordM = 2 → s.widen n w.scopeM < 6)
    (hcheck : s.checkAddrs n w.spaceM w.bytes .write false (accesses (s.group n g) ((s.group n g).exec w) w.spaceM w.sbM w.va w.offset w.unif) = some (u, as, []))
    (hparts : (u.countReplays n w.spaceM (storeAccesses (s.group n g) w as)).storeParts n g (s.group n g) w (storeAccesses (s.group n g) w as) = some t) :
    s.storeV n g = t.setGroup n g (t.group n g).stored := by
  rw [State.storeV, State.reachV_of_atV _ h (by simp [hop])]
  unfold storeAccesses at hparts
  refine (State.releaseIf_device hscope _).trans ?_
  simp only [if_neg hexec, hcheck, hparts, Group.stored, List.isEmpty_iff]

end

/-! ### Shelf fills (R125, R126) -/

theorem exec_shelfFill (n : CoreId) (l : Nat) (s : State) : exec (.shelfFill n l) s = .next (s.keepPilot (s.shelfFill n l)) := rfl

/-- A fill that no invalidation came before: the Cupboard's line goes to the Shelf and to the loads that wait for it. -/
theorem State.shelfFill_returns {s u : State} {n l : Nat} {c : CupLine} (hfill : (s.shelf n).fills.find? (fun f => f.1 == l) = some (l, false))
    (hread : (s.countMiss (clusterOf n) l false).cupRead (clusterOf n) l (((((List.range 8).filterMap (fun g => (s.group n g).load)).flatMap (·.parts)).find?
      (fun p => p.got.isNone && p.pa / 128 == l && !p.ext)).bind (·.pin)) = some (u, c)) :
    s.shelfFill n l = (u.setShelf n { lines := shelfInstall (u.shelf n).lines ⟨l, c.data, c.poison⟩, fills := (u.shelf n).fills.filter (fun f => f.1 != l) }).feedLoads n
      (fun p => !p.ext && p.pa / 128 == l) (fun p k => ShelfLine.part ⟨l, c.data, c.poison⟩ p.pa k) := by
  simp only [State.shelfFill, hfill, hread, Bool.false_eq_true, if_false]

/-! ### Atomics (R107, R108, R162) -/

/-- An atomic of OP `op`, without a residue mismatch: the command of its row. -/
def AtomRow (n : CoreId) (g : SlotId) (op : Nat) (c : Instr) : Prop := ∀ s : State, exec c s = .next (s.keepPilot (s.atomV n g op 0))

theorem atomRow_of_mem {n : CoreId} {g : SlotId} {op : Nat} {c : Instr}
    (h : (op, c) ∈ [(0, Instr.atomAdd n g 0), (1, Instr.atomMin n g), (2, Instr.atomMax n g), (3, Instr.atomAnd n g), (4, Instr.atomOr n g), (5, Instr.atomXor n g),
      (6, Instr.atomXchg n g), (7, Instr.atomCas n g)]) : AtomRow n g op c := by
  simp only [List.mem_cons, Prod.mk.injEq, List.not_mem_nil, or_false] at h
  obtain ⟨rfl, rfl⟩ | ⟨rfl, rfl⟩ | ⟨rfl, rfl⟩ | ⟨rfl, rfl⟩ | ⟨rfl, rfl⟩ | ⟨rfl, rfl⟩ | ⟨rfl, rfl⟩ | ⟨rfl, rfl⟩ := h
  all_goals exact fun _ => rfl

section
variable {s u : State} {n g op : Nat} {w : VWord} {as : List Access}

/-- What an atomic does once its addresses and the Pantry words it reads are good: the operations on Pantries at once, the others sent to their homes (R108, R162). -/
def State.performAtom (s : State) (n g op : Nat) (x : Group) (w : VWord) (as : List Access) : State :=
  let here := as.filter (fun a => !hasHome a.pa)
  let ops := atomOps op (as.filter (fun a => hasHome a.pa))
  let s := s.when (decide (op ≤ 5)) (fun s => s.bump Reg.CST_VEC_CNT [n] F.CST_VEC_CNT_ATOM_COMB (as.length - (byAddress as).length))
  let (s, vs) := (s.countReplays n w.spaceA as).atomPantry x w here
  let l : MemWait := { word := w, parts := as.map (fun a => { thread := a.thread, va := a.va, pa := a.pa }), left := ops.length, vals := vs }
  (ops.zipIdx.foldl (fun s e => s.sendAtom n g x w e.2 e.1) (s.setGroup n g { s.group n g with atom := some l })).finishAtom n g

theorem AtV.atomV_checked (h : AtV s n g 8 w) (hop : w.op = op) (hexec : (s.group n g).exec w ≠ 0) (hscope : 2 ≤ w.ordA → s.widen n w.scopeA < 6)
    (hcheck : s.checkAddrs n w.spaceA 4 .both true (accesses (s.group n g) ((s.group n g).exec w) w.spaceA w.sbA w.va 0 false) = some (u, as, []))
    (hgood : ∀ a ∈ as.filter (fun a => !hasHome a.pa), u.poisoned a.pa 4 = false) : s.atomV n g op 0 = u.performAtom n g op (s.group n g) w as := by
  have hbad : (as.filter (fun a => !hasHome a.pa)).filter (fun a => u.poisoned a.pa 4) = [] :=
    List.filter_eq_nil_iff.mpr fun a ha => Bool.eq_false_iff.mp (hgood a ha)
  rw [State.atomV, State.reachV_of_atV _ h (by simp [hop])]
  refine (State.releaseIf_device hscope _).trans ?_
  simp only [if_neg hexec, hcheck, hbad, State.checked_none]
  rfl

end

/-! ### LDS of the core's own Pantry (R100, R101) -/

/-- An offset of a core's Pantry lies in that core's window (Table AR-2, R127). -/
theorem regionOf_pantryAddr {n a : Nat} (hn : n < 512) (ha : a < pantrySize) : regionOf (pantryAddr n a) = .pantry n a := by
  simp only [pantrySize] at ha
  have hcellar : ¬ pantryAddr n a ≤ 0x007FFFFFFFFF := by simp only [pantryAddr]; omega
  have hlocker : ¬ (0x010000000000 ≤ pantryAddr n a ∧ pantryAddr n a ≤ 0x01017FFFFFFF) := by simp only [pantryAddr]; omega
  have hpantry : 0x020000000000 ≤ pantryAddr n a ∧ pantryAddr n a ≤ 0x02007FFFFFFF := by simp only [pantryAddr]; omega
  have hcore : (pantryAddr n a - 0x020000000000) / 0x400000 = n := by simp only [pantryAddr]; omega
  have hoff : (pantryAddr n a - 0x020000000000) % 0x400000 = a := by simp only [pantryAddr]; omega
  rw [regionOf, if_neg hcellar, if_neg hlocker, if_pos hpantry, hcore, hoff]

/-- A legal LDS is an 8-byte uniform access (R101). -/
theorem VWord.lds_form {w : VWord} (hlegal : w.legal = true) (hcls : w.cls = 7) (hop : w.op = 2) : w.bytes = 8 ∧ w.unif = true := by
  simp only [VWord.legal, VWord.formOk, hcls, hop, Bool.and_eq_true, beq_iff_eq, decide_eq_true_eq] at hlegal
  obtain ⟨-, ⟨hsize, hunif⟩, -⟩ := hlegal
  exact ⟨congrArg (fun k => 2 ^ k) hsize, hunif⟩

/-- The one access of a uniform instruction is its lowest executing thread's. -/
theorem accesses_uniform (x : Group) {m : DWord} (hm : m ≠ 0) (space : Bool) (sb va : Nat) (off : Int) :
    ∃ t, accesses x m space sb va off true = [(t, threadAddr space (x.sreg sb) 0 off)] := by
  cases hts : threads m with
  | nil =>
    refine absurd (BitVec.eq_of_getLsbD_eq fun i hi => ?_) hm
    have hi' : i ∉ threads m := by simp [hts]
    simpa [mem_threads, hi] using hi'
  | cons t ts => exact ⟨t, by simp [accesses, hts]⟩

section
variable {s : State} {n g : Nat} {w : VWord}

/-- One aligned offset inside the core's Pantry passes R102's checks and changes nothing. -/
theorem State.checkAddrs_pantry {a size : Nat} (t : Nat) (need : Need) (atomic : Bool) (ha : a < pantrySize) (halign : a % size = 0) :
    s.checkAddrs n false size need atomic [(t, a)] = some (s, [⟨t, a, pantryAddr n a, 0⟩], []) := by
  have haddr : s.groupAddr n false a size need atomic = .ok s (pantryAddr n a) 0 := by
    simp only [State.groupAddr, Bool.false_eq_true, not_false_eq_true, if_true, if_neg (Nat.not_le.mpr ha), halign, ne_eq, not_true_eq_false, if_false]
  simp only [State.checkAddrs, haddr, Option.map_some]

/-- A part of a load at a Pantry address has its data at once. -/
theorem State.loadPart_pantry {size m off : Nat} {a : Access} (hregion : regionOf a.pa = .pantry m off) :
    s.loadPart n g size a = some (s, { thread := a.thread, va := a.va, pa := a.pa, pin := leafPin a.leaf (s.fnOf n),
                                       got := some (s.pantryNat m off size, s.pantryPoison m off size) }) := by
  rw [State.loadPart]
  simp only [hregion]

theorem State.loadParts_single {size : Nat} {a : Access} {t : State} {p : LoadPart} (h : s.loadPart n g size a = some (t, p)) :
    s.loadParts n g size [a] = some (t, [p]) := by
  simp only [State.loadParts, h, Option.bind_some, Option.map_some]

end

theorem State.countReplays_same (s : State) (n : Nat) (space : Bool) (as : List Access) : SameButRegs s (s.countReplays n space as) := by
  rw [State.countReplays]
  split
  · exact .refl s
  · exact State.bump_same _ _ _ _ _

/-- Bytes are read from memory alone. -/
theorem State.bytes_congr {s t : State} (h : t.mem = s.mem) (a k : Nat) : t.bytes a k = s.bytes a k := by
  induction k generalizing a with
  | zero => rfl
  | succ k ih => simp only [State.bytes, ih, State.byte, h]

/-- A change of registers and interrupts changes no Pantry. -/
theorem SameButRegs.pantryNat {s t : State} (h : SameButRegs s t) (n off k : Nat) : t.pantryNat n off k = s.pantryNat n off k := by
  have hmem : t.mem = s.mem := h.field State.mem
  exact congrArg ofLeBytes (State.bytes_congr hmem _ _)

theorem SameButRegs.pantryPoison {s t : State} (h : SameButRegs s t) (n off k : Nat) : t.pantryPoison n off k = s.pantryPoison n off k :=
  h.field (fun s => s.pantryPoison n off k)

section
variable {s : State} {n g a : Nat} {w : VWord}

/-- The group after an LDS of value `v` at offset `a`: its scalar register written, the iteration signed (R115). -/
def Group.ldsDone (x : Group) (w : VWord) (a v : Nat) : Group := { ((x.sign a v).setS (w.vd % 32) (BitVec.ofNat 64 v)).next with load := none }

theorem Group.ldsDone_pc (x : Group) (w : VWord) (a v : Nat) : (x.ldsDone w a v).pc = x.pc + 1 := rfl
theorem Group.ldsDone_v (x : Group) (w : VWord) (a v : Nat) : (x.ldsDone w a v).v = x.v := rfl
theorem Group.ldsDone_p (x : Group) (w : VWord) (a v : Nat) : (x.ldsDone w a v).p = x.p := rfl
theorem Group.sreg_ldsDone (x : Group) (w : VWord) (a v r : Nat) :
    (x.ldsDone w a v).sreg r = if w.vd % 32 = r then BitVec.ofNat 64 v else x.sreg r := Tbl.get_set _ _ _ _ _

/-- An LDS whose 8 bytes have come without poison or error writes its scalar register (R101). -/
theorem State.finishLoad_lds (s : State) (x : Group) {p : LoadPart} {v : Nat} {uni : Bool} (hop : w.op = 2) (hord : w.ordM ≠ 1) (hva : p.va = a)
    (hgot : p.got = some (v, false)) (hbad : p.bad = none) :
    (s.setGroup n g { x with load := some { word := w, uniform := uni, parts := [p] } }).finishLoad n g =
      (s.setGroup n g { x with load := some { word := w, uniform := uni, parts := [p] } }).setGroup n g (x.ldsDone w a v) := by
  subst hva
  simp [State.finishLoad, State.group_setGroup, Group.ldsDone, Group.sign, Group.setS, Group.next, hgot, hbad, hop, State.when, hord]

/-- LDS at one aligned offset of the core's own Pantry: the 8 bytes go to the scalar register, and beside the group only registers change. -/
theorem AtV.lds_pantry (h : AtV s n g 7 w) (hop : w.op = 2) (hspace : w.spaceM = false) (hord : w.ordM ≠ 1) (hexec : (s.group n g).exec w ≠ 0) (hn : n < 512)
    (haddr : a = threadAddr false ((s.group n g).sreg w.sbM) 0 w.offset) (ha : a < pantrySize) (halign : a % 8 = 0) (hclean : s.pantryPoison n a 8 = false) :
    ∃ (u : State) (y : Group), SameButRegs s u ∧ s.loadV n g 2 = (u.setGroup n g y).setGroup n g ((s.group n g).ldsDone w a (s.pantryNat n a 8)) := by
  obtain ⟨-, -, hlegal, hcls⟩ := id h
  obtain ⟨hbytes, hunif⟩ := VWord.lds_form hlegal hcls hop
  obtain ⟨t, hacc⟩ := accesses_uniform (s.group n g) hexec false w.sbM w.va w.offset
  obtain ⟨b, hb⟩ : ∃ b : Access, b = ⟨t, a, pantryAddr n a, 0⟩ := ⟨_, rfl⟩
  have hcheck : s.checkAddrs n w.spaceM w.bytes .read false (accesses (s.group n g) ((s.group n g).exec w) w.spaceM w.sbM w.va w.offset w.unif) =
      some (s, [b], []) := by
    rw [hspace, hbytes, hunif, hacc, ← haddr, hb]
    exact State.checkAddrs_pantry t _ _ ha halign
  have hregion : regionOf b.pa = .pantry n a := by rw [hb]; exact regionOf_pantryAddr hn ha
  have hsame := s.countReplays_same n w.spaceM [b]
  have hpart := State.loadPart_pantry (s := s.countReplays n w.spaceM [b]) (n := n) (g := g) (size := w.bytes) hregion
  rw [hsame.pantryNat, hsame.pantryPoison, hbytes, hclean] at hpart
  have hload := h.loadV_checked hop hexec hcheck (by rw [hbytes]; exact State.loadParts_single hpart)
  have hgroup : (s.countReplays n w.spaceM [b]).group n g = s.group n g := hsame.field (fun t => t.group n g)
  rw [hgroup] at hload
  exact ⟨_, _, hsame, hload.trans (State.finishLoad_lds _ _ hop hord (by rw [hb]) rfl rfl)⟩

end

/-! ### Control transfers (R92, R114) -/

theorem exec_nop (n : CoreId) (g : SlotId) (s : State) :
    exec (.nop n g) s = .next (s.keepPilot (s.control n g 0x00 (fun x _ => s.setGroup n g x.next))) := rfl
theorem exec_jmp (n : CoreId) (g : SlotId) (s : State) :
    exec (.jmp n g) s = .next (s.keepPilot (s.control n g 0x01 (fun x w => s.transfer n g x x w.target))) := rfl
theorem exec_brnz (n : CoreId) (g : SlotId) (s : State) : exec (.brnz n g) s = .next (s.keepPilot
    (s.control n g 0x02 (fun x w => if x.sreg w.saC ≠ 0 then s.transfer n g x x w.target else s.setGroup n g x.next))) := rfl
theorem exec_brz (n : CoreId) (g : SlotId) (s : State) : exec (.brz n g) s = .next (s.keepPilot
    (s.control n g 0x03 (fun x w => if x.sreg w.saC = 0 then s.transfer n g x x w.target else s.setGroup n g x.next))) := rfl
theorem exec_split (n : CoreId) (g : SlotId) (s : State) : exec (.split n g) s = .next (s.keepPilot (s.split n g)) := rfl
theorem exec_join (n : CoreId) (g : SlotId) (s : State) : exec (.join n g) s = .next (s.keepPilot (s.join n g)) := rfl
theorem exec_lpush (n : CoreId) (g : SlotId) (s : State) : exec (.lpush n g) s = .next (s.keepPilot (s.lpush n g)) := rfl
theorem exec_brk (n : CoreId) (g : SlotId) (s : State) : exec (.brk n g) s = .next (s.keepPilot (s.brk n g)) := rfl
theorem exec_loopif (n : CoreId) (g : SlotId) (s : State) : exec (.loopif n g) s = .next (s.keepPilot (s.loopIf n g)) := rfl
theorem exec_lpop (n : CoreId) (g : SlotId) (s : State) : exec (.lpop n g) s = .next (s.keepPilot (s.lpop n g)) := rfl
theorem exec_waitsib (n : CoreId) (g : SlotId) (s : State) : exec (.waitsib n g) s = .next (s.keepPilot (s.waitSib n g)) := rfl

/-! ### The mask stack (R95-R98) -/

section
variable {s : State} {n g : Nat} {w : VWord} {x : Group} {e : MaskEntry} {r : List MaskEntry}

/-- SPLIT with room on the stack: the path of the threads that the predicate selects goes on at the target, the other waits; with none selected the other goes on (R95). -/
theorem AtV.split (h : AtV s n g 9 w) (hop : w.op = 0x04) (hx : s.group n g = x) (hroom : x.stack.length < 16) : s.split n g =
    if x.active &&& x.preg w.pkC = 0 then
      s.setGroup n g { x with stack := ⟨.split, x.active, 0, 0, w.rpc⟩ :: x.stack, active := x.active &&& ~~~ (x.preg w.pkC), pc := x.pc + 1 }
    else s.transfer n g x
      { x with stack := ⟨.split, x.active, x.active &&& ~~~ (x.preg w.pkC), x.pc + 1, w.rpc⟩ :: x.stack, active := x.active &&& x.preg w.pkC } w.target := by
  rw [State.split, h.control hop, hx]
  simp only [if_neg (Nat.not_le.mpr hroom), ne_eq, ite_not]

/-- JOIN at the reconvergence point of the top entry: the pending path that has live threads goes on, or the entry is popped (R95). -/
theorem AtV.join (h : AtV s n g 9 w) (hop : w.op = 0x05) (hstack : (s.group n g).stack = e :: r) (hkind : e.kind = .split) (hrpc : e.rpc = (s.group n g).pc) :
    s.join n g = if e.pend &&& (s.group n g).live = 0 then s.setGroup n g ((s.group n g).pop e r)
      else s.setGroup n g { s.group n g with stack := { e with pend := 0 } :: r, active := e.pend &&& (s.group n g).live, pc := e.ppc } := by
  rw [State.join, h.control hop]
  simp only [hstack, hkind, hrpc, ne_eq, not_true_eq_false, or_self, if_false, ite_not]

theorem AtV.lpush (h : AtV s n g 9 w) (hop : w.op = 0x06) (hroom : (s.group n g).stack.length < 16) : s.lpush n g =
    s.setGroup n g { s.group n g with stack := ⟨.loop, (s.group n g).active, 0, 0, w.rpc⟩ :: (s.group n g).stack, pc := (s.group n g).pc + 1 } := by
  rw [State.lpush, h.control hop]
  exact if_neg (Nat.not_le.mpr hroom)

theorem State.onLoop_top (hstack : x.stack = e :: r) (hkind : e.kind = .loop) (f : MaskEntry → List MaskEntry → State) : s.onLoop n g x f = f e r := by
  simp only [State.onLoop, hstack, hkind, if_true]

/-- BRK on a loop entry: the breaking threads leave, and the last of them goes to the loop's end (R96). -/
theorem AtV.brk (h : AtV s n g 9 w) (hop : w.op = 0x07) (hstack : (s.group n g).stack = e :: r) (hkind : e.kind = .loop) : s.brk n g =
    s.setGroup n g { s.group n g with
      active := (s.group n g).active &&& ~~~ ((s.group n g).preg w.pkC)
      pc := if (s.group n g).active &&& ~~~ ((s.group n g).preg w.pkC) = 0 then e.rpc else (s.group n g).pc + 1 } := by
  rw [State.brk, h.control hop, State.onLoop_top hstack hkind]

/-- LOOPIF on a loop entry: the threads that the predicate selects run the loop again, and with none the loop ends (R96). -/
theorem AtV.loopIf (h : AtV s n g 9 w) (hop : w.op = 0x08) (hstack : (s.group n g).stack = e :: r) (hkind : e.kind = .loop) : s.loopIf n g =
    if (s.group n g).active &&& (s.group n g).preg w.pkC = 0 then
      s.setGroup n g { s.group n g with active := (s.group n g).active &&& (s.group n g).preg w.pkC, pc := e.rpc }
    else s.transfer n g (s.group n g) { s.group n g with active := (s.group n g).active &&& (s.group n g).preg w.pkC } w.target := by
  rw [State.loopIf, h.control hop, State.onLoop_top hstack hkind]

theorem AtV.lpop (h : AtV s n g 9 w) (hop : w.op = 0x09) (hstack : (s.group n g).stack = e :: r) (hkind : e.kind = .loop) (hrpc : e.rpc = (s.group n g).pc) :
    s.lpop n g = s.setGroup n g ((s.group n g).pop e r) := by
  rw [State.lpop, h.control hop, State.onLoop_top hstack hkind]
  exact if_neg (not_not_intro hrpc)

/-- WAITSIB above a sibling path with live threads hands it the turn (R114). -/
theorem AtV.waitSib_turn (h : AtV s n g 9 w) (hop : w.op = 0x0A) (hstack : (s.group n g).stack = e :: r) (hkind : e.kind = .split)
    (hpend : e.pend &&& (s.group n g).live ≠ 0) : s.waitSib n g =
      s.setGroup n g { s.group n g with
        stack := { e with pend := (s.group n g).active, ppc := (s.group n g).pc + 1 } :: r
        active := e.pend &&& (s.group n g).live
        pc := e.ppc
        spin := 0 } := by
  rw [State.waitSib, h.control hop]
  simp only [hstack, hkind, hpend, ne_eq, not_false_eq_true, and_self, if_true]

/-- WAITSIB without such a sibling goes on at the next instruction (R114). -/
theorem AtV.waitSib_stay (h : AtV s n g 9 w) (hop : w.op = 0x0A)
    (hnone : ∀ e r, (s.group n g).stack = e :: r → e.kind ≠ .split ∨ e.pend &&& (s.group n g).live = 0) :
    s.waitSib n g = s.setGroup n g { (s.group n g).next with spin := 0 } := by
  rw [State.waitSib, h.control hop]
  dsimp only
  split
  · rfl
  · next e r hstack =>
    refine if_neg ?_
    rintro ⟨hkind, hpend⟩
    exact (hnone e r hstack).elim (· hkind) hpend

end

end Sys2Proof.Machine

namespace Sys2Proof.Proofs
open Sys2Proof Sys2Proof.Machine

/-- Settles O13: the one address of the LDS passes its checks, and its part has its data at once. -/
theorem pantryScalarLoad : Obligations.PantryScalarLoad := by
  intro n g s w a hat hop hspace hord hexec haddr ha halign hclean
  obtain ⟨u, y, hsame, hload⟩ := hat.lds_pantry hop hspace hord hexec n.isLt haddr ha halign hclean
  refine ⟨_, lds_row n g s, ?_⟩
  rw [hload, State.group_keepPilot, State.group_setGroup, if_pos rfl, State.keepPilot_mem, State.keepPilot_seqs]
  refine ⟨?value, Group.ldsDone_pc _ _ _ _, Group.ldsDone_v _ _ _ _, Group.ldsDone_p _ _ _ _, ?others, hsame.field State.mem, hsame.field State.seqs⟩
  case value => rw [Group.sreg_ldsDone, if_pos rfl]
  case others => exact fun r hr => by rw [Group.sreg_ldsDone, if_neg (Ne.symm hr)]

/-- Settles O11: a load and a store by their checked addresses; a fill by its Cupboard's answer. -/
theorem groupLoadsStores : Obligations.GroupLoadsStores := by
  refine ⟨?load, ?loadNone, ?store, ?storeUniform, ?fill⟩
  case load =>
    intro n g s u t c op w as ps hc hat hop hexec hcheck hparts
    rw [loadRow_of_mem hc s, hat.loadV_checked hop hexec hcheck hparts]
  case loadNone =>
    intro n g s c op w hc hat hop hexec hord
    rw [loadRow_of_mem hc s, hat.loadV_none hop hexec hord, State.keepPilot_setGroup]
  case store =>
    intro n g s u t w as hat hop hexec hscope hunif hcheck hparts
    rw [exec_st, hat.storeV_checked hop hexec hscope hcheck (by rw [storeAccesses, hunif]; exact hparts), Group.stored]
  case storeUniform =>
    rintro n g s u t w as _ hat hop hexec hscope hunif hcheck rfl hparts
    rw [exec_st, hat.storeV_checked hop hexec hscope hcheck (by rw [storeAccesses, hunif]; exact hparts), Group.stored]
  case fill =>
    intro n l s u c hfill hread
    rw [exec_shelfFill, State.shelfFill_returns hfill hread]

/-- Settles O12: an atomic with good addresses performs what `State.performAtom` says. -/
theorem groupAtomics : Obligations.GroupAtomics := by
  rintro n g s u t c op w as _ _ vs _ hc hat hop hexec hscope hcheck rfl rfl hgood hpantry rfl
  rw [atomRow_of_mem hc s, hat.atomV_checked hop hexec hscope hcheck hgood]
  simp only [State.performAtom, hpantry]

/-- Settles O14: each instruction by its lemma, on the top entry where it has one. -/
theorem groupControl : Obligations.GroupControl := by
  refine ⟨?nop, ?jmp, ?brnz, ?brz, ?splitNone, ?splitSome, ?joinSibling, ?joinPop, ?lpush, ?brk, ?loopif, ?lpop, ?turn, ?stay⟩
  case nop => exact fun n g s w hat hop => by rw [exec_nop, hat.control hop, State.keepPilot_setGroup]
  case jmp => exact fun n g s w hat hop => by rw [exec_jmp, hat.control hop]
  case brnz => exact fun n g s w hat hop => by rw [exec_brnz, hat.control hop, ite_not]
  case brz => exact fun n g s w hat hop => by rw [exec_brz, hat.control hop]
  case splitNone => exact fun n g s w hat hop hroom hnone => by rw [exec_split, hat.split hop rfl hroom, if_pos hnone, State.keepPilot_setGroup]
  case splitSome => exact fun n g s w hat hop hroom hsome => by rw [exec_split, hat.split hop rfl hroom, if_neg hsome]
  case joinSibling =>
    intro n g s w e r hat hop hstack hkind hrpc hpend
    rw [exec_join, hat.join hop hstack hkind hrpc, if_neg hpend, State.keepPilot_setGroup]
  case joinPop =>
    intro n g s w e r hat hop hstack hkind hrpc hpend
    rw [exec_join, hat.join hop hstack hkind hrpc, if_pos hpend, State.keepPilot_setGroup]
  case lpush => exact fun n g s w hat hop hroom => by rw [exec_lpush, hat.lpush hop hroom, State.keepPilot_setGroup]
  case brk =>
    rintro n g s w e r _ hat hop hstack hkind rfl
    rw [exec_brk, hat.brk hop hstack hkind, State.keepPilot_setGroup]
  case loopif =>
    rintro n g s w e r _ hat hop hstack hkind rfl
    rw [exec_loopif, hat.loopIf hop hstack hkind]
  case lpop =>
    intro n g s w e r hat hop hstack hkind hrpc
    rw [exec_lpop, hat.lpop hop hstack hkind hrpc, State.keepPilot_setGroup]
  case turn =>
    intro n g s w e r hat hop hstack hkind hpend
    rw [exec_waitsib, hat.waitSib_turn hop hstack hkind hpend, State.keepPilot_setGroup]
  case stay => exact fun n g s w hat hop hnone => by rw [exec_waitsib, hat.waitSib_stay hop hnone, State.keepPilot_setGroup]

end Sys2Proof.Proofs
end

section
/-! PROOFS. The Larder's commands (06_memory_hierarchy.md): granules (R131), TLBs (R136, R137), range operations (R138), pinned ways (R140, R141), and the
retirement of ways (R142, R392, R393). -/
namespace Sys2Proof.Machine

/-! ### Who commands the Larder -/
section
variable {s : State} {w : Writer} {off : Nat}

/-- What the manager alone may write is carried out for it. -/
theorem State.asManager_of_manager (f : State → State) (hman : isManager w = true) : s.asManager w off f = f s := if_pos hman

/-- Over an open data path a write reaches its unit (R246, R252). -/
theorem State.tenantWrite_of_open (f : State → State) (hopen : s.closedFor w = false) : s.tenantWrite w off f = f s := by
  rw [State.tenantWrite, hopen, if_neg Bool.false_ne_true]
end

/-! ### Granules (R131) -/
section
variable {s : State} {w : Writer} {g d : Nat}

/-- With no change running, in quadrant mode, a change of a granule's die is taken. -/
theorem State.qmapCmd_taken (hman : isManager w = true) (hidle : s.larderCtl.qmap = none) (hquad : s.quadrant = true) :
    s.qmapCmd w g d =
      ((s.wrote Reg.LRD_QMAP_CMD [] (g + 512 * d)).setCtl (fun c => { c with qmap := some (g, d) })).setFld Reg.LRD_MH_STAT [] F.LRD_MH_STAT_QMAP_BUSY 1 := by
  rw [State.qmapCmd, State.asManager_of_manager _ hman]
  simp only [hidle, hquad, Option.isSome_none, Bool.false_eq_true, not_true_eq_false, if_false]

/-- The change of a granule's die once its lines have left: the die set, the command over, before the waiting accesses start. -/
def State.granuleMoved (s : State) (g d : Nat) : State :=
  ((((((s.larder.map (·.1)).filter (inGranule g)).foldl (fun s l => s.evict l) s).shelvesDrop (inGranule g)).setFld Reg.LRD_QMAP [g / 32]
    ⟨2 * (g % 32) + 1, 2 * (g % 32)⟩ d).setCtl (fun c => { c with qmap := none })).setFld Reg.LRD_MH_STAT [] F.LRD_MH_STAT_QMAP_BUSY 0

/-- In home ordering, with no transaction of the granule running and no line of it held, the change ends. -/
theorem State.qmapEnd_changes (horder : s.order = 0) (hcmd : s.larderCtl.qmap = some (g, d))
    (hhomes : s.homes.any (fun e => inGranule g e.1 && !e.2.running.isEmpty) = false)
    (hheld : ((s.larder.map (·.1)).filter (inGranule g)).any s.heldLine = false) :
    s.qmapEnd = (((s.granuleMoved g d).homes.map (·.1)).filter (inGranule g)).foldl (fun s l => s.wake l) (s.granuleMoved g d) := by
  rw [State.qmapEnd, hcmd]
  simp only [horder, hhomes, hheld, bne_self_eq_false, Bool.or_self, Bool.false_eq_true, if_false]
  rfl
end

theorem exec_qmapCmd (w : Writer) (g : Fin 512) (d : DieId) (s : State) : exec (.qmapCmd w g d) s = .next (s.keepPilot (s.qmapCmd w g d)) := rfl
theorem exec_qmapChangeEnd (s : State) : exec .qmapChangeEnd s = .next (s.keepPilot s.qmapEnd) := rfl

/-! ### TLBs (R136, R137) -/

/-- A walk that finds a leaf leaves the state that the translation answers, with the entry cached. -/
theorem exec_tlbWalk_ok {g : ClusterId} {i : InstId} {va : BitVec 48} {read write : Bool} {s u : State} {pa : Nat} {leaf : DWord}
    (hok : s.translate g i va.toNat (if read && write then .both else if write then .write else .read) = .ok u pa leaf) :
    exec (.tlbWalk g i va read write) s = .next (s.keepPilot u) := by
  change execTlbWalk g i va read write s = _
  rw [execTlbWalk, hok]

/-- The manager's invalidation is taken while none runs; that it may end a locked TDI comes first (R321). -/
theorem State.tlbInv_taken {s : State} {w : Writer} {i size vpn : Nat} (hman : isManager w = true)
    (hidle : (s.tdiBreak i).bit Reg.LRD_TLB_STAT [] F.LRD_TLB_STAT_BUSY = false) (hi : i ≤ 32) :
    s.tlbInv w i size vpn = ((((s.tdiBreak i).wrote Reg.LRD_TLB_INV [] (vpn + 2 ^ 54 * size + 2 ^ 56 * i)).tlbDrop i size vpn).setFld
      Reg.LRD_TLB_STAT [] F.LRD_TLB_STAT_BUSY 1) := by
  rw [State.tlbInv, State.asManager_of_manager _ hman]
  simp only [hidle, Nat.not_lt.mpr hi, Bool.false_eq_true, if_false]

theorem exec_tlbInv (w : Writer) (i : Fin 64) (size : Fin 4) (vpn : BitVec 36) (s : State) :
    exec (.tlbInv w i size vpn) s = .next (s.keepPilot (s.tlbInv w i size vpn.toNat)) := rfl
theorem exec_tlbInvEnd (s : State) : exec .tlbInvEnd s = .next (s.setFld Reg.LRD_TLB_STAT [] F.LRD_TLB_STAT_BUSY 0) := rfl

/-! ### Range operations (R138, R139) -/

/-- The commands of LRD_RNG_CMD, by their OP. -/
def RangeRow (w : Writer) (i : InstId) (op : Nat) (c : Instr) : Prop := ∀ s : State, exec c s = .next (s.keepPilot (s.rangeCmd w i op))

theorem prefetch_row (w : Writer) (i : InstId) : RangeRow w i 1 (.prefetch w i) := fun _ => rfl
theorem flush_row (w : Writer) (i : InstId) : RangeRow w i 2 (.flush w i) := fun _ => rfl
theorem invalidate_row (w : Writer) (i : InstId) : RangeRow w i 3 (.invalidate w i) := fun _ => rfl
theorem rangeDiscard_row (w : Writer) (i : InstId) : RangeRow w i 4 (.rangeDiscard w i) := fun _ => rfl

theorem rangeRow_of_mem {w : Writer} {i : InstId} {op : Nat} {c : Instr}
    (h : (op, c) ∈ [(1, Instr.prefetch w i), (2, Instr.flush w i), (3, Instr.invalidate w i), (4, Instr.rangeDiscard w i)]) : RangeRow w i op c := by
  simp only [List.mem_cons, Prod.mk.injEq, List.not_mem_nil, or_false] at h
  obtain ⟨rfl, rfl⟩ | ⟨rfl, rfl⟩ | ⟨rfl, rfl⟩ | ⟨rfl, rfl⟩ := h
  exacts [prefetch_row w i, flush_row w i, invalidate_row w i, rangeDiscard_row w i]

theorem rngCmd_ne_rngAddr (i : Nat) : Reg.LRD_RNG_CMD.addr [i] ≠ Reg.LRD_RNG_ADDR.addr [i] := by
  simp only [RegSpec.addr, Reg.LRD_RNG_CMD, Reg.LRD_RNG_ADDR, addrOf]; omega

theorem rngCmd_ne_rngLen (i : Nat) : Reg.LRD_RNG_CMD.addr [i] ≠ Reg.LRD_RNG_LEN.addr [i] := by
  simp only [RegSpec.addr, Reg.LRD_RNG_CMD, Reg.LRD_RNG_LEN, addrOf]; omega

section
variable {s u : State} {w : Writer} {i op : Nat} {r : RangeOp}

/-- A range of whole lines is taken when none of the inst.'s runs; the range registers are as they were before the command was written. -/
theorem State.rangeCmd_taken {va len : Nat} (hopen : s.closedFor w = false) (hmay : mayRange w i = true) (hidle : s.rangeOps.get none i = none)
    (hva : va = s.fld Reg.LRD_RNG_ADDR [i] F.LRD_RNG_ADDR_VA) (hlen : len = s.fld Reg.LRD_RNG_LEN [i] F.LRD_RNG_LEN_LEN)
    (hvaLine : va % 128 = 0) (hlenLine : len % 128 = 0) (hsome : len ≠ 0) :
    s.rangeCmd w i op = { s.wrote Reg.LRD_RNG_CMD [i] op with rangeOps := s.rangeOps.set none i (some ⟨op, va, len⟩) }.setFld
      Reg.LRD_RNG_STAT [i] F.LRD_RNG_STAT_BUSY 1 := by
  have hvaAfter : (s.wrote Reg.LRD_RNG_CMD [i] op).fld Reg.LRD_RNG_ADDR [i] F.LRD_RNG_ADDR_VA = va :=
    (State.fld_setReg_ne _ _ _ _ _ _ _ (rngCmd_ne_rngAddr i)).trans hva.symm
  have hlenAfter : (s.wrote Reg.LRD_RNG_CMD [i] op).fld Reg.LRD_RNG_LEN [i] F.LRD_RNG_LEN_LEN = len :=
    (State.fld_setReg_ne _ _ _ _ _ _ _ (rngCmd_ne_rngLen i)).trans hlen.symm
  rw [State.rangeCmd, State.tenantWrite_of_open _ hopen]
  simp only [hmay, hidle, hvaAfter, hlenAfter, hvaLine, hlenLine, hsome, Option.isSome_none, ne_eq, not_true_eq_false, or_self, Bool.false_eq_true, if_false]
  rfl

/-- A line that needs no wait and does not fail is done: with it the operation ends, or goes on at the next line. -/
theorem State.rangeLine_done (hop : s.rangeOps.get none i = some r) (hact : s.rangeAct i r.op r.va = .done u) :
    s.rangeLine i false = if r.left ≤ 128 then u.rangeOver i r.op 0 r.va
      else { u with rangeOps := u.rangeOps.set none i (some ⟨r.op, (r.va + 128) % 2 ^ 48, r.left - 128⟩) } := by
  simp only [State.rangeLine, hop, hact, Bool.false_eq_true, false_and, if_false]
end

theorem exec_rangeLine (i : InstId) (fail : Bool) (s : State) : exec (.rangeLine i fail) s = .next (s.keepPilot (s.rangeLine i fail)) := rfl

/-! ### Pinned ways (R140, R141) -/

/-- The commands of LRD_PIN_CMD, by their OP. -/
def PinRow (w : Writer) (way : Fin 16) (i : Fin 64) (op : Nat) (c : Instr) : Prop := ∀ s : State, exec c s = .next (s.keepPilot (s.pinCmd w op way i))

theorem grantPin_row (w : Writer) (way : Fin 16) (i : Fin 64) : PinRow w way i 1 (.grantPin w way i) := fun _ => rfl
theorem grantLocker_row (w : Writer) (way : Fin 16) (i : Fin 64) : PinRow w way i 2 (.grantLocker w way i) := fun _ => rfl
theorem revoke_row (w : Writer) (way : Fin 16) (i : Fin 64) : PinRow w way i 3 (.revoke w way i) := fun _ => rfl

theorem pinRow_of_mem {w : Writer} {way : Fin 16} {i : Fin 64} {op : Nat} {c : Instr}
    (h : (op, c) ∈ [(1, Instr.grantPin w way i), (2, Instr.grantLocker w way i), (3, Instr.revoke w way i)]) : PinRow w way i op c := by
  simp only [List.mem_cons, Prod.mk.injEq, List.not_mem_nil, or_false] at h
  obtain ⟨rfl, rfl⟩ | ⟨rfl, rfl⟩ | ⟨rfl, rfl⟩ := h
  exacts [grantPin_row w way i, grantLocker_row w way i, revoke_row w way i]

theorem grantRow_of_mem {w : Writer} {way : Fin 16} {i : Fin 64} {op : Nat} {c : Instr}
    (h : (op, c) ∈ [(1, Instr.grantPin w way i), (2, Instr.grantLocker w way i)]) : PinRow w way i op c ∧ op ≠ 3 :=
  ⟨pinRow_of_mem (List.mem_append_left [(3, Instr.revoke w way i)] h), by rintro rfl; simp at h⟩

section
variable {s u : State} {w : Writer} {op way i : Nat}

/-- The state with command `op` written and kept as running with operation `kind` for inst. `own`. -/
def State.pinBegun (u : State) (op way i kind own : Nat) : State :=
  ((u.wrote Reg.LRD_PIN_CMD [] (i + 256 * way + 4096 * op)).setCtl (fun c => { c with pin := some ⟨kind, way, own⟩ })).setFld
    Reg.LRD_MH_STAT [] F.LRD_MH_STAT_PIN_BUSY 1

/-- A grant that no refusal meets is taken for the inst. that it names. -/
theorem State.pinCmd_grants (hman : isManager w = true) (hu : u = s.tdiBreak i) (hidle : u.larderCtl.pin = none) (hok : u.pinRefusal op way i = 0)
    (hop : op ≠ 3) : s.pinCmd w op way i = u.pinBegun op way i op i := by
  rw [State.pinCmd, State.asManager_of_manager _ hman, ← hu]
  simp only [hidle, hok, hop, Option.isSome_none, Bool.false_eq_true, false_and, if_false]
  rfl

/-- A way that backs no Locker unit is revoked from the inst. that has it. -/
theorem State.pinCmd_revokes (hman : isManager w = true) (hu : u = s.tdiBreak i) (hidle : u.larderCtl.pin = none) (hok : u.pinRefusal 3 way i = 0)
    (hunit : (u.wrote Reg.LRD_PIN_CMD [] (i + 256 * way + 12288)).unitOfWay way = none) :
    s.pinCmd w 3 way i = u.pinBegun 3 way i 3 (u.wayOwner way) := by
  rw [State.pinCmd, State.asManager_of_manager _ hman, ← hu]
  simp only [hidle, hok, hunit, Option.isSome_none, Bool.false_eq_true, and_false, if_false, if_true]
  rfl

/-- A way that backs a Locker unit: the unit, which is the highest, is unbacked at once and the way leaves its inst. (R141). -/
theorem State.pinCmd_revokesLocker {k : Nat} {v : State} (hman : isManager w = true) (hu : u = s.tdiBreak i) (hidle : u.larderCtl.pin = none)
    (hok : u.pinRefusal 3 way i = 0) (hunit : (u.wrote Reg.LRD_PIN_CMD [] (i + 256 * way + 12288)).unitOfWay way = some k)
    (hv : v = u.pinBegun 3 way i 4 (u.wayOwner way)) :
    s.pinCmd w 3 way i = (((v.setFld Reg.LRD_MH_STAT [] F.LRD_MH_STAT_UNITS (v.units - 1)).setFld Reg.LRD_LOCKER_MAP []
      ⟨4 * (v.units - 1) + 3, 4 * (v.units - 1)⟩ 0).setPin F.LRD_PIN_CFG_WAYS way (u.wayOwner way) false).setPin F.LRD_PIN_CFG_LOCKER way (u.wayOwner way) false := by
  rw [State.pinCmd, State.asManager_of_manager _ hman, ← hu, hv]
  simp only [hidle, hok, hunit, Option.isSome_none, Option.isSome_some, Bool.false_eq_true, and_self, if_false, if_true]
  rfl

theorem State.pinCmd_refused (hman : isManager w = true) (hu : u = s.tdiBreak i) (hidle : u.larderCtl.pin = none) (hr : u.pinRefusal op way i ≠ 0) :
    s.pinCmd w op way i = (u.setFld Reg.LRD_MH_STAT [] F.LRD_MH_STAT_REFUSE (u.pinRefusal op way i)).refuse w Reg.LRD_PIN_CMD.base
      (if op = 0 then causeReserved else if u.pinRefusal op way i = 3 then causeValue else causeState) (u.pinRefusal op way i) := by
  rw [State.pinCmd, State.asManager_of_manager _ hman, ← hu]
  simp only [hidle, Option.isSome_none, Bool.false_eq_true, if_false]

/-- The codes of Table MH-8. -/
theorem State.pinRefusal_le (s : State) (op way i : Nat) : s.pinRefusal op way i ≤ 5 := by
  simp only [State.pinRefusal]
  split_ifs <;> decide
end

theorem mhStat_beside : BesideRecords (Reg.LRD_MH_STAT.addr []) := .inr (by decide)

/-- A refused pin command shows its code and leaves one record; the pins and the lines stay (R140, R413). -/
theorem State.refusedPin_effect (u : State) (w : Writer) (off cause : Nat) {r : Nat} (hr : r ≤ 5) {t : State}
    (ht : t = (u.setFld Reg.LRD_MH_STAT [] F.LRD_MH_STAT_REFUSE r).refuse w off cause r) :
    t.larderCtl = u.larderCtl ∧ t.fld Reg.LRD_MH_STAT [] F.LRD_MH_STAT_REFUSE = r ∧
      t.fld Reg.ERR_PROD [] F.ERR_PROD_PROD = (u.fld Reg.ERR_PROD [] F.ERR_PROD_PROD + 1) % 2 ^ 32 ∧ t.larder = u.larder := by
  subst ht
  refine ⟨State.refuse_larderCtl _ _ _ _ _, ?code, ?count, State.refuse_larder _ _ _ _ _⟩
  case code =>
    calc _ = (u.setFld Reg.LRD_MH_STAT [] F.LRD_MH_STAT_REFUSE r).fld Reg.LRD_MH_STAT [] F.LRD_MH_STAT_REFUSE :=
          congrArg (fieldOf · _ _) (State.reg_log_beside _ _ mhStat_beside (by decide))
      _ = r % 2 ^ 3 := State.fld_setFld_self _ _ _ _ _ (by decide) (by decide)
      _ = r := Nat.mod_eq_of_lt (by omega)
  case count => rw [State.fld_prod_refuse, State.fld_setFld_ne _ _ _ _ _ _ _ _ (by decide)]

/-- The way of a pin command emptied and the command over: Locker lines of a revoked unit are dropped, other lines written back (R140, R141). -/
def State.pinEmptied (s : State) (p : PinCmd) : State :=
  ((if p.op = 4 then ((s.wayLines p.way).filter (fun e => isLocker e.1)).foldl (fun s e => s.dropLine e.1) s
    else (s.wayLines p.way).foldl (fun s e => s.evict e.1) s).setCtl (fun c => { c with pin := none })).setFld Reg.LRD_MH_STAT [] F.LRD_MH_STAT_PIN_BUSY 0

/-- What the end of a pin command writes, by its operation. -/
def State.pinWritten (u : State) (p : PinCmd) : State :=
  match p.op with
  | 1 => u.setPin F.LRD_PIN_CFG_WAYS p.way p.inst true
  | 2 => ((({ u with lockerLost := u.lockerLost.filter (fun e => e.1 / 4 != u.units) }.setPin F.LRD_PIN_CFG_WAYS p.way p.inst true).setPin
      F.LRD_PIN_CFG_LOCKER p.way p.inst true).setFld Reg.LRD_LOCKER_MAP [] ⟨4 * u.units + 3, 4 * u.units⟩ p.way).setFld
      Reg.LRD_MH_STAT [] F.LRD_MH_STAT_UNITS (u.units + 1)
  | 3 => u.setPin F.LRD_PIN_CFG_WAYS p.way p.inst false
  | _ => u

section
variable {s : State} {p : PinCmd}

/-- In home ordering, with no line of the way held by a reduction, a refetch or a transaction, the pin command ends. -/
theorem State.pinEnd_ends (horder : s.order = 0) (hpin : s.larderCtl.pin = some p)
    (hfree : (s.wayLines p.way).any (fun e => e.2.red || e.2.refetch || !(s.homeLine e.1).running.isEmpty) = false) :
    s.pinEnd = (s.pinEmptied p).pinWritten p := by
  rw [State.pinEnd, hpin]
  simp only [horder, hfree, bne_self_eq_false, Bool.or_self, Bool.false_eq_true, if_false]
  rfl
end

theorem exec_pinCmdEnd (s : State) : exec .pinCmdEnd s = .next (s.keepPilot s.pinEnd) := rfl

/-! ### Retirement windows and deleted ways (R142, R392, R393) -/
section
variable {s : State}

/-- A field of ERR_THR that is 0 turns its retirement off. -/
theorem State.overThreshold_zero {f : Fld} (h : s.fld Reg.ERR_THR [] f = 0) (count : Nat) : s.overThreshold f count = false := by
  rw [State.overThreshold, h, bne_self_eq_false, Bool.false_and]

/-- With every retirement turned off, a window only starts the counts anew. -/
theorem State.retirementWindow_off (ways : List WayCount) (heng : s.fld Reg.ERR_THR [] F.ERR_THR_ENGINE = 0)
    (hcup : s.fld Reg.ERR_THR [] F.ERR_THR_CUPBOARD = 0) (hlrd : s.fld Reg.ERR_THR [] F.ERR_THR_LARDER = 0) :
    s.retirementWindow ways = { s with replays := [] } := by
  have hways : ∀ {f : Fld}, s.fld Reg.ERR_THR [] f = 0 → ∀ count, State.overThreshold { s with replays := [] } f count = false :=
    fun h => State.overThreshold_zero h
  simp only [State.retirementWindow, State.overThreshold_zero heng, hways hcup, hways hlrd, Bool.and_false,
    List.filter_false, List.map_nil, List.foldl_nil, List.append_nil]

/-- Where no engine has replayed, one Larder way above its threshold begins to be deleted. -/
theorem State.retirementWindow_larderWay {w : WayCount} (hunit : w.unit.val < 64) (hover : s.overThreshold F.ERR_THR_LARDER w.count = true)
    (hreplays : s.replays = []) : s.retirementWindow [w] = s.beginDelete w.unit w.set w.way := by
  have hfresh : { s with replays := [] } = s := by rw [← hreplays]
  simp only [State.retirementWindow, hreplays, List.filter_nil, List.map_nil, List.foldl_nil, hfresh, List.filter_cons, hunit, hover, decide_true,
    Nat.not_le.mpr hunit, decide_false, Bool.false_and, Bool.true_and, Bool.false_eq_true, if_false, if_true, List.nil_append, List.foldl_cons]

/-- A deletion is listed in the flash while the list has room; the counters of the flash stay. -/
theorem State.recordDeletion_room (u st way : Nat) (hroom : s.pilot.deletions.length < 4096) :
    (s.recordDeletion u st way).pilot = { s.pilot with deletions := s.pilot.deletions ++ [(u, st, way)] } := by
  rw [State.recordDeletion, if_neg (Nat.not_le.mpr hroom), State.setPilot_pilot, State.keepPilot_pilot]

/-- A deletion whose lines may leave ends, and is listed in the flash. -/
theorem State.deleteEnd_pilot {u st way : Nat} (hu : u < 64)
    (hrun : s.larderCtl.deleting.find? (fun e => e.1 == u && e.2.1 == st) = some (u, st, way)) (hleave : s.mayLeave u st way = true)
    (hroom : s.pilot.deletions.length < 4096) :
    (s.deleteEnd u st).pilot = { s.pilot with deletions := s.pilot.deletions ++ [(u, st, way)] } := by
  simp only [State.deleteEnd, hrun, hu, hleave, not_true_eq_false, and_false, if_false, if_true, State.keepPilot_pilot]
  exact State.recordDeletion_room u st way hroom
end

theorem exec_retirementWindow (ways : List WayCount) (s : State) : exec (.retirementWindow ways) s = .next (s.keepPilot (s.retirementWindow ways)) := rfl
theorem exec_wayDeleteEnd (u : Fin 128) (st : Nat) (s : State) : exec (.wayDeleteEnd u st) s = .next (s.deleteEnd u st) := rfl

end Sys2Proof.Machine

namespace Sys2Proof.Proofs
open Sys2Proof Sys2Proof.Machine

/-- Settles O16: each command by its unit's lemma on what it takes, ends or refuses. -/
theorem larderCommands : Obligations.LarderCommands := by
  refine ⟨?qmap, ?qmapEnd, ?walkRead, ?walkWrite, ?tlbInv, exec_tlbInvEnd, ?range, ?lineNext, ?lineLast, ?grant, ?revoke, ?grantEnd, ?revokeLocker,
    ?lockerEnd, ?unlockEnd, ?revokeEnd, ?refused⟩
  case qmap =>
    intro w g d s hman hidle hquad
    rw [exec_qmapCmd, State.qmapCmd_taken hman hidle hquad]
    rfl
  case qmapEnd =>
    rintro s _ g d _ horder hcmd rfl hhomes hheld rfl
    rw [exec_qmapChangeEnd, State.qmapEnd_changes horder hcmd hhomes hheld]
    rfl
  case walkRead => exact fun g i va s u pa leaf hok => exec_tlbWalk_ok hok
  case walkWrite => exact fun g i va rd s u pa leaf hok => exec_tlbWalk_ok (by simpa using hok)
  case tlbInv =>
    rintro w i size vpn s _ hman rfl hidle hi
    rw [exec_tlbInv, State.tlbInv_taken hman hidle hi]
  case range =>
    intro w i s c op va len hc hopen hmay hidle hva hlen hvaLine hlenLine hsome
    rw [rangeRow_of_mem hc s, State.rangeCmd_taken hopen hmay hidle hva hlen hvaLine hlenLine hsome]
    rfl
  case lineNext =>
    intro i s u r hop hact hmore
    rw [exec_rangeLine, State.rangeLine_done hop hact, if_neg (Nat.not_le.mpr hmore)]
  case lineLast =>
    intro i s u r hop hact hlast
    rw [exec_rangeLine, State.rangeLine_done hop hact, if_pos hlast]
  case grant =>
    intro w way i s u c op hc hman hu hidle hok
    obtain ⟨hrow, hop⟩ := grantRow_of_mem hc
    rw [hrow s, State.pinCmd_grants hman hu hidle hok hop, State.pinBegun]
  case revoke =>
    intro w way i s u hman hu hidle hok hunit
    rw [revoke_row w way i s, State.pinCmd_revokes hman hu hidle hok hunit, State.pinBegun]
  case revokeLocker =>
    intro w way i s u v k hman hu hidle hok hunit hv
    rw [revoke_row w way i s, State.pinCmd_revokesLocker hman hu hidle hok hunit hv]
  case grantEnd =>
    rintro s _ ⟨_, way, inst⟩ horder hpin rfl hfree rfl
    rw [exec_pinCmdEnd, State.pinEnd_ends horder hpin hfree]
    rfl
  case lockerEnd =>
    rintro s _ ⟨_, way, inst⟩ horder hpin rfl hfree rfl
    rw [exec_pinCmdEnd, State.pinEnd_ends horder hpin hfree]
    rfl
  case unlockEnd =>
    rintro s ⟨_, way, inst⟩ horder hpin rfl hfree
    rw [exec_pinCmdEnd, State.pinEnd_ends horder hpin hfree]
    rfl
  case revokeEnd =>
    rintro s _ ⟨_, way, inst⟩ horder hpin rfl hfree rfl
    rw [exec_pinCmdEnd, State.pinEnd_ends horder hpin hfree]
    rfl
  case refused =>
    rintro w way i s u c op _ hc hman hu hidle rfl hr
    refine ⟨_, pinRow_of_mem hc s, ?_⟩
    simp only [State.keepPilot_larderCtl, State.fld_keepPilot, State.keepPilot_larder]
    exact State.refusedPin_effect u w _ _ (u.pinRefusal_le op way i) (State.pinCmd_refused hman hu hidle hr)

/-- Settles O48: a window by what its thresholds let through; the end of a deletion by what it lists in the flash. -/
theorem retirement : Obligations.Retirement := by
  refine ⟨?off, ?larderWay, ?deleted⟩
  case off =>
    intro ways s heng hcup hlrd
    rw [exec_retirementWindow, State.retirementWindow_off ways heng hcup hlrd]
    rfl
  case larderWay =>
    intro w s hunit hover hreplays
    rw [exec_retirementWindow, State.retirementWindow_larderWay hunit hover hreplays]
  case deleted =>
    intro u st way s hu hrun hleave hroom
    have hpilot := State.deleteEnd_pilot hu hrun hleave hroom
    obtain ⟨-, -, hpending⟩ := kept_deleteEnd s u st
    exact ⟨_, exec_wayDeleteEnd u st s, by rw [hpilot], by rw [hpilot], hpending⟩

end Sys2Proof.Proofs
end

section
/-! PROOFS. Coherence and reductions (07_larder_coherence_and_reductions.md): requests at their home (R150, R155, R158, R161), evictions and snoops (R148, R149, R153),
grants, forwards, completions and fills (R150, R151, R154, R155), the reduction units and the memory side (R158-R160), and the two ordering modes (R156). -/
namespace Sys2Proof.Machine

/-! ### A request at its home (R150, R155, R158, R161) -/
section
variable {s u v : State} {r : CohReq}

/-- The commands that bring the request `r` for line `l` to its home. -/
def RequestRow (l : Nat) (c : Instr) (r : CohReq) : Prop := r.line = l ∧ ∀ s : State, exec c s = .next (s.keepPilot (s.arrive r))

theorem requestRow_of_mem {g : ClusterId} {who : Agent} {l tag : Nat} {data : Line} {mask : BitVec 128} {poison : Bool} {op : RedOp} {atm : AtomOp} {c : Instr}
    (h : (c, r) ∈ [(Instr.rds g l, { kind := .rds, who := .cluster g, line := l }), (Instr.rdu g l, { kind := .rdu, who := .cluster g, line := l }),
      (Instr.upg g l, { kind := .upg, who := .cluster g, line := l }), (Instr.wru g l data, { kind := .wru, who := .cluster g, line := l, data := data }),
      (Instr.rdn who l tag, { kind := .rdn, who := who, line := l, tag := tag }),
      (Instr.wrn who l tag data mask poison, { kind := .wrn, who := who, line := l, tag := tag, data := data, mask := mask, poison := poison }),
      (Instr.red who l tag op, { kind := .red, who := who, line := l, tag := tag, red := some op }),
      (Instr.atm who l tag atm, { kind := .atm, who := who, line := l, tag := tag, atm := some atm })]) : RequestRow l c r := by
  simp only [List.mem_cons, Prod.mk.injEq, List.not_mem_nil, or_false] at h
  obtain ⟨rfl, rfl⟩ | ⟨rfl, rfl⟩ | ⟨rfl, rfl⟩ | ⟨rfl, rfl⟩ | ⟨rfl, rfl⟩ | ⟨rfl, rfl⟩ | ⟨rfl, rfl⟩ | ⟨rfl, rfl⟩ := h
  all_goals exact ⟨rfl, fun _ => rfl⟩

/-- The home of `r`'s line with one more transaction running. -/
def State.opened (s : State) (r : CohReq) (t : Txn) : State :=
  s.setHome r.line { s.homeLine r.line with running := (s.homeLine r.line).running ++ [t] }

/-- What may start has found room in the slice's reduction queue. -/
theorem State.queueFull_of_mayStart (h : s.mayStart r = true) : s.queueFull r = false := by
  simp only [State.mayStart, Bool.and_eq_true, Bool.not_eq_true'] at h
  exact h.2

theorem State.startReq_owner (horder : s.order = 1) : s.startReq r = some ((s.opened r { req := r, acking := true }).send (.fwd r)) := by
  rw [State.startReq, if_pos horder]
  rfl

theorem State.startReq_absent (horder : s.order ≠ 1) (hfwd : s.forwards r = false) (habsent : s.larderLine r.line = none) :
    s.startReq r = some (s.opened r { req := r, filling := true }) := by
  simp only [State.startReq, horder, hfwd, habsent, Option.isSome_none, Bool.false_eq_true, if_false]
  rfl

/-- A resident line's request goes on at once, where what it is granted can be done. -/
theorem State.startReq_resident (horder : s.order ≠ 1) (hfwd : s.forwards r = false) (hres : (s.larderLine r.line).isSome = true)
    (hgo : (s.opened r { req := r }).proceed { req := r } = some v) : s.startReq r = some v := by
  rw [State.opened] at hgo
  simp only [State.startReq, horder, hfwd, hres, hgo, Bool.false_eq_true, if_false, if_true, Option.getD_some]

section
variable (hu : u = s.countLrd (s.bayOfAgent r.who) r.charge)
include hu

theorem State.arrive_starts (hmay : u.mayStart r = true) (hstart : u.startReq r = some v) : s.arrive r = v := by
  subst hu
  simp only [State.arrive, State.queueFull_of_mayStart hmay, hmay, hstart, Bool.false_eq_true, if_false, if_true, Option.getD_some]

theorem State.arrive_waits (hmay : u.mayStart r = false) (hroom : u.queueFull r = false) :
    s.arrive r = u.setHome r.line { u.homeLine r.line with waiting := (u.homeLine r.line).waiting ++ [r] } := by
  subst hu
  simp only [State.arrive, hmay, hroom, Bool.false_eq_true, if_false]

theorem State.arrive_queueFull (hfull : u.queueFull r = true) :
    s.arrive r = (u.setSlice (u.home r.line).1 { u.slice (u.home r.line).1 with waiting := (u.slice (u.home r.line).1).waiting ++ [r] }).bump
      Reg.LRD_SL_CNT [(u.home r.line).1] F.LRD_SL_CNT_HOT 1 := by
  subst hu
  simp only [State.arrive, hfull, if_true]
end
end

/-! ### Evictions, snoops and their responses (R148, R149, R153; Tables CO-4 and CO-5) -/
section
variable {s u v w : State} {g l : Nat} {c : CupLine} {t : Txn}

theorem exec_wbd_dirty {g : ClusterId} (hc : s.cupLine g l = some c) (hst : c.st = .m ∨ c.st = .o) :
    exec (.wbd g l) s = .next (s.keepPilot ((s.cupEvict g l).wake l)) := by
  change execWbd g l s = _
  simp only [execWbd, hc, hst, if_true]

theorem exec_evc_clean {g : ClusterId} (hc : s.cupLine g l = some c) (hst : c.st = .e ∨ c.st = .s) :
    exec (.evc g l) s = .next (s.keepPilot ((s.cupEvict g l).wake l)) := by
  change execEvc g l s = _
  simp only [execEvc, hc, hst, if_true]

/-- An owner sends the data to the requester, and the transaction is marked as served. -/
theorem State.takeSnpS_owner (hmsg : s.receive (.snoop .snpS g l) = some u) (hc : u.cupLine g l = some c) (hst : c.st ≠ .s)
    (ht : u.snooping l = some t) :
    s.takeSnpS g l = (((u.snoopCup .snpS g l).send (.dat t.req.who l c.data c.poison .s)).setHome l
      { u.homeLine l with running := (u.homeLine l).running.map (fun v => if v = t then { v with served := true } else v) }).answered g l := by
  simp only [State.takeSnpS, hmsg, hc, ht, hst, if_false]

/-- A copy in S has no data to send, whatever transaction snoops it. -/
theorem State.takeSnpS_sharer (hmsg : s.receive (.snoop .snpS g l) = some u) (hc : u.cupLine g l = some c) (hst : c.st = .s) :
    s.takeSnpS g l = u.answered g l := by
  cases ht : u.snooping l with
  | none => simp only [State.takeSnpS, hmsg, hc, ht]
  | some t => simp only [State.takeSnpS, hmsg, hc, ht, hst, if_true]

theorem State.takeSnoop_received {k : SnoopKind} (hmsg : s.receive (.snoop k g l) = some u) :
    s.takeSnoop k g l = (u.snoopCup k g l).answered g l := by
  simp only [State.takeSnoop, hmsg]

/-- A die's response leaves the transaction waiting for the other dies; at the last one the home grants and the line's held requests start. -/
theorem State.takeRsp_received {d : Nat} {t' : Txn} (hmsg : s.receive (.rsp d l) = some u) (ht : s.snooping l = some t)
    (ht' : t' = { t with dies := t.dies.erase d })
    (hv : v = (u.setHome l { u.homeLine l with running := (u.homeLine l).running.map (fun x => if x = t then t' else x) }).setPres l)
    (hgrant : v.grant t' = some w) : s.takeRsp d l = if t'.dies.isEmpty then w.wake l else v := by
  subst ht' hv
  simp only [State.takeRsp, hmsg, ht, hgrant, Option.getD_some]
end

theorem exec_snps (g : ClusterId) (l : Nat) (s : State) : exec (.snps g l) s = .next (s.keepPilot (s.takeSnpS g l)) := rfl
theorem exec_snpc (g : ClusterId) (l : Nat) (s : State) : exec (.snpc g l) s = .next (s.keepPilot (s.takeSnoop .snpC g l)) := rfl
theorem exec_snpi (g : ClusterId) (l : Nat) (s : State) : exec (.snpi g l) s = .next (s.keepPilot (s.takeSnoop .snpI g l)) := rfl
theorem exec_rsp (d : DieId) (l : Nat) (s : State) : exec (.rsp d l) s = .next (s.keepPilot (s.takeRsp d l)) := rfl

/-! ### Data, ownership and acknowledgement (R150, R151) -/
section
variable {s u : State} {g l : Nat} {who : Agent}

theorem State.takeDat_cluster {d : Line} {p : BitVec 16} {st : CupState}
    (hmsg : s.net.find? (CohMsg.isDat (.cluster g) l) = some (.dat (.cluster g) l d p st)) :
    s.takeDat (.cluster g) l = ({ s with net := s.net.erase (.dat (.cluster g) l d p st) }.cupInstall g l ⟨st, d, p⟩).send (.ack (.cluster g) l) := by
  simp only [State.takeDat, hmsg]

/-- With no full-line write of its own running, a Cupboard keeps its copy and owns it. -/
theorem State.takeGntM_upgrade {c : CupLine} (hmsg : s.receive (.gntM (.cluster g) l) = some u)
    (hrun : (u.homeLine l).running.find? (fun t => t.req.who == .cluster g && t.req.kind == .wru) = none) (hc : u.cupLine g l = some c) :
    s.takeGntM (.cluster g) l = ((u.setCup g l (some { c with st := .m })).setPres l).send (.ack (.cluster g) l) := by
  simp only [State.takeGntM, hmsg, hrun, hc, Option.map_none]

/-- A full-line writer installs the data of its write. -/
theorem State.takeGntM_write {t : Txn} (hmsg : s.receive (.gntM (.cluster g) l) = some u)
    (hrun : (u.homeLine l).running.find? (fun t => t.req.who == .cluster g && t.req.kind == .wru) = some t) :
    s.takeGntM (.cluster g) l = (u.cupInstall g l ⟨.m, t.req.data, 0⟩).send (.ack (.cluster g) l) := by
  simp only [State.takeGntM, hmsg, hrun, Option.map_some]

theorem State.takeAck_received (hmsg : s.receive (.ack who l) = some u) :
    s.takeAck who l = ((u.setHome l { u.homeLine l with running := dropFirst (fun t => t.acking && t.req.who == who) (u.homeLine l).running }).setPres l).wake l := by
  simp only [State.takeAck, hmsg]
end

theorem exec_dat (who : Agent) (l : Nat) (s : State) : exec (.dat who l) s = .next (s.keepPilot (s.takeDat who l)) := rfl
theorem exec_gntm (who : Agent) (l : Nat) (s : State) : exec (.gntm who l) s = .next (s.keepPilot (s.takeGntM who l)) := rfl
theorem exec_ack (who : Agent) (l : Nat) (s : State) : exec (.ack who l) s = .next (s.keepPilot (s.takeAck who l)) := rfl

/-! ### Forwarded requests (R155) -/
section
variable {s u : State} {l : Nat} {r : CohReq} (hmsg : s.net.find? (CohMsg.isFwd l) = some (.fwd r))
  (hres : { s with net := s.net.erase (.fwd r) }.resident l none = some u)
include hmsg hres

theorem State.takeFwd_rdu (hkind : r.kind = .rdu) :
    s.takeFwd l = (u.snoopAll l none).send (.dat r.who l (u.lineValue l).1 (u.lineValue l).2 .m) := by
  simp only [State.takeFwd, hmsg, hres, hkind]

theorem State.takeFwd_wru (hkind : r.kind = .wru) : s.takeFwd l = (u.snoopAll l none).send (.gntM r.who l) := by
  simp only [State.takeFwd, hmsg, hres, hkind]

/-- With no owner the home slice answers a read itself: alone when no Cupboard holds the line, else as one more sharer. -/
theorem State.takeFwd_rds_unowned (hkind : r.kind = .rds) (howner : u.ownerOf l = none) :
    s.takeFwd l = u.send (.dat r.who l (u.lineValue l).1 (u.lineValue l).2 (if (u.holders l).isEmpty then .e else .s)) := by
  simp only [State.takeFwd, hmsg, hres, hkind, howner]
end

theorem exec_fwd (l : Nat) (s : State) : exec (.fwd l) s = .next (s.keepPilot (s.takeFwd l)) := rfl

/-! ### Completions and fills (R150, R154) -/
section
variable {s u v : State} {l tag k : Nat} {d : Line} {p : Bool} {vs : List (Nat × Word)}

theorem State.takeCmp_group {n g : Nat} (hmsg : s.net.find? (isCmp (.group n g) l tag) = some (.cmp (.group n g) l k d p vs)) :
    s.takeCmp (.group n g) l tag = { s with net := s.net.erase (.cmp (.group n g) l k d p vs) }.atomDone n g p vs := by
  simp only [State.takeCmp, hmsg]

theorem State.takeCmp_porter {q c : Nat} (hmsg : s.net.find? (isCmp (.porter q c) l tag) = some (.cmp (.porter q c) l k d p vs)) :
    s.takeCmp (.porter q c) l tag = { s with net := s.net.erase (.cmp (.porter q c) l k d p vs) }.porterAnswer q c tag false true 0 0 p := by
  simp only [State.takeCmp, hmsg]

/-- A line that finds a way is filled, and the transaction that waits for it goes on. -/
theorem exec_larderFill_resident {t : Txn} (hfill : (s.homeLine l).running.find? (·.filling) = some t) (hres : s.resident l none = some u)
    (hgo : u.proceed t = some v) : exec (.larderFill l) s = .next (s.keepPilot v) := by
  change execLarderFill l s = _
  simp only [execLarderFill, hfill, hres, hgo, Option.bind_some]
end

theorem exec_cmp (who : Agent) (l tag : Nat) (s : State) : exec (.cmp who l tag) s = .next (s.keepPilot (s.takeCmp who l tag)) := rfl

/-! ### Reduction units and the memory side (R158-R160) -/
@[simp] theorem State.keepPilot_setSlice (s : State) (i : Nat) (x : Slice) : s.keepPilot (s.setSlice i x) = s.setSlice i x := rfl

section
variable {s v : State} {sl u l : Nat}

/-- A free unit in service takes the first queued line that no unit has. -/
theorem State.redBind_binds {r : CohReq} (hon : (s.slice sl).offline.getLsbD u = false) (hfree : (s.slice sl).units.get none u = none)
    (hline : (s.slice sl).queue.find? (fun r => !((s.slice sl).units.filterMap (·.2)).contains r.line) = some r) :
    s.redBind sl u = s.setSlice sl { s.slice sl with units := (s.slice sl).units.set none u (some r.line) } := by
  simp only [State.redBind, hon, hfree, hline, Option.isSome_none, Bool.or_self, Bool.false_eq_true, if_false]

/-- The end of a binding whose line can be written back: the requests performed complete, the line's others go behind the queue, and as many are admitted. -/
theorem State.redUnbind_ends {y : LarderLine} {rs left : List CohReq} (hunit : (s.slice sl).units.get none u = some l) (hline : s.larderLine l = some y)
    (hrs : rs = bindTake l (s.fld Reg.LRD_RED_CFG [] F.LRD_RED_CFG_BIND_MAX) (s.slice sl).queue) (hleft : left = rs.foldl List.erase (s.slice sl).queue)
    (hput : s.larderPut l { y with data := (bindRun rs y.data).1, red := left.any (fun r => r.line == l) } = some v) :
    s.redUnbind sl u = (((v.setSlice sl { v.slice sl with
      queue := left.filter (fun r => r.line != l) ++ left.filter (fun r => r.line == l)
      units := (v.slice sl).units.set none u none }).sends
      ((rs.zip (bindRun rs y.data).2).map (fun e => .cmp e.1.who l e.1.tag 0 y.poison e.2))).admitMany sl rs.length).wake l := by
  subst hrs hleft
  simp only [State.redUnbind, hunit, hline, hput]

/-- A Cellar controller that does not wait for its line performs the oldest reduction on it and answers the home. -/
theorem State.takeMred_performs {r : CohReq} (hready : s.cellarWaits l = false) (hmsg : s.net.find? (CohMsg.isMred l) = some (.mred r)) :
    s.takeMred l = ({ s with net := s.net.erase (.mred r) }.cellarPut l (bindRun [r] (s.cellarGet l).1).1 false (s.cellarGet l).2.2).send
      (.mack r.who l r.tag (s.cellarGet l).2.2 ((bindRun [r] (s.cellarGet l).1).2.headD [])) := by
  simp only [State.takeMred, hready, hmsg, Bool.false_eq_true, if_false]

/-- The home counts one forwarded reduction less and completes the sender. -/
theorem State.takeMack_received {k : Nat} {w : Agent} {p : Bool} {vs : List (Nat × Word)}
    (hmsg : s.net.find? (CohMsg.isMack l) = some (.mack w l k p vs)) (hsl : sl = (s.home l).1) :
    s.takeMack l = (({ s with net := s.net.erase (.mack w l k p vs) }.setSlice sl
      { s.slice sl with fwd := (s.slice sl).fwd.set 0 l ((s.slice sl).fwd.get 0 l - 1) }).send (.cmp w l k 0 p vs)).wake l := by
  subst hsl
  simp only [State.takeMack, hmsg]
  rfl
end

theorem exec_redBind (sl : SliceId) (u : SlotId) (s : State) : exec (.redBind sl u) s = .next (s.keepPilot (s.redBind sl u)) := rfl

theorem exec_redUnbind_match {sl : SliceId} {u : SlotId} {s : State} {l : Nat} (hunit : (s.slice sl).units.get none u = some l) :
    exec (.redUnbind sl u 0) s = .next (s.keepPilot (s.redUnbind sl u)) := by
  change execRedUnbind sl u 0 s = _
  simp only [execRedUnbind, hunit, Option.isNone_some, Bool.false_eq_true, if_false]
  rfl

/-- A second mismatch puts the unit out of service while another of the slice stays in it (R159). -/
theorem exec_redUnbind_retires {sl : SliceId} {u : SlotId} {s : State} {l : Nat} {off : BitVec 8} (hunit : (s.slice sl).units.get none u = some l)
    (hoff : off = (s.slice sl).offline ||| BitVec.ofNat 8 (2 ^ u.val)) (hother : off ≠ 0xFF) :
    exec (.redUnbind sl u 2) s = .next (s.keepPilot ((s.setSlice sl { s.slice sl with offline := off, units := (s.slice sl).units.set none u none }).log
      { kind := 0x09, index := 8 * sl + u, cls := .contained, retired := true })) := by
  subst hoff
  change execRedUnbind sl u 2 s = _
  simp only [execRedUnbind, hunit, Option.isNone_some, Bool.false_eq_true, if_false, hother]

theorem exec_mred (l : Nat) (s : State) : exec (.mred l) s = .next (s.keepPilot (s.takeMred l)) := rfl
theorem exec_mack (l : Nat) (s : State) : exec (.mack l) s = .next (s.keepPilot (s.takeMack l)) := rfl

/-! ### The two ordering modes (R156) -/
@[simp] theorem State.keepPilot_setFld (s : State) (r : RegSpec) (is : List Nat) (f : Fld) (v : Nat) : s.keepPilot (s.setFld r is f v) = s.setFld r is f v := rfl

/-- The order and its reason, commanded: LRD_COH_CMD holds the command, LRD_COH_STAT shows what is under way. -/
theorem exec_enterOwner {w : Writer} {reason : Fin 4} {s : State} (hw : w = .storekeeper) (horder : s.order = 0) :
    exec (.enterOwner w reason) s =
      .next (((s.wrote Reg.LRD_COH_CMD [] 1).setFld Reg.LRD_COH_STAT [] F.LRD_COH_STAT_ORDER 2).setFld Reg.LRD_COH_STAT [] F.LRD_COH_STAT_REASON reason) := by
  change execEnterOwner w reason s = _
  rw [execEnterOwner, State.enterOwner, if_pos ⟨hw, horder⟩]
  rfl

theorem exec_exitOwner {w : Writer} {s : State} (hw : w = .storekeeper) (horder : s.order = 1) :
    exec (.exitOwner w) s = .next ((s.wrote Reg.LRD_COH_CMD [] 2).setFld Reg.LRD_COH_STAT [] F.LRD_COH_STAT_ORDER 3) := by
  change execExitOwner w s = _
  rw [execExitOwner, State.exitOwner, if_pos ⟨hw, horder⟩]
  rfl

theorem exec_ownerOrderEntered {s : State} (horder : s.order = 2) (hdrained : s.drained = true) :
    exec .ownerOrderEntered s = .next (s.setFld Reg.LRD_COH_STAT [] F.LRD_COH_STAT_ORDER 1) := by
  change execOwnerOrderEntered s = _
  rw [execOwnerOrderEntered, if_pos ⟨horder, hdrained⟩, State.keepPilot_setFld]

theorem exec_homeOrderResumed {s : State} (horder : s.order = 3) : exec .homeOrderResumed s = .next (s.keepPilot s.homeOrder) := by
  change execHomeOrderResumed s = _
  rw [execHomeOrderResumed, if_pos horder]

end Sys2Proof.Machine

namespace Sys2Proof.Proofs
open Sys2Proof Sys2Proof.Machine

/-- Settles O17: a request by how its home stands when the Bay is charged; an eviction, a snoop or a response by the lemma about who takes it. -/
theorem coherenceRequests : Obligations.CoherenceRequests := by
  refine ⟨?requests, ?wbd, ?evc, ?snpsOwner, ?snpsSharer, ?snpc, ?snpi, ?rsp⟩
  case requests =>
    intro g who l tag data mask poison op atm c r s u hc hu
    obtain ⟨rfl, hexec⟩ := requestRow_of_mem hc
    rw [hexec s]
    refine ⟨?absent, ?resident, ?owner, ?waits, ?queueFull⟩
    case absent =>
      intro hmay horder hfwd habsent
      rw [State.arrive_starts hu hmay (State.startReq_absent horder hfwd habsent), State.opened]
    case resident =>
      intro v hmay horder hfwd hres hgo
      rw [State.arrive_starts hu hmay (State.startReq_resident horder hfwd hres hgo)]
    case owner =>
      intro hmay horder
      rw [State.arrive_starts hu hmay (State.startReq_owner horder), State.opened]
    case waits => exact fun hmay hroom => by rw [State.arrive_waits hu hmay hroom]
    case queueFull => exact fun hfull => by rw [State.arrive_queueFull hu hfull]
  case wbd => exact fun g l s c hc hst => exec_wbd_dirty hc hst
  case evc => exact fun g l s c hc hst => exec_evc_clean hc hst
  case snpsOwner =>
    intro g l s u c t hmsg hc hst ht
    rw [exec_snps, State.takeSnpS_owner hmsg hc hst ht]
  case snpsSharer =>
    intro g l s u c hmsg hc hst
    rw [exec_snps, State.takeSnpS_sharer hmsg hc hst]
  case snpc =>
    intro g l s u hmsg
    rw [exec_snpc, State.takeSnoop_received hmsg]
  case snpi =>
    intro g l s u hmsg
    rw [exec_snpi, State.takeSnoop_received hmsg]
  case rsp =>
    intro d l s u v w t t' hmsg ht ht' hv hgrant
    rw [exec_rsp, State.takeRsp_received hmsg ht ht' hv hgrant]

/-- Settles O18: each message by what its receiver does with it, a fill by the transaction that waits for it. -/
theorem coherenceGrants : Obligations.CoherenceGrants := by
  refine ⟨?dat, ?upgrade, ?write, ?ack, ?rdu, ?wru, ?rds, ?group, ?porter, ?fill⟩
  case dat =>
    intro g l s d p st hmsg
    rw [exec_dat, State.takeDat_cluster hmsg]
  case upgrade =>
    intro g l s u c hmsg hrun hc
    rw [exec_gntm, State.takeGntM_upgrade hmsg hrun hc]
  case write =>
    intro g l s u t hmsg hrun
    rw [exec_gntm, State.takeGntM_write hmsg hrun]
  case ack =>
    intro who l s u hmsg
    rw [exec_ack, State.takeAck_received hmsg]
  case rdu =>
    intro l s u r hmsg hres hkind
    rw [exec_fwd, State.takeFwd_rdu hmsg hres hkind]
  case wru =>
    intro l s u r hmsg hres hkind
    rw [exec_fwd, State.takeFwd_wru hmsg hres hkind]
  case rds =>
    intro l s u r hmsg hres hkind howner
    rw [exec_fwd, State.takeFwd_rds_unowned hmsg hres hkind howner]
  case group =>
    intro n g l tag k s d p vs hmsg
    rw [exec_cmp, State.takeCmp_group hmsg]
  case porter =>
    intro q c l tag k s d p vs hmsg
    rw [exec_cmp, State.takeCmp_porter hmsg]
  case fill => exact fun l s u v t hfill hres hgo => exec_larderFill_resident hfill hres hgo

/-- Settles O19: a unit binds, ends or retires as its lemma says; the memory side answers its home; a change of order is commanded by the Storekeeper. -/
theorem reductionsAndOrder : Obligations.ReductionsAndOrder := by
  refine ⟨?bind, ?unbind, ?retire, ?mred, ?enter, ?exit, ?entered, ?resumed, ?mack⟩
  case bind =>
    intro sl u s r hon hfree hline
    rw [exec_redBind, State.redBind_binds hon hfree hline, State.keepPilot_setSlice]
  case unbind =>
    intro sl u s v l y rs left hunit hline hrs hleft hput
    rw [exec_redUnbind_match hunit, State.redUnbind_ends hunit hline hrs hleft hput]
  case retire => exact fun sl u s l off hunit hoff hother => exec_redUnbind_retires hunit hoff hother
  case mred =>
    intro l s r hready hmsg
    rw [exec_mred, State.takeMred_performs hready hmsg]
  case enter => exact fun w reason s hw horder => exec_enterOwner hw horder
  case exit => exact fun w s hw horder => exec_exitOwner hw horder
  case entered => exact fun s horder hdrained => exec_ownerOrderEntered horder hdrained
  case resumed => exact fun s horder => exec_homeOrderResumed horder
  case mack =>
    intro l k sl s w p vs hmsg hsl
    rw [exec_mack, State.takeMack_received hmsg hsl]

end Sys2Proof.Proofs
end

section
/-! PROOFS. The memory model (08_memory_model.md): when a WAIT or a WTALLY ends (R177), and the writes of a Tally and of its adder (R176, R181, R186, Table MM-5). -/
namespace Sys2Proof.Machine

/-! ### Reaching a target (R177) -/

theorem reached_eq (t e : Word) : reached t e = decide ((t.toNat + 2 ^ 32 - e.toNat) % 2 ^ 32 < 2 ^ 31) := by
  have hdiff : (t - e).toNat = (t.toNat + 2 ^ 32 - e.toNat) % 2 ^ 32 := by rw [BitVec.toNat_sub]; omega
  rw [reached, hdiff]

section
variable {s : State} {n : Nat}

theorem State.keepPilot_self (s : State) : s.keepPilot s = s := SamePilot.keepPilot ⟨rfl, rfl⟩

/-- A WAIT whose Tally has not reached its target goes on waiting, and nothing else moves. -/
theorem HeldS.waitReached_waits {tally : BitVec 12} {x : BitVec 4} {set : BitVec 1} {scope : BitVec 3} {imm : Word}
    (h : HeldS s n .wait (.wait tally x set scope imm)) (hshort : reached (s.tally n tally.toNat) (s.seq n).waitTarget = false) :
    s.waitReached n = s := by
  rw [State.waitReached, h.heldS]
  exact if_pos (Bool.eq_false_iff.mp hshort)

theorem State.wtallyReached_waits {g i scope : Nat} {target : Word} (hstatus : (s.group n g).status = .waitTally i target scope)
    (hshort : reached (s.tally n i) target = false) : s.wtallyReached n g = s := by
  simp only [State.wtallyReached, hstatus, hshort, Bool.false_eq_true, not_false_eq_true, if_true]

end

/-! ### A Tally's register (R176, R186) -/

/-- Bits 31:0 of a Tally's register are its VALUE. -/
theorem State.toNat_tally (s : State) (n i : Nat) : (s.tally n i).toNat = fieldOf (s.reg Reg.CST_TALLY [n, i]) 31 0 := by
  rw [State.tally, BitVec.toNat_ofNat]
  rfl

/-- The Tally `i` of core `n` at the word `v`, and whether a write put it there (R182). -/
def State.putTally (s : State) (n i : Nat) (v : DWord) (written : Bool) : State :=
  { s.setReg Reg.CST_TALLY [n, i] v with tallySet := s.tallySet.set false (4096 * n + i) written }

theorem State.setTally_eq_put (s : State) (n i v : Nat) :
    s.setTally n i v = s.putTally n i (withField (s.reg Reg.CST_TALLY [n, i]) 31 0 v) true := by
  rw [State.setTally, State.putTally, State.setReg_tallySet]

theorem State.applyTally_eq_put (s : State) (n i : Nat) (x : Incr) :
    s.applyTally n i x = s.putTally n i (x.apply (s.reg Reg.CST_TALLY [n, i])) false := by
  rw [State.applyTally, State.putTally, State.setReg_tallySet]

section
variable (s : State) (n i : Nat) (v : DWord) (written : Bool)

@[simp] theorem State.putTally_mem : (s.putTally n i v written).mem = s.mem := rfl
@[simp] theorem State.putTally_seqs : (s.putTally n i v written).seqs = s.seqs := rfl
@[simp] theorem State.putTally_groups : (s.putTally n i v written).groups = s.groups := rfl

theorem State.putTally_samePilot : SamePilot s (s.putTally n i v written) := ⟨rfl, rfl⟩

@[simp] theorem State.reg_putTally_self : (s.putTally n i v written).reg Reg.CST_TALLY [n, i] = v := State.reg_setReg_self s _ _ _

theorem State.reg_putTally_ne {q : RegSpec} {js : List Nat} (h : Reg.CST_TALLY.addr [n, i] ≠ q.addr js) :
    (s.putTally n i v written).reg q js = s.reg q js := State.reg_setReg_ne s _ q _ js v h

theorem State.tally_putTally_ne {k : Nat} (hk : k ≠ i) : (s.putTally n i v written).tally n k = s.tally n k := by
  have hne : Reg.CST_TALLY.addr [n, i] ≠ Reg.CST_TALLY.addr [n, k] := by simp only [RegSpec.addr, Reg.CST_TALLY, addrOf]; omega
  rw [State.tally, State.reg_putTally_ne s n i v written hne, State.tally]

end

theorem State.setTally_samePilot (s : State) (n i v : Nat) : SamePilot s (s.setTally n i v) := by
  rw [State.setTally_eq_put]
  exact State.putTally_samePilot _ _ _ _ _

theorem State.applyTally_mem (s : State) (n i : Nat) (x : Incr) : (s.applyTally n i x).mem = s.mem := by
  rw [State.applyTally_eq_put, State.putTally_mem]

theorem State.applyTally_groups (s : State) (n i : Nat) (x : Incr) : (s.applyTally n i x).groups = s.groups := by
  rw [State.applyTally_eq_put, State.putTally_groups]

/-! ### What an increment leaves in the register (Table MM-9) -/

section
variable (x : Incr) (old : DWord)

/-- The register from its low end: VALUE, the source (LCORE, LDEV, LREMOTE), LKIND, LSCOPE. -/
theorem Incr.toNat_apply : ∃ src < 2 ^ 21, (x.apply old).toNat =
    (fieldOf old 31 0 + x.amount) % 2 ^ 32 + src * 2 ^ 32 + (x.kind % 8) * 2 ^ 53 + (x.scope % 8) * 2 ^ 61 := by
  have hcore : (if x.kind = 6 ∨ x.kind = 7 then 0 else x.core % 512) < 512 := by split <;> omega
  have hremote : ∃ r < 2, (if x.dev.isSome then 2 ^ 52 else 0) = r * 2 ^ 52 := by
    cases x.dev with
    | none => exact ⟨0, by decide, by simp⟩
    | some d => exact ⟨1, by decide, by simp⟩
  obtain ⟨r, hr, hremote⟩ := hremote
  rw [Incr.apply, BitVec.toNat_ofNat, hremote]
  generalize (if x.kind = 6 ∨ x.kind = 7 then 0 else x.core % 512) = core at *
  exact ⟨core + (x.dev.getD 0 % 2048) * 2 ^ 9 + r * 2 ^ 20, by omega, by omega⟩

theorem Incr.value_apply : fieldOf (x.apply old) 31 0 = (fieldOf old 31 0 + x.amount) % 2 ^ 32 := by
  obtain ⟨src, hsrc, h⟩ := x.toNat_apply old
  rw [fieldOf, bitsOf, h, Nat.shiftRight_eq_div_pow]
  omega

theorem Incr.kind_apply : fieldOf (x.apply old) 55 53 = x.kind % 8 := by
  obtain ⟨src, hsrc, h⟩ := x.toNat_apply old
  rw [fieldOf, bitsOf, h, Nat.shiftRight_eq_div_pow]
  omega

theorem Incr.scope_apply : fieldOf (x.apply old) 63 61 = x.scope % 8 := by
  obtain ⟨src, hsrc, h⟩ := x.toNat_apply old
  rw [fieldOf, bitsOf, h, Nat.shiftRight_eq_div_pow]
  omega

end

section
variable (s : State) (n i : Nat)

theorem State.tally_setTally_self (v : Nat) : (s.setTally n i v).tally n i = BitVec.ofNat 32 v := by
  apply BitVec.eq_of_toNat_eq
  rw [State.toNat_tally, State.setTally_eq_put, State.reg_putTally_self, fieldOf_withField_self _ _ _ _ (by decide) (by decide), BitVec.toNat_ofNat]

/-- VALUE grows by the amount, and wraps (R176). -/
theorem State.tally_applyTally_self (x : Incr) : (s.applyTally n i x).tally n i = s.tally n i + BitVec.ofNat 32 x.amount := by
  apply BitVec.eq_of_toNat_eq
  rw [State.toNat_tally, State.applyTally_eq_put, State.reg_putTally_self, Incr.value_apply, BitVec.toNat_add, State.toNat_tally, BitVec.toNat_ofNat,
    Nat.add_mod_mod]

end

/-! ### Writes of a Tally and of its adder by a host or a manager (Table MM-5) -/

/-- In an awake cluster a write of a core's state window is performed in the state as it is. -/
theorem State.coreWrite_awake {s : State} {w : Writer} {n : Nat} (hopen : s.closedFor w = false) (hmay : s.mayCore w n = true)
    (hawake : s.fld Reg.PWR_CL [clusterOf n] F.PWR_CL_STATE = 0) (off : Nat) (v : DWord) (f : State → State) : s.coreWrite w n off v f = f s := by
  have hpowered : s.gated (clusterOf n) = false := by rw [State.gated, hawake]; rfl
  rw [State.coreWrite_performed hopen hmay hpowered, State.wantWake, hawake]
  rfl

/-- The state in which a write of the adder of Tally `i` has left its own word. -/
def State.putAdder (s : State) (n i : Nat) (v : DWord) : State := s.setReg Reg.CST_TALLY_ADD [n, i] (BitVec.ofNat 64 (fieldOf v 31 0))

section
variable (s : State) (n i : Nat) (v : DWord)

theorem State.putAdder_samePilot : SamePilot s (s.putAdder n i v) := (State.setReg_same s _ _ _).samePilot

theorem State.reg_tally_putAdder : (s.putAdder n i v).reg Reg.CST_TALLY [n, i] = s.reg Reg.CST_TALLY [n, i] :=
  State.reg_setReg_ne _ _ _ _ _ _ (by simp only [RegSpec.addr, Reg.CST_TALLY_ADD, Reg.CST_TALLY, addrOf]; omega)

theorem State.tally_putAdder : (s.putAdder n i v).tally n i = s.tally n i := by
  rw [State.tally, State.reg_tally_putAdder, State.tally]

theorem State.fld_prod_putAdder : (s.putAdder n i v).fld Reg.ERR_PROD [] F.ERR_PROD_PROD = s.fld Reg.ERR_PROD [] F.ERR_PROD_PROD :=
  State.fld_setReg_ne _ _ _ _ _ _ _ (by simp only [RegSpec.addr, Reg.CST_TALLY_ADD, Reg.ERR_PROD, addrOf]; omega)

/-- No error record reaches a Tally. -/
theorem State.tally_log (r : ErrRec) : (s.log r).tally n i = s.tally n i := by
  have hbeside : BesideRecords (Reg.CST_TALLY.addr [n, i]) := by simp only [BesideRecords, RegSpec.addr, Reg.CST_TALLY, addrOf]; omega
  have hprod : Reg.ERR_PROD.addr [] ≠ Reg.CST_TALLY.addr [n, i] := by simp only [RegSpec.addr, Reg.CST_TALLY, Reg.ERR_PROD, addrOf]; omega
  rw [State.tally, State.reg_log_beside s r hbeside hprod, State.tally]

variable {v} (w : Writer)

theorem State.tallyAddWrite_adds (hamount : fieldOf v 31 0 ≠ 0) :
    s.tallyAddWrite w n i v = (s.putAdder n i v).applyTally n i { amount := fieldOf v 31 0, kind := 6, scope := 7 } := if_neg hamount

/-- AMOUNT 0 is the fault that leaves a contained record (Table MM-8). -/
theorem State.tallyAddWrite_zero (hamount : fieldOf v 31 0 = 0) :
    s.tallyAddWrite w n i v = (s.putAdder n i v).log
      { kind := 0x10, index := writerSub w, cls := .contained, address := Reg.CST_TALLY_ADD.addr [n, i], sub := writerSub w, inst := writerInst w } :=
  if_pos hamount

end

theorem exec_cstTallyWrite (w : Writer) (n : CoreId) (i : Fin 4096) (v : DWord) (s : State) : exec (.cstTallyWrite w n i v) s =
    .next (s.keepPilot (s.coreWrite w n (Reg.CST_TALLY.addr [n, i]) v (fun s => s.setTally n i (fieldOf v 31 0)))) := rfl

theorem exec_cstTallyAdd (w : Writer) (n : CoreId) (i : Fin 4096) (v : DWord) (s : State) : exec (.cstTallyAdd w n i v) s =
    .next (s.keepPilot (s.coreWrite w n (Reg.CST_TALLY_ADD.addr [n, i]) v (fun s => s.tallyAddWrite w n i v))) := rfl

end Sys2Proof.Machine

namespace Sys2Proof.Proofs
open Sys2Proof Sys2Proof.Machine

/-- Settles O58: a wait that is reached ends as its unit's lemma says; one that is not leaves the whole state as it is. -/
theorem tallyReached : Obligations.TallyReached := by
  refine ⟨?compare, ?wait, ?wtally⟩
  case compare => exact reached_eq
  case wait =>
    intro n s tally x set scope imm hheld
    refine ⟨fun hreached => ⟨_, exec_waitTargetReached n s, ?_⟩, fun hshort => ?_⟩
    · rw [hheld.waitReached hreached, State.seq_keepPilot, State.seq_setSeq_self]
    · rw [exec_waitTargetReached, hheld.waitReached_waits hshort, State.keepPilot_self]
  case wtally =>
    intro n g s i scope target hstatus
    refine ⟨fun hreached => ⟨_, exec_wtallyTargetReached n g s, ?_⟩, fun hshort => ?_⟩
    · rw [State.wtallyReached_ends hstatus hreached, State.group_keepPilot, State.group_setGroup, if_pos rfl]
    · rw [exec_wtallyTargetReached, State.wtallyReached_waits hstatus hshort, State.keepPilot_self]

/-- Settles O20: a write replaces VALUE alone, an increment writes the register afresh, and an increment by 0 leaves a record in its stead. -/
theorem tallyWrites : Obligations.TallyWrites := by
  refine ⟨?write, ?add, ?addZero⟩
  case write =>
    intro w n i v s hopen hmay hawake
    rw [exec_cstTallyWrite, State.coreWrite_awake hopen hmay hawake, (State.setTally_samePilot _ _ _ _).keepPilot]
    refine ⟨_, rfl, ?value, ?upper, fun k _ hk => ?others, ?frame⟩
    case value => exact State.tally_setTally_self s n i _
    case upper => rw [State.setTally_eq_put, State.reg_putTally_self, fieldOf_withField_ne _ _ _ _ _ _ (by decide) (by decide)]
    case others => rw [State.setTally_eq_put, State.tally_putTally_ne _ _ _ _ _ hk]
    case frame => rw [State.setTally_eq_put]; exact ⟨rfl, rfl, rfl⟩
  case add =>
    intro w n i v s hopen hmay hawake hamount
    rw [exec_cstTallyAdd, State.coreWrite_awake hopen hmay hawake, State.tallyAddWrite_adds s n i w hamount,
      ((s.putAdder_samePilot n i v).trans (State.applyTally_samePilot _ _ _ _)).keepPilot]
    refine ⟨_, rfl, ?value, ?kind, ?scope, ?frame⟩
    case value => rw [State.tally_applyTally_self, State.tally_putAdder]
    case kind => rw [State.applyTally_eq_put, State.reg_putTally_self, Incr.kind_apply]; rfl
    case scope => rw [State.applyTally_eq_put, State.reg_putTally_self, Incr.scope_apply]; rfl
    case frame => exact ⟨State.applyTally_mem _ _ _ _, State.applyTally_seqs _ _ _ _, State.applyTally_groups _ _ _ _⟩
  case addZero =>
    intro w n i v s hopen hmay hawake hamount
    rw [exec_cstTallyAdd, State.coreWrite_awake hopen hmay hawake, State.tallyAddWrite_zero s n i w hamount,
      ((s.putAdder_samePilot n i v).trans (State.log_same _ _).samePilot).keepPilot]
    refine ⟨_, rfl, ?value, ?record⟩
    case value => rw [State.tally_log, State.tally_putAdder]
    case record => rw [State.fld_prod_log, State.fld_prod_putAdder]

end Sys2Proof.Proofs
end

section
/-! PROOFS. The Porter engines (09_porter_engines.md): a channel's descriptor from its start to its end (R188, R191, R195-R197), bus errors and recovery (R198, R199,
R201), and the manager's own post (Table PT-6). -/
namespace Sys2Proof.Machine

theorem State.setChan_samePilot (s : State) (p c : Nat) (x : Chan) : SamePilot s (s.setChan p c x) := ⟨rfl, rfl⟩

/-! ### A channel's descriptor (R188, R191, R195-R197) -/
section
variable {s t u v w : State} {p c : Nat} {a b : Active}

/-- Channel `c` of a running Porter `p` works on the descriptor of `a` (R188). -/
def ChanAtWork (s : State) (p c : Nat) (a : Active) : Prop :=
  (s.porter p).status = 0 ∧ (s.chan p c).status = .active ∧ (s.chan p c).act = some a

/-- The state in which a channel has taken its next descriptor `d` and leaves `q` queued. -/
def State.takeDesc (s : State) (p c : Nat) (d : PDesc) (q : List PDesc) : State :=
  s.setChan p c { s.chan p c with queue := q, act := some { desc := d }, status := .active, prog := 0, tag := d.tag, poison := false, partials := false }

/-- A channel with no descriptor at work takes the next one; one that Table PT-4 gives no code for is at work from then on (R188, R197). -/
theorem State.channelStart_takes {d : PDesc} {q : List PDesc} (hc : c < chanCount p) (hrun : (s.porter p).status = 0) (hnone : (s.chan p c).act = none)
    (hfree : (s.chan p c).status = .idle ∨ (s.chan p c).status = .holding) (hqueue : (s.chan p c).queue = d :: q)
    (hok : (s.takeDesc p c d q).descCode p c d = 0) : s.channelStart p c = s.takeDesc p c d q := by
  rw [State.takeDesc] at *
  simp only [State.channelStart, hrun, hnone, hfree, hqueue, hok, Nat.not_le.mpr hc, Option.isSome_none, Bool.false_eq_true, ne_eq, not_true_eq_false,
    or_self, if_false]

/-- What follows an access of `n` bytes that was performed at once: the channel goes on with `b`, and the bytes and rows are counted (R196, Table PT-6). -/
def State.accessed (s : State) (p c : Nat) (b : Active) (n : Nat) (poison : Bool) : State :=
  (((s.setChan p c { s.chan p c with act := some b, poison := (s.chan p c).poison || poison }).countBytes p n).account (s.porterBay p)
    Reg.BAY_XFR Reg.BAY_INST_XFR n).progress p c

/-- An access whose source bytes have all come and whose destination takes them at once (R188-R196). -/
theorem State.porterAccess_performed {io : RegIo} {g : Gathered} {n : Nat} {bs : List Byte} {poison : Bool} (hwork : ChanAtWork s p c a)
    (hkind : a.desc.kind ≠ 4) (hleft : a.pos < a.desc.dlen) (hn : n = a.desc.nextLen a.pos) (hcome : (a.src.getD {}).missing = [])
    (hfetch : s.fetchFor io p c a.desc (a.src.getD {}) a.pos n = .ok t g) (hall : g.missing = [])
    (hpoison : poison = (a.desc.kind != 2 && g.poisoned (a.desc.needs a.pos n)))
    (hbytes : (s.keepPilot t).undefinedBytes a.desc (a.desc.dstAddr a.pos)
      (if a.desc.kind = 2 then a.desc.fillBytes (a.desc.dstAddr a.pos) n else a.desc.bytesFrom g.byte a.pos n) = (u, bs))
    (hv : v = (s.keepPilot t).keepPilot u) (hput : v.putBytes io p c a n bs poison = .done w) (hb : b = { a with pos := a.pos + n, src := none }) :
    State.porterAccess io s p c = w.keepPilot (w.accessed p c b n poison) := by
  obtain ⟨hrun, hactive, hact⟩ := hwork
  subst hn hpoison hv hb
  simp only [State.porterAccess, hact, hrun, hactive, hkind, hcome, hfetch, hall, hbytes, hput, Nat.not_le.mpr hleft, List.isEmpty_nil, ne_eq,
    not_true_eq_false, or_self, if_false]
  rfl

/-- A line of a RANGE descriptor that the operation is done with is 128 bytes of progress (R191). -/
theorem State.porterAccess_range (hwork : ChanAtWork s p c a) (hkind : a.desc.kind = 4) (hleft : a.pos < a.desc.slen) (hva : a.desc.dst + a.pos < 2 ^ 48)
    (hact : s.rangeAct (s.porterInst p c) a.desc.rangeOp (a.desc.dst + a.pos) = .done t) (io : RegIo) :
    State.porterAccess io s p c = s.keepPilot (t.setChan p c { t.chan p c with act := some { a with pos := a.pos + 128 } }) := by
  obtain ⟨hrun, hactive, hdesc⟩ := hwork
  simp only [State.porterAccess, State.porterRange, hdesc, hrun, hactive, hkind, hleft, hact, Nat.not_le.mpr hva, ne_eq, not_true_eq_false, or_self,
    if_false, if_true]

/-- A descriptor with nothing left, outstanding or held, and with no increment of its own, leaves its channel (R195, R196). -/
theorem State.descComplete_ends (hactive : (s.chan p c).status = .active) (hact : (s.chan p c).act = some a)
    (hall : (if a.desc.kind = 4 then a.desc.slen else a.desc.dlen) ≤ a.pos) (hout : a.out = []) (hsys : a.desc.sys = false) (htmode : a.desc.tmode ≠ 3)
    (hkind : a.desc.kind ≠ 4) (hheld : a.held = 0) :
    s.descComplete p c = s.setChan p c
      { s.chan p c with act := none, done := (s.chan p c).done + 1, status := if (s.chan p c).holds.isEmpty then .idle else .holding } := by
  rw [if_neg hkind] at hall
  simp only [State.descComplete, hact, hactive, hout, hsys, htmode, hkind, hheld, Nat.not_lt.mpr hall, List.isEmpty_nil, ne_eq, not_true_eq_false,
    Bool.false_eq_true, false_and, or_self, if_false, if_true]

end

theorem exec_channelStart (p : Fin 1024) (c : Fin 16) (s : State) : exec (.channelStart p c) s = .next (s.keepPilot (s.channelStart p c)) := rfl
theorem exec_porterAccess (p : Fin 1024) (c : Fin 16) (s : State) : exec (.porterAccess p c) s = .next (State.porterAccess (regIo (porterWriter p)) s p c) := rfl
theorem exec_descriptorComplete (p : Fin 1024) (c : Fin 16) (s : State) : exec (.descriptorComplete p c) s = .next (s.keepPilot (s.descComplete p c)) := rfl

/-! ### Bus errors (R198, Table PT-5) -/
section
variable {s : State} {p : Nat}

@[simp] theorem State.porter_setPorter_self (s : State) (p : Nat) (x : Porter) : (s.setPorter p x).porter p = x := Tbl.get_set_self _ _ _ _

@[simp] theorem State.porter_log (s : State) (r : ErrRec) (p : Nat) : (s.log r).porter p = s.porter p := by rw [State.porter, State.log_porters, State.porter]

/-- The contained record of an error response (Table RL-1). -/
def State.busErrorRec (s : State) (p cause addr : Nat) : ErrRec :=
  { kind := 0x0F, index := p, cls := .contained, address := addr, syndrome := cause,
    bay := if privileged p then 0xFF else (s.owner (8 * porterCluster p)).1, inst := if privileged p then 0xFF else (s.owner (8 * porterCluster p)).2 }

/-- The first error response takes a running Porter to STOPPING, with its cause and address, and leaves one record. -/
theorem State.takeBusError_stops {cause addr : Nat} {r : List (Nat × Nat)} (herrors : (s.porter p).errors = (cause, addr) :: r)
    (hrun : (s.porter p).status = 0) :
    s.takeBusError p = (s.setPorter p { s.porter p with errors := r, status := 1, cause := cause % 256, errAddr := addr }).log
      (s.busErrorRec p cause addr) := by
  simp only [State.takeBusError, herrors, hrun, if_true]
  rfl

/-- A stopping Porter with no response on its way and no access in flight stops; the MOVEs of its descriptors end with error. -/
theorem State.porterStopped_stops (hstopping : (s.porter p).status = 1) (herrors : (s.porter p).errors = [])
    (hquiet : (s.porter p).chans.any (fun e => e.2.flying) = false) :
    s.porterStopped p = ((s.setPorter p { s.porter p with status := 2 }).mapChans p Chan.halt).moveFaults
      (((s.porter p).descs.filterMap (·.core)).eraseDups) := by
  simp only [State.porterStopped, hstopping, herrors, hquiet, List.isEmpty_nil, ne_eq, not_true_eq_false, Bool.false_eq_true, or_self, if_false]

end

theorem exec_busError (p : Fin 1024) (s : State) : exec (.busError p) s = .next (s.keepPilot (s.takeBusError p)) := rfl
theorem exec_porterStopped (p : Fin 1024) (s : State) : exec (.porterStopped p) s = .next (s.keepPilot (s.porterStopped p)) := rfl

/-! ### The commands of CTL (R199, R201) -/
section
variable {s : State} {w : Writer} {p v : Nat} {ok : Bool} {f : State → State}

/-- A command from who may give it, in a state that it fits, is carried out after CTL has taken its word. -/
theorem State.porterCmd_taken (hmay : mayPorter w p = true) (hok : ok = true) : s.porterCmd w p v ok f = f (s.wroteCtl p v) := by
  rw [State.porterCmd, if_neg (not_not_intro hmay), if_pos hok]

/-- In a state that it does not fit, it is a discarded register write with a record (R199). -/
theorem State.porterCmd_refused (hmay : mayPorter w p = true) (hok : ok = false) : s.porterCmd w p v ok f = s.refuse w (porterCtl p) causeState := by
  rw [State.porterCmd, if_neg (not_not_intro hmay), if_neg (Bool.eq_false_iff.mp hok)]

end

theorem exec_porterClear (w : Writer) (p : Fin 1024) (s : State) : exec (.porterClear w p) s = .next (s.keepPilot (s.clearPorter w p)) := rfl
theorem exec_porterRetry (w : Writer) (p : Fin 1024) (s : State) : exec (.porterRetry w p) s = .next (s.keepPilot (s.retryPorter w p)) := rfl
theorem exec_clearChannel (w : Writer) (p : Fin 1024) (c : Fin 16) (s : State) : exec (.clearChannel w p c) s = .next (s.keepPilot (s.clearChan w p c)) := rfl
theorem exec_retryChannel (w : Writer) (p : Fin 1024) (c : Fin 16) (s : State) : exec (.retryChannel w p c) s = .next (s.keepPilot (s.retryChan w p c)) := rfl

/-! ### The manager's post to channel 0 of a cluster Porter (Table PT-6) -/

/-- A descriptor that is read without poison joins the queue. -/
theorem State.ch0Post_posts {s t u v : State} {w : Writer} {g a pa : Nat} {leaf : DWord} {bs : List Byte} (hman : isManager w = true)
    (hroom : s.queueRoom (512 + g) 0 = true) (ht : t = s.wrote Reg.PTR_CL_CH0_POST [g] 1) (ha : a = (s.reg Reg.PTR_CL_CH0_DESC [g]).toNat / 128 * 128)
    (hplace : t.placeGlobal (512 + g) 0 a 0 = .ok u pa leaf) (hread : u.readGlobal (.cupboard g) none a 128 = .done v (bs, false)) :
    s.ch0Post w g = v.post (512 + g) 0 { raw := lineOfBytes bs } := by
  subst ht ha
  rw [State.ch0Post, State.asManager_of_manager _ hman]
  simp only [hroom, hplace, hread, not_true_eq_false, if_false]

theorem exec_ch0Post (w : Writer) (g : ClusterId) (s : State) : exec (.ch0Post w g) s = .next (s.keepPilot (s.ch0Post w g)) := rfl

end Sys2Proof.Machine

namespace Sys2Proof.Proofs
open Sys2Proof Sys2Proof.Machine

/-- Settles O21: a channel by what its descriptor allows, a Porter by its state, and a command of CTL by whether it fits that state. -/
theorem porterCommands : Obligations.PorterCommands := by
  refine ⟨?start, ?access, ?range, ?complete, ?error, ?stopped, ?clear, ?retry, ?clearChannel, ?retryChannel, ?ch0Post, ?refused⟩
  case start =>
    rintro p c s _ d q hc hrun hnone hfree hqueue rfl hok
    rw [exec_channelStart, State.channelStart_takes hc hrun hnone hfree hqueue hok, State.takeDesc, (s.setChan_samePilot _ _ _).keepPilot]
  case access =>
    intro p c s t u v w a b g n bs poison hrun hactive hact hkind hleft hn hcome hfetch hall hpoison hbytes hv hput hb
    rw [exec_porterAccess, State.porterAccess_performed ⟨hrun, hactive, hact⟩ hkind hleft hn hcome hfetch hall hpoison hbytes hv hput hb, State.accessed]
  case range =>
    intro p c s t a hrun hactive hact hkind hleft hva hline
    rw [exec_porterAccess, State.porterAccess_range ⟨hrun, hactive, hact⟩ hkind hleft hva hline]
  case complete =>
    intro p c s a hactive hact hall hout hsys htmode hkind hheld
    rw [exec_descriptorComplete, State.descComplete_ends hactive hact hall hout hsys htmode hkind hheld, (s.setChan_samePilot _ _ _).keepPilot]
  case error =>
    intro p s cause addr r herrors hrun
    rw [exec_busError, State.takeBusError_stops herrors hrun]
    refine ⟨_, rfl, ?porter, ?count, ?mem, ?seqs⟩
    case porter => rw [State.porter_keepPilot, State.porter_log, State.porter_setPorter_self]
    case count => rw [State.fld_keepPilot, State.fld_prod_log, State.fld_setPorter]
    case mem => rw [State.keepPilot_mem, State.log_mem, State.setPorter_mem]
    case seqs => rw [State.keepPilot_seqs, State.log_seqs, State.setPorter_seqs]
  case stopped =>
    intro p s hstopping herrors hquiet
    rw [exec_porterStopped, State.porterStopped_stops hstopping herrors hquiet]
  case clear =>
    intro w p s hmay hstopped
    rw [exec_porterClear, State.clearPorter, State.porterCmd_taken hmay (by rw [hstopped]; rfl)]
  case retry =>
    rintro w p s _ hmay hstopped hwhole rfl
    rw [exec_porterRetry, State.retryPorter, State.porterCmd_taken hmay (by rw [hstopped, hwhole]; rfl)]
  case clearChannel =>
    rintro w p c s _ hmay herror rfl
    rw [exec_clearChannel, State.clearChan, State.porterCmd_taken hmay (by rw [herror]; rfl)]
  case retryChannel =>
    rintro w p c s _ hmay herror rfl
    rw [exec_retryChannel, State.retryChan, State.porterCmd_taken hmay (by rw [herror]; rfl)]
  case ch0Post =>
    intro w g s t u v a pa leaf bs hman hroom ht ha hplace hread
    rw [exec_ch0Post, State.ch0Post_posts hman hroom ht ha hplace hread]
  case refused =>
    intro w p s hmay hrunning
    rw [exec_porterClear, State.clearPorter, State.porterCmd_refused hmay (beq_false_of_ne hrunning)]

end Sys2Proof.Proofs
end

section
/-! PROOFS. Bays, scheduling and preemption (11_bays_scheduling_preemption.md): a Bay's events and its vector (R243, R313), and forming, dissolving, control words,
slices, the resume of a core and the slow-down window (R226-R232, R236, R240). The serving program on a Bay's cores (10_serving_and_speculation.md): round boundaries,
proposals, commits and posts (R203-R213, R220-R225). -/
namespace Sys2Proof.Machine

/-! ### Event flags (R243, R313) -/

theorem fieldOf_single {w : Nat} (x : BitVec w) (k : Nat) : fieldOf x k k = (x.getLsbD k).toNat := by
  rw [fieldOf, bitsOf, Nat.add_sub_cancel_left, pow_one, Nat.shiftRight_eq_div_pow, BitVec.getLsbD, Nat.toNat_testBit]

section
variable {s : State} {r : RegSpec} {is : List Nat} {enabled bits vec k : Nat}

/-- The state with the event bits `bits` set in the register, before any vector is raised. -/
def State.flagged (s : State) (r : RegSpec) (is : List Nat) (bits : Nat) : State := s.setReg r is (BitVec.ofNat 64 ((s.reg r is).toNat ||| bits))

/-- Bit `k` is newly set by `bits`, and enabled. -/
def State.NewlySet (s : State) (r : RegSpec) (is : List Nat) (enabled bits k : Nat) : Prop :=
  bits.testBit k = true ∧ s.fld r is ⟨k, k⟩ = 0 ∧ enabled.testBit k = true

theorem State.fld_flagged_self (hk : k < 64) : (s.flagged r is bits).fld r is ⟨k, k⟩ = if bits.testBit k then 1 else s.fld r is ⟨k, k⟩ := by
  rw [State.flagged, State.fld, State.reg_setReg_self, State.fld, fieldOf_single, fieldOf_single, BitVec.getLsbD_ofNat, Nat.testBit_or]
  cases bits.testBit k with
  | true => simp [hk]
  | false => simp [hk, BitVec.getLsbD]

/-- A flag is 0 exactly where its bit of the register's word is clear. -/
theorem State.flag_eq_zero : s.fld r is ⟨k, k⟩ = 0 ↔ (s.reg r is).toNat.testBit k = false := by
  rw [State.fld, fieldOf_single, BitVec.getLsbD]
  exact Bool.toNat_eq_zero

/-- The mask of the bits that are newly set and enabled, bit by bit: the register's sixteen low bits can hold events. -/
theorem testBit_newEvents (old : Nat) : (bits &&& (0xFFFF ^^^ (old % 65536)) &&& enabled).testBit k =
    (bits.testBit k && decide (k < 16) && !old.testBit k && enabled.testBit k) := by
  rw [Nat.testBit_and, Nat.testBit_and, Nat.testBit_xor, Nat.testBit_mod_two_pow old 16, Nat.testBit_two_pow_sub_one 16]
  cases decide (k < 16) <;> simp

theorem State.events_eq_raise (hk : k < 16) (hnew : s.NewlySet r is enabled bits k) : s.events r is enabled bits vec = (s.flagged r is bits).raise 0 vec := by
  obtain ⟨hset, hclear, henabled⟩ := hnew
  have hbit := testBit_newEvents (bits := bits) (enabled := enabled) (k := k) (s.reg r is).toNat
  rw [hset, henabled, State.flag_eq_zero.mp hclear, decide_eq_true hk] at hbit
  refine if_pos (bne_iff_ne.mpr fun hmask => ?_)
  rw [hmask, Nat.zero_testBit] at hbit
  cases hbit

theorem State.events_eq_flagged (hquiet : ∀ k < 16, ¬ s.NewlySet r is enabled bits k) : s.events r is enabled bits vec = s.flagged r is bits := by
  have hmask : bits &&& (0xFFFF ^^^ ((s.reg r is).toNat % 65536)) &&& enabled = 0 := Nat.zero_of_testBit_eq_false fun k => by
    rw [testBit_newEvents, ← Bool.not_eq_true]
    simp only [Bool.and_eq_true, decide_eq_true_eq, Bool.not_eq_true']
    rintro ⟨⟨⟨hset, hk⟩, hclear⟩, henabled⟩
    exact hquiet k hk ⟨hset, State.flag_eq_zero.mpr hclear, henabled⟩
  exact if_neg (bne_eq_false_iff_eq.mpr hmask ▸ Bool.false_ne_true)

end

section
variable {s : State} {f v : Nat}

theorem State.raise_sends (hopen : s.msixOpen.get false (vecKey f v) ∧ s.hostUp) : s.raise f v = { s with msixSent := (f, v) :: s.msixSent } := if_pos hopen

theorem State.raise_pends (hclosed : ¬ (s.msixOpen.get false (vecKey f v) ∧ s.hostUp)) :
    s.raise f v = { s with msixPend := s.msixPend.set false (vecKey f v) true } := if_neg hclosed

end

/-- A Bay's flags say nothing of the host link. -/
theorem State.hostUp_flagged (s : State) (b bits : Nat) : (s.flagged Reg.BAY_EVT [b] bits).hostUp = s.hostUp := by
  have hne : Reg.BAY_EVT.addr [b] ≠ Reg.HST_LINK_STAT.addr [] := by simp only [RegSpec.addr, Reg.BAY_EVT, Reg.HST_LINK_STAT, addrOf]; omega
  rw [State.hostUp, State.bit, State.flagged, State.fld_setReg_ne _ _ _ _ _ _ _ hne, State.hostUp, State.bit]

/-- The Bay's own flags, whether a vector is raised or not. -/
theorem State.fld_bayEvent_self (s : State) (b bits : Nat) {k : Nat} (hk : k < 64) :
    (s.bayEvent b bits).fld Reg.BAY_EVT [b] ⟨k, k⟩ = if bits.testBit k then 1 else s.fld Reg.BAY_EVT [b] ⟨k, k⟩ := by
  have hreg : (s.bayEvent b bits).reg Reg.BAY_EVT [b] = (s.flagged Reg.BAY_EVT [b] bits).reg Reg.BAY_EVT [b] :=
    State.reg_when (f := fun t => t.raise 0 b) (fun _ => State.reg_raise _ _ _ _ _)
  rw [State.fld, hreg]
  exact State.fld_flagged_self hk

/-! ### Forming and dissolving a Bay, control words (R226-R228) -/
section
variable {s u v : State} {w : Writer} {b inst i n : Nat} {ordered : Bool}

/-- INSTANCE and ORDERED are taken, and where R226's conditions hold the Bay is formed, with its control words at zero. -/
theorem State.bayForm_forms (hman : isManager w = true) (hu : u = s.tdiBreak (s.instOfBay b)) (hoff : u.bit Reg.BAY_CFG [b] F.BAY_CFG_EN = false)
    (hinst : inst ≤ 32) (hv : v = ((u.setFld Reg.BAY_CFG [b] F.BAY_CFG_INSTANCE inst).tdiBreak inst).setFld Reg.BAY_CFG [b] F.BAY_CFG_ORDERED (if ordered then 1 else 0))
    (hmay : v.mayForm b inst = true) : s.bayForm w b inst ordered = ((v.setFld Reg.BAY_CFG [b] F.BAY_CFG_EN 1).setBay b {}).clearWords b := by
  rw [State.bayForm, State.asManager_of_manager _ hman]
  simp only [← hu, hoff, hinst, if_true, if_false, Bool.false_eq_true, ← hv, hmay]

theorem State.allEmpty_iff : (List.range 4).all (fun j => (s.img b j).status == .empty) = true ↔ ∀ j < 4, (s.img b j).status = .empty := by
  simp only [List.all_eq_true, List.mem_range, beq_iff_eq]

theorem State.bayDissolve_dissolves (hman : isManager w = true) (hu : u = s.tdiBreak (s.instOfBay b)) (hempty : ∀ j < 4, (u.img b j).status = .empty) :
    s.bayDissolve w b = u.setFld Reg.BAY_CFG [b] F.BAY_CFG_EN 0 := by
  rw [State.bayDissolve, State.asManager_of_manager _ hman, ← hu]
  exact if_pos (State.allEmpty_iff.mpr hempty)

/-- One slot that is not EMPTY keeps the Bay. -/
theorem State.bayDissolve_refused {j : Nat} (hman : isManager w = true) (hu : u = s.tdiBreak (s.instOfBay b)) (hj : j < 4) (hfull : (u.img b j).status ≠ .empty) :
    s.bayDissolve w b = u.refuse w (Reg.BAY_CFG.addr [b]) causeState := by
  rw [State.bayDissolve, State.asManager_of_manager _ hman, ← hu]
  exact if_neg fun h => hfull (State.allEmpty_iff.mp h j hj)

/-- In a formed Bay with its core 0 powered, the word is stored there and the slots that name it wake. -/
theorem State.controlWord_stores {x : DWord} (hopen : s.closedFor w = false) (hmay : s.mayWord w b = true) (hformed : s.bit Reg.BAY_CFG [b] F.BAY_CFG_EN = true)
    (hcore : (s.coresOf b).head? = some n) (hpowered : s.gated (clusterOf n) = false) :
    s.controlWord w b i x = ((s.wantWake (clusterOf n)).setPantry n (0x27FF80 + 8 * i) (leBytes 8 x.toNat) false).wakeSlots b i := by
  rw [State.controlWord, State.tenantWrite_of_open _ hopen, if_neg (not_not_intro hmay)]
  simp only [hformed, hcore, hpowered, if_false, Bool.false_eq_true]

end

theorem exec_bayForm (w : Writer) (b : BayId) (inst : Fin 64) (ordered : Bool) (s : State) :
    exec (.bayForm w b inst ordered) s = .next (s.keepPilot (s.bayForm w b inst ordered)) := rfl
theorem exec_bayDissolve (w : Writer) (b : BayId) (s : State) : exec (.bayDissolve w b) s = .next (s.keepPilot (s.bayDissolve w b)) := rfl
theorem exec_controlWordWrite (w : Writer) (b : BayId) (i : Fin 16) (v : DWord) (s : State) :
    exec (.controlWordWrite w b i v) s = .next (s.keepPilot (s.controlWord w b i v)) := rfl

/-! ### Slices and the resume of a core (R230-R232, R236) -/

@[simp] theorem State.bay_setBay_self (s : State) (b : Nat) (x : Bay) : (s.setBay b x).bay b = x := Tbl.get_set_self _ _ _ _
@[simp] theorem State.keepPilot_setBay (s : State) (b : Nat) (x : Bay) : s.keepPilot (s.setBay b x) = s.setBay b x := rfl

section
variable {s : State} {b : Nat}

/-- The turn goes to the stream chosen next, unless that would take a latency-critical stream's turn for a best-effort one. -/
theorem State.sliceEnd_switches {t : Nat} (hon : (s.bay b).on = true) (hstill : (s.bay b).switch = 0) (hnext : s.chooseNext b = some t)
    (hclass : s.critical b (s.bay b).cur = true → s.critical b t = true) :
    s.sliceEnd b = s.setBay b { s.bay b with switch := 1, target := some t, sliceOver := some s.now } := by
  have hyields : ¬ (s.critical b (s.bay b).cur = true ∧ ¬ s.critical b t = true) := fun h => h.2 (hclass h.1)
  simp only [State.sliceEnd, hon, hstill, hnext, hyields, not_true_eq_false, ne_eq, or_self, if_false]

theorem State.sliceEnd_renews (hon : (s.bay b).on = true) (hstill : (s.bay b).switch = 0) (hnone : s.chooseNext b = none) :
    s.sliceEnd b = s.setBay b { s.bay b with sliceLen := s.sliceOf b (s.bay b).cur } := by
  simp only [State.sliceEnd, hon, hstill, hnone, not_true_eq_false, ne_eq, or_self, if_false]

/-- Core `n` leaves the cores that the switch to slot `j` has still to resume; with the last one the switch is over. -/
def State.coreResumed (s : State) (b j n : Nat) : State :=
  let t := s.setBay b { s.bay b with resuming := (s.bay b).resuming.erase n }
  if ((s.bay b).resuming.erase n).isEmpty then t.endSwitch b j else t

/-- Steps 2 to 4 of R232: the ranges that others hold are spilled, the stream's own are restored, its sequencer is reloaded. -/
theorem State.coreResume_resumes {s1 s2 u : State} {n j : Nat} (hbay : s.bayOfCore n = some b) (hcur : j = (s.bay b).cur) (hswitch : (s.bay b).switch = 2)
    (hwaits : n ∈ (s.bay b).resuming) (hpowered : s.gated (clusterOf n) = false)
    (hspill : s.spillOthers b j n (onesOf 40 (s.reg Reg.BAY_CLAIM [b, j]).toNat) = .ok s1)
    (hrestore : s1.restoreOwn b j n (onesOf 40 ((s1.range n).saved.get 0 j).toNat) = .ok s2) (hreload : s2.reloadSeq b j n = some u) :
    s.coreResume n = (u.when (!(u.bay b).on) (fun u => u.beginSlice b j)).coreResumed b j n := by
  subst hcur
  have hready : ¬ ((s.bay b).switch ≠ 2 ∨ ¬ (s.bay b).resuming.contains n = true ∨ s.gated (clusterOf n) = true) := by
    simp [hswitch, hwaits, hpowered]
  simp only [State.coreResume, hbay, hready, if_false, hspill, hrestore, hreload, State.bay_setBay_self]
  rfl

end

theorem exec_sliceEnd (b : BayId) (s : State) : exec (.sliceEnd b) s = .next (s.keepPilot (s.sliceEnd b)) := rfl
theorem exec_coreResume (n : CoreId) (s : State) : exec (.coreResume n) s = .next (s.keepPilot (s.coreResume n)) := rfl

/-! ### The slow-down window (R240) -/

/-- A Bay that waited behind no other one is not slowed. -/
theorem slowOf_zero (a : Nat) : slowOf a 0 = 0x100 := by
  rw [slowOf]
  split
  · rfl
  · next ha =>
    have hpos : 0 < a := Nat.pos_of_ne_zero ha
    rw [Nat.sub_zero, Nat.max_eq_left hpos, Nat.mul_div_cancel _ hpos]
    rfl

section
variable {s : State} {b i : Nat}

/-- The window is closed: its count starts again, and SLOW shows what it came to. -/
def State.closeWindow (s : State) (b i : Nat) : State := (s.setBay b { s.bay b with winA := 0 }).setFld Reg.BAY_SLOW [b] F.BAY_SLOW_SLOW (slowOf (s.bay b).winA i)

theorem State.limit_closeWindow : (s.closeWindow b i).fld Reg.BAY_SLOW [b] F.BAY_SLOW_LIMIT = s.fld Reg.BAY_SLOW [b] F.BAY_SLOW_LIMIT := by
  rw [State.closeWindow, State.fld_setFld_other _ _ _ _ _ _ (by decide) (by decide), State.fld_setBay]

theorem State.slowWindow_unslowed (hlimit : slowOf (s.bay b).winA 0 ≤ s.fld Reg.BAY_SLOW [b] F.BAY_SLOW_LIMIT) : s.slowWindow b 0 = s.closeWindow b 0 :=
  if_neg (Nat.not_lt.mpr (hlimit.trans_eq State.limit_closeWindow.symm))

theorem State.slowWindow_counts (hi : i ≠ 0) : s.slowWindow b i =
    let t := (s.closeWindow b i).satCount Reg.BAY_INTF [b] b i
    if t.fld Reg.BAY_SLOW [b] F.BAY_SLOW_LIMIT < slowOf (s.bay b).winA i then t.bayEvent b 0x10 else t := by
  simp only [State.slowWindow, hi, if_false]
  rfl

end

theorem exec_slowWindowEnd (b : BayId) (i : Fin 131072) (s : State) : exec (.slowWindowEnd b i) s = .next (s.keepPilot (s.slowWindow b i)) := rfl

/-! ### The serving program (R203-R213, R220-R225) -/

/-- The sequence `q` in slot `slot` of a Bay at serving is in the round. -/
def State.TakesPart (s : State) (b slot : Nat) (q : Sequence) : Prop := s.sequence b slot = some q ∧ s.servingOn b = true ∧ q.inRound = true

section
variable {s u : State} {b slot : Nat} {logits : List (List Word)} {q : Sequence}

/-- The state that a boundary's first four steps leave: requests taken, cancelled ones ended, ended sequences freed, requests admitted (R212). -/
def State.boundarySteps (s : State) (b : Nat) : State :=
  ((((s.setServe b { s.serve b with begun := true }).takeRequests b).cancelAll b).freeEnded b).admitAll b

/-- A boundary past the program's first: the five steps of R212, then the decision. -/
theorem State.roundBoundary_steps (hon : s.servingOn b = true) (hidle : (s.serve b).running = false) (hbegun : (s.serve b).begun = true) :
    s.roundBoundary b = ((s.boundarySteps b).batch b ((s.boundarySteps b).serve b).inOrder (s.serve b).chunk).writeDecision b := by
  simp only [State.roundBoundary, hon, hidle, hbegun, not_true_eq_false, Bool.false_eq_true, or_self, if_true, if_false]
  rfl

/-- At the first boundary a check that fails halts every core (R203). -/
theorem State.roundBoundary_halts {off : Nat} (hon : s.servingOn b = true) (hidle : (s.serve b).running = false) (hfirst : (s.serve b).begun = false)
    (hbad : s.configCheck b = some off) : s.roundBoundary b = s.haltAll b off := by
  simp only [State.roundBoundary, hon, hidle, hfirst, hbad, not_true_eq_false, Bool.false_eq_true, or_self, if_false]

/-- The records of a proposal of `n` tokens: the sequence names the draft and its count, the draft's own record in Bay `d` shows LEN, STATE and the request (R220). -/
def State.recordProposal (s : State) (b slot d draft n len id : Nat) : State :=
  ((((s.recPut b slot 40 4 draft).recPut b slot 7 1 n).recPut d draft 0 4 len).recPut d draft 6 1 2).recPut d draft 8 8 id

theorem State.draftPropose_proposes {draft len n : Nat} {ds : List Draft} (hpart : s.TakesPart b slot q)
    (hdecode : s.seqState b slot = 2) (hfresh : q.drafts = []) (hlen : len = s.seqLen b slot) (hu : u = s.growTo b slot (len + 1 + s.draftCount b slot q))
    (hn : n = min (min (u.draftCount b slot q) (16 * u.pageCount b slot - len - 1)) logits.length) (hsome : n ≠ 0)
    (hds : ds = (logits.take n).zipIdx.map (fun e => (⟨sample q.req.settings e.1 (u.nextSeq b slot + e.2) 1, probabilities q.req.settings e.1⟩ : Draft))) :
    s.draftPropose b slot draft logits =
      let v := u.recordProposal b slot (u.draftBay b) draft n len q.req.id
      v.setSequence b slot (some { (v.sequence b slot).getD q with rows := n + 1, drafts := ds }) := by
  obtain ⟨hseq, hon, hround⟩ := hpart
  simp only [State.draftPropose, hseq, hon, hround, hdecode, hfresh, List.isEmpty_nil, not_true_eq_false, ne_eq, or_self, if_false, ← hlen, ← hu, ← hn, hsome, ← hds]
  rfl

/-- A sequence of the round leaves it, its cold pages discarded (R216). -/
def State.leaveRound (s : State) (b slot : Nat) (q : Sequence) : State :=
  (s.discardCold b q).setSequence b slot (some { q with inRound := false, rows := 0, drafts := [] })

theorem State.roundCommit_commits (hpart : s.TakesPart b slot q) :
    s.roundCommit b slot 0 logits = (s.leaveRound b slot q).commitRound b slot q logits := by
  obtain ⟨hseq, hon, hround⟩ := hpart
  simp only [State.roundCommit, hseq, hon, hround, not_true_eq_false, or_self, if_true, if_false]
  rfl

/-- A poisoned Step elsewhere in the round: the sequence's rows are dropped by a new GEN (R225). -/
theorem State.roundCommit_poisoned (hpart : s.TakesPart b slot q) (hu : u = s.leaveRound b slot q) :
    s.roundCommit b slot 1 logits = u.recPut b slot 4 2 (u.seqGen b slot + 1) := by
  subst hu
  obtain ⟨hseq, hon, hround⟩ := hpart
  simp only [State.roundCommit, hseq, hon, hround, not_true_eq_false, or_self, if_false, Nat.one_ne_zero, OfNat.one_ne_ofNat]
  rfl

/-- The completion `p` of ring `c` is due no more: it stands as entry `prod` of the ring, PROD has moved on, and its interrupt is raised where it asks for one (R207). -/
def State.postEntry (s : State) (b c prod : Nat) (p : Post) : State :=
  (((s.setServe b { s.serve b with due := dropFirst (fun q => q.ring == c) (s.serve b).due }).virtPut b
    ((s.serve b).crBase c + 64 * (prod % max 1 ((s.serve b).crEntries c))) (leBytes 64 p.entry.toNat)).virtPut b ((s.serve b).crHdr c) (leBytes 4 (prod + 1))).when p.irq
      (fun s => s.raiseRing b c)

/-- A ring with room takes the completion. -/
theorem State.completionPost_posts {c prod : Nat} {p : Post} (hdue : (s.serve b).due.find? (fun p => p.ring == c) = some p) (hon : s.servingOn b = true)
    (hprod : prod = s.virtNat b ((s.serve b).crHdr c) 4)
    (hroom : (prod + 2 ^ 32 - s.virtNat b ((s.serve b).crHdr c + 64) 4) % 2 ^ 32 < (s.serve b).crEntries c) :
    s.completionPost b c = (s.postEntry b c prod p).releasePost b p := by
  simp only [State.completionPost, hdue, hon, ← hprod, Nat.not_le.mpr hroom, not_true_eq_false, if_false]
  rfl

end

theorem exec_roundBoundary (b : BayId) (s : State) : exec (.roundBoundary b []) s = .next (s.keepPilot (s.roundBoundary b)) := rfl
theorem exec_draftPropose (b : BayId) (slot draft : Fin 1024) (logits : List (List Word)) (s : State) :
    exec (.draftPropose b slot draft logits) s = .next (s.keepPilot (s.draftPropose b slot draft logits)) := rfl
theorem exec_roundCommit (b : BayId) (slot : Fin 1024) (poison : Fin 3) (logits : List (List Word)) (s : State) :
    exec (.roundCommit b slot poison logits) s = .next (s.keepPilot (s.roundCommit b slot poison logits)) := rfl
theorem exec_completionPost (b : BayId) (c : Fin 4) (s : State) : exec (.completionPost b c []) s = .next (s.keepPilot (s.completionPost b c)) := rfl

end Sys2Proof.Machine

namespace Sys2Proof.Proofs
open Sys2Proof Sys2Proof.Machine

/-- Settles O59: the flags by themselves, then the vector by whether some bit is newly set and enabled. -/
theorem bayEventsRaiseOnce : Obligations.BayEventsRaiseOnce := by
  refine ⟨?flags, ?raises, ?quiet⟩
  case flags => exact fun s b bits k _ hk => s.fld_bayEvent_self b bits (by omega)
  case raises =>
    intro s b bits k _ hk hset hclear henabled
    rw [State.bayEvent, State.events_eq_raise (by omega) ⟨hset, hclear, henabled⟩]
    by_cases hopen : s.msixOpen.get false (vecKey 0 b) ∧ s.hostUp
    · rw [if_pos hopen, State.raise_sends (by rwa [State.hostUp_flagged])]
      exact ⟨rfl, rfl⟩
    · rw [if_neg hopen, State.raise_pends (by rwa [State.hostUp_flagged])]
      exact ⟨Tbl.get_set_self s.msixPend false (vecKey 0 b) true, rfl⟩
  case quiet =>
    intro s b bits hbits hold
    rw [State.bayEvent, State.events_eq_flagged]
    · exact ⟨rfl, rfl⟩
    · rintro k - ⟨hset, hclear, henabled⟩
      have hk : k < 8 := (Nat.pow_lt_pow_iff_right (by decide)).mp ((Nat.ge_two_pow_of_testBit hset).trans_lt hbits)
      rcases hold k hk hset with hone | hoff
      · omega
      · rw [hoff] at henabled
        cases henabled

/-- Settles O22: each command by what its Bay, its core or its sequence allows. -/
theorem baysAndServing : Obligations.BaysAndServing := by
  refine ⟨?form, ?dissolve, ?dissolveRefused, ?word, ?sliceSwitch, ?sliceRenew, ?resume, ?unslowed, ?slowed, ?boundary, ?firstBoundary, ?propose, ?commit, ?poisoned, ?post⟩
  case form =>
    intro w b inst ordered s u v hman hu hoff hinst hv hmay
    rw [exec_bayForm, State.bayForm_forms hman hu hoff hinst hv hmay]
  case dissolve =>
    intro w b s u hman hu hempty
    rw [exec_bayDissolve, State.bayDissolve_dissolves hman hu hempty]
  case dissolveRefused =>
    intro w b s u j hman hu hj hfull
    rw [exec_bayDissolve, State.bayDissolve_refused hman hu hj hfull]
  case word =>
    intro w b i v s n hopen hmay hformed hcore hpowered
    rw [exec_controlWordWrite, State.controlWord_stores hopen hmay hformed hcore hpowered]
  case sliceSwitch =>
    intro b s t hon hstill hnext hclass
    rw [exec_sliceEnd, State.sliceEnd_switches hon hstill hnext hclass, State.keepPilot_setBay]
  case sliceRenew =>
    intro b s hon hstill hnone
    rw [exec_sliceEnd, State.sliceEnd_renews hon hstill hnone, State.keepPilot_setBay]
  case resume =>
    rintro n s s1 s2 u v b j hbay hcur hswitch hwaits hpowered hspill hrestore hreload rfl
    rw [exec_coreResume, State.coreResume_resumes hbay hcur hswitch hwaits hpowered hspill hrestore hreload, State.coreResumed]
  case unslowed =>
    intro b s hlimit
    have hwindow := State.slowWindow_unslowed hlimit
    rw [State.closeWindow, slowOf_zero] at hwindow
    rw [exec_slowWindowEnd]
    exact congrArg (fun t => Host.Outcome.next (s.keepPilot t)) hwindow
  case slowed =>
    rintro b i s u rfl hi
    rw [exec_slowWindowEnd, State.slowWindow_counts (fun h => hi (Fin.ext h)), State.closeWindow]
  case boundary =>
    intro b s hon hidle hbegun
    rw [exec_roundBoundary, State.roundBoundary_steps hon hidle hbegun, State.boundarySteps]
  case firstBoundary =>
    intro b s off hon hidle hfirst hbad
    rw [exec_roundBoundary, State.roundBoundary_halts hon hidle hfirst hbad]
  case propose =>
    rintro b slot draft logits s u q len n d ds hseq hon hround hdecode hfresh hlen hu hn hsome hds rfl
    refine ⟨_, ?_, rfl⟩
    rw [exec_draftPropose, State.draftPropose_proposes ⟨hseq, hon, hround⟩ hdecode hfresh hlen hu hn hsome hds, State.recordProposal]
  case commit =>
    intro b slot logits s q hseq hon hround
    rw [exec_roundCommit]
    exact congrArg (fun t => Host.Outcome.next (s.keepPilot t)) (State.roundCommit_commits ⟨hseq, hon, hround⟩)
  case poisoned =>
    intro b slot logits s u q hseq hon hround hu
    rw [exec_roundCommit]
    exact congrArg (fun t => Host.Outcome.next (s.keepPilot t)) (State.roundCommit_poisoned ⟨hseq, hon, hround⟩ hu)
  case post =>
    intro b c s p prod hdue hon hprod hroom
    rw [exec_completionPost, State.completionPost_posts hdue hon hprod hroom, State.postEntry]

end Sys2Proof.Proofs
end

section
/-! PROOFS. Tenants, Hatches and migration (12_tenants_hatches_migration.md): a Hatch's posts, consumer indices and device messages (R247-R249, R405), the commands of
an inst., allowed and refused by its state (R251-R258, R321), and the way that the end of a refetch deletes (R259). -/
namespace Sys2Proof.Machine

/-! ### Hatches (R247-R249, R405) -/
section
variable {s : State} {w : Writer} {i ring c : Nat} {ws : List Nat}

theorem State.wakeOff_powered (f : State → State) (hmode : s.power.mode ≠ 2) : s.wakeOff f = s.keepPilot (f s) := if_neg hmode

theorem State.wakeOff_off (f : State → State) (hmode : s.power.mode = 2) : s.wakeOff f = s.setPilot (fun p => { p with wakePin := true }) := if_pos hmode

/-- The eight words that a ring's sender has staged: the tenant for ring 0, the manager for ring 1. -/
def State.staged (s : State) (i ring : Nat) : List Nat :=
  (List.range 8).map (fun k => (s.reg (if ring = 0 then Reg.HAT_TSTAGE else Reg.HAT_MSTAGE) [i - 1, k]).toNat)

/-- A post that no cause refuses puts the staged words into the ring. -/
theorem State.post64_puts (hws : ws = s.staged i ring) (hok : s.postCause i ring (bitsOf (ws.headD 0) 47 32) = 0) : s.post64 i ring = s.hatPut i ring ring ws := by
  subst hws
  exact if_pos hok

/-- A tenant's post that is refused shows its cause. -/
theorem State.post64_tenantRefused (hws : ws = s.staged i 0) (hc : c = s.postCause i 0 (bitsOf (ws.headD 0) 47 32)) (hbad : c ≠ 0) :
    s.post64 i 0 = (s.setFld Reg.HAT_STAT [i - 1] F.HAT_STAT_TREFUSED 1).setFld Reg.HAT_STAT [i - 1] F.HAT_STAT_TCAUSE c := by
  subst hws hc
  exact if_neg hbad

/-- A tenant's post that is refused writes registers alone. -/
theorem State.refusedPost_same (s : State) (is js : List Nat) (c : Nat) :
    SameButRegs s (((s.wrote Reg.HAT_TPOST is 1).setFld Reg.HAT_STAT js F.HAT_STAT_TREFUSED 1).setFld Reg.HAT_STAT js F.HAT_STAT_TCAUSE c) :=
  ((State.setReg_same _ _ _ _).trans (State.setFld_same _ _ _ _ _)).trans (State.setFld_same _ _ _ _ _)

theorem State.tenantPost_of_tenant (hten : isTenant w i = true) : s.tenantPost w i = (s.wrote Reg.HAT_TPOST [i - 1] 1).post64 i 0 := if_pos hten

theorem State.managerPost_of_manager (hman : isManager w = true) : s.managerPost w i = (s.wrote Reg.HAT_MPOST [i - 1] 1).post64 i 1 := if_pos hman

theorem ringIdx_t2m : ringIdx 0 = Reg.HAT_T2M_IDX := rfl
theorem ringIdx_m2t : ringIdx 1 = Reg.HAT_M2T_IDX := rfl

/-- The ring's consumer moves its index no further than PROD (R248). -/
theorem State.hatCons_moves (hmine : (if ring = 0 then isManager w else isTenant w i) = true)
    (hc : (c + 2 ^ 32 - s.ringCons i ring) % 2 ^ 32 ≤ (s.ringProd i ring + 2 ^ 32 - s.ringCons i ring) % 2 ^ 32) :
    s.hatCons w i ring c = s.setReg (ringIdx ring) [i - 1] (withField (s.reg (ringIdx ring) [i - 1]) 63 32 c) := by
  rw [State.hatCons]
  simp only [hmine, Nat.not_lt.mpr hc, not_true_eq_false, if_false]

variable {m : HatMsg} {r : List HatMsg}

/-- With room in the ring and nothing older waiting, the oldest message that has come is posted (R249). -/
theorem State.deviceMessage_posts (hroom : s.hatRoom i = true) (hqueue : s.hatQueue.get [] i = []) (hlost : s.hatLost.get 0 i = 0) (hout : s.hatOut.get [] i = m :: r) :
    s.deviceMessage i = { s.hatPut i 1 2 m.words with hatOut := s.hatOut.set [] i r } := by
  simp only [State.deviceMessage, hroom, hqueue, hlost, hout, ne_eq, not_true_eq_false, if_true, if_false]

/-- Without room the message is queued, behind fewer than sixteen others (R249). -/
theorem State.deviceMessage_queues (hroom : s.hatRoom i = false) (hqueue : (s.hatQueue.get [] i).length < 16) (hout : s.hatOut.get [] i = m :: r) :
    s.deviceMessage i = { s with hatOut := s.hatOut.set [] i r, hatQueue := s.hatQueue.set [] i (s.hatQueue.get [] i ++ [m]) } := by
  simp only [State.deviceMessage, hroom, hout, hqueue, Bool.false_eq_true, if_true, if_false]

end

theorem exec_tenantPost (w : Writer) (v : VfId) (s : State) : exec (.tenantPost w v) s = .next (s.wakeOff (fun s => s.tenantPost w (v + 1))) := rfl
theorem exec_managerPost (w : Writer) (v : VfId) (s : State) : exec (.managerPost w v) s = .next (s.wakeOff (fun s => s.managerPost w (v + 1))) := rfl
theorem exec_hatchConsWrite (w : Writer) (v : VfId) (m2t : Bool) (c : Word) (s : State) :
    exec (.hatchConsWrite w v m2t c) s = .next (s.keepPilot (s.hatCons w (v + 1) (if m2t then 1 else 0) c.toNat)) := rfl
theorem exec_deviceMessage (v : VfId) (s : State) : exec (.deviceMessage v) s = .next (s.keepPilot (s.deviceMessage (v + 1))) := rfl

@[simp] theorem State.keepPilot_setReg (s : State) (r : RegSpec) (is : List Nat) (v : DWord) : s.keepPilot (s.setReg r is v) = s.setReg r is v := rfl

/-! ### Commands of an inst. (R251-R258, R321) -/
section
variable {s t u : State} {w : Writer} {i cmd : Nat} {ok : List Nat} {f : State → State}

theorem State.tdiBreak_unlocked (hunlocked : s.fld Reg.HST_TDI_STAT [i] F.HST_TDI_STAT_STATE = 0) : s.tdiBreak i = s := by
  simp only [State.tdiBreak, hunlocked, OfNat.zero_ne_ofNat, Nat.zero_ne_one, or_self, and_false, if_false]

/-- The manager's command in a state that takes it, after a locked TDI has ended (R321). -/
theorem State.instCmd_taken (hman : isManager w = true) (hcmd : cmd ≠ 2) (hu : u = s.tdiBreak i) (hok : u.inst i ∈ ok) :
    s.instCmd w i cmd ok f = f (u.wrote Reg.HAT_INST_CMD [i] cmd) := by
  rw [State.instCmd, State.asManager_of_manager _ hman]
  simp only [hcmd, if_false, ← hu, List.contains_iff_mem.mpr hok, if_true]

/-- QUIESCE leaves a locked TDI to what quiescing does (R321). -/
theorem State.quiesceCmd_quiesces (hman : isManager w = true) (hactive : s.inst i = 1) : s.quiesceCmd w i = (s.wrote Reg.HAT_INST_CMD [i] 2).quiesce i := by
  rw [State.quiesceCmd, State.instCmd, State.asManager_of_manager _ hman]
  exact if_pos (by rw [if_pos rfl, hactive]; rfl)

/-- With no TDI locked, the manager's command in a state that does not take it is refused with reason 1 (R252). -/
theorem State.instCmd_refused (hman : isManager w = true) (hunlocked : s.fld Reg.HST_TDI_STAT [i] F.HST_TDI_STAT_STATE = 0) (hbad : s.inst i ∉ ok) :
    ∃ cause, s.instCmd w i cmd ok f = s.instRefused w i 1 cause := by
  rw [State.instCmd, State.asManager_of_manager _ hman]
  simp only [State.tdiBreak_unlocked hunlocked, ite_self, List.contains_iff_mem, hbad, if_false]
  exact ⟨_, rfl⟩

/-- Outside the life cycle Returned, with virtual functions enabled and ready, ENABLE clears the Hatch page and the measurements of the inst. -/
theorem State.enableInst_enables (hman : isManager w = true) (hu : u = s.tdiBreak i) (hdisabled : u.inst i = 0) (ht : t = u.wrote Reg.HAT_INST_CMD [i] 1)
    (hlife : t.fld Reg.SEC_STATE [] F.SEC_STATE_LC ≠ 2) (hon : t.vfOn = true) (hready : t.vfReady = true) :
    s.enableInst w i = { t.hatReset i false with measLog := t.measLog.set (0, 0) i (0, 0) }.setInst i 1 := by
  rw [State.enableInst, State.instCmd_taken hman (by decide) hu (List.mem_singleton.mpr hdisabled), ← ht, if_neg hlife, if_neg (not_not_intro ⟨hon, hready⟩)]

/-- A SAVE that no reason refuses begins. -/
theorem State.saveCmd_begins (hman : isManager w = true) (hu : u = s.tdiBreak i) (hfrozen : u.inst i = 4) (ht : t = u.wrote Reg.HAT_INST_CMD [i] 5)
    (hreason : t.saveReason i = 0) : s.saveCmd w i = t.setInst i 5 := by
  rw [State.saveCmd, State.instCmd_taken hman (by decide) hu (List.mem_singleton.mpr hfrozen), ← ht]
  simp only [hreason]

/-- A RESTORE from an aligned address whose first 256 bytes are backed begins. -/
theorem State.restoreCmd_begins (hman : isManager w = true) (hu : u = s.tdiBreak i) (hfrozen : u.inst i = 4) (ht : t = u.wrote Reg.HAT_INST_CMD [i] 6)
    (haligned : t.saveAddr i % 64 = 0) (hbacked : t.storeBacked (t.saveAddr i) 256 = true) : s.restoreCmd w i = t.setInst i 6 := by
  rw [State.restoreCmd, State.instCmd_taken hman (by decide) hu (List.mem_singleton.mpr hfrozen), ← ht]
  exact if_neg (not_or.mpr ⟨not_not_intro haligned, not_not_intro hbacked⟩)

/-- A REMOVE with nothing of the manager's set-up left (R256). -/
theorem State.removeInst_removes (hman : isManager w = true) (hu : u = s.tdiBreak i) (hquiesced : u.inst i = 3) (ht : t = u.wrote Reg.HAT_INST_CMD [i] 8)
    (hremovable : t.removable i = true) : s.removeInst w i = (t.clearInst i).setInst i 0 := by
  rw [State.removeInst, State.instCmd_taken hman (by decide) hu (List.mem_singleton.mpr hquiesced), ← ht, if_pos hremovable]

end

theorem exec_enable (w : Writer) (v : VfId) (s : State) : exec (.enable w v) s = .next (s.keepPilot (s.enableInst w (v + 1))) := rfl
theorem exec_quiesce (w : Writer) (v : VfId) (s : State) : exec (.quiesce w v) s = .next (s.keepPilot (s.quiesceCmd w (v + 1))) := rfl
theorem exec_instanceResume (w : Writer) (v : VfId) (s : State) : exec (.instanceResume w v) s = .next (s.keepPilot (s.resumeInst w (v + 1))) := rfl
theorem exec_freeze (w : Writer) (v : VfId) (s : State) : exec (.freeze w v) s = .next (s.keepPilot (s.freezeInst w (v + 1))) := rfl
theorem exec_save (w : Writer) (v : VfId) (s : State) : exec (.save w v) s = .next (s.keepPilot (s.saveCmd w (v + 1))) := rfl
theorem exec_restore (w : Writer) (v : VfId) (s : State) : exec (.restore w v) s = .next (s.keepPilot (s.restoreCmd w (v + 1))) := rfl
theorem exec_reset (w : Writer) (v : VfId) (s : State) : exec (.reset w v) s = .next (s.keepPilot (s.resetInst w (v + 1))) := rfl
theorem exec_remove (w : Writer) (v : VfId) (s : State) : exec (.remove w v) s = .next (s.keepPilot (s.removeInst w (v + 1))) := rfl

/-- Table TN-6: `c` is a command of HAT_INST_CMD that the states in `ok` take. -/
def InstRow (w : Writer) (v : VfId) (c : Instr) (ok : List Nat) : Prop :=
  ∃ (cmd : Nat) (f : State → State), ∀ s : State, exec c s = .next (s.keepPilot (s.instCmd w (v + 1) cmd ok f))

theorem instRow_of_mem {w : Writer} {v : VfId} {c : Instr} {ok : List Nat}
    (h : (c, ok) ∈ [(Instr.enable w v, [0]), (Instr.quiesce w v, [1]), (Instr.instanceResume w v, [3, 4]), (Instr.freeze w v, [3]), (Instr.save w v, [4]),
      (Instr.restore w v, [4]), (Instr.reset w v, [3]), (Instr.remove w v, [3])]) : InstRow w v c ok := by
  simp only [List.mem_cons, Prod.mk.injEq, List.not_mem_nil, or_false] at h
  obtain ⟨rfl, rfl⟩ | ⟨rfl, rfl⟩ | ⟨rfl, rfl⟩ | ⟨rfl, rfl⟩ | ⟨rfl, rfl⟩ | ⟨rfl, rfl⟩ | ⟨rfl, rfl⟩ | ⟨rfl, rfl⟩ := h
  exacts [⟨_, _, exec_enable w v⟩, ⟨_, _, exec_quiesce w v⟩, ⟨_, _, exec_instanceResume w v⟩, ⟨_, _, exec_freeze w v⟩, ⟨_, _, exec_save w v⟩,
    ⟨_, _, exec_restore w v⟩, ⟨_, _, exec_reset w v⟩, ⟨_, _, exec_remove w v⟩]

/-! ### What a refused command of an inst. changes (R251, R252) -/

/-- A device message joins those that wait, and nothing else changes. -/
theorem State.hatPush_eq_hatOut (s : State) (i : Nat) (m : HatMsg) : s.hatPush i m = { s with hatOut := (s.hatPush i m).hatOut } := by
  rw [State.hatPush]
  split <;> rfl

theorem State.fld_tellState (s : State) (i reason : Nat) (q : RegSpec) (js : List Nat) (g : Fld) : (s.tellState i reason).fld q js g = s.fld q js g := by
  rw [State.fld, State.reg, State.tellState, State.hatPush_regs, ← State.reg, ← State.fld]

theorem instStat_beside (i : Nat) : BesideRecords (Reg.HAT_INST_STAT.addr [i]) := by
  simp only [BesideRecords, RegSpec.addr, Reg.HAT_INST_STAT, addrOf]; omega

theorem instStat_ne_prod (i : Nat) : Reg.HAT_INST_STAT.addr [i] ≠ Reg.ERR_PROD.addr [] := by
  simp only [RegSpec.addr, Reg.HAT_INST_STAT, Reg.ERR_PROD, addrOf]; omega

section
variable (s : State) (w : Writer) (i reason cause : Nat)

/-- A field of the inst.'s state word is what REASON's write leaves: neither the record nor the STATE message reaches it. -/
theorem State.instStat_instRefused (g : Fld) : (s.instRefused w i reason cause).fld Reg.HAT_INST_STAT [i] g =
    (s.setFld Reg.HAT_INST_STAT [i] F.HAT_INST_STAT_REASON reason).fld Reg.HAT_INST_STAT [i] g := by
  rw [State.instRefused, State.fld_tellState, State.refuse, State.refuseAt, State.fld, State.reg_log_beside _ _ (instStat_beside i) (instStat_ne_prod i).symm,
    ← State.fld]

theorem State.inst_instRefused : (s.instRefused w i reason cause).inst i = s.inst i := by
  rw [State.inst, State.instStat_instRefused, State.fld_setFld_other _ _ _ _ _ _ (by decide) (by decide), State.inst]

theorem State.reason_instRefused : (s.instRefused w i reason cause).fld Reg.HAT_INST_STAT [i] F.HAT_INST_STAT_REASON = reason % 2 ^ 8 := by
  rw [State.instStat_instRefused, State.fld_setFld_self _ _ _ _ _ (by decide) (by decide)]
  rfl

/-- One contained record is written. -/
theorem State.fld_prod_instRefused : (s.instRefused w i reason cause).fld Reg.ERR_PROD [] F.ERR_PROD_PROD = (s.fld Reg.ERR_PROD [] F.ERR_PROD_PROD + 1) % 2 ^ 32 := by
  rw [State.instRefused, State.fld_tellState, State.refuse, State.refuseAt, State.fld_prod_log, State.fld_setFld_ne _ _ _ _ _ _ _ _ (instStat_ne_prod i)]

/-- What no register, no interrupt and no waiting message says of the state is as it was. -/
theorem State.instRefused_field {α : Type} (g : State → α) (hmsg : ∀ t q, g { t with hatOut := q } = g t) (hreg : ∀ t, SameButRegs s t → g t = g s) :
    g (s.instRefused w i reason cause) = g s := by
  rw [State.instRefused, State.tellState, State.hatPush_eq_hatOut, hmsg]
  exact hreg _ ((State.setFld_same _ _ _ _ _).trans (State.refuse_same _ _ _ _ _))

theorem State.instRefused_samePilot : SamePilot s (s.instRefused w i reason cause) :=
  ⟨State.instRefused_field _ _ _ _ _ State.pilot (fun _ _ => rfl) fun _ h => h.field State.pilot,
    State.instRefused_field _ _ _ _ _ State.pending (fun _ _ => rfl) fun _ h => h.field State.pending⟩

@[simp] theorem State.instRefused_mem : (s.instRefused w i reason cause).mem = s.mem :=
  State.instRefused_field _ _ _ _ _ State.mem (fun _ _ => rfl) fun _ h => h.field State.mem
@[simp] theorem State.instRefused_imgs : (s.instRefused w i reason cause).imgs = s.imgs :=
  State.instRefused_field _ _ _ _ _ State.imgs (fun _ _ => rfl) fun _ h => h.field State.imgs
@[simp] theorem State.instRefused_keyGen : (s.instRefused w i reason cause).keyGen = s.keyGen :=
  State.instRefused_field _ _ _ _ _ State.keyGen (fun _ _ => rfl) fun _ h => h.field State.keyGen
@[simp] theorem State.instRefused_measLog : (s.instRefused w i reason cause).measLog = s.measLog :=
  State.instRefused_field _ _ _ _ _ State.measLog (fun _ _ => rfl) fun _ h => h.field State.measLog

end

/-! ### A refetched line outside the Cellar (R130, R259) -/

/-- A line of granule 64,512, whose home is slice 0 of its granule's die. The Cellar has 512 granules, in 16 words of the granule map; the model looks this one up in
a word 2,016, whose offset is that of slice 0's forward count. -/
def strayLine : Nat := 64512 * 2 ^ 23 + 9

/-- Quadrant mode, home order, a Cellar of 1 MiB: the line is resident and refetching in shared range 0, which host memory backs, and a reduction of it waits for the
refetch to end. A forward of the line is outstanding, so that one will be forwarded too (R160). -/
def strayRefetch : State :=
  let red : CohReq := { kind := .red, who := .cluster 0, line := strayLine }
  let s : State := { larder := [(strayLine, some { refetch := true })], homes := [(strayLine, { waiting := [red] })], slices := [(0, { fwd := [(strayLine, 1)] })] }
  let s := s.setFld Reg.LRD_ILV_CFG [] F.LRD_ILV_CFG_MODE 1
  let s := s.setFld Reg.LRD_COH_STAT [] F.LRD_COH_STAT_ORDER 0
  let s := s.setFld Reg.CEL_CAP [] F.CEL_CAP_CAP_MIB 1
  let s := s.setFld Reg.HAT_SHR_BASE [0] F.HAT_SHR_BASE_EN 1
  let s := s.setFld Reg.HAT_SHR_BASE [0] F.HAT_SHR_BASE_BASE strayLine
  let s := s.setFld Reg.HAT_SHR_LEN [0] F.HAT_SHR_LEN_LEN 128
  s.setFld Reg.HAT_SHR_BACK [0] F.HAT_SHR_BACK_BACK (2 ^ 44)

/-- The backing line `d` has replaced the data of line `l`, with a corrected record (R259). -/
def State.refetched (s : State) (l : Nat) (x : LarderLine) (d : Line) : State :=
  { s with larder := s.larder.set none l (some { x with refetch := false, poison := false, data := d, enc := encodingOf d x.pinned s.compress }) }.log
    { kind := 0x08, index := (s.home l).1, cls := .corrected, address := 128 * l, sub := x.way, aux := (s.home l).2 }

/-- The refetch is counted too, and the reduction that waited has started. -/
def strayWoken : State := ((strayRefetch.refetched strayLine { refetch := true } 0).bump Reg.HAT_SHR_CNT [0] F.HAT_SHR_CNT_REFETCH 1).wake strayLine

/-- The count of the reduction's forward has moved the line's home from slice 0 to slice 16. -/
theorem home_strayWoken : strayWoken.home strayLine = (16, 0) := by decide +kernel

theorem deleting_strayWoken : (strayWoken.beginDelete 16 0 0).larderCtl.deleting = [(16, 0, 0)] := by decide +kernel

/-- The model deletes the way in slice 0, the line's home when the backing line came. -/
theorem deleting_refetchDone_strayRefetch : (strayRefetch.refetchDone strayLine 0).larderCtl.deleting = [(0, 0, 0)] := by decide +kernel

theorem exec_sharedRefetchDone (l : Nat) (host : Line) (s : State) : exec (.sharedRefetchDone l host) s = .next (s.keepPilot (s.refetchDone l host)) := rfl

end Sys2Proof.Machine

namespace Sys2Proof.Proofs
open Sys2Proof.Machine

/-- Settles O25: a command in a state that does not take it comes to a refusal, and a refusal writes REASON, a record and a STATE message. -/
theorem instanceCommandRefused : Obligations.InstanceCommandRefused := by
  intro w v s c ok hman hunlocked hrow hbad
  obtain ⟨cmd, f, hexec⟩ := instRow_of_mem hrow
  obtain ⟨cause, hrefused⟩ := State.instCmd_refused (cmd := cmd) (f := f) hman hunlocked hbad
  refine ⟨s.instRefused w (v + 1) 1 cause, ?_, State.inst_instRefused _ _ _ _ _, State.reason_instRefused _ _ _ _ _, State.fld_prod_instRefused _ _ _ _ _,
    State.instRefused_mem _ _ _ _ _, State.instRefused_imgs _ _ _ _ _, State.instRefused_keyGen _ _ _ _ _, State.instRefused_measLog _ _ _ _ _⟩
  rw [hexec, hrefused, (State.instRefused_samePilot _ _ _ _ _).keepPilot]

/-- Settles O23: posts of either side, consumer indices and device messages, each by who acts and what the ring holds. -/
theorem hatches : Obligations.Hatches := by
  refine ⟨?tenant, ?manager, ?refused, ?off, ?managerCons, ?tenantCons, ?posted, ?queued⟩
  case tenant =>
    rintro w v s u ws hten hmode rfl hws hok
    rw [exec_tenantPost, State.wakeOff_powered _ hmode, State.tenantPost_of_tenant hten]
    exact congrArg (fun t => Host.Outcome.next (s.keepPilot t)) (State.post64_puts hws hok)
  case manager =>
    rintro w v s u ws hman hmode rfl hws hok
    rw [exec_managerPost, State.wakeOff_powered _ hmode, State.managerPost_of_manager hman]
    exact congrArg (fun t => Host.Outcome.next (s.keepPilot t)) (State.post64_puts hws hok)
  case refused =>
    intro w v s u ws c hten hmode hu hws hc hbad
    have hpost := State.post64_tenantRefused (s := u) (i := v + 1) hws hc hbad
    rw [Nat.add_sub_cancel] at hpost
    rw [exec_tenantPost, State.wakeOff_powered _ hmode, State.tenantPost_of_tenant hten, Nat.add_sub_cancel, ← hu, hpost, hu,
      (State.refusedPost_same _ _ _ _).samePilot.keepPilot]
  case off =>
    intro i w v s hi hmode
    simp only [List.mem_cons, List.not_mem_nil, or_false] at hi
    obtain rfl | rfl := hi
    · rw [exec_tenantPost, State.wakeOff_off _ hmode, State.setPilot]
    · rw [exec_managerPost, State.wakeOff_off _ hmode, State.setPilot]
  case managerCons =>
    intro w v c s hman hc
    rw [exec_hatchConsWrite, if_neg Bool.false_ne_true, State.hatCons_moves (ring := 0) hman hc, Nat.add_sub_cancel, ringIdx_t2m, State.keepPilot_setReg]
  case tenantCons =>
    intro w v c s hten hc
    rw [exec_hatchConsWrite, if_pos rfl, State.hatCons_moves (ring := 1) hten hc, Nat.add_sub_cancel, ringIdx_m2t, State.keepPilot_setReg]
  case posted =>
    intro v s m r hroom hqueue hlost hout
    rw [exec_deviceMessage, State.deviceMessage_posts hroom hqueue hlost hout]
  case queued =>
    intro v s m r hroom hqueue hout
    rw [exec_deviceMessage, State.deviceMessage_queues hroom hqueue hout]
    rfl

/-- Settles O24: each command in the states that Table TN-6 gives it. -/
theorem instanceCommands : Obligations.InstanceCommands := by
  refine ⟨?enable, ?quiesce, ?resume, ?freeze, ?save, ?restore, ?reset, ?remove⟩
  case enable =>
    intro w v s u t hman hu hdisabled ht hlife hon hready
    rw [exec_enable, State.enableInst_enables hman hu hdisabled ht hlife hon hready]
  case quiesce =>
    intro w v s hman hactive
    rw [exec_quiesce, State.quiesceCmd_quiesces hman hactive]
  case resume =>
    intro w v s u hman hu hstopped
    rw [exec_instanceResume, State.resumeInst, State.instCmd_taken hman (by decide) hu (by simpa using hstopped)]
  case freeze =>
    rintro w v s u t hman hu hquiesced rfl
    rw [exec_freeze, State.freezeInst, State.instCmd_taken hman (by decide) hu (List.mem_singleton.mpr hquiesced)]
  case save =>
    intro w v s u t hman hu hfrozen ht hreason
    rw [exec_save, State.saveCmd_begins hman hu hfrozen ht hreason]
  case restore =>
    intro w v s u t hman hu hfrozen ht haligned hbacked
    rw [exec_restore, State.restoreCmd_begins hman hu hfrozen ht haligned hbacked]
  case reset =>
    intro w v s u hman hu hquiesced
    rw [exec_reset, State.resetInst, State.instCmd_taken hman (by decide) hu (List.mem_singleton.mpr hquiesced)]
  case remove =>
    intro w v s u t hman hu hquiesced ht hremovable
    rw [exec_remove, State.removeInst_removes hman hu hquiesced ht hremovable]

/-- Refutes O26: where a refetch ends, its ninth part deletes the way at the home that the line has once the waiting requests have started, and the model at the home
from before. For `strayLine`, which is no line of the Cellar, the two differ. -/
theorem not_instanceEnds : ¬ Obligations.InstanceEnds := by
  unfold Obligations.InstanceEnds
  rintro ⟨-, -, -, -, -, -, -, -, hrefetched, -⟩
  have hexec : exec (.sharedRefetchDone strayLine 0) strayRefetch =
      .next (strayRefetch.keepPilot (strayWoken.beginDelete (strayWoken.home strayLine).1 (strayWoken.home strayLine).2 0)) :=
    hrefetched strayLine 0 0 strayRefetch (strayRefetch.refetched strayLine { refetch := true } 0) { refetch := true } 0
      (by decide +kernel) (by decide +kernel) rfl (by decide +kernel) rfl
  simp only [exec_sharedRefetchDone, home_strayWoken] at hexec
  have hdeleting := congrArg (fun t => t.larderCtl.deleting) (Host.Outcome.next.inj hexec)
  rw [State.keepPilot_larderCtl, State.keepPilot_larderCtl, deleting_refetchDone_strayRefetch, deleting_strayWoken] at hdeleting
  exact absurd hdeleting (by decide)

end Sys2Proof.Proofs
end

section
/-! PROOFS. What holds of every step (00_scope.md): the queue behind a command, the Pilot's bounds (R371, R375, R380, R393, R402) and the counters of the flash that
never go down (R371, R375, R380, R383). Error records in their ring (R386-R388). -/
namespace Sys2Proof.Machine

/-! ### Every step -/

/-- A scan stops in the Vendor state of a part with power, and does nothing otherwise (R382). -/
theorem exec_vendorscan (s : State) : exec .vendorscan s = if s.debug = 3 ∧ s.power.mode ≠ 2 then .fault .internalChain else .next s := rfl

/-- Only the Pilot's own commands reach its fields, each by its lemma; every other row keeps them as they were (log 10). -/
theorem exec_kept {c : Instr} {s t : State} (h : exec c s = .next t) : Kept s t := by
  cases c with
  | regWrite w off width v => cases h; exact kept_regWrite _ _ _ _ _
  | porterAccess p c => cases h; exact kept_porterAccess _ _ (fun _ _ _ => kept_regWrite _ _ _ _ _) _ _
  | tenantPost w v => cases h; exact kept_wakeOff _ _
  | managerPost w v => cases h; exact kept_wakeOff _ _
  | gwr d k => cases h; exact kept_joistTake _ _ _ _ _ fun _ _ => (kept_regWrite _ _ _ _ _).trans (Kept.keep _ _)
  | linkSilence j d late => cases h; exact kept_linkSilence _ _ _ _
  | supplyMonitorTrip rail => cases h; exact kept_supplyTrip _ _
  | configRequest f op => cases h; exact kept_configRequest _ _ _
  | hostRequest f bar off op peer ide => cases h; exact kept_hostRequest _ _ _ _ _ _ _
  | f0Flr x => cases h; exact Kept.ite _ (kept_warmRestart _ _) (Kept.refl _)
  | refclkCheck count => cases h; exact kept_refCheck _ _
  | temperatureSample d tc tu => cases h; exact kept_temperature _ _ _ _
  | wakeComplete g => cases h; exact kept_wakeDone _ _
  | d3coldEntry => cases h; exact kept_d3coldEntry _
  | coldStart x => cases h; exact kept_coldStart _ _
  | warmRestart x => cases h; exact kept_warmRestart _ _
  | startWatchdog stage detail => cases h; exact kept_watchdog _ _ _
  | applyToken w fails vendorSig ownerSig => cases h; exact kept_applyToken _ _ _ _ _
  | commitSvn w => cases h; exact kept_commitSvn _ _
  | retry w => cases h; exact kept_retryStart _ _
  | recover w fails sig => cases h; exact kept_recover _ _ _ _
  | extestEntry => cases h; exact kept_extestEntry _
  | extestExit => cases h; exact kept_extestExit _
  | regacc off write => cases h; exact kept_regAcc _ _ _
  | vendorscan =>
    rw [exec_vendorscan] at h
    split at h
    · cases h
    · cases h; exact Kept.refl s
  | wayDeleteEnd unit set => cases h; exact kept_deleteEnd _ _ _
  | pilotPwrokRise => cases h; exact kept_pwrokRise _
  | pilotPwrokFall => cases h; exact kept_pwrokFall _
  | perstAssert => cases h; exact kept_perstAssert _
  | perstDeassert => cases h; exact kept_perstDeassert _
  | pwrPgRise g => cases h; exact kept_pgRise _ _
  | pwrPgTimeout stage => cases h; exact kept_pgTimeout _ _
  | pwrPgFall g stage => cases h; exact kept_pgFall _ _ _
  | enableDeassertTimeout => cases h; exact kept_dropNext _
  | inboundChuteRetrainRequest p => cases h; exact kept_inboundRetrain _
  | _ => cases h; exact Kept.keep _ _

theorem step_of_empty {s : State} (h : s.pending = []) : step s = .next s.tick := by simp only [step, h]
theorem step_of_front {s : State} {c : Instr} {rest : List Instr} (h : s.pending = c :: rest) : step s = exec c { s with pending := rest } := by simp only [step, h]

/-- A step on an empty queue is a reference cycle, any other one the command at the front: both keep the Pilot's bounds and its counters. -/
theorem step_keeps_pilot {s t : State} (h : step s = .next t) : s.pilot.NoLower t.pilot ∧ (s.pilot.Ok → t.pilot.Ok) := by
  cases hq : s.pending with
  | nil =>
    rw [step_of_empty hq] at h
    cases h
    obtain ⟨hlow, hok, -⟩ := kept_tick s
    exact ⟨hlow, hok⟩
  | cons c rest =>
    rw [step_of_front hq] at h
    obtain ⟨hlow, hok, -⟩ := exec_kept h
    exact ⟨hlow, hok⟩

/-! ### An error record in its ring (R386-R388) -/
section
variable {r : RegSpec} {pre : List Nat} (hinj : ∀ i j, i ≠ j → r.addr (pre ++ [i]) ≠ r.addr (pre ++ [j]))
include hinj

/-- Words put into an array from number `w` on leave the lower ones alone. -/
theorem State.reg_setWords_below (s : State) {i w : Nat} (vs : List Nat) (hi : i < w) : (s.setWords r pre w vs).reg r (pre ++ [i]) = s.reg r (pre ++ [i]) := by
  induction vs generalizing s w with
  | nil => rfl
  | cons v vs ih => rw [State.setWords, ih _ (by omega), State.reg_setReg_ne _ _ _ _ _ _ (hinj w i (by omega))]

/-- Each word reads back where it was put. -/
theorem State.reg_setWords_self (s : State) (w : Nat) {k : Nat} {vs : List Nat} (hk : k < vs.length) :
    (s.setWords r pre w vs).reg r (pre ++ [w + k]) = BitVec.ofNat 64 (vs.getD k 0) := by
  induction vs generalizing s w k with
  | nil => exact absurd hk (Nat.not_lt_zero k)
  | cons v vs ih =>
    rw [State.setWords]
    cases k with
    | zero => exact (State.reg_setWords_below hinj _ vs (Nat.lt_succ_self w)).trans (State.reg_setReg_self _ _ _ _)
    | succ k =>
      have hrest := ih (s.setReg r (pre ++ [w]) (BitVec.ofNat 64 v)) (w + 1) (Nat.lt_of_succ_lt_succ hk)
      rwa [Nat.add_right_comm w 1 k] at hrest

end

theorem errFatal_injective (i j : Nat) (h : i ≠ j) : Reg.ERR_FATAL.addr ([] ++ [i]) ≠ Reg.ERR_FATAL.addr ([] ++ [j]) := by
  simp only [List.nil_append, RegSpec.addr, Reg.ERR_FATAL, addrOf]; omega

theorem errRec_injective (slot i j : Nat) (h : i ≠ j) : Reg.ERR_REC.addr ([slot] ++ [i]) ≠ Reg.ERR_REC.addr ([slot] ++ [j]) := by
  simp only [List.cons_append, List.nil_append, RegSpec.addr, Reg.ERR_REC, addrOf]; omega

section
variable (s : State) (r : ErrRec)

/-- The copy of a device-fatal record in ERR_FATAL (R388). -/
def State.fatalCopy (s : State) (ws : List Nat) : State := (s.setWords Reg.ERR_FATAL [] 0 ws).setFld Reg.ERR_STAT [] F.ERR_STAT_FATAL 1

/-- Beside the copy in ERR_FATAL, counting a record writes ERR_CNT alone. -/
theorem State.reg_logCount_of_ne_cnt {q : RegSpec} {js : List Nat} (ws : List Nat) (h : Reg.ERR_CNT.addr [] ≠ q.addr js) :
    (s.logCount r ws).reg q js = (s.when (r.cls == .fatal) (fun s => s.fatalCopy ws)).reg q js := by
  rw [State.logCount, State.reg_when (f := fun s => s.raise 0 96) (fun _ => State.reg_raise _ _ _ _ _), State.reg_countRecord_ne _ _ _ _ h]
  rfl

/-- A record's slot of the ring shows its words: what follows writes PROD, ERR_FATAL, ERR_STAT and ERR_CNT. -/
theorem State.reg_errRec_log {k : Nat} (hk : k < 8) :
    (s.log r).reg Reg.ERR_REC [s.fld Reg.ERR_PROD [] F.ERR_PROD_PROD % 1024, k] =
      BitVec.ofNat 64 ((r.words (s.fld Reg.ERR_PROD [] F.ERR_PROD_PROD) (s.reg Reg.CLK_REFCNT [5]).toNat).getD k 0) := by
  have hbefore {q : RegSpec} {i : Nat} (hq : q.addr [] < 0x410000) : q.addr [] ≠ Reg.ERR_REC.addr [i, k] := by
    have hrec : 0x410000 ≤ Reg.ERR_REC.addr [i, k] := by simp only [RegSpec.addr, Reg.ERR_REC, addrOf]; omega
    omega
  rw [State.log_eq_ring_prod_count, State.reg_logCount_of_ne_cnt _ _ _ (hbefore (by decide)), State.reg_when fun _ => ?fatal,
    State.reg_setFld_ne _ _ _ _ _ _ _ (hbefore (by decide)), State.logRing]
  case fatal =>
    rw [State.fatalCopy, State.reg_setFld_ne _ _ _ _ _ _ _ (hbefore (by decide)), State.reg_setWords_ne _ _ _ _ _ _ _ fun w hw => ?_]
    have hw8 : w < 8 := by rwa [r.length_words, Nat.zero_add] at hw
    simp only [RegSpec.addr, Reg.ERR_FATAL, Reg.ERR_REC, addrOf, List.nil_append]; omega
  have hself := State.reg_setWords_self (errRec_injective (s.fld Reg.ERR_PROD [] F.ERR_PROD_PROD % 1024))
  simpa using hself _ 0 (show k < (r.words _ _).length from hk)

/-- A full ring is marked as overrun (R387). -/
theorem State.fld_ovf_log (hfull : 1024 ≤ (s.fld Reg.ERR_PROD [] F.ERR_PROD_PROD + 2 ^ 32 - s.fld Reg.ERR_CONS [] F.ERR_CONS_CONS) % 2 ^ 32) :
    (s.log r).fld Reg.ERR_STAT [] F.ERR_STAT_OVF = 1 := by
  have hrec (i k : Nat) : Reg.ERR_REC.addr [i, k] ≠ Reg.ERR_STAT.addr [] := by simp only [RegSpec.addr, Reg.ERR_REC, Reg.ERR_STAT, addrOf]; omega
  have hfatal (k : Nat) : Reg.ERR_FATAL.addr [k] ≠ Reg.ERR_STAT.addr [] := by simp only [RegSpec.addr, Reg.ERR_FATAL, Reg.ERR_STAT, addrOf]; omega
  have hring : (s.logRing r).fld Reg.ERR_STAT [] F.ERR_STAT_OVF = 1 := by
    rw [State.logRing, State.fld, State.reg_setWords_ne _ _ _ _ _ _ _ fun k _ => hrec _ k, State.when, if_pos (decide_eq_true hfull)]
    exact State.fld_setFld_self _ _ _ _ _ (by decide) (by decide)
  rw [State.log_eq_ring_prod_count, State.fld, State.reg_logCount_of_ne_cnt _ _ _ (by decide), State.when, ← State.fld]
  split
  · rw [State.fatalCopy, State.fld_setFld_other _ _ _ _ _ _ (by decide) (by decide), State.fld, State.reg_setWords_ne _ _ _ _ _ _ _ fun k _ => hfatal k, ← State.fld,
      State.fld_setFld_ne _ _ _ _ _ _ _ _ (by decide), hring]
  · rw [State.fld_setFld_ne _ _ _ _ _ _ _ _ (by decide), hring]

/-- A device-fatal record stands in ERR_FATAL too (R388). -/
theorem State.reg_errFatal_log {k : Nat} (hcls : r.cls = .fatal) (hk : k < 8) :
    (s.log r).reg Reg.ERR_FATAL [k] = BitVec.ofNat 64 ((r.words (s.fld Reg.ERR_PROD [] F.ERR_PROD_PROD) (s.reg Reg.CLK_REFCNT [5]).toNat).getD k 0) := by
  have hne {q : RegSpec} (hq : q.addr [] < 0x400040) : q.addr [] ≠ Reg.ERR_FATAL.addr [k] := by
    have hfatal : 0x400040 ≤ Reg.ERR_FATAL.addr [k] := by simp only [RegSpec.addr, Reg.ERR_FATAL, addrOf]; omega
    omega
  rw [State.log_eq_ring_prod_count, State.reg_logCount_of_ne_cnt _ _ _ (hne (by decide)), State.when, if_pos (beq_iff_eq.mpr hcls), State.fatalCopy,
    State.reg_setFld_ne _ _ _ _ _ _ _ (hne (by decide))]
  have hself := State.reg_setWords_self errFatal_injective
  simpa using hself _ 0 (show k < (r.words _ _).length from hk)

end
end Sys2Proof.Machine

namespace Sys2Proof.Proofs
open Sys2Proof Sys2Proof.Machine

/-- Settles O49: an empty queue and a command at the front are the two cases of a step. -/
theorem stepTakesTheFrontCommand : Obligations.StepTakesTheFrontCommand :=
  ⟨fun _ _ _ => step_of_front rfl, fun _ => step_of_empty⟩

/-- Settles O54, by what every command and a reference cycle keep. -/
theorem queueLeftAlone : Obligations.QueueLeftAlone := by
  refine ⟨fun c s t h => ?_, fun s hempty => ?_⟩
  · obtain ⟨-, -, hqueue⟩ := exec_kept h
    exact hqueue
  · obtain ⟨-, -, hqueue⟩ := kept_tick s
    exact hqueue.trans hempty

/-- Settles O52, by what every step keeps. -/
theorem pilotStaysLegal : Obligations.PilotStaysLegal := by
  intro s t hok h
  obtain ⟨-, hkeep⟩ := step_keeps_pilot h
  exact hkeep hok

/-- Settles O53, by what every step keeps. -/
theorem flashCountersNeverDecrease : Obligations.FlashCountersNeverDecrease := by
  intro s t h
  obtain ⟨hlow, -⟩ := step_keeps_pilot h
  exact hlow

/-- Settles O51: the fields of the Pilot at reset are numbers within the bounds. -/
theorem pilotLegalAtReset : Obligations.PilotLegalAtReset := by
  unfold Obligations.PilotLegalAtReset Pilot.Ok
  decide

/-- Settles O35: the scan stops exactly in the Vendor state of a part with power. -/
theorem vendorScanStops : Obligations.VendorScanStops := by
  refine ⟨fun s hvendor hpower => ?_, fun s hno => ?_⟩
  · rw [exec_vendorscan, if_pos ⟨hvendor, hpower⟩]
  · rw [exec_vendorscan, if_neg fun h => hno.elim (· h.1) h.2]

/-- Settles O57, by what the ring, ERR_STAT and ERR_FATAL show of a record. -/
theorem errorRecords : Obligations.ErrorRecords := by
  refine ⟨State.fld_prod_log, ?slot, ?overrun, ?fatal, ?frame⟩
  case slot =>
    rintro s r _ k rfl hk
    exact State.reg_errRec_log s r hk
  case overrun => exact fun s r hfull => State.fld_ovf_log s r hfull
  case fatal => exact fun s r k hcls hk => State.reg_errFatal_log s r hcls hk
  case frame =>
    rintro s _ r rfl
    exact State.log_same s r

end Sys2Proof.Proofs
end

section
/-! PROOFS. Package Joists (13_package_joists.md): messages at their destination (R267, R268, R276), flits, sending, modules, silence and lost dies, rejoining (R265,
R266, R269, R272, R274-R278). -/
namespace Sys2Proof.Machine

/-! ### Messages at their destination (R267, R268, R276) -/
section
variable {s : State} {d c off n : Nat} {m : JoistMsg}

/-- A read of a backed piece of a Pantry is answered with its data and poison. -/
theorem State.takePrd_pantry (hplace : regionOf m.addr = .pantry c off) (hn : n = min 256 (Config.joistAux 0 m.aux)) (hbacked : s.backed m.addr = true)
    (hlen : off + n ≤ pantrySize) :
    s.takePrd d m = s.joistReply d (m.answer 0x32 n (s.pantryNat c off n) (s.pantryPoison c off n) false false) := by
  subst hn
  simp only [State.takePrd, hplace, hbacked, hlen, and_self, if_true]

/-- A read outside every Pantry is answered with ERR. -/
theorem State.takePrd_outside (hplace : ∀ c off, regionOf m.addr ≠ .pantry c off) :
    s.takePrd d m = s.joistReply d (m.answer 0x32 (min 256 (Config.joistAux 0 m.aux)) 0 false true false) := by
  rw [State.takePrd]
  split
  · next c off h => exact absurd h (hplace c off)
  · rfl

theorem State.takePwr_pantry (hplace : regionOf m.addr = .pantry c off) (hn : n = min (16 * m.dslots) (Config.joistAux 1 m.aux)) (hbacked : s.backed m.addr = true)
    (hlen : off + n ≤ pantrySize) :
    s.takePwr d m = ((s.setPantry c off (leBytes n m.data) m.poison).stored m.addr n).joistReply d (m.answer 0x27 0 0 false false false) := by
  subst hn
  simp only [State.takePwr, hplace, hbacked, hlen, and_self, if_true]

end

theorem exec_prd (d : DieId) (k : Nat) (s : State) : exec (.prd d k) s = .next (s.keepPilot (s.joistTake d k [0x0A] (fun s m => s.takePrd d m))) := rfl
theorem exec_pwr (d : DieId) (k : Nat) (s : State) : exec (.pwr d k) s = .next (s.keepPilot (s.joistTake d k [0x0B] (fun s m => s.takePwr d m))) := rfl
theorem exec_tinc (d : DieId) (k : Nat) (s : State) : exec (.tinc d k) s = .next (s.keepPilot (s.joistTake d k [0x0C] (fun s m => s.takeTinc d m))) := rfl
theorem exec_pcmp (d : Fin 6) (k : Nat) (s : State) : exec (.pcmp d k) s = .next (s.keepPilot (s.joistTake d k [0x27] (fun s m => s.joistDone m false))) := rfl
theorem exec_pdat (d : Fin 6) (k : Nat) (s : State) : exec (.pdat d k) s = .next (s.keepPilot (s.joistTake d k [0x32] (fun s m => s.joistDone m true))) := rfl
theorem exec_cmpd (d : Fin 6) (k : Nat) (s : State) : exec (.cmpd d k) s = .next (s.keepPilot (s.joistTake d k [0x31] (fun s m => s.joistDone m true))) := rfl
theorem exec_gcmp (d : Fin 6) (k : Nat) (s : State) : exec (.gcmp d k) s = .next (s.keepPilot (s.joistTake d k [0x42] (fun s m => s.takeGcmp m))) := rfl
theorem exec_sevt (d : Fin 6) (k : Nat) (s : State) : exec (.sevt d k) s = .next (s.keepPilot (s.joistTake d k [0x43] (fun s _ => s))) := rfl

/-- Taking a message off its die's list leaves the Pilot and the queue alone. -/
theorem JoistAt.samePilot {s u : State} {d k : Nat} {m : JoistMsg} (hat : JoistAt s d k m u) : SamePilot s u := by
  obtain ⟨-, rfl⟩ := hat
  exact ⟨rfl, rfl⟩

/-- Taking a message off its die's list leaves every Pantry alone. -/
theorem JoistAt.pantryNat {s u : State} {d k : Nat} {m : JoistMsg} (hat : JoistAt s d k m u) (n off len : Nat) : u.pantryNat n off len = s.pantryNat n off len := by
  obtain ⟨-, hu⟩ := hat
  have hmem : u.mem = s.mem := by rw [hu]
  exact congrArg ofLeBytes (State.bytes_congr hmem _ _)

theorem State.joistReply_samePilot (s : State) (d : Nat) (m : JoistMsg) : SamePilot s (s.joistReply d m) := ⟨rfl, rfl⟩

/-- A row of one type takes the `k`-th message at die `d` and serves it. -/
theorem State.joistTake_one {s u : State} {d k type : Nat} {m : JoistMsg} (f : State → JoistMsg → State) (hat : JoistAt s d k m u) (htype : m.type = type) :
    s.joistTake d k [type] f = f u m := State.joistTake_of_joistAt f hat (List.mem_singleton.mpr htype)

/-! ### Flits (R265, R266) -/

/-- A Joist message's slots, header included. -/
def joistSize (h : BitVec 128) : Nat := 1 + fieldOf h 85 81

section
variable {s t u : State} {k m j back : Nat} {f : BitVec 2048}

/-- A flit with a bad CRC is counted, against its module too, and answered with a NAK. -/
theorem State.joistFlit_bad (hj : j = k / 2) (hup : s.linkState j = 2) (hmod : (s.fld Reg.JST_LINK_STAT [j] F.JST_LINK_STAT_MODULES).testBit m = true)
    (hcrc : flitGood f = false)
    (hu : u = (s.bump Reg.JST_LINK_CNT [j] F.JST_LINK_CNT_CRC_ERR 1).setJoistLink j { s.joistLink j with crc := (s.joistLink j).crc.set 0 m ((s.joistLink j).crc.get 0 m + 1) }) :
    s.joistFlit k m f = u.setJoist k { u.joist k with naking := true } := by
  subst hj hu
  simp only [State.joistFlit, hup, hmod, hcrc, ne_eq, not_true_eq_false, or_self, Bool.false_eq_true, not_false_eq_true, if_true, if_false]

/-- A good flit: its die is heard, acknowledgement and credits reach the other direction, a NAK is counted, and the whole messages of a DATA flit are delivered. -/
theorem State.joistFlit_good (hj : j = k / 2) (hup : s.linkState j = 2) (hmod : (s.fld Reg.JST_LINK_STAT [j] F.JST_LINK_STAT_MODULES).testBit m = true)
    (hcrc : flitGood f = true) (ht : t = s.setJoistLink j { s.joistLink j with silent := (s.joistLink j).silent.erase (wireFrom k) }) (hback : back = 2 * j + (1 - k % 2))
    (hu : u = (t.setJoist back ((t.joist back).told joistKind f)).when (flitField f joistKind.nak 1 == 1) (fun s => s.bump Reg.JST_LINK_CNT [j] F.JST_LINK_CNT_REPLAY 1)) :
    s.joistFlit k m f = if flitField f joistKind.kindLo 2 ≠ 0 then u else
      let w := (u.joist k).takeData joistKind f
      let ms := splitSlots joistSize (w.partials.length + 1) w.partials
      ms.1.foldl (fun s ss => s.joistDeliver k ss) (u.setJoist k { w with partials := ms.2 }) := by
  subst hj hback ht hu
  simp only [State.joistFlit, hup, hmod, hcrc, ne_eq, not_true_eq_false, or_self, if_false]
  rfl

theorem State.joistTimeout_fails (hbuf : (s.joist k).buf ≠ []) : s.joistTimeout k = s.linkFails (k / 2) := by
  rw [State.joistTimeout, if_neg (by simpa using hbuf)]

end

/-! ### Sending (R267, R269) -/

/-- An agent's own message goes out over the open link of its route, when its channel has the credits; a request that expects a completion is kept. -/
theorem State.joistSend_sends {s u : State} {d j ch back : Nat} {who : Agent} {m : JoistMsg} {w b : Wire} (hlegal : m.legal = true) (hslots : m.slots.length = m.dslots)
    (haway : m.ddie ≠ d) (hown : m.sdie = d) (hroute : s.routeOf d m.ddie = some j) (hch : ch = (joistChannel m.type).getD 0) (hopen : s.openLink j = true)
    (hroom : (s.joist (wireOf j d)).room joistKind ch (1 + m.dslots) = true) (hback : back = 2 * j + (1 - wireOf j d % 2))
    (hsend : (s.joist (wireOf j d)).sendSlots joistKind (s.joist back) ch (m.hdr :: m.slots) = (w, b))
    (hu : u = ({ s with joistOut := s.joistOut.erase (d, m) }.setJoist (wireOf j d) w).setJoist back b) :
    s.joistSend d who m = if (completionType m.type).isSome then { u with joistLive := u.joistLive ++ [(m, who)] } else u := by
  subst hch hback hu
  have hready : ¬ (¬ m.legal = true ∨ m.slots.length ≠ m.dslots ∨ m.ddie = d ∨ (¬ s.joistOut.contains (d, m) = true ∧ ¬ (m.sdie == d) = true)) := by
    simp [hlegal, hslots, haway, hown]
  have hgo : ¬ (¬ s.openLink j = true ∨ ¬ (s.joist (wireOf j d)).room joistKind ((joistChannel m.type).getD 0) (1 + m.dslots) = true) := by
    simp [hopen, hroom]
  rw [State.joistSend, if_neg hready]
  simp only [hroute, if_neg hgo, hsend, beq_iff_eq.mpr hown, true_and]

/-! ### Modules (R272) -/
section
variable {s u v : State} {j m lanes : Nat}

theorem State.crcWindow_up {x : JoistLink} (hup : s.linkState j = 2) (hx : x = s.joistLink j) :
    s.crcWindow j = (s.setJoistLink j { x with crc := [], waiting := x.waiting ++ (x.crc.filter (fun e => s.fld Reg.JST_LINK_CFG [j] F.JST_LINK_CFG_THRESH < e.2 &&
      some e.1 != x.retraining && !x.waiting.contains e.1)).map (·.1) }).nextRetrain j := by
  subst hx
  rw [State.crcWindow, if_neg (not_not_intro hup)]

/-- A module that retrained joins its link again, with the lanes it repaired counted. -/
theorem State.retrainEnd_ok (hm : (s.joistLink j).retraining = some m) (hu : u = s.setJoistLink j { s.joistLink j with retraining := none })
    (hv : v = u.when (decide (0 < lanes)) (fun s => s.bump Reg.JST_LINK_STAT [j] F.JST_LINK_STAT_REPAIRED lanes)) :
    s.retrainEnd j true lanes = (v.setModules j (u.fld Reg.JST_LINK_STAT [j] F.JST_LINK_STAT_MODULES ||| 2 ^ m)).nextRetrain j := by
  subst hu hv
  simp only [State.retrainEnd, hm, if_true]

end

/-! ### Silence, lost dies and rejoining (R275-R278) -/
section
variable {s u v : State} {j d r : Nat}

/-- A link that falls silent notes the die; the die is lost once every link of it that is up is silent. -/
theorem State.linkSilence_notes (hup : s.linkState j = 2) (hend : (farEnd j d).isSome = true) (hnew : d ∉ (s.joistLink j).silent)
    (hu : u = s.setJoistLink j { s.joistLink j with silent := d :: (s.joistLink j).silent }) :
    s.linkSilence j d false =
      if (List.range 8).all (fun k => (farEnd k d).isNone || u.linkState k != 2 || (u.joistLink k).silent.contains d) then u.dieLost d 1 else u := by
  subst hu
  have hready : ¬ (s.linkState j ≠ 2 ∨ (farEnd j d).isNone = true) := by
    cases hfar : farEnd j d with
    | none => rw [hfar] at hend; cases hend
    | some e => simp [hup]
  have hset : s.keepPilot (s.setJoistLink j { s.joistLink j with silent := d :: (s.joistLink j).silent }) =
      s.setJoistLink j { s.joistLink j with silent := d :: (s.joistLink j).silent } := rfl
  simp only [State.linkSilence, hready, List.contains_eq_mem, hnew, decide_false, hset, Bool.false_eq_true, if_false]

theorem State.dieLost_compute {cause : Nat} (hd : d < 4) : s.dieLost d cause = s.keepPilot (s.loseDie d cause) := if_neg (Nat.not_le.mpr hd)
theorem State.dieLost_io {cause : Nat} (hd : 4 ≤ d) : s.dieLost d cause = s.pilotReset d := if_pos hd

theorem State.rejoin_begins {w : Writer} (hman : isManager w = true) (hquad : s.quadrant = true) (hfenced : s.dieState d = 3)
    (hc : cool (s.fld Reg.PWR_DIE_STAT [d] F.PWR_DIE_STAT_TC) = true) (hu : cool (s.fld Reg.PWR_DIE_STAT [d] F.PWR_DIE_STAT_TU) = true) :
    s.rejoin w d = (s.wrote Reg.JST_DIE_CMD [] (1 + 16 * d)).setDieState d 4 := by
  rw [State.rejoin, State.asManager_of_manager _ hman]
  simp only [hquad, hfenced, hc, hu, ne_eq, not_true_eq_false, or_self, if_false]

theorem State.rejoinEnd_failed {x : Bringup} (hback : s.dieState d = 4) (hbad : x.dies.getLsbD d = false) : s.rejoinEnd x d = s.setDieState d 3 := by
  simp [State.rejoinEnd, hback, hbad]

/-- A die that passes self test is back: its links, the routes, its LOST bit, its clusters in state 0. -/
theorem State.rejoinEnd_back {x : Bringup} {lost : Nat} (hback : s.dieState d = 4) (hdie : x.dies.getLsbD d = true) (hunder : x.undercrofts.getLsbD d = true)
    (hu : u = (s.resetClocks d).bringDie x d) (hv : v = ((List.range 8).foldl (fun s j => s.relink x d j) u).installRoutes)
    (hlost : lost = v.fld Reg.LRD_COH_STAT [] F.LRD_COH_STAT_LOST) :
    s.rejoinEnd x d = (List.range 16).foldl (fun s k => s.setFld Reg.PWR_CL [16 * d + k] F.PWR_CL_STATE 0)
      (v.setFld Reg.LRD_COH_STAT [] F.LRD_COH_STAT_LOST (if lost.testBit d then lost - 2 ^ d else lost)) := by
  subst hu hv hlost
  simp only [State.rejoinEnd, hback, hdie, hunder, ne_eq, and_self, not_true_eq_false, if_false]

end

theorem exec_joistFlitReceive (k : Fin 16) (m : Fin 24) (f : BitVec 2048) (s : State) :
    exec (.joistFlitReceive k m f) s = .next (s.keepPilot (s.joistFlit k m f)) := rfl
theorem exec_joistAckTimeout (k : Fin 16) (s : State) : exec (.joistAckTimeout k) s = .next (s.keepPilot (s.joistTimeout k)) := rfl
theorem exec_joistMessageSend (d : Fin 6) (who : Agent) (m : JoistMsg) (s : State) :
    exec (.joistMessageSend d who m) s = .next (s.keepPilot (s.joistSend d who m)) := rfl
theorem exec_moduleCrcWindow (j : LinkId) (s : State) : exec (.moduleCrcWindow j) s = .next (s.keepPilot (s.crcWindow j)) := rfl
theorem exec_moduleRetrainEnd (j : LinkId) (ok : Bool) (lanes : Fin 9) (s : State) :
    exec (.moduleRetrainEnd j ok lanes) s = .next (s.keepPilot (s.retrainEnd j ok lanes)) := rfl
theorem exec_linkSilence (j : LinkId) (d : Fin 6) (late : Bool) (s : State) : exec (.linkSilence j d late) s = .next (s.linkSilence j d late) := rfl
theorem exec_supplyMonitorTrip (r : Fin 12) (s : State) : exec (.supplyMonitorTrip r) s = .next (s.supplyTrip r) := rfl
theorem exec_rejoin (w : Writer) (d : DieId) (s : State) : exec (.rejoin w d) s = .next (s.keepPilot (s.rejoin w d)) := rfl
theorem exec_rejoinEnd (d : DieId) (x : Bringup) (s : State) : exec (.rejoinEnd d x) s = .next (s.keepPilot (s.rejoinEnd x d)) := rfl

end Sys2Proof.Machine

namespace Sys2Proof.Proofs
open Sys2Proof Sys2Proof.Machine

/-- Settles O27: each row takes the message of its type, and serves it by where its address lies. -/
theorem joistMessages : Obligations.JoistMessages := by
  refine ⟨?read, ?write, ?outside, ?increment, ?written, ?readDone, ?dataDone, ?register, ?event⟩
  case read =>
    intro d k s u m c off n hat htype hplace hn hbacked hlen
    rw [exec_prd, State.joistTake_one _ hat htype, State.takePrd_pantry hplace hn hbacked hlen, (hat.samePilot.trans (State.joistReply_samePilot _ _ _)).keepPilot, hat.pantryNat]
    obtain ⟨-, rfl⟩ := hat
    rfl
  case write =>
    intro d k s u m c off n hat htype hplace hn hbacked hlen
    rw [exec_pwr, State.joistTake_one _ hat htype, State.takePwr_pantry hplace hn hbacked hlen]
  case outside =>
    intro d k s u m hat htype hplace
    rw [exec_prd, State.joistTake_one _ hat htype, State.takePrd_outside hplace]
  case increment =>
    intro d k s u m hat htype hagent
    rw [exec_tinc, State.joistTake_one _ hat htype, State.takeTinc, if_neg (Nat.not_le.mpr hagent)]
  case written =>
    intro d k s u m hat htype
    rw [exec_pcmp, State.joistTake_one _ hat htype]
  case readDone =>
    intro d k s u m hat htype
    rw [exec_pdat, State.joistTake_one _ hat htype]
  case dataDone =>
    intro d k s u m hat htype
    rw [exec_cmpd, State.joistTake_one _ hat htype]
  case register =>
    intro d k s u m hat htype
    rw [exec_gcmp, State.joistTake_one _ hat htype, State.takeGcmp]
  case event =>
    intro d k s u m hat htype
    rw [exec_sevt, State.joistTake_one _ hat htype, hat.samePilot.keepPilot]

/-- Settles O28: flits by their CRC, a send by its route and credits, a link's silence by whether the die's other links have fallen silent, and a die by what it passes. -/
theorem joistLinks : Obligations.JoistLinks := by
  refine ⟨?bad, ?good, ?timeout, ?send, ?window, ?retrained, ?silent, ?silentAll, ?compute, ?io, ?rejoin, ?failed, ?back⟩
  case bad =>
    rintro k m f s _ j hj hup hmod hcrc rfl
    rw [exec_joistFlitReceive, State.joistFlit_bad hj hup hmod hcrc rfl]
    rfl
  case good =>
    intro k m f s t u j back hj hup hmod hcrc ht hback hu
    rw [exec_joistFlitReceive, State.joistFlit_good hj hup hmod hcrc ht hback hu]
    rfl
  case timeout =>
    intro k s hbuf
    rw [exec_joistAckTimeout, State.joistTimeout_fails hbuf]
  case send =>
    intro d who m s u j ch back w b hlegal hslots haway hown hroute hch hopen hroom hback hsend hu
    rw [exec_joistMessageSend, State.joistSend_sends hlegal hslots haway hown hroute hch hopen hroom hback hsend hu, hu]
    split
    · rfl
    · rfl
  case window =>
    intro j s x hup hx
    rw [exec_moduleCrcWindow, State.crcWindow_up hup hx]
  case retrained =>
    intro j lanes s u v m hm hu hv
    rw [exec_moduleRetrainEnd, State.retrainEnd_ok hm hu hv]
  case silent =>
    intro j d s u hup hend hnew hu hothers
    rw [exec_linkSilence, State.linkSilence_notes hup hend hnew hu, hothers, if_neg Bool.false_ne_true]
  case silentAll =>
    intro j d s u hup hend hnew hu hothers hd
    rw [exec_linkSilence, State.linkSilence_notes hup hend hnew hu, hothers, if_pos rfl, State.dieLost_compute hd]
  case compute =>
    intro r s hr
    rw [exec_supplyMonitorTrip, State.supplyTrip, if_pos hr, State.dieLost_compute hr]
  case io =>
    intro r s hr
    rw [exec_supplyMonitorTrip, State.supplyTrip, if_neg (by omega), if_neg (by omega), if_pos (by omega), State.dieLost_io (by omega)]
  case rejoin =>
    intro w d s hman hquad hfenced hc hu
    rw [exec_rejoin, State.rejoin_begins hman hquad hfenced hc hu]
  case failed =>
    intro d x s hback hbad
    rw [exec_rejoinEnd, State.rejoinEnd_failed hback hbad]
  case back =>
    intro d x s u v lost hback hdie hunder hu hv hlost
    rw [exec_rejoinEnd, State.rejoinEnd_back hback hdie hunder hu hv hlost]

end Sys2Proof.Proofs
end

section
/-! PROOFS. Chute ports and spans (14_chute_ports_and_spans.md): requests at their destination, completions, forwarding, span management (R290, R291, R294, R295, R298,
R301, R303, R364); blocks, sending, failures, training and commands (R284, R285, R287, R289, R293, R297, R299, R300, R302, R405). -/
namespace Sys2Proof.Machine

/-! ### Taking a delivered message (R291, R298) -/
section
variable {s t u : State} {k p a kind len : Nat} {m : ChuteMsg} {who : Agent}

theorem State.chuteTake_takes {here : Bool} {kinds : List Nat} (f : State → Nat → ChuteMsg → State) (hat : ChuteAt s k p m) (hkind : m.kind ∈ kinds)
    (hhere : (m.ddev == s.spanId) = here) : s.chuteTake k here kinds f = f s p m := by
  rw [ChuteAt] at hat
  simp only [State.chuteTake, hat, List.contains_eq_mem, hkind, hhere, decide_true, and_self, if_true]

/-- The row of one kind takes the `k`-th message, which names this device. -/
theorem State.chuteTake_here (f : State → Nat → ChuteMsg → State) (hat : ChuteAt s k p m) (hdev : m.ddev = s.spanId) (hkind : m.kind = kind) :
    s.chuteTake k true [kind] f = f s p m := State.chuteTake_takes f hat (List.mem_singleton.mpr hkind) (beq_iff_eq.mpr hdev)

theorem State.takeReq_performs (hat : ChuteAt s k p m) (hdev : m.ddev = s.spanId) (hkind : m.kind = kind) :
    s.takeReq k kind = s.chutePerform (.chute p) m (State.dropIn k) := State.chuteTake_here _ hat hdev hkind

/-- A message that names another device is passed on when its TYPE is one of Table CH-5. -/
theorem State.forward_takes {ch : Nat} (hat : ChuteAt s k p m) (hdev : m.ddev ≠ s.spanId) (hch : m.channel = some ch) :
    s.forward k = (let s := s.dropIn k
      if m.channel = some 1 then
        match s.chuteFwd.find? (fun e => e.1 == p && e.2.2.sdev == m.ddev && e.2.2.score == m.score && e.2.2.tag == m.tag) with
        | none => s.bump Reg.CHU_DROP [] F.CHU_DROP_LATE 1
        | some e => ({ s with chuteFwd := s.chuteFwd.erase e }).chutePush m (.chute p) (some e.2.1)
      else
        match s.chutePort (.chute p) m (s.fld Reg.CHU_RSTAT [] F.CHU_RSTAT_ALT) with
        | none => s.unreachable ⟨m, .chute p, none⟩
        | some q => s.chutePush m (.chute p) (some q)) := by
  refine State.chuteTake_takes _ hat ?_ (beq_false_of_ne hdev)
  simp only [ChuteMsg.channel] at hch
  simp only [List.mem_cons, List.not_mem_nil, or_false]
  split at hch
  · omega
  · split at hch
    · omega
    · split at hch
      · omega
      · cases hch

end

/-! ### Requests at their destination (R290, R291, R294, R295) -/
section
variable {s t u : State} {k p a : Nat} {m : ChuteMsg} {who : Agent} {take : State → State}

/-- A write whose checks passed is performed, counted where its kind counts, and completes with status 0. -/
theorem State.chutePerform_write (hcheck : s.chuteCheck m = 0) (hkind : 1 ≤ m.kind ∧ m.kind ≤ 3) (hplace : s.inbound m true (m.len + 1) = some a)
    (hup : s.servedDown a = false) (hwrite : s.homeWrite a (leBytes (m.len + 1) m.data) m.poison = some u) :
    s.chutePerform who m take = (if m.kind = 1 then take u else (take u).chuteCount m (chuteAmount m) 5).chuteFinish who m 0 0 false := by
  have hread : (m.kind != 8) = true := bne_iff_ne.mpr (by omega)
  have htinc : m.kind ≠ 7 := by omega
  have hred : ¬ (4 ≤ m.kind ∧ m.kind ≤ 6) := by omega
  have hrrd : m.kind ≠ 8 := by omega
  unfold State.chutePerform
  simp only [hcheck, htinc, hred, hread, hrrd, if_false, hplace, hup, hwrite, Bool.false_eq_true]

/-- A reduction whose checks passed goes to its line's home. -/
theorem State.chutePerform_red (hcheck : s.chuteCheck m = 0) (hkind : 4 ≤ m.kind ∧ m.kind ≤ 6)
    (hplace : s.inbound { m with addr := m.addr / 128 * 128 } true 128 = some a) (hup : s.servedDown a = false) (hhome : hasHome a = true) :
    s.chutePerform (.chute p) m take = ({ take s with chuteReds := (take s).chuteReds ++ [(s.redTag, (⟨m, .chute p, none⟩ : ChuteItem))] }).arrive
      { kind := .red, who := .chute p, line := a / 128, tag := s.redTag, red := some (chuteRed m), poison := m.poison } := by
  have hread : (m.kind != 8) = true := bne_iff_ne.mpr (by omega)
  have htinc : m.kind ≠ 7 := by omega
  unfold State.chutePerform
  simp only [hcheck, htinc, hkind, hread, and_self, if_true, if_false, hplace, hup, hhome, not_true_eq_false, Bool.false_eq_true]

theorem State.chutePerform_increment (hcheck : s.chuteCheck m = 0) (hkind : m.kind = 7) :
    s.chutePerform who m take = ((take s).chuteCount m (m.addr % 65536) 6).chuteFinish who m 0 0 false := by
  unfold State.chutePerform
  simp only [hcheck, hkind, if_true]

theorem State.chutePerform_read {bs : List Byte} {q : Bool} (hcheck : s.chuteCheck m = 0) (hkind : m.kind = 8) (hplace : s.inbound m false (m.len + 1) = some a)
    (hup : s.servedDown a = false) (hread : s.homeRead a (m.len + 1) = some (u, bs, q)) :
    s.chutePerform who m take = (take u).chuteFinish who m 0 (ofLeBytes bs) q := by
  have hwrite : ((8 : Nat) != 8) = false := rfl
  have hred : ¬ (4 ≤ 8 ∧ 8 ≤ 6) := by omega
  unfold State.chutePerform
  simp only [hcheck, hkind, hwrite, hred, show ¬ (8 : Nat) = 7 by omega, if_true, if_false, hplace, hup, hread, Bool.false_eq_true]

/-- A request of an unused epoch is counted as stale and refused with status 1 (R294). -/
theorem State.chutePerform_stale (hcheck : s.chuteCheck m = 1) :
    s.chutePerform who m take = ((take s).bump Reg.CHU_DROP [] F.CHU_DROP_STALE 1).chuteFinish who m 1 0 false := by
  unfold State.chutePerform
  simp only [hcheck, if_true]

end

/-! ### Completions and span management (R301, R303, R364) -/
section
variable {s t : State} {k p kind : Nat} {m : ChuteMsg} {e : Nat × ChuteMsg × Agent}

/-- A completion meets the request of its port, SCORE and TAG. -/
theorem State.takeRcmp_meets (hat : ChuteAt s k p m) (hdev : m.ddev = s.spanId) (hkind : m.kind = kind)
    (hlive : s.chuteLive.find? (fun e => e.1 == p && e.2.1.score == m.score && e.2.1.tag == m.tag) = some e) :
    s.takeRcmp k kind = ({ s.dropIn k with chuteLive := s.chuteLive.erase e }).chuteDone e.2.2 e.2.1 (if kind = 0x10 then m.len else 0) m.data m.poison := by
  have hlive' : (s.dropIn k).chuteLive.find? (fun e => e.1 == p && e.2.1.score == m.score && e.2.1.tag == m.tag) = some e := hlive
  rw [State.takeRcmp, State.chuteTake_here _ hat hdev hkind]
  simp only [hlive']
  rfl

/-- A completion that meets no request is late (R301). -/
theorem State.takeRcmp_late (hat : ChuteAt s k p m) (hdev : m.ddev = s.spanId) (hkind : m.kind = kind)
    (hnone : s.chuteLive.find? (fun e => e.1 == p && e.2.1.score == m.score && e.2.1.tag == m.tag) = none) :
    s.takeRcmp k kind = (s.dropIn k).bump Reg.CHU_DROP [] F.CHU_DROP_LATE 1 := by
  have hnone' : (s.dropIn k).chuteLive.find? (fun e => e.1 == p && e.2.1.score == m.score && e.2.1.tag == m.tag) = none := hnone
  rw [State.takeRcmp, State.chuteTake_here _ hat hdev hkind]
  simp only [hnone']

theorem State.setFld_samePilot (s : State) (r : RegSpec) (is : List Nat) (f : Fld) (v : Nat) : SamePilot s (s.setFld r is f v) := (State.setFld_same _ _ _ _ _).samePilot
theorem State.wrote_samePilot (s : State) (r : RegSpec) (is : List Nat) (v : Nat) : SamePilot s (s.wrote r is v) := (State.setReg_same _ _ _ _).samePilot
theorem SamePilot.setFld {s t : State} (h : SamePilot s t) (r : RegSpec) (is : List Nat) (f : Fld) (v : Nat) : SamePilot s (t.setFld r is f v) :=
  h.trans (State.setFld_samePilot _ _ _ _ _)
theorem State.setPower_samePilot (s : State) (f : PowerCtl → PowerCtl) : SamePilot s (s.setPower f) := ⟨rfl, rfl⟩
theorem State.dropIn_samePilot (s : State) (k : Nat) : SamePilot s (s.dropIn k) := ⟨rfl, rfl⟩
theorem State.takeCap_samePilot (s : State) (cap : Nat) : SamePilot s (s.takeCap cap) := by
  rw [State.takeCap]
  exact (State.setFld_samePilot _ _ _ _ _).trans (State.setPower_samePilot _ _)

/-- A cap for this device is taken (R364). -/
theorem State.takeSpnPwr_cap (hat : ChuteAt s k p m) (hdev : m.ddev = s.spanId) (hkind : m.kind = 0x18) (hcap : m.data % 256 = 1)
    (hself : m.data / 65536 % 65536 = s.spanId) : s.takeSpnPwr k = (s.dropIn k).takeCap (m.data / 2 ^ 160 % 2 ^ 32) := by
  have hself' : m.data / 65536 % 65536 = (s.dropIn k).spanId := hself
  rw [State.takeSpnPwr, State.chuteTake_here _ hat hdev hkind]
  simp only [Nat.reduceMul, Nat.reducePow, Nat.div_one, hcap, hself', if_true]

end

theorem exec_rtinc (k : Nat) (s : State) : exec (.rtinc k) s = .next (s.keepPilot (s.takeReq k 7)) := rfl
theorem exec_rrd (k : Nat) (s : State) : exec (.rrd k) s = .next (s.keepPilot (s.takeReq k 8)) := rfl
theorem exec_rwr (k : Nat) (s : State) : exec (.rwr k) s = .next (s.keepPilot (s.takeReq k 1)) := rfl
theorem exec_rwrB (k : Nat) (s : State) : exec (.rwrB k) s = .next (s.keepPilot (s.takeReq k 2)) := rfl
theorem exec_rwrP (k : Nat) (s : State) : exec (.rwrP k) s = .next (s.keepPilot (s.takeReq k 3)) := rfl
theorem exec_rred (k : Nat) (s : State) : exec (.rred k) s = .next (s.keepPilot (s.takeReq k 4)) := rfl
theorem exec_rredB (k : Nat) (s : State) : exec (.rredB k) s = .next (s.keepPilot (s.takeReq k 5)) := rfl
theorem exec_rredP (k : Nat) (s : State) : exec (.rredP k) s = .next (s.keepPilot (s.takeReq k 6)) := rfl
theorem exec_rcmp (k : Nat) (s : State) : exec (.rcmp k) s = .next (s.keepPilot (s.takeRcmp k 0x10)) := rfl
theorem exec_rcmpd (k : Nat) (s : State) : exec (.rcmpd k) s = .next (s.keepPilot (s.takeRcmp k 0x11)) := rfl
theorem exec_chuteForward (k : Nat) (s : State) : exec (.chuteForward k) s = .next (s.keepPilot (s.forward k)) := rfl
theorem exec_messageTimeout (k : Nat) (s : State) : exec (.messageTimeout k) s = .next (s.keepPilot (s.messageTimeout k)) := rfl
theorem exec_spnPwr (k : Nat) (s : State) : exec (.spnPwr k) s = .next (s.keepPilot (s.takeSpnPwr k)) := rfl
theorem exec_spnCepoch (k : Nat) (s : State) : exec (.spnCepoch k) s = .next (s.keepPilot (s.takeCepoch k)) := rfl
theorem exec_spnFail (k : Nat) (s : State) : exec (.spnFail k) s = .next (s.keepPilot (s.takeSpnFail k)) := rfl

/-- The rows of Table CH-6 that perform the requests of one kind. -/
theorem exec_request {c : Instr} {k kind : Nat}
    (h : (c, kind) ∈ [(Instr.rwr k, 1), (.rwrB k, 2), (.rwrP k, 3), (.rred k, 4), (.rredB k, 5), (.rredP k, 6), (.rtinc k, 7), (.rrd k, 8)]) (s : State) :
    exec c s = .next (s.keepPilot (s.takeReq k kind)) := by
  simp only [List.mem_cons, Prod.mk.injEq, List.not_mem_nil, or_false] at h
  obtain ⟨rfl, rfl⟩ | ⟨rfl, rfl⟩ | ⟨rfl, rfl⟩ | ⟨rfl, rfl⟩ | ⟨rfl, rfl⟩ | ⟨rfl, rfl⟩ | ⟨rfl, rfl⟩ | ⟨rfl, rfl⟩ := h
  exacts [exec_rwr k s, exec_rwrB k s, exec_rwrP k s, exec_rred k s, exec_rredB k s, exec_rredP k s, exec_rtinc k s, exec_rrd k s]

end Sys2Proof.Machine

namespace Sys2Proof.Proofs
open Sys2Proof Sys2Proof.Machine

/-- Settles O29: a request by its kind and checks, a completion by whether it meets a request, a message in transit by its channel, span management by its kind. -/
theorem chuteMessages : Obligations.ChuteMessages := by
  refine ⟨?write, ?writeBytes, ?writePacket, ?red, ?increment, ?read, ?stale, ?done, ?doneData, ?late, ?forward, ?back, ?timeout, ?cap, ?epoch, ?fail⟩
  case write =>
    intro k s u p a m hat hdev hkind hcheck hplace hup hwrite
    rw [exec_rwr, State.takeReq_performs hat hdev hkind, State.chutePerform_write hcheck (by omega) hplace hup hwrite, if_pos hkind]
  case writeBytes =>
    intro k s u p a m hat hdev hkind hcheck hplace hup hwrite
    rw [exec_rwrB, State.takeReq_performs hat hdev hkind, State.chutePerform_write hcheck (by omega) hplace hup hwrite, if_neg (by omega), chuteAmount, if_pos hkind]
  case writePacket =>
    intro k s u p a m hat hdev hkind hcheck hplace hup hwrite
    rw [exec_rwrP, State.takeReq_performs hat hdev hkind, State.chutePerform_write hcheck (by omega) hplace hup hwrite, if_neg (by omega), chuteAmount, if_neg (by omega),
      if_pos (.inl hkind)]
  case red =>
    rintro c k kind s _ p a m hrow hat hdev hkind hcheck hplace hup hhome rfl
    have hred : 4 ≤ m.kind ∧ m.kind ≤ 6 := by
      simp only [List.mem_cons, Prod.mk.injEq, List.not_mem_nil, or_false] at hrow
      omega
    have hexec := exec_request (List.mem_of_mem_drop (i := 3) (List.mem_of_mem_take (i := 3) hrow)) s
    rw [hexec, State.takeReq_performs hat hdev hkind, State.chutePerform_red hcheck hred hplace hup hhome]
    rfl
  case increment =>
    intro k s p m hat hdev hkind hcheck
    rw [exec_rtinc, State.takeReq_performs hat hdev hkind, State.chutePerform_increment hcheck hkind]
  case read =>
    intro k s u p a m bs q hat hdev hkind hcheck hplace hup hread
    rw [exec_rrd, State.takeReq_performs hat hdev hkind, State.chutePerform_read hcheck hkind hplace hup hread]
  case stale =>
    rintro c k kind s _ p m hrow hat hdev hkind hcheck rfl
    rw [exec_request hrow, State.takeReq_performs hat hdev hkind, State.chutePerform_stale hcheck]
  case done =>
    rintro k s _ p m e hat hdev hkind rfl hlive
    rw [exec_rcmp, State.takeRcmp_meets hat hdev hkind hlive, if_pos rfl]
    rfl
  case doneData =>
    rintro k s _ p m e hat hdev hkind rfl hlive
    rw [exec_rcmpd, State.takeRcmp_meets hat hdev hkind hlive, if_neg (by decide)]
    rfl
  case late =>
    intro c k kind s p m hrow hat hdev hkind hnone
    simp only [List.mem_cons, Prod.mk.injEq, List.not_mem_nil, or_false] at hrow
    obtain ⟨rfl, rfl⟩ | ⟨rfl, rfl⟩ := hrow
    · rw [exec_rcmp, State.takeRcmp_late hat hdev hkind hnone]
      rfl
    · rw [exec_rcmpd, State.takeRcmp_late hat hdev hkind hnone]
      rfl
  case forward =>
    rintro k s _ p q m hat hdev hch rfl hport
    rcases hch with hch | hch
    · rw [exec_chuteForward, State.forward_takes hat hdev hch]
      simp only [hch, hport, Option.some.injEq, show ¬ (0 : Nat) = 1 by omega, if_false]
    · rw [exec_chuteForward, State.forward_takes hat hdev hch]
      simp only [hch, hport, Option.some.injEq, show ¬ (2 : Nat) = 1 by omega, if_false]
  case back =>
    rintro k s _ p m e hat hdev hch rfl hfwd
    have hfwd' : (s.dropIn k).chuteFwd.find? (fun e => e.1 == p && e.2.2.sdev == m.ddev && e.2.2.score == m.score && e.2.2.tag == m.tag) = some e := hfwd
    rw [exec_chuteForward, State.forward_takes hat hdev hch]
    simp only [hch, hfwd', if_true]
  case timeout =>
    intro k s e hlive
    rw [exec_messageTimeout, State.messageTimeout, hlive]
  case cap =>
    rintro k s _ p m hat hdev hkind hcap hself rfl
    rw [exec_spnPwr, State.takeSpnPwr_cap hat hdev hkind hcap hself, ((s.dropIn_samePilot k).trans (State.takeCap_samePilot _ _)).keepPilot]
  case epoch =>
    rintro k s _ p m hat hdev hkind rfl
    rw [exec_spnCepoch, State.takeCepoch, State.chuteTake_here _ hat hdev hkind]
  case fail =>
    intro k s p m hat hdev hkind hmaster
    have hmaster' : (s.dropIn k).fld Reg.CHU_SPAN [] F.CHU_SPAN_MASTER = (s.dropIn k).spanId := hmaster
    rw [exec_spnFail, State.takeSpnFail, State.chuteTake_here _ hat hdev hkind]
    simp only [hmaster', if_true]

end Sys2Proof.Proofs
end

section
/-! PROOFS. Chute ports (14_chute_ports_and_spans.md): blocks, acknowledgements, sending, failures, training and the manager's commands (R284, R285, R287, R289, R293,
R297, R299, R300, R302, R405). -/
namespace Sys2Proof.Machine

/-! ### Blocks and sending (R284, R289, R293) -/

/-- A port that is up counts a block's corrected symbols and the codewords beyond correction (R284). -/
def State.countBlock (s : State) (p corrected bad : Nat) : State :=
  (s.bump Reg.CHU_PORT_FEC [p] F.CHU_PORT_FEC_CORR corrected).bump Reg.CHU_PORT_CNT [p] F.CHU_PORT_CNT_UNCORR bad

section
variable {s u : State} {p : Nat}

theorem State.chuteBlock_bad {corrected bad : Nat} {block : BitVec 30840} (hup : s.portState p = 2) (hbad : 0 < bad) :
    s.chuteBlock p corrected bad block = (s.countBlock p corrected bad).setPorts p ((s.countBlock p corrected bad).portTx p)
      { (s.countBlock p corrected bad).portRx p with naking := true } := by
  rw [State.chuteBlock, if_neg (not_not_intro hup)]
  exact if_pos hbad

/-- Of a block that decodes, every flit is taken. -/
theorem State.chuteBlock_good {corrected : Nat} {block : BitVec 30840} (hup : s.portState p = 2) :
    s.chuteBlock p corrected 0 block =
      (List.range 15).foldl (fun s k => s.chuteFlit p (BitVec.ofNat 2048 (block.toNat >>> (120 + 2048 * k)))) (s.countBlock p corrected 0) := by
  rw [State.chuteBlock, if_neg (not_not_intro hup)]
  rfl

/-- A request goes out on its port with a free tag, when the port is up and has the credits: its bytes are counted, and it waits for its completion. -/
theorem State.sendOn_sends {k t : Nat} {x : ChuteItem} {m : ChuteMsg} {tx rx : Wire} (hreq : isReq x.msg = true) (hwho : ∀ i, x.who ≠ .chute i)
    (hup : s.portState p = 2) (htag : s.freeTag p x.msg.score = some t) (hm : m = { x.msg with tag := t })
    (hroom : (s.portTx p).room chuteKind 0 m.slots.length = true) (hsend : (s.portTx p).sendSlots chuteKind (s.portRx p) 0 m.slots = (tx, rx))
    (hu : u = (({ s with chuteOut := s.chuteOut.eraseIdx k }).setPorts p tx rx).account (s.bayOfCore m.score) Reg.BAY_CHU Reg.BAY_INST_CHU m.bytes) :
    s.sendOn k p x = { u with chuteLive := u.chuteLive ++ [(p, m, x.who)] } := by
  have hch : x.msg.channel = some 0 := beq_iff_eq.mp hreq
  have hch' : m.channel = some 0 := by rw [hm]; exact hch
  subst hu
  have hready : ¬ (s.portState p ≠ 2 ∨ ¬ (s.portTx p).room chuteKind 0 m.slots.length = true) := by simp [hup, hroom]
  unfold State.sendOn
  cases hw : x.who with
  | chute i => exact absurd hw (hwho i)
  | _ =>
    simp only [hreq, Bool.and_self, if_true, htag, ← hm, hready, if_false, hch', Option.getD_some, hsend]
    rfl

theorem State.chuteSend_sends {k : Nat} {x : ChuteItem} (hx : s.chuteOut[k]? = some x) (haway : x.msg.ddev ≠ s.spanId ∨ x.port.isSome)
    (hport : x.port.or (s.chutePort x.who x.msg (s.fld Reg.CHU_RSTAT [] F.CHU_RSTAT_ALT)) = some p) (hup : s.portState p = 2) :
    s.chuteSend k = s.sendOn k p x := by
  have hlocal : ¬ (x.port.isNone = true ∧ x.msg.ddev = s.spanId ∧ isReq x.msg = true) := by
    rintro ⟨hnone, hself, -⟩
    rcases haway with haway | hsome
    · exact haway hself
    · rw [Option.isNone_iff_eq_none.mp hnone] at hsome; cases hsome
  have hdisabled : ¬ (s.portState p = 4 ∧ isReq x.msg = true) := by rw [hup]; omega
  unfold State.chuteSend
  simp only [hx, hlocal, hport, hdisabled, if_false]

end

/-! ### Failures, training and commands (R285, R287, R297, R299, R300, R302) -/
section
variable {s t : State} {p : Nat} {w : Writer}

theorem State.laneLoss_fails {lane v : Nat} (hv : v = s.fld Reg.CHU_PORT_STAT [p] F.CHU_PORT_STAT_LANES) (hlane : v.testBit lane = true) :
    s.laneLoss p lane = (s.setFld Reg.CHU_PORT_STAT [p] F.CHU_PORT_STAT_LANES (v - 2 ^ lane)).portFails p := by
  subst hv
  simp only [State.laneLoss, hlane, if_true]

/-- A port that trains with another device comes up with empty buffers, the partner's ID, all lanes and the lower of the two levels. -/
theorem State.trainingDone_up {peer level : Nat} (htrains : s.portState p = 1) (hen : s.bit Reg.CHU_PORT_CFG [p] F.CHU_PORT_CFG_EN = true) (hpeer : peer ≠ s.spanId)
    (ht : t = ((((s.setPortState p 2).setPorts p {} {}).setFld Reg.CHU_PORT_STAT [p] F.CHU_PORT_STAT_PEER peer).setFld Reg.CHU_PORT_STAT [p] F.CHU_PORT_STAT_LANES 0xFFF)) :
    s.trainingDone p peer level = t.setFld Reg.CHU_PORT_STAT [p] F.CHU_PORT_STAT_LEVEL (min level (t.fld Reg.DEV_FEATURE [] F.DEV_FEATURE_EFFECTIVE)) := by
  subst ht
  simp only [State.trainingDone, htrains, hen, hpeer, ne_eq, not_true_eq_false, or_self, if_false]

/-- A partner with the device's own ID is an event, and the port goes on training (R302). -/
theorem State.trainingDone_self {level : Nat} (htrains : s.portState p = 1) (hen : s.bit Reg.CHU_PORT_CFG [p] F.CHU_PORT_CFG_EN = true) :
    s.trainingDone p s.spanId level = s.chuEvent 1 := by
  simp only [State.trainingDone, htrains, hen, ne_eq, not_true_eq_false, or_self, if_true, if_false]

theorem State.trainingRetry_enabled (htrains : s.portState p = 1) (hen : s.bit Reg.CHU_PORT_CFG [p] F.CHU_PORT_CFG_EN = true) :
    s.trainingRetry p = s.setFld Reg.CHU_PORT_STAT [p] F.CHU_PORT_STAT_LANES 0 := by
  rw [State.trainingRetry, if_neg (not_not_intro htrains), if_pos hen]

theorem State.retrainPort_failed (hman : isManager w = true) (ht : t = s.wrote Reg.CHU_CMD [] (1 + 16 * p)) (hfailed : t.portState p = 3) :
    s.retrainPort w p = (t.setPortState p 1).setFld Reg.CHU_PORT_STAT [p] F.CHU_PORT_STAT_LANES 0 := by
  rw [State.retrainPort, State.asManager_of_manager _ hman, ← ht]
  exact if_pos hfailed

/-- With every failed port up again, no port is failed and the main table is in use (R300). -/
theorem State.restoreRoutes_all (hman : isManager w = true) (ht : t = s.wrote Reg.CHU_CMD [] 2)
    (hup : ∀ p < 8, (t.fld Reg.CHU_RSTAT [] F.CHU_RSTAT_FAILED).testBit p = true → t.portState p = 2) :
    s.restoreRoutes w = (t.setFld Reg.CHU_RSTAT [] F.CHU_RSTAT_FAILED 0).setFld Reg.CHU_RSTAT [] F.CHU_RSTAT_ALT 0 := by
  have hnone : (onesOf 8 (t.fld Reg.CHU_RSTAT [] F.CHU_RSTAT_FAILED)).filter (fun p => t.portState p != 2) = [] := by
    rw [List.filter_eq_nil_iff]
    intro p hp
    obtain ⟨hrange, hset⟩ := List.mem_filter.mp hp
    simp [hup p (List.mem_range.mp hrange) hset]
  rw [State.restoreRoutes, State.asManager_of_manager _ hman]
  simp only [← ht, hnone]
  rfl

theorem State.setTransit_samePilot (s : State) (ts : List RouteTable) : SamePilot s { s with transit := ts } := ⟨rfl, rfl⟩
theorem State.setPorts_samePilot (s : State) (p : Nat) (tx rx : Wire) : SamePilot s (s.setPorts p tx rx) := ⟨rfl, rfl⟩

/-- Nine readable tables are taken as the transit tables. -/
theorem State.xload_loads {bs : List (Byte × Bool)} (hman : isManager w = true) (ht : t = s.wrote Reg.CHU_CMD [] 3)
    (hbs : bs = (List.range 36864).map (fun i => t.peekByte (t.fld Reg.CHU_XADDR [] F.CHU_XADDR_ADDR * 64 + i)))
    (hbacked : t.storeBacked (t.fld Reg.CHU_XADDR [] F.CHU_XADDR_ADDR * 64) 36864 = true) (hclean : bs.any (·.2) = false) :
    s.xload w = { t with transit := (List.range 9).map (fun i => ⟨i, ((bs.drop (4096 * i)).take 4096).map (·.1)⟩) } := by
  rw [State.xload, State.asManager_of_manager _ hman]
  simp only [← ht, hbacked, ← hbs, hclean, not_true_eq_false, Bool.false_eq_true, or_self, if_false]

/-- With EN clear, a write of CHU_SPAN takes EN, ID and MASTER. -/
theorem State.spanWrite_off {v : DWord} (hman : isManager w = true) (hoff : s.bit Reg.CHU_SPAN [] F.CHU_SPAN_EN = false)
    (ht : t = s.setFld Reg.CHU_SPAN [] F.CHU_SPAN_EN (fieldOf v F.CHU_SPAN_EN.hi F.CHU_SPAN_EN.lo)) :
    s.spanWrite w v = (t.setFld Reg.CHU_SPAN [] F.CHU_SPAN_ID (fieldOf v F.CHU_SPAN_ID.hi F.CHU_SPAN_ID.lo)).setFld Reg.CHU_SPAN [] F.CHU_SPAN_MASTER
      (fieldOf v F.CHU_SPAN_MASTER.hi F.CHU_SPAN_MASTER.lo) := by
  rw [State.spanWrite, State.asManager_of_manager _ hman]
  simp only [hoff, ← ht, Bool.false_eq_true, if_false]

end

theorem exec_chuteBlockReceive (p : PortId) (corrected : Nat) (bad : Fin 7) (block : BitVec 30840) (s : State) :
    exec (.chuteBlockReceive p corrected bad block) s = .next (s.keepPilot (s.chuteBlock p corrected bad block)) := rfl
theorem exec_chuteAckInterval (p : PortId) (s : State) : exec (.chuteAckInterval p) s = .next (s.keepPilot (s.ackInterval p)) := rfl
theorem exec_chuteMessageSend (k : Nat) (s : State) : exec (.chuteMessageSend k) s = .next (s.keepPilot (s.chuteSend k)) := rfl
theorem exec_chuteAckTimeout (p : PortId) (s : State) :
    exec (.chuteAckTimeout p) s = .next (s.keepPilot (if (s.portTx p).buf.isEmpty then s else s.portFails p)) := rfl
theorem exec_laneLockLoss (p : PortId) (lane : Fin 12) (s : State) : exec (.laneLockLoss p lane) s = .next (s.keepPilot (s.laneLoss p lane)) := rfl
theorem exec_chuteTrainingDone (p : PortId) (peer : Fin 2048) (level : Fin 256) (s : State) :
    exec (.chuteTrainingDone p peer level) s = .next (s.keepPilot (s.trainingDone p peer level)) := rfl
theorem exec_chuteTrainingRetry (p : PortId) (s : State) : exec (.chuteTrainingRetry p) s = .next (s.keepPilot (s.trainingRetry p)) := rfl
theorem exec_retrain (w : Writer) (p : PortId) (s : State) : exec (.retrain w p) s = .next (s.keepPilot (s.retrainPort w p)) := rfl
theorem exec_restoreRoutes (w : Writer) (s : State) : exec (.restoreRoutes w) s = .next (s.keepPilot (s.restoreRoutes w)) := rfl
theorem exec_xload (w : Writer) (s : State) : exec (.xload w) s = .next (s.keepPilot (s.xload w)) := rfl
theorem exec_spanEnable (w : Writer) (v : DWord) (s : State) : exec (.spanEnable w v) s = .next (s.keepPilot (s.spanWrite w v)) := rfl
theorem exec_inboundChuteRetrainRequest (p : PortId) (s : State) : exec (.inboundChuteRetrainRequest p) s = .next (s.wakeOff id) := rfl

end Sys2Proof.Machine

namespace Sys2Proof.Proofs
open Sys2Proof Sys2Proof.Machine

/-- Settles O30: a block by its codewords, a request by its route and credits, a port by its state, a command of the manager by what it finds. -/
theorem chutePorts : Obligations.ChutePorts := by
  refine ⟨?bad, ?good, ?ack, ?send, ?timeout, ?lane, ?trained, ?self, ?retry, ?retrain, ?restore, ?xload, ?span, ?wake⟩
  case bad =>
    rintro p corrected bad block s _ hup hbad rfl
    rw [exec_chuteBlockReceive, State.chuteBlock_bad hup hbad]
    rfl
  case good =>
    rintro p corrected block s _ hup rfl
    rw [exec_chuteBlockReceive]
    exact congrArg (fun t => Host.Outcome.next (s.keepPilot t)) (State.chuteBlock_good hup)
  case ack =>
    intro p s
    rw [exec_chuteAckInterval, State.ackInterval]
    rfl
  case send =>
    intro k s u p t x m tx rx hx haway hreq hwho hport hup htag hm hroom hsend hu
    rw [exec_chuteMessageSend, State.chuteSend_sends hx haway hport hup, State.sendOn_sends hreq hwho hup htag hm hroom hsend hu]
  case timeout =>
    intro p s hbuf
    rw [exec_chuteAckTimeout, if_neg (by simpa using hbuf)]
  case lane =>
    intro p lane s v hv hlane hup
    rw [exec_laneLockLoss, State.laneLoss_fails hv hlane]
  case trained =>
    rintro p peer level s _ htrains hen hpeer rfl
    rw [exec_chuteTrainingDone, State.trainingDone_up htrains hen hpeer rfl, SamePilot.keepPilot]
    exact ((((State.setFld_samePilot _ _ _ _ _).trans (State.setPorts_samePilot _ _ _ _)).setFld _ _ _ _).setFld _ _ _ _).setFld _ _ _ _
  case self =>
    intro p peer level s htrains hen hpeer
    rw [exec_chuteTrainingDone, hpeer, State.trainingDone_self htrains hen]
  case retry =>
    intro p s htrains hen
    rw [exec_chuteTrainingRetry, State.trainingRetry_enabled htrains hen, State.keepPilot_setFld]
  case retrain =>
    rintro w p s _ hman rfl hfailed
    rw [exec_retrain, State.retrainPort_failed hman rfl hfailed, SamePilot.keepPilot]
    exact ((State.wrote_samePilot _ _ _ _).setFld _ _ _ _).setFld _ _ _ _
  case restore =>
    rintro w s _ hman rfl hup
    rw [exec_restoreRoutes, State.restoreRoutes_all hman rfl hup, SamePilot.keepPilot]
    exact ((State.wrote_samePilot _ _ _ _).setFld _ _ _ _).setFld _ _ _ _
  case xload =>
    intro w s t bs hman ht hbs hbacked hclean
    have hsame : SamePilot s t := ht ▸ State.wrote_samePilot _ _ _ _
    rw [exec_xload, State.xload_loads hman ht hbs hbacked hclean, (hsame.trans (State.setTransit_samePilot _ _)).keepPilot]
  case span =>
    rintro w v s _ hman hoff rfl
    rw [exec_spanEnable, State.spanWrite_off hman hoff rfl, SamePilot.keepPilot]
    exact ((State.setFld_samePilot _ _ _ _ _).setFld _ _ _ _).setFld _ _ _ _
  case wake =>
    intro p s hmode
    rw [exec_inboundChuteRetrainRequest, State.wakeOff_off _ hmode, State.setPilot]

end Sys2Proof.Proofs
end

section
/-! PROOFS. The host port (15_host_port.md): configuration and memory requests (R307-R309, R315, R317-R319, R321), the device's own requests and interrupts (R312-R316),
functions and the link (R307, R317-R320). -/
namespace Sys2Proof.Machine

/-! ### Configuration requests (R308, R309, R318) -/
section
variable {s : State} {f : InstId} {op : CfgOp}

/-- The first configuration request that completes successfully makes the start succeed, and a readiness message tells of it. -/
theorem State.configRequest_first (hup : s.hostUp = true) (hphase : s.pilot.phase = 2)
    (hfn : f.val = 0 ∨ s.vfOn = true ∧ s.vfReady = true ∧ s.inBoxroom = false) :
    s.configRequest f op = s.startSucceeds.keepPilot ((s.startSucceeds.configAct f op).reply { who := .fn 0, tag := tagDrs }) := by
  have hready : s.pilot.phase = 2 ∧ (f.val = 0 ∨ s.vfOn = true ∧ s.vfReady = true ∧ ¬ s.inBoxroom = true) := ⟨hphase, by simpa using hfn⟩
  rw [State.configRequest, if_neg (not_not_intro hup), if_pos hready]

theorem State.configRequest_acts (hup : s.hostUp = true) (hphase : s.pilot.phase = 3)
    (hfn : f.val = 0 ∨ s.vfOn = true ∧ s.vfReady = true ∧ s.inBoxroom = false) : s.configRequest f op = s.keepPilot (s.configAct f op) := by
  have hpast : ¬ (s.pilot.phase = 2 ∧ (f.val = 0 ∨ s.vfOn = true ∧ s.vfReady = true ∧ ¬ s.inBoxroom = true)) := by rw [hphase]; omega
  have hwaits : ¬ (s.pilot.phase < 2 ∨ f.val ≠ 0 ∧ s.vfOn = true ∧ ¬ s.vfReady = true) := by
    rw [hphase]
    rcases hfn with h0 | ⟨-, hready, -⟩
    · omega
    · simp [hready]
  have hserved : ¬ (f.val ≠ 0 ∧ (¬ s.vfOn = true ∨ s.inBoxroom = true)) := by
    rcases hfn with h0 | ⟨hon, -, hroom⟩
    · exact fun h => h.1 h0
    · simp [hon, hroom]
  rw [State.configRequest, if_neg (not_not_intro hup), if_neg hpast, if_neg hwaits, if_neg hserved]

/-- Before the firmware runs, a configuration request is to be retried. -/
theorem State.configRequest_early (hup : s.hostUp = true) (hphase : s.pilot.phase < 2) :
    s.configRequest f op = s.keepPilot (s.reply { who := .fn f, status := stRrs }) := by
  rw [State.configRequest, if_neg (not_not_intro hup), if_neg (by omega), if_pos (.inl hphase)]

end

/-! ### Memory requests (R307-R309, R319, R321) -/
section
variable {s : State} {f : InstId} {ide peer : Bool} {bar : Fin 6} {off n : Nat} {bs : List Byte}

/-- What a function that serves requests has passed of the checks of a request. -/
theorem Serves.passes (h : Serves s f ide) : s.hostUp = true ∧ ¬ s.pilot.phase < 3 ∧ ¬ (f ≠ 0 ∧ (s.inBoxroom = true ∨ ¬ s.vfOn = true ∨ ¬ s.vfReady = true)) ∧
    ¬ (f ≠ 0 ∧ s.fld Reg.HST_TDI_STAT [f.val] F.HST_TDI_STAT_STATE = 2 ∧ ¬ ide = true) ∧ s.power.d3hot = false := by
  obtain ⟨hup, hphase, hd3, hfn⟩ := h
  refine ⟨hup, by omega, ?_, ?_, hd3⟩
  · rintro ⟨hne, hno⟩
    rcases hfn with h0 | ⟨hroom, hon, hready, -⟩
    · exact hne (Fin.ext h0)
    · simp [hroom, hon, hready] at hno
  · rintro ⟨hne, hlocked, hide⟩
    rcases hfn with h0 | ⟨-, -, -, hopen | hopen⟩
    · exact hne (Fin.ext h0)
    · exact hopen hlocked
    · exact hide hopen

/-- BAR0 alone is open in Boxroom mode. -/
theorem bar_open (hbar : bar.val = 0 ∨ s.inBoxroom = false) : ¬ (bar.val ≠ 0 ∧ s.inBoxroom = true) := by
  rintro ⟨hne, hroom⟩
  rcases hbar with h0 | hopen
  · exact hne h0
  · rw [hopen] at hroom; cases hroom

theorem State.hostRequest_read (h : Serves s f ide) (hbar : bar.val = 0 ∨ s.inBoxroom = false) (hsome : 0 < n) (hfits : off + n ≤ s.barBytes f bar) :
    s.hostRequest f bar off (.read n) peer ide = s.hostAdmit { fn := f.val, bar := bar, addr := off, len := n, write := none, poison := false, peer := peer } := by
  obtain ⟨hup, hphase, hfn, htdi, hd3⟩ := h.passes
  have hok : ¬ (HostOp.read n = .atomic ∨ s.power.d3hot = true ∨ s.barBytes f bar < off + n ∨ n = 0) := by
    simp only [reduceCtorEq, hd3, Bool.false_eq_true, false_or]; omega
  rw [State.hostRequest, if_neg (not_not_intro hup)]
  simp only [hphase, hfn, htdi, hok, bar_open hbar, if_false]
  rfl

theorem State.hostRequest_write (h : Serves s f ide) (hbar : bar.val = 0 ∨ s.inBoxroom = false) (hsome : bs ≠ []) (hfits : off + bs.length ≤ s.barBytes f bar) :
    s.hostRequest f bar off (.write bs false) peer ide =
      s.hostAdmit { fn := f.val, bar := bar, addr := off, len := bs.length, write := some bs, poison := false, peer := peer } := by
  obtain ⟨hup, hphase, hfn, htdi, hd3⟩ := h.passes
  have hok : ¬ (HostOp.write bs false = .atomic ∨ s.power.d3hot = true ∨ s.barBytes f bar < off + bs.length ∨ bs.length = 0) := by
    have hlen := List.length_pos_iff.mpr hsome
    simp only [reduceCtorEq, hd3, Bool.false_eq_true, false_or]; omega
  rw [State.hostRequest, if_neg (not_not_intro hup)]
  simp only [hphase, hfn, htdi, hok, bar_open hbar, if_false]
  rfl

/-- A read past the end of its BAR is an Unsupported Request. -/
theorem State.hostRequest_readOutside (h : Serves s f ide) (hout : s.barBytes f bar < off + n) :
    s.hostRequest f bar off (.read n) peer ide = s.keepPilot (s.reply { who := .fn (Fin.ofNat 33 f.val), status := stUr, len := n }) := by
  obtain ⟨hup, hphase, hfn, htdi, hd3⟩ := h.passes
  rw [State.hostRequest, if_neg (not_not_intro hup)]
  simp only [hphase, hfn, htdi, hout, true_or, or_true, if_true, if_false]
  rfl

/-- An atomic is an Unsupported Request. -/
theorem State.hostRequest_atomic (h : Serves s f ide) :
    s.hostRequest f bar off .atomic peer ide = s.keepPilot (s.reply { who := .fn (Fin.ofNat 33 f.val), status := stUr, len := 8 }) := by
  obtain ⟨hup, hphase, hfn, htdi, hd3⟩ := h.passes
  rw [State.hostRequest, if_neg (not_not_intro hup)]
  simp only [hphase, hfn, htdi, true_or, if_true, if_false]
  rfl

end

theorem State.reply_samePilot (s : State) (r : Reply) : SamePilot s (s.reply r) := ⟨rfl, rfl⟩

/-- An inbound read that waited too long is answered with Completer Abort, and a record tells of it (R317). -/
theorem State.abortInbound_read {s : State} {k : Nat} {r : HostIn} (hr : s.hostIn[k]? = some r) (hread : r.write = none) :
    s.abortInbound k = ({ s with hostIn := s.hostIn.eraseIdx k }.reply { who := .fn (Fin.ofNat 33 r.fn), status := stCa, len := r.len }).logHost r.fn r.addr := by
  simp only [State.abortInbound, hr, hread, Option.isSome_none, Bool.false_eq_true, if_false]

theorem exec_configRequest (f : InstId) (op : CfgOp) (s : State) : exec (.configRequest f op) s = .next (s.configRequest f op) := rfl
theorem exec_hostRequest (f : InstId) (bar : Fin 6) (off : Nat) (op : HostOp) (peer ide : Bool) (s : State) :
    exec (.hostRequest f bar off op peer ide) s = .next (s.hostRequest f bar off op peer ide) := rfl
theorem exec_completerAbortTimeout (k : Nat) (s : State) : exec (.completerAbortTimeout k) s = .next (s.keepPilot (s.abortInbound k)) := rfl

end Sys2Proof.Machine

namespace Sys2Proof.Proofs
open Sys2Proof Sys2Proof.Machine

/-- Settles O36: a configuration request by the Pilot's phase, a memory request of a function that serves them by its kind and whether it lies in its BAR. -/
theorem hostRequests : Obligations.HostRequests := by
  refine ⟨?completes, ?acts, ?early, ?read, ?write, ?outside, ?atomic, ?abort⟩
  case completes =>
    rintro f op s _ hup hphase hfn rfl
    rw [exec_configRequest, State.configRequest_first hup hphase hfn]
  case acts =>
    intro f op s hup hphase hfn
    rw [exec_configRequest, State.configRequest_acts hup hphase hfn]
  case early =>
    intro f op s hup hphase
    rw [exec_configRequest, State.configRequest_early hup hphase, (State.reply_samePilot _ _).keepPilot]
  case read =>
    intro f bar off n peer ide s h hbar hsome hfits
    rw [exec_hostRequest, State.hostRequest_read h hbar hsome hfits]
  case write =>
    intro f bar off bs peer ide s h hbar hsome hfits
    rw [exec_hostRequest, State.hostRequest_write h hbar hsome hfits]
  case outside =>
    intro f bar off n peer ide s h hout
    rw [exec_hostRequest, State.hostRequest_readOutside h hout, (State.reply_samePilot _ _).keepPilot]
  case atomic =>
    intro f bar off peer ide s h
    rw [exec_hostRequest, State.hostRequest_atomic h, (State.reply_samePilot _ _).keepPilot]
  case abort =>
    rintro k r s _ hr hread rfl
    rw [exec_completerAbortTimeout, State.abortInbound_read hr hread]

end Sys2Proof.Proofs
end

section
/-! PROOFS. The host port (15_host_port.md): the device's own requests and its interrupts (R312-R316), its functions and the link (R307, R317-R320). -/
namespace Sys2Proof.Machine

/-! ### The device's own requests (R312, R315, R316) -/
section
variable {s t : State} {tag : Nat} {status : Fin 3} {data : Nat} {poison : Bool} {r : HostReq} {size : Fin 64}

theorem State.hostCompletion_answered (hr : s.issued tag = some r) :
    s.hostCompletion tag 0 data poison = (s.dropReq r).answerReq r true (data % 2 ^ (8 * r.len)) poison := by
  simp only [State.hostCompletion, hr, if_true]

theorem State.hostCompletion_failed (hr : s.issued tag = some r) (hbad : status ≠ 0) : s.hostCompletion tag status data poison = s.failReq r := by
  simp only [State.hostCompletion, hr, hbad, if_false]

theorem State.hostCompletion_late (hr : s.issued tag = none) : s.hostCompletion tag status data poison = s.bump Reg.HST_ERR [] F.HST_ERR_LATE 1 := by
  simp only [State.hostCompletion, hr]

theorem State.completionTimeout_failed (hr : s.hostOut.find? (fun r => r.tag == tag) = some r) :
    s.completionTimeout tag = (s.bump Reg.HST_ERR [] F.HST_ERR_CTO 1).failReq r := by
  simp only [State.completionTimeout, hr]

/-- The read that waited for its translation is issued. -/
theorem State.atsTranslation_read {k : Nat} (hr : s.hostOut.find? (fun r => r.tag == tag && r.waits) = some r) (hread : r.write = none)
    (hk : k = max 12 (min 30 size.val)) (ht : t = s.atcPut (r.fn, k, r.addr / 2 ^ k)) :
    s.atsTranslation tag true size = { t with hostOut := t.hostOut.map (fun q => if q = r then { r with waits := false } else q) } := by
  subst hk ht
  simp only [State.atsTranslation, hr, hread, not_true, if_false]

theorem State.atsTranslation_failed (hr : s.hostOut.find? (fun r => r.tag == tag && r.waits) = some r) : s.atsTranslation tag false size = s.failReq r := by
  simp only [State.atsTranslation, hr, Bool.false_eq_true, not_false_iff, if_true]

end

/-! ### Answers in a row -/

/-- A state with the answers to a list of things: they are posted one after another. -/
theorem State.foldl_reply {α : Type} (g : α → Reply) (l : List α) (s : State) :
    l.foldl (fun s e => s.reply (g e)) s = { s with replies := (l.map g).reverse ++ s.replies } := by
  induction l generalizing s with
  | nil => rfl
  | cons e l ih => rw [List.foldl_cons, ih]; simp [State.reply]

/-- Completing invalidations posts answers and shortens their list. -/
theorem State.settleInval_eq (s : State) : s.settleInval =
    { s with atsInval := s.atsInval.filter (fun e => !e.2.isEmpty),
             replies := ((s.atsInval.filter (fun e => e.2.isEmpty)).map (fun e => ({ who := .fn (Fin.ofNat 33 e.1), tag := tagInval } : Reply))).reverse ++ s.replies } := by
  rw [State.settleInval, State.foldl_reply]

/-! ### Invalidations and vectors (R313, R316) -/

/-- An entry of the translation cache and a range of `2 ^ size` bytes share a byte. -/
def atcOverlaps (f size page : Nat) (e : Nat × Nat × Nat) : Prop :=
  e.1 = f ∧ e.2.2 * 2 ^ e.2.1 < (page + 1) * 2 ^ size ∧ page * 2 ^ size < (e.2.2 + 1) * 2 ^ e.2.1

theorem State.atsInvalidate_drops {s : State} (f : InstId) (size : Fin 64) (page : Nat) (hup : s.hostUp = true) (hroom : s.atsInval.length < 32) :
    (∀ e ∈ (s.atsInvalidate f size page).atc, e ∈ s.atc ∧ ¬ atcOverlaps f.val size.val page e) ∧ (s.atsInvalidate f size page).hostOut = s.hostOut ∧
      (s.atsInvalidate f size page).mem = s.mem ∧ (s.atsInvalidate f size page).regs = s.regs := by
  rw [State.atsInvalidate, if_neg (by simp [hup, hroom]), State.settleInval_eq]
  refine ⟨fun e he => ?_, rfl, rfl, rfl⟩
  obtain ⟨hmem, hmiss⟩ := List.mem_filter.mp he
  refine ⟨hmem, fun ⟨hf, hlo, hhi⟩ => ?_⟩
  rw [Nat.add_mul, Nat.one_mul] at hlo
  simp [hf, hlo, hhi] at hmiss

theorem State.setMask_sends {s : State} {f v : Nat} (hpend : s.msixPend.get false (vecKey f v) = true) (hup : s.hostUp = true) :
    s.setMask f v false = { s with msixOpen := s.msixOpen.set false (vecKey f v) true, msixPend := s.msixPend.set false (vecKey f v) false, msixSent := (f, v) :: s.msixSent } := by
  have hopen : ((s.msixOpen.set false (vecKey f v) true).get false (vecKey f v) = true) := Tbl.get_set_self _ _ _ _
  have hsends : { s with msixOpen := s.msixOpen.set false (vecKey f v) true }.hostUp = true := hup
  rw [State.setMask, State.sendPending, if_pos ⟨hopen, hpend, hsends⟩]
  rfl

/-! ### Functions and the link (R307, R317-R320) -/

theorem State.vfReadyNow_tells {s : State} (hon : s.vfOn = true) (hnew : s.vfReady = false) :
    s.vfReadyNow = { s with vfReady := true, replies := ((List.range 32).map (fun k => ({ who := .fn (Fin.ofNat 33 (k + 1)), tag := tagFrs } : Reply))).reverse ++ s.replies } := by
  rw [State.vfReadyNow, if_pos ⟨hon, by simp [hnew]⟩, State.foldl_reply]

theorem State.vfClear_quiesces {s : State} (hup : s.hostUp = true) (hon : s.vfOn = true) :
    s.vfClear = (List.range 32).foldl (fun s k => s.quiesceNow (k + 1)) { s with vfOn := false, vfReady := false, flr := s.flr.map (fun e => (e.1, 2)) } :=
  if_pos ⟨hup, hon⟩

theorem State.hostLinkDown_up {s t : State} (hup : s.hostUp = true) (ht : t = s.hostOut.foldl (fun s r => s.failReq r) (s.setReg Reg.HST_LINK_STAT [] 0)) :
    s.hostLinkDown = { t with hostIn := t.hostIn.filter (fun r => r.write.isSome) } := by
  subst ht
  rw [State.hostLinkDown, if_neg (not_not_intro hup)]
  rfl

/-- The link's status after training: rate, width, flit mode, up. -/
def State.linkTrained (s : State) (speed width : Nat) : State :=
  (((s.setFld Reg.HST_LINK_STAT [] F.HST_LINK_STAT_SPEED speed).setFld Reg.HST_LINK_STAT [] F.HST_LINK_STAT_WIDTH width).setFld Reg.HST_LINK_STAT [] F.HST_LINK_STAT_FLIT
    (if 6 ≤ speed then 1 else 0)).setFld Reg.HST_LINK_STAT [] F.HST_LINK_STAT_UP 1

section
variable {s : State} {speed : Fin 8} {width : Fin 33}

theorem State.linkTrained_msixPend (s : State) (v w : Nat) : (s.linkTrained v w).msixPend = s.msixPend := by
  rw [State.linkTrained, State.setFld_msixPend, State.setFld_msixPend, State.setFld_msixPend, State.setFld_msixPend]
theorem State.linkTrained_mem (s : State) (v w : Nat) : (s.linkTrained v w).mem = s.mem := by
  rw [State.linkTrained, State.setFld_mem, State.setFld_mem, State.setFld_mem, State.setFld_mem]
theorem State.linkTrained_hostOut (s : State) (v w : Nat) : (s.linkTrained v w).hostOut = s.hostOut := by
  rw [State.linkTrained, State.setFld_hostOut, State.setFld_hostOut, State.setFld_hostOut, State.setFld_hostOut]

/-- With no vector pending, training sets the link's status and nothing else. -/
theorem State.hostLinkTrain_idle (hphase : 2 ≤ s.pilot.phase) (hspeed : speed ≠ 0) (hwidth : width ≠ 0) (hnone : s.msixPend = []) :
    s.hostLinkTrain speed width =
      s.linkTrained (if s.inBoxroom then 1 else min speed.val (s.fld Reg.HST_LINK_CFG [] F.HST_LINK_CFG_MAX_SPEED)) (if s.inBoxroom then 1 else trainWidth width.val) := by
  have htrains : ¬ (s.pilot.phase < 2 ∨ speed = 0 ∨ width = 0) := by simp [hspeed, hwidth, Nat.not_lt.mpr hphase]
  have hpend (v w : Nat) : (s.linkTrained v w).msixPend = [] := (State.linkTrained_msixPend s v w).trans hnone
  rw [State.hostLinkTrain, if_neg htrains]
  exact (congrArg (List.foldl (fun (s : State) (e : Nat × Bool) => s.sendPending (e.1 / 2048) (e.1 % 2048)) _) (hpend _ _)).trans List.foldl_nil

theorem State.linkTrained_hostUp (s : State) (v w : Nat) : (s.linkTrained v w).hostUp = true := by
  rw [State.linkTrained, State.hostUp, State.bit, State.fld_setFld_self _ _ _ _ _ (by decide) (by decide)]
  rfl

theorem State.linkTrained_samePilot (s : State) (v w : Nat) : SamePilot s (s.linkTrained v w) :=
  (((State.setFld_samePilot _ _ _ _ _).setFld _ _ _ _).setFld _ _ _ _).setFld _ _ _ _

theorem State.linkTrained_speed (s : State) (v w : Nat) : (s.linkTrained v w).fld Reg.HST_LINK_STAT [] F.HST_LINK_STAT_SPEED = v % 2 ^ 3 := by
  rw [State.linkTrained, State.fld_setFld_other _ _ _ _ _ _ (by decide) (by decide), State.fld_setFld_other _ _ _ _ _ _ (by decide) (by decide),
    State.fld_setFld_other _ _ _ _ _ _ (by decide) (by decide), State.fld_setFld_self _ _ _ _ _ (by decide) (by decide)]
  rfl

theorem State.linkTrained_width (s : State) (v w : Nat) : (s.linkTrained v w).fld Reg.HST_LINK_STAT [] F.HST_LINK_STAT_WIDTH = w % 2 ^ 6 := by
  rw [State.linkTrained, State.fld_setFld_other _ _ _ _ _ _ (by decide) (by decide), State.fld_setFld_other _ _ _ _ _ _ (by decide) (by decide),
    State.fld_setFld_self _ _ _ _ _ (by decide) (by decide)]
  rfl

theorem trainWidth_le (w : Nat) : trainWidth w ≤ 16 := by
  unfold trainWidth
  split_ifs <;> omega

end

theorem exec_hostCompletion (tag : Nat) (status : Fin 3) (data : Nat) (poison : Bool) (s : State) :
    exec (.hostCompletion tag status data poison) s = .next (s.keepPilot (s.hostCompletion tag status data poison)) := rfl
theorem exec_completionTimeout (tag : Nat) (s : State) : exec (.completionTimeout tag) s = .next (s.keepPilot (s.completionTimeout tag)) := rfl
theorem exec_atsTranslation (tag : Nat) (ok : Bool) (size : Fin 64) (s : State) : exec (.atsTranslation tag ok size) s = .next (s.keepPilot (s.atsTranslation tag ok size)) := rfl
theorem exec_atsInvalidate (f : InstId) (size : Fin 64) (page : Nat) (s : State) : exec (.atsInvalidate f size page) s = .next (s.keepPilot (s.atsInvalidate f size page)) := rfl
theorem exec_msixUnmask (f : InstId) (v : Fin 256) (s : State) : exec (.msixUnmask f v) s = .next (s.keepPilot (s.msixUnmask f v)) := rfl
theorem exec_f0Flr (x : Bringup) (s : State) : exec (.f0Flr x) s = .next (if s.hostUp then s.warmRestart x else s) := rfl
theorem exec_vfEnableSet (s : State) :
    exec .vfEnableSet s = .next (s.keepPilot (if s.hostUp ∧ s.pilot.phase = 3 ∧ ¬ s.vfOn ∧ ¬ s.inBoxroom then { s with vfOn := true, vfReady := false } else s)) := rfl
theorem exec_vfReady (s : State) : exec .vfReady s = .next (s.keepPilot s.vfReadyNow) := rfl
theorem exec_vfEnableClear (s : State) : exec .vfEnableClear s = .next (s.keepPilot s.vfClear) := rfl
theorem exec_hostLinkDown (s : State) : exec .hostLinkDown s = .next (s.keepPilot s.hostLinkDown) := rfl
theorem exec_hostLinkTrain (speed : Fin 8) (width : Fin 33) (s : State) : exec (.hostLinkTrain speed width) s = .next (s.keepPilot (s.hostLinkTrain speed width)) := rfl

end Sys2Proof.Machine

namespace Sys2Proof.Proofs
open Sys2Proof Sys2Proof.Machine

/-- Settles O37: each event of the host port by the state it finds, the answers of one event as a list. -/
theorem hostTraffic : Obligations.HostTraffic := by
  refine ⟨?answered, ?failed, ?late, ?timeout, ?translated, ?untranslated, ?invalidate, ?unmask, ?reset, ?enable, ?ready, ?clear, ?down, ?train, ?trainBoxroom⟩
  case answered =>
    intro tag data poison r s hr
    rw [exec_hostCompletion, State.hostCompletion_answered hr]
  case failed =>
    intro tag status data poison r s hr hbad
    rw [exec_hostCompletion, State.hostCompletion_failed hr hbad]
  case late =>
    intro tag status data poison s hr
    rw [exec_hostCompletion, State.hostCompletion_late hr, (State.bump_same _ _ _ _ _).samePilot.keepPilot]
  case timeout =>
    intro tag r s hr
    rw [exec_completionTimeout, State.completionTimeout_failed hr]
  case translated =>
    intro tag size r s t k hr hread hk ht
    rw [exec_atsTranslation, State.atsTranslation_read hr hread hk ht]
  case untranslated =>
    intro tag size r s hr
    rw [exec_atsTranslation, State.atsTranslation_failed hr]
  case invalidate =>
    intro f size page s hup hroom
    exact ⟨_, exec_atsInvalidate f size page s, State.atsInvalidate_drops f size page hup hroom⟩
  case unmask =>
    intro f v s hv hpend hup
    refine ⟨_, exec_msixUnmask f v s, ?_⟩
    rw [State.msixUnmask, if_pos hv, State.setMask_sends hpend hup]
    simp
  case reset =>
    intro x s hup
    rw [exec_f0Flr, if_pos hup]
  case enable =>
    intro s hup hphase hoff hroom
    rw [exec_vfEnableSet, if_pos ⟨hup, hphase, by simp [hoff], by simp [hroom]⟩]
    rfl
  case ready =>
    intro s hon hnew
    refine ⟨_, exec_vfReady s, ?_⟩
    rw [State.vfReadyNow_tells hon hnew]
    exact ⟨rfl, by simp [Nat.add_comm], rfl, rfl⟩
  case clear =>
    intro s hup hon
    rw [exec_vfEnableClear, State.vfClear_quiesces hup hon]
  case down =>
    intro s t hup ht
    rw [exec_hostLinkDown, State.hostLinkDown_up hup ht]
  case train =>
    intro speed width s hphase hspeed hwidth hroom hnone
    refine ⟨_, exec_hostLinkTrain speed width s, ?_⟩
    rw [State.hostLinkTrain_idle hphase hspeed hwidth hnone, hroom, if_neg Bool.false_ne_true, if_neg Bool.false_ne_true,
      (State.linkTrained_samePilot _ _ _).keepPilot]
    have hrate : min speed.val (s.fld Reg.HST_LINK_CFG [] F.HST_LINK_CFG_MAX_SPEED) < 2 ^ 3 := (Nat.min_le_left _ _).trans_lt speed.isLt
    have hlanes : trainWidth width.val < 2 ^ 6 := (trainWidth_le _).trans_lt (by decide)
    exact ⟨State.linkTrained_hostUp _ _ _, (State.linkTrained_speed _ _ _).trans (Nat.mod_eq_of_lt hrate), (State.linkTrained_width _ _ _).trans (Nat.mod_eq_of_lt hlanes),
      State.linkTrained_mem _ _ _, State.linkTrained_hostOut _ _ _⟩
  case trainBoxroom =>
    intro speed width s hphase hspeed hwidth hroom hnone
    refine ⟨_, exec_hostLinkTrain speed width s, ?_⟩
    rw [State.hostLinkTrain_idle hphase hspeed hwidth hnone, hroom, if_pos rfl, if_pos rfl, (State.linkTrained_samePilot _ _ _).keepPilot,
      State.linkTrained_speed, State.linkTrained_width]
    exact ⟨rfl, rfl⟩

end Sys2Proof.Proofs
end

section
/-! PROOFS. The Cellar interface (16_cellar_interface.md): its channels (R327-R332) and the commands of its manager (R331, R333, R335, R336). -/
namespace Sys2Proof.Machine

/-! ### Reads and write-backs (R327-R329) -/
section
variable {l : Nat} {s u v : State}

/-- A read whose first try passes counts no retry. -/
theorem State.cellarRead_clean (hline : s.isCellarLine l = true) (hlacks : s.larderLine l = none) (hfill : s.fill l none = some u)
    (hup : u.packageFailed (u.channelOf l / 4) = false) :
    s.cellarRead l 0 false = u.bump Reg.CEL_CH_CNT [u.channelOf l] F.CEL_CH_CNT_RETRY 0 := by
  have hreads : ¬ (¬ s.isCellarLine l = true ∨ (s.larderLine l).isSome = true) := by simp [hline, hlacks]
  rw [State.cellarRead, if_neg hreads]
  simp only [hfill, hup, Bool.false_eq_true, if_false]
  rfl

/-- A read that passes at the third try, with correction. -/
theorem State.cellarRead_corrected (hline : s.isCellarLine l = true) (hlacks : s.larderLine l = none) (hfill : s.fill l none = some u)
    (hup : u.packageFailed (u.channelOf l / 4) = false)
    (hv : v = (u.setFld Reg.CEL_EVT [] F.CEL_EVT_RETRY 1).bump Reg.CEL_CH_CNT [u.channelOf l] F.CEL_CH_CNT_RETRY 2) :
    s.cellarRead l 2 true = (v.bump Reg.CEL_CH_CNT [u.channelOf l] F.CEL_CH_CNT_CORR 1).log { kind := 0x0E, index := u.channelOf l, cls := .corrected, address := 128 * l } := by
  have hreads : ¬ (¬ s.isCellarLine l = true ∨ (s.larderLine l).isSome = true) := by simp [hline, hlacks]
  have hsome : ((2 : Fin 5) != 0) = true := by decide
  have hcount : min 3 (2 : Fin 5).val = 2 := by decide
  have hfew : decide (3 ≤ (2 : Fin 5).val) = false := by decide
  have hlast : ¬ (2 : Fin 5) = 4 := by decide
  rw [State.cellarRead, if_neg hreads]
  simp only [hfill, hup, hsome, hcount, hfew, hlast, State.when, Bool.false_eq_true, if_true, if_false, hv]

/-- A dirty line is written back and stays, clean. -/
theorem State.cellarWrite_dirty {x : LarderLine} (hline : s.isCellarLine l = true) (hwaits : s.cellarWaits l = false) (hbusy : s.lineBusy l = false)
    (hx : s.larderLine l = some x) (hlive : x.dead = false) (hdirty : x.st = 2) :
    s.cellarWrite l = { s.cellarPut l x.data false x.poison with larder := s.larder.set none l (some { x with st := 1 }) } := by
  have hwrites : ¬ (¬ s.isCellarLine l = true ∨ s.cellarWaits l = true ∨ s.lineBusy l = true) := by simp [hline, hwaits, hbusy]
  rw [State.cellarWrite, if_neg hwrites]
  simp only [hx, hlive, hdirty, Bool.false_eq_true, if_true, if_false]

theorem State.cellarRefresh_up {c : Nat} {temp : Byte} (hup : s.chanState c = 2 ∨ s.chanState c = 3) :
    s.cellarRefresh c temp = s.setFld Reg.CEL_CH_STAT [c] F.CEL_CH_STAT_TEMP temp.toNat := if_pos hup

end

/-! ### Retraining (R331, R332) -/
section
variable {c : Nat} {s t : State}

theorem State.retrainTurn_opens (hcellar : s.hasCellar = true) (hidle : s.bit Reg.CEL_STAT [] F.CEL_STAT_RETRAINING = false) (hfold : s.cellarCtl.fold = none)
    (hturn : s.turnChannel = some c)
    (ht : t = { s with cellarCtl := if s.cellarCtl.asked.contains c then { s.cellarCtl with asked := s.cellarCtl.asked.erase c } else { s.cellarCtl with turn := (c + 1) % 32 } }) :
    s.retrainTurn = ((t.setFld Reg.CEL_STAT [] F.CEL_STAT_RETRAINING 1).setFld Reg.CEL_STAT [] F.CEL_STAT_RETRAIN_CH c).setChanState c 3 := by
  have hopens : ¬ (¬ s.hasCellar = true ∨ s.bit Reg.CEL_STAT [] F.CEL_STAT_RETRAINING = true ∨ s.cellarCtl.fold.isSome = true) := by simp [hcellar, hidle, hfold]
  subst ht
  rw [State.retrainTurn, if_neg hopens]
  simp only [hturn]

theorem State.windowEnd_passed (hopen : s.bit Reg.CEL_STAT [] F.CEL_STAT_RETRAINING = true) (hc : c = s.fld Reg.CEL_STAT [] F.CEL_STAT_RETRAIN_CH)
    (ht : t = { s with cellarCtl := { s.cellarCtl with fails := s.cellarCtl.fails.set 0 c 0 } }) :
    s.windowEnd true = (t.setFld Reg.CEL_STAT [] F.CEL_STAT_RETRAINING 0).setChanState c 2 := by
  have hnone : ¬ 3 ≤ 0 := by decide
  rw [State.windowEnd, if_neg (not_not_intro hopen)]
  simp only [if_true, hnone, if_false, hc, ht]

/-- The third training in a row that fails. -/
theorem State.windowEnd_third (hopen : s.bit Reg.CEL_STAT [] F.CEL_STAT_RETRAINING = true) (hc : c = s.fld Reg.CEL_STAT [] F.CEL_STAT_RETRAIN_CH)
    (htwo : s.cellarCtl.fails.get 0 c = 2) (ht : t = { s with cellarCtl := { s.cellarCtl with fails := s.cellarCtl.fails.set 0 c 3 } }) :
    s.windowEnd false = ((t.setFld Reg.CEL_STAT [] F.CEL_STAT_RETRAINING 0).setChanState c 2).channelFails c := by
  subst hc
  have hthree : 3 ≤ 2 + 1 := by decide
  rw [State.windowEnd, if_neg (not_not_intro hopen)]
  simp only [htwo, Bool.false_eq_true, if_false, hthree, if_true, ht]

end

theorem exec_cellarRead (line : Nat) (bad : Fin 5) (fixed : Bool) (s : State) : exec (.cellarRead line bad fixed) s = .next (s.keepPilot (s.cellarRead line bad fixed)) := rfl
theorem exec_cellarWrite (line : Nat) (s : State) : exec (.cellarWrite line) s = .next (s.keepPilot (s.cellarWrite line)) := rfl
theorem exec_cellarRefresh (c : ChanId) (temp : Byte) (s : State) : exec (.cellarRefresh c temp) s = .next (s.keepPilot (s.cellarRefresh c temp)) := rfl
theorem exec_cellarRetrainTurn (s : State) : exec .cellarRetrainTurn s = .next (s.keepPilot s.retrainTurn) := rfl
theorem exec_retrainWindowEnd (ok : Bool) (s : State) : exec (.retrainWindowEnd ok) s = .next (s.keepPilot (s.windowEnd ok)) := rfl

/-! ### Commands (R331, R333, R335, R336) -/
section
variable {s t u : State} {w : Writer} {off : Nat} (f : State → State)

/-- A command of the manager runs when there is a Cellar and no command runs. -/
theorem State.cellarCmd_ready (h : CellarReady s w) : s.cellarCmd w off f = f s := by
  obtain ⟨hman, hcellar, hidle⟩ := h
  rw [State.cellarCmd, State.asManager_of_manager _ hman, if_neg (not_not_intro hcellar), if_neg (by simp [hidle])]

theorem State.cellarCmd_absent (hman : isManager w = true) (hnone : s.hasCellar = false) : s.cellarCmd w off f = s.cellarRefuse w off causeState 4 := by
  rw [State.cellarCmd, State.asManager_of_manager _ hman, if_pos (by simp [hnone])]

theorem State.cellarCmd_busy (hman : isManager w = true) (hcellar : s.hasCellar = true) (hbusy : s.bit Reg.CEL_STAT [] F.CEL_STAT_BUSY = true) :
    s.cellarCmd w off f = s.cellarRefuse w off causeBusy 5 := by
  rw [State.cellarCmd, State.asManager_of_manager _ hman, if_neg (not_not_intro hcellar), if_pos hbusy]

theorem State.foldCmd_begins {p : Nat} (h : CellarReady s w) (hcode : s.foldCode p = 0) (hu : u = (s.wrote Reg.CEL_CMD [] (1 + 256 * p)).flushAll) :
    s.foldCmd w p = { (u.setFld Reg.CEL_STAT [] F.CEL_STAT_STATE 3).setFld Reg.CEL_STAT [] F.CEL_STAT_BUSY 1 with cellarCtl := { u.cellarCtl with fold := some p } } := by
  subst hu
  rw [State.foldCmd, State.cellarCmd_ready _ h]
  simp only [hcode]

/-- A fold completes with no other package failed. -/
theorem State.foldEnd_alone {p : Nat} (hfold : s.cellarCtl.fold = some p) (hothers : ∀ q < 8, q ≠ p → s.packageFailed q = false)
    (ht : t = (s.foldCellar p (s.fld Reg.CEL_CAP [] F.CEL_CAP_PKG_GIB) (s.fld Reg.DEV_INV_DIE [] F.DEV_INV_DIE_CELLAR_PKG)).setFld Reg.CEL_STAT [] F.CEL_STAT_BUSY 0) :
    s.foldEnd = { t.setFld Reg.CEL_STAT [] F.CEL_STAT_STATE 2 with cellarCtl := { t.cellarCtl with dead := false } } := by
  have hnone : ((List.range 8).any fun q => q != p && s.packageFailed q) = false := by simpa using hothers
  subst ht
  simp only [State.foldEnd, hfold, hnone, Bool.false_eq_true, if_false]

theorem State.keyCmd_runs {v : Nat} {ok : State → Bool} (h : CellarReady s w) (hok : ok s = true) :
    s.keyCmd w v ok f = f (s.wrote Reg.CEL_KEY_CMD [] v) := by
  rw [State.keyCmd, State.cellarCmd_ready _ h, if_pos hok]

end

theorem exec_cellarRetrainCmd (w : Writer) (c : ChanId) (s : State) : exec (.cellarRetrainCmd w c) s = .next (s.keepPilot (s.cellarRetrain w c)) := rfl
theorem exec_fold (w : Writer) (p : Fin 8) (s : State) : exec (.fold w p) s = .next (s.keepPilot (s.foldCmd w p)) := rfl
theorem exec_foldEnd (s : State) : exec .foldEnd s = .next (s.keepPilot s.foldEnd) := rfl
theorem exec_assign (w : Writer) (block : Fin 262144) (i : Fin 64) (s : State) : exec (.assign w block i) s = .next (s.keepPilot (s.assignKey w block i)) := rfl
theorem exec_keyClear (w : Writer) (block : Fin 262144) (s : State) : exec (.keyClear w block) s = .next (s.keepPilot (s.clearKey w block)) := rfl
theorem exec_rekey (w : Writer) (i : Fin 64) (s : State) : exec (.rekey w i) s = .next (s.keepPilot (s.rekeyInst w i)) := rfl

/-- The key map's tables are not among the Pilot's fields. -/
theorem SamePilot.withKeys {s t : State} (h : SamePilot s t) (owner : Tbl (Option Nat)) (gen : Tbl Nat) : SamePilot s { t with keyOwner := owner, keyGen := gen } := h

end Sys2Proof.Machine

namespace Sys2Proof.Proofs
open Sys2Proof Sys2Proof.Machine

/-- Settles O38: a read by the tries that fail, a write-back of a dirty line, a refresh, and a retraining window from its opening to its end. -/
theorem cellarChannels : Obligations.CellarChannels := by
  refine ⟨?clean, ?corrected, ?write, ?refresh, ?turn, ?passed, ?third⟩
  case clean =>
    intro l s u hline hlacks hfill hup
    rw [exec_cellarRead, State.cellarRead_clean hline hlacks hfill hup]
  case corrected =>
    intro l s u v hline hlacks hfill hup hv
    rw [exec_cellarRead, State.cellarRead_corrected hline hlacks hfill hup hv]
  case write =>
    intro l s x hline hwaits hbusy hx hlive hdirty
    rw [exec_cellarWrite, State.cellarWrite_dirty hline hwaits hbusy hx hlive hdirty]
  case refresh =>
    intro c temp s hup
    rw [exec_cellarRefresh, State.cellarRefresh_up hup, State.keepPilot_setFld]
  case turn =>
    intro c s t hcellar hidle hfold hturn ht
    have hsame : SamePilot s t := by rw [ht]; exact ⟨rfl, rfl⟩
    rw [exec_cellarRetrainTurn, State.retrainTurn_opens hcellar hidle hfold hturn ht]
    exact congrArg _ (((hsame.setFld _ _ _ _).setFld _ _ _ _).setFld _ _ _ _).keepPilot
  case passed =>
    intro c s t hopen hc ht
    have hsame : SamePilot s t := by rw [ht]; exact ⟨rfl, rfl⟩
    rw [exec_retrainWindowEnd, State.windowEnd_passed hopen hc ht]
    exact congrArg _ ((hsame.setFld _ _ _ _).setFld _ _ _ _).keepPilot
  case third =>
    intro c s t hopen hc htwo ht
    rw [exec_retrainWindowEnd, State.windowEnd_third hopen hc htwo ht]

/-- Settles O39: a command of the manager runs with a Cellar and no command running, and is refused in that order. -/
theorem cellarCommands : Obligations.CellarCommands := by
  refine ⟨?retrain, ?fold, ?folded, ?assign, ?clear, ?rekey, ?absent, ?busy⟩
  case retrain =>
    intro w c s h
    rw [exec_cellarRetrainCmd, State.cellarRetrain, State.cellarCmd_ready _ h]
  case fold =>
    intro w p s u h hcode hu
    rw [exec_fold, State.foldCmd_begins h hcode hu]
  case folded =>
    intro p s t hfold hothers ht
    rw [exec_foldEnd, State.foldEnd_alone hfold hothers ht]
  case assign =>
    rintro w block i s _ h hblock hi rfl
    rw [exec_assign, State.assignKey, State.keyCmd_runs _ h (by simp [hblock, hi])]
    exact congrArg _ ((State.wrote_samePilot _ _ _ _).withKeys _ _).keepPilot
  case clear =>
    rintro w block s _ h hblock rfl
    rw [exec_keyClear, State.clearKey, State.keyCmd_runs _ h hblock]
    exact congrArg _ ((State.wrote_samePilot _ _ _ _).withKeys _ _).keepPilot
  case rekey =>
    rintro w i s _ h hi rfl
    rw [exec_rekey, State.rekeyInst, State.keyCmd_runs _ h (by simp [hi])]
    exact congrArg _ ((State.wrote_samePilot _ _ _ _).withKeys _ _).keepPilot
  case absent =>
    intro w p s hman hnone
    rw [exec_fold, State.foldCmd, State.cellarCmd_absent _ hman hnone]
  case busy =>
    intro w p s hman hcellar hbusy
    rw [exec_fold, State.foldCmd, State.cellarCmd_busy _ hman hcellar hbusy]

end Sys2Proof.Proofs
end

section
/-! PROOFS. Clocks (17_clocks.md): the reference watch, PLLs, source switches, the spread's period (R339, R341-R348). -/
namespace Sys2Proof.Machine

/-! ### The reference watch (R339) -/

theorem State.refCheck_bad {s : State} {n : Nat} (hmode : s.power.mode ≠ 2) (hbad : n < 10000 ∨ 16000 < n) :
    s.refCheck n = (s.keepPilot ((s.setFld Reg.CLK_REF [] F.CLK_REF_REF_OK 0).setFld Reg.CLK_EVT [] F.CLK_EVT_REF_BAD 1)).pilotReset 0 := by
  have hwatched : ¬ (s.power.mode = 2 ∨ 10000 ≤ n ∧ n ≤ 16000) := by
    rintro (h | ⟨hlo, hhi⟩)
    · exact hmode h
    · omega
  rw [State.refCheck, if_neg hwatched]

/-! ### Writes of a field -/

/-- A register value with a field of `v`. -/
def putField (v x : DWord) (f : Fld) : DWord := withField x f.hi f.lo (fieldOf v f.hi f.lo)

theorem takeField_ok {old v : DWord} {f : Fld} {ok : Nat → Bool} (h : ok (fieldOf v f.hi f.lo) = true) : takeField old v f ok = putField v old f := if_pos h

/-! ### PLLs (R341-R343) -/
section
variable {s t : State} {u p : Nat} {v new : DWord}

theorem State.setReady_samePilot (s : State) (u p : Nat) (on : Bool) : SamePilot s (s.setReady u p on) :=
  (State.setFld_samePilot _ _ _ _ _).trans (State.setReg_same _ _ _ _).samePilot

/-- A write of a PLL that no domain uses, with no reserved encoding, restarts it. -/
theorem State.pllWrite_starts (hp : p < pllCount u) (hfree : p ∉ selected u (s.reg Reg.CLK_SEL [u])) (hlo : 560 ≤ fieldOf v F.CLK_PLL_FBDIV.hi F.CLK_PLL_FBDIV.lo)
    (hhi : fieldOf v F.CLK_PLL_FBDIV.hi F.CLK_PLL_FBDIV.lo ≤ 1120) (hpost : fieldOf v F.CLK_PLL_POSTDIV.hi F.CLK_PLL_POSTDIV.lo ≠ 0)
    (hnew : new = [F.CLK_PLL_FRAC, F.CLK_PLL_POSTDIV, F.CLK_PLL_FBDIV, F.CLK_PLL_EN].foldl (putField v) (s.reg Reg.CLK_PLL [u, p]))
    (ht : t = (s.setReg Reg.CLK_PLL [u, p] new).setReady u p false) :
    s.pllWrite .storekeeper u p v =
      { t with clocks := { t.clocks with started := t.clocks.started.set none (8 * u + p) (if bitAt new F.CLK_PLL_EN.lo then some (t.reg Reg.CLK_REFCNT [u]).toNat else none) } } := by
  have hfb : (decide (560 ≤ fieldOf v F.CLK_PLL_FBDIV.hi F.CLK_PLL_FBDIV.lo) && decide (fieldOf v F.CLK_PLL_FBDIV.hi F.CLK_PLL_FBDIV.lo ≤ 1120)) = true := by simp [hlo, hhi]
  have hpd : (fieldOf v F.CLK_PLL_POSTDIV.hi F.CLK_PLL_POSTDIV.lo != 0) = true := bne_iff_ne.mpr hpost
  have hpd' : (fieldOf v F.CLK_PLL_POSTDIV.hi F.CLK_PLL_POSTDIV.lo == 0) = false := beq_eq_false_iff_ne.mpr hpost
  have hfree' : (selected u (s.reg Reg.CLK_SEL [u])).contains p = false := by simpa using hfree
  have htakes : takeField (takeField (takeField (takeField (s.reg Reg.CLK_PLL [u, p]) v F.CLK_PLL_FRAC fun _ => true) v F.CLK_PLL_POSTDIV fun n => n != 0) v F.CLK_PLL_FBDIV
      fun n => decide (560 ≤ n) && decide (n ≤ 1120)) v F.CLK_PLL_EN (fun _ => true) = new := by
    rw [hnew, takeField_ok rfl, takeField_ok hfb, takeField_ok hpd, takeField_ok rfl]
    rfl
  subst ht
  unfold State.pllWrite
  simp only [ne_eq, not_true, if_false, Nat.not_le.mpr hp, htakes, hfb, hpd', hfree', State.when, Bool.not_true, Bool.or_self, Bool.false_eq_true]

/-- A PLL reads READY 4,096 reference cycles after its start. -/
theorem State.pllStarted_ready {c : Nat} (hc : s.clocks.started.get none (8 * u + p) = some c) (hlong : 4096 ≤ ((s.reg Reg.CLK_REFCNT [u]).toNat + 2 ^ 64 - c) % 2 ^ 64) :
    s.pllStarted u p = { s.setReady u p true with clocks := { s.clocks with started := s.clocks.started.set none (8 * u + p) none } } := by
  simp only [State.pllStarted, hc, Nat.not_lt.mpr hlong, if_false]

end

/-! ### Source switches (R344, R345) -/
section
variable {s : State} {u : Nat} {v : DWord}

/-- CLK_SELu with the fields of `v`. -/
def selValue (s : State) (u : Nat) (v : DWord) : DWord := (selFields u).foldl (fun x f => putField v x f.1) (s.reg Reg.CLK_SEL [u])

theorem State.selWrite_other {w : Writer} (hw : w ≠ .storekeeper) : s.selWrite w u v = s.refuse w (Reg.CLK_SEL.addr [u]) causeActor := if_pos hw

/-- What a write of CLK_SELu by the Storekeeper with no reserved encoding does. -/
theorem State.selWrite_legal (hlegal : ∀ f ∈ selFields u, fieldOf v f.1.hi f.1.lo < f.2) :
    s.selWrite .storekeeper u v =
      if (selected u (selValue s u v)).any (fun p => !s.pllReady u p) then s.clockRefuse u 1 (Reg.CLK_SEL.addr [u])
      else if s.bit Reg.CLK_STAT [u] F.CLK_STAT_SWITCHING then s.clockRefuse u 3 (Reg.CLK_SEL.addr [u])
      else if selValue s u v = s.reg Reg.CLK_SEL [u] then s
      else (s.setReg Reg.CLK_SEL [u] (selValue s u v)).setFld Reg.CLK_STAT [u] F.CLK_STAT_SWITCHING 1 := by
  have hvalue : (selFields u).foldl (fun x f => takeField x v f.1 (fun n => decide (n < f.2))) (s.reg Reg.CLK_SEL [u]) = selValue s u v :=
    List.foldl_ext _ _ _ fun x f hf => takeField_ok (decide_eq_true (hlegal f hf))
  have hnone : (selFields u).any (fun f => decide (f.2 ≤ fieldOf v f.1.hi f.1.lo)) = false := by simpa using hlegal
  unfold State.selWrite
  simp only [ne_eq, not_true, if_false, hvalue, hnone, State.when, Bool.false_eq_true]

theorem State.selWrite_switches (hlegal : ∀ f ∈ selFields u, fieldOf v f.1.hi f.1.lo < f.2) (hnew : selValue s u v ≠ s.reg Reg.CLK_SEL [u])
    (hready : ∀ p ∈ selected u (selValue s u v), s.pllReady u p = true) (hidle : s.bit Reg.CLK_STAT [u] F.CLK_STAT_SWITCHING = false) :
    s.selWrite .storekeeper u v = (s.setReg Reg.CLK_SEL [u] (selValue s u v)).setFld Reg.CLK_STAT [u] F.CLK_STAT_SWITCHING 1 := by
  have hall : ¬ (selected u (selValue s u v)).any (fun p => !s.pllReady u p) = true := by simpa using hready
  rw [State.selWrite_legal hlegal, if_neg hall, if_neg (by simp [hidle]), if_neg hnew]

/-- A source that is not READY. -/
theorem State.selWrite_unready {p : Nat} (hlegal : ∀ f ∈ selFields u, fieldOf v f.1.hi f.1.lo < f.2) (hp : p ∈ selected u (selValue s u v)) (hoff : s.pllReady u p = false) :
    s.selWrite .storekeeper u v = s.clockRefuse u 1 (Reg.CLK_SEL.addr [u]) := by
  have hsome : (selected u (selValue s u v)).any (fun p => !s.pllReady u p) = true := List.any_eq_true.mpr ⟨p, hp, by simp [hoff]⟩
  rw [State.selWrite_legal hlegal, if_pos hsome]

end

theorem exec_refclkCheck (n : Nat) (s : State) : exec (.refclkCheck n) s = .next (s.refCheck n) := rfl
theorem exec_clkPllWrite (w : Writer) (u : Fin 6) (p : Fin 5) (v : DWord) (s : State) : exec (.clkPllWrite w u p v) s = .next (s.keepPilot (s.pllWrite w u p v)) := rfl
theorem exec_pllReady (u : Fin 6) (p : Fin 5) (s : State) : exec (.pllReady u p) s = .next (s.keepPilot (s.pllStarted u p)) := rfl
theorem exec_clkSelWrite (w : Writer) (u : Fin 6) (v : DWord) (s : State) : exec (.clkSelWrite w u v) s = .next (s.keepPilot (s.selWrite w u v)) := rfl
theorem exec_clockSwitchDone (u : Fin 6) (s : State) : exec (.clockSwitchDone u) s = .next (s.keepPilot (s.setFld Reg.CLK_STAT [u] F.CLK_STAT_SWITCHING 0)) := rfl
theorem exec_sscPeriodStart (u : Fin 6) (s : State) : exec (.sscPeriodStart u) s =
    .next (s.keepPilot { s with clocks := { s.clocks with spread := s.clocks.spread.set (resetOf Reg.CLK_SSC.fields 0) u (s.reg Reg.CLK_SSC [u]) } }) := rfl

end Sys2Proof.Machine

namespace Sys2Proof.Proofs
open Sys2Proof Sys2Proof.Machine

/-- Settles O40: a write by what its fields select, a PLL by the cycles since its start, and the spread's value from its table. -/
theorem clockCommands : Obligations.ClockCommands := by
  refine ⟨?watch, ?pll, ?ready, ?switch, ?done, ?spread, ?other, ?unready⟩
  case watch =>
    intro n s hmode hbad
    rw [exec_refclkCheck, State.refCheck_bad hmode hbad]
  case pll =>
    intro u p v new s t hp hfree hlo hhi hpost hnew ht
    obtain ⟨hpilot, hpending⟩ : SamePilot s t := by rw [ht]; exact (State.setReg_same _ _ _ _).samePilot.trans (State.setReady_samePilot _ _ _ _)
    rw [exec_clkPllWrite, State.pllWrite_starts hp hfree hlo hhi hpost hnew ht]
    exact congrArg _ (SamePilot.keepPilot ⟨hpilot, hpending⟩)
  case ready =>
    rintro u p s _ c hc hlong rfl
    obtain ⟨hpilot, hpending⟩ := State.setReady_samePilot s u p true
    rw [exec_pllReady, State.pllStarted_ready hc hlong]
    exact congrArg _ (SamePilot.keepPilot ⟨hpilot, hpending⟩)
  case switch =>
    rintro u v _ s hlegal rfl hnew hready hidle
    rw [exec_clkSelWrite, State.selWrite_switches hlegal hnew hready hidle]
    exact congrArg _ ((State.setReg_same _ _ _ _).samePilot.setFld _ _ _ _).keepPilot
  case done =>
    intro u s
    rw [exec_clockSwitchDone, State.keepPilot_setFld]
  case spread =>
    intro u s
    exact ⟨_, exec_sscPeriodStart u s, Tbl.get_set_self s.clocks.spread _ _ _, rfl, rfl⟩
  case other =>
    intro w u v s hw
    rw [exec_clkSelWrite, State.selWrite_other hw]
  case unready =>
    intro u v p s hlegal hp hoff
    rw [exec_clkSelWrite, State.selWrite_unready hlegal hp hoff]

end Sys2Proof.Proofs
end

section
/-! PROOFS. Power (18_power_and_thermal.md): cluster sleep and wake, operating points (R357-R361), device power states, telemetry, a span's power period
(R352, R362-R365, R404). -/
namespace Sys2Proof.Machine

/-! ### Sleep and wake (R357, R358) -/
section
variable {s t : State} {g d : Nat}

theorem State.clockGateTimer_gates (hmode : s.power.mode = 0) (hup : s.clusterUp g = true) (hstate : s.clState g = 0) (hauto : s.fld Reg.PWR_CL [g] F.PWR_CL_MODE ≠ 1)
    (hdelay : s.fld Reg.PWR_GATE [] F.PWR_GATE_CG_DELAY_US ≠ 0) (hidle : s.clusterIdle g = true) : s.clockGateTimer g = s.setClState g 1 :=
  if_pos ⟨hmode, hup, hstate, hauto, hdelay, hidle⟩

theorem State.powerGateTimer_gates (hmode : s.power.mode = 0) (hstate : s.clState g = 1) (hauto : s.fld Reg.PWR_CL [g] F.PWR_CL_MODE = 0)
    (hdelay : s.fld Reg.PWR_GATE [] F.PWR_GATE_PG_DELAY_US ≠ 0) (hidle : s.clusterIdle g = true) (hfree : s.holdsWords g = false) :
    s.powerGateTimer g = s.powerGate g (s.bit Reg.PWR_CL [g] F.PWR_CL_RETAIN) :=
  if_pos ⟨hmode, hstate, hauto, hdelay, hidle, by simp [hfree]⟩

theorem State.clusterWake_wakes (hmode : s.power.mode = 0) (hoff : s.clState g = 2) (hreq : s.wakeReq.getLsbD g = true) :
    s.clusterWake g = { s.setClState g 3 with wakeReq := s.wakeReq &&& ~~~ BitVec.ofNat 64 (2 ^ g) } := if_pos ⟨hmode, hoff, hreq⟩

theorem State.wakeDone_powered (hwaking : s.clState g = 3) :
    s.wakeDone g = (s.keepPilot (((s.setClState g 0).setDom (clusterDom g) true).replayAdds g)).replayWrites g := if_neg (not_not_intro hwaking)

/-! ### Operating points (R359-R361) -/

/-- The regulator acknowledges a raise of a die that is not hard-throttled: its clocks follow. -/
theorem State.vregAck_raise {c : PointChange} (hc : s.power.change.get none d = some c) (hraise : c.raising = true)
    (ht : t = (s.endChange d).setFld Reg.PWR_DIE_STAT [d] F.PWR_DIE_STAT_VDD_MV (s.pointVdd c.point)) (hcool : t.bit Reg.PWR_DIE_STAT [d] F.PWR_DIE_STAT_HARD = false) :
    s.vregAck d = (t.setPoint d c.point).setDividers d := by
  subst ht
  simp only [State.vregAck, hc, hraise, hcool, Bool.false_eq_true, not_false_iff, and_self, if_true]

/-- It acknowledges a lowering: the clocks have gone down already. -/
theorem State.vregAck_lower {c : PointChange} (hc : s.power.change.get none d = some c) (hlower : c.raising = false) :
    s.vregAck d = (s.endChange d).setFld Reg.PWR_DIE_STAT [d] F.PWR_DIE_STAT_VDD_MV (s.pointVdd c.point) := by
  simp only [State.vregAck, hc, hlower, Bool.false_eq_true, false_and, if_false]

theorem State.vregTimeout_returns {c : PointChange} (hc : s.power.change.get none d = some c) :
    s.vregTimeout d = (((s.endChange d).setPoint d c.old).setDividers d).powerEvent 1 := by
  simp only [State.vregTimeout, hc]

end

theorem exec_clockGateTimer (g : ClusterId) (s : State) : exec (.clockGateTimer g) s = .next (s.keepPilot (s.clockGateTimer g)) := rfl
theorem exec_powerGateTimer (g : ClusterId) (s : State) : exec (.powerGateTimer g) s = .next (s.keepPilot (s.powerGateTimer g)) := rfl
theorem exec_clusterWake (g : ClusterId) (s : State) : exec (.clusterWake g) s = .next (s.keepPilot (s.clusterWake g)) := rfl
theorem exec_wakeComplete (g : ClusterId) (s : State) : exec (.wakeComplete g) s = .next (s.wakeDone g) := rfl
theorem exec_phaseSample (s : State) :
    exec .phaseSample s = .next (s.keepPilot (if s.power.mode = 0 ∧ s.pilot.phase ≥ 2 then (List.range 4).foldl (fun s d => s.sampleDie d) s else s)) := rfl
theorem exec_vregAck (d : DieId) (s : State) : exec (.vregAck d) s = .next (s.keepPilot (s.vregAck d)) := rfl
theorem exec_vregTimeout (d : DieId) (s : State) : exec (.vregTimeout d) s = .next (s.keepPilot (s.vregTimeout d)) := rfl

/-! ### Device power states (R362, R403) -/
section
variable {s : State}

theorem State.d3hotEntry_standby (hup : s.hostUp = true) (hmode : s.power.mode = 1) (hnew : s.power.d3hot = false) (hphase : s.pilot.phase = 3)
    (hroom : s.bit Reg.SEC_STATE [] F.SEC_STATE_BOXROOM = false) : s.d3hotEntry = s.setPower (fun x => { x with d3hot := true }) := by
  have henters : ¬ (¬ s.hostUp = true ∨ s.power.mode = 2 ∨ s.power.d3hot = true ∨ s.pilot.phase ≠ 3 ∨ s.bit Reg.SEC_STATE [] F.SEC_STATE_BOXROOM = true) := by
    simp [hup, hmode, hnew, hphase, hroom]
  rw [State.d3hotEntry, if_neg henters, if_pos hmode]

/-- With no Bay formed there is no inst. to quiesce. -/
theorem State.d3hotEntry_unformed (hup : s.hostUp = true) (hmode : s.power.mode = 0) (hnew : s.power.d3hot = false) (hphase : s.pilot.phase = 3)
    (hroom : s.bit Reg.SEC_STATE [] F.SEC_STATE_BOXROOM = false) (hunformed : ∀ b < 64, s.bit Reg.BAY_CFG [b] F.BAY_CFG_EN = false) :
    s.d3hotEntry = s.enterStandby true := by
  have henters : ¬ (¬ s.hostUp = true ∨ s.power.mode = 2 ∨ s.power.d3hot = true ∨ s.pilot.phase ≠ 3 ∨ s.bit Reg.SEC_STATE [] F.SEC_STATE_BOXROOM = true) := by
    simp [hup, hmode, hnew, hphase, hroom]
  have hnone : (List.range 64).filter (fun b => s.bit Reg.BAY_CFG [b] F.BAY_CFG_EN && (List.range 4).any fun j =>
      let st := (s.img b j).status
      st == .running || st == .stopping) = [] :=
    List.filter_eq_nil_iff.mpr fun b hb => by simp [hunformed b (List.mem_range.mp hb)]
  rw [State.d3hotEntry, if_neg henters, if_neg (by simp [hmode])]
  simp only [hnone, List.map_nil, List.eraseDups_nil, List.foldl_nil]

/-! ### Ports at the return to D0 -/

/-- Each port that is enabled is retrained. -/
def State.retrainPorts (s : State) (on : Nat → Bool) (ps : List Nat) : State := ps.foldl (fun s p => if on p then s.setPortState p 1 else s) s

theorem State.retrainPorts_cons (s : State) (on : Nat → Bool) (p : Nat) (ps : List Nat) :
    s.retrainPorts on (p :: ps) = (if on p then s.setPortState p 1 else s).retrainPorts on ps := rfl

theorem State.portState_setPortState (s : State) (p q : Nat) : (s.setPortState p 1).portState q = if p = q then 1 else s.portState q := by
  split_ifs with h
  · subst h
    exact State.fld_setFld_self _ _ _ _ _ (by decide) (by decide)
  · have hne : Reg.CHU_PORT_STAT.addr [p] ≠ Reg.CHU_PORT_STAT.addr [q] := by simp only [RegSpec.addr, Reg.CHU_PORT_STAT, addrOf]; omega
    exact State.fld_setFld_ne _ _ _ _ _ _ _ _ hne

/-- A port in training stays in training when other ports begin. -/
theorem State.retrainPorts_keeps (on : Nat → Bool) (ps : List Nat) (s : State) {q : Nat} (hq : s.portState q = 1) : (s.retrainPorts on ps).portState q = 1 := by
  induction ps generalizing s with
  | nil => exact hq
  | cons p ps ih =>
    rw [State.retrainPorts_cons]
    refine ih _ ?_
    split_ifs with hon
    · rw [State.portState_setPortState]
      split_ifs
      · rfl
      · exact hq
    · exact hq

theorem State.retrainPorts_trains (on : Nat → Bool) (ps : List Nat) (s : State) {q : Nat} (hq : q ∈ ps) (hon : on q = true) : (s.retrainPorts on ps).portState q = 1 := by
  induction ps generalizing s with
  | nil => cases hq
  | cons p ps ih =>
    rw [State.retrainPorts_cons]
    rcases List.mem_cons.mp hq with rfl | hrest
    · refine State.retrainPorts_keeps on ps _ ?_
      rw [if_pos hon, State.portState_setPortState, if_pos rfl]
    · exact ih _ hrest

theorem State.retrainPorts_mem (on : Nat → Bool) (ps : List Nat) (s : State) : (s.retrainPorts on ps).mem = s.mem := by
  induction ps generalizing s with
  | nil => rfl
  | cons p ps ih =>
    rw [State.retrainPorts_cons, ih]
    split_ifs
    · exact State.setFld_mem ..
    · rfl

/-- Neither the power unit's own state nor the Pilot's is a port or memory. -/
theorem State.portState_setPower (s : State) (f : PowerCtl → PowerCtl) (p : Nat) : (s.setPower f).portState p = s.portState p := rfl
theorem State.portState_keepPilot (s t : State) (p : Nat) : (s.keepPilot t).portState p = t.portState p := rfl
theorem State.setPower_mem (s : State) (f : PowerCtl → PowerCtl) : (s.setPower f).mem = s.mem := rfl
theorem State.setPower_seqs (s : State) (f : PowerCtl → PowerCtl) : (s.setPower f).seqs = s.seqs := rfl
theorem State.setPower_groups (s : State) (f : PowerCtl → PowerCtl) : (s.setPower f).groups = s.groups := rfl
theorem State.setDom_mem (s : State) (k : Nat) (on : Bool) : (s.setDom k on).mem = s.mem := rfl

/-- Power domains are no ports. -/
theorem State.portState_setDom (s : State) (k : Nat) (on : Bool) (p : Nat) : (s.setDom k on).portState p = s.portState p := by
  have hne : (if k < 64 then Reg.PWR_DOM0 else Reg.PWR_DOM1).addr [] ≠ Reg.CHU_PORT_STAT.addr [p] := by
    split_ifs
    · simp only [RegSpec.addr, Reg.CHU_PORT_STAT, Reg.PWR_DOM0, addrOf]; omega
    · simp only [RegSpec.addr, Reg.CHU_PORT_STAT, Reg.PWR_DOM1, addrOf]; omega
  exact State.fld_setReg_ne _ _ _ _ _ _ _ hne

theorem State.returnToD0_eq (hmode : s.power.mode = 1) :
    s.returnToD0 =
      let on (p : Nat) : Bool := s.bit Reg.CHU_PORT_CFG [p] F.CHU_PORT_CFG_EN
      (((s.retrainPorts on (List.range 8)).setDom 4 ((List.range 4).any on)).setDom 5 ((List.range 4).any (fun p => on (4 + p)))).setPower
        (fun x => { x with mode := 0, d3hot := false }) :=
  if_neg (not_not_intro hmode)

theorem State.packageReset_pending (s : State) : s.packageReset.pending = s.pending := rfl
theorem State.packageReset_seqs (s : State) : s.packageReset.seqs = [] := rfl
theorem State.packageReset_groups (s : State) : s.packageReset.groups = [] := rfl
theorem State.packageReset_unstarted (h : s.pilot.phase = 0) : s.packageReset.pilot.phase = 0 := if_pos (.inr (.inr h))

/-- Off: the enables are deasserted from group 4 down. -/
theorem State.d3coldEntry_off (hmode : s.power.mode ≠ 2) (hphase : 2 ≤ s.pilot.phase) :
    s.d3coldEntry =
      let t := ((s.keepPilot s.flushAll).setPilot (fun p => { p with phase := 0 })).packageReset
      (t.keepPilot (t.setPower (fun x => { x with mode := 2 }))).setPilot (fun p => { p with enables := 0x0F, dropping := some 4 }) :=
  if_neg fun h => h.elim hmode (Nat.not_lt.mpr hphase)

/-! ### The power period of a span (R363-R365) -/

/-- A period has ended: its weight is shown, its counts begin anew. -/
def State.periodCounted (s : State) : State :=
  { (s.setFld Reg.PWR_CRIT [] F.PWR_CRIT_R_KCYC (s.critR / 1000)).setFld Reg.PWR_CRIT [] F.PWR_CRIT_WEIGHT (weightOf s.critR s.critA) with critR := 0, critA := 0 }.setPower
    (fun x => { x with periods := (x.periods + 1) % 2 ^ 32, capAge := x.capAge + 1 })

/-- Neither the span's counts nor the power unit's are registers, memory or messages. -/
theorem State.setCounts_beside (s : State) (r a : Nat) (f : PowerCtl → PowerCtl) :
    ({ s with critR := r, critA := a }.setPower f).regs = s.regs ∧ ({ s with critR := r, critA := a }.setPower f).mem = s.mem ∧
      ({ s with critR := r, critA := a }.setPower f).chuteOut = s.chuteOut := ⟨rfl, rfl, rfl⟩

theorem State.periodCounted_reg (s : State) (r : RegSpec) (is : List Nat) : s.periodCounted.reg r is =
    ((s.setFld Reg.PWR_CRIT [] F.PWR_CRIT_R_KCYC (s.critR / 1000)).setFld Reg.PWR_CRIT [] F.PWR_CRIT_WEIGHT (weightOf s.critR s.critA)).reg r is :=
  congrArg (fun t : Tbl DWord => t.get _ _) (State.setCounts_beside _ _ _ _).1
theorem State.periodCounted_mem (s : State) : s.periodCounted.mem = s.mem := by
  rw [State.periodCounted, (State.setCounts_beside _ _ _ _).2.1, State.setFld_mem, State.setFld_mem]
theorem State.periodCounted_chuteOut (s : State) : s.periodCounted.chuteOut = s.chuteOut := by
  rw [State.periodCounted, (State.setCounts_beside _ _ _ _).2.2, State.setFld_chuteOut, State.setFld_chuteOut]

theorem State.periodCounted_span (s : State) : s.periodCounted.bit Reg.CHU_SPAN [] F.CHU_SPAN_EN = s.bit Reg.CHU_SPAN [] F.CHU_SPAN_EN := by
  rw [State.bit, State.fld, State.periodCounted_reg, State.reg_setFld_ne _ _ _ _ _ _ _ (by decide), State.reg_setFld_ne _ _ _ _ _ _ _ (by decide)]
  rfl

/-- A device outside a span counts its period and reports to nobody. -/
theorem State.spanPeriodEnd_alone (halone : s.bit Reg.CHU_SPAN [] F.CHU_SPAN_EN = false) : s.spanPeriodEnd = s.periodCounted := by
  have hreports : ¬ (s.periodCounted.bit Reg.CHU_SPAN [] F.CHU_SPAN_EN = true ∧ s.periodCounted.bit Reg.PWR_SPAN [] F.PWR_SPAN_EN = true) := by
    rw [State.periodCounted_span, halone]
    exact fun h => Bool.false_ne_true h.1
  exact if_pos (.inl hreports)

theorem weightOf_le (r a : Nat) : weightOf r a ≤ 0xFFFF := by
  rw [weightOf]
  split_ifs
  · exact Nat.zero_le _
  · exact Nat.min_le_left _ _

/-- The weight is at most the share of the period that no critical work took. -/
theorem weightOf_mul_le {r a : Nat} (hra : r < a) : weightOf r a * a ≤ (a - r) * 65536 := by
  rw [weightOf, if_neg (by omega)]
  exact (Nat.mul_le_mul_right a (Nat.min_le_right _ _)).trans (Nat.div_mul_le_self _ _)

theorem State.periodCounted_weight (s : State) : s.periodCounted.fld Reg.PWR_CRIT [] F.PWR_CRIT_WEIGHT = weightOf s.critR s.critA := by
  rw [State.fld, State.periodCounted_reg]
  exact (State.fld_setFld_self _ _ _ _ _ (by decide) (by decide)).trans (Nat.mod_eq_of_lt (Nat.lt_succ_of_le (weightOf_le _ _)))

end

theorem exec_regulatorTelemetryRead (r : Fin 13) (mv : BitVec 16) (s : State) : exec (.regulatorTelemetryRead r mv) s =
    .next (s.keepPilot (if s.power.mode = 2 then s else s.setPower (fun x => { x with volts := x.volts.set none r (some mv.toNat) }))) := rfl
theorem exec_avsReadTimeout (r : Fin 13) (s : State) : exec (.avsReadTimeout r) s =
    .next (s.keepPilot (if s.power.mode = 2 then s else (s.setPower (fun x => { x with volts := x.volts.set none r none })).powerEvent 1)) := rfl
theorem exec_vrAlert (r : Fin 13) (s : State) : exec (.vrAlert r) s =
    .next (s.keepPilot (if s.pilot.phase < 2 ∨ s.power.mode = 2 then s else s.log { kind := 0x15, index := 8 + r, cls := .corrected })) := rfl
theorem exec_d3hotEntry (s : State) : exec .d3hotEntry s = .next (s.keepPilot s.d3hotEntry) := rfl
theorem exec_linkL12Entry (s : State) : exec .linkL12Entry s = .next (s.keepPilot
    (if s.hostUp ∧ s.power.mode = 0 ∧ s.pilot.phase = 3 ∧ ¬ s.bit Reg.SEC_STATE [] F.SEC_STATE_BOXROOM ∧ s.bays.all (fun e => !e.2.on) then s.enterStandby false else s)) := rfl
theorem exec_returnToD0 (s : State) : exec .returnToD0 s = .next (s.keepPilot s.returnToD0) := rfl
theorem exec_d3coldEntry (s : State) : exec .d3coldEntry s = .next s.d3coldEntry := rfl
theorem exec_spanPeriodEnd (s : State) : exec .spanPeriodEnd s = .next (s.keepPilot s.spanPeriodEnd) := rfl

end Sys2Proof.Machine

namespace Sys2Proof.Proofs
open Sys2Proof Sys2Proof.Machine

/-- Settles O42: each timer and answer under the conditions that let it act. -/
theorem sleepAndPoints : Obligations.SleepAndPoints := by
  refine ⟨?clockGate, ?powerGate, ?wake, ?woken, ?sample, ?raise, ?lower, ?timeout⟩
  case clockGate =>
    intro g s hmode hup hstate hauto hdelay hidle
    rw [exec_clockGateTimer, State.clockGateTimer_gates hmode hup hstate hauto hdelay hidle]
    exact congrArg _ (State.setFld_samePilot _ _ _ _ _).keepPilot
  case powerGate =>
    intro g s hmode hstate hauto hdelay hidle hfree
    rw [exec_powerGateTimer, State.powerGateTimer_gates hmode hstate hauto hdelay hidle hfree]
  case wake =>
    intro g s hmode hoff hreq
    obtain ⟨hpilot, hpending⟩ := State.setFld_samePilot s Reg.PWR_CL [g.val] F.PWR_CL_STATE 3
    rw [exec_clusterWake, State.clusterWake_wakes hmode hoff hreq]
    exact congrArg _ (SamePilot.keepPilot ⟨hpilot, hpending⟩)
  case woken =>
    intro g s hwaking
    rw [exec_wakeComplete, State.wakeDone_powered hwaking]
  case sample =>
    intro s hmode hphase
    rw [exec_phaseSample, if_pos ⟨hmode, hphase⟩]
  case raise =>
    intro d s t c hc hraise ht hcool
    rw [exec_vregAck, State.vregAck_raise hc hraise ht hcool]
  case lower =>
    intro d s c hc hlower
    rw [exec_vregAck, State.vregAck_lower hc hlower, State.endChange]
    exact congrArg _ ((State.setPower_samePilot _ _).setFld _ _ _ _).keepPilot
  case timeout =>
    intro d s c hc
    rw [exec_vregTimeout, State.vregTimeout_returns hc]

/-- Settles O43: telemetry by the rail's table, a power state by what it leaves, a span's weight by its quotient. -/
theorem powerStates : Obligations.PowerStates := by
  refine ⟨?telemetry, ?silent, ?alert, ?standby, ?unformed, ?link, ?back, ?off, ?period, ?weight⟩
  case telemetry =>
    intro r mv s hmode
    refine ⟨_, exec_regulatorTelemetryRead r mv s, ?_⟩
    rw [if_neg hmode]
    exact ⟨congrArg (fun o : Option Nat => o.getD _) (Tbl.get_set_self s.power.volts none r (some mv.toNat)), rfl, rfl⟩
  case silent =>
    intro r s hmode
    rw [exec_avsReadTimeout, if_neg hmode]
  case alert =>
    intro r s hmode hphase
    rw [exec_vrAlert, if_neg fun h => h.elim (Nat.not_lt.mpr hphase) hmode]
  case standby =>
    intro s hup hmode hnew hphase hroom
    rw [exec_d3hotEntry, State.d3hotEntry_standby hup hmode hnew hphase hroom, (State.setPower_samePilot _ _).keepPilot]
  case unformed =>
    intro s hup hmode hnew hphase hroom hunformed
    rw [exec_d3hotEntry, State.d3hotEntry_unformed hup hmode hnew hphase hroom hunformed]
  case link =>
    intro s hup hmode hphase hroom hidle
    have hall : s.bays.all (fun e => !e.2.on) = true := by simpa using fun b x hx => hidle (b, x) hx
    rw [exec_linkL12Entry, if_pos ⟨hup, hmode, hphase, by simp [hroom], hall⟩]
  case back =>
    intro s hmode
    refine ⟨_, exec_returnToD0 s, ?_⟩
    rw [State.returnToD0_eq hmode]
    refine ⟨rfl, rfl, ?_, fun p hp hon => ?_⟩
    · rw [State.keepPilot_mem, State.setPower_mem, State.setDom_mem, State.setDom_mem, State.retrainPorts_mem]
    · rw [State.portState_keepPilot, State.portState_setPower, State.portState_setDom, State.portState_setDom]
      exact State.retrainPorts_trains _ _ s (List.mem_range.mpr hp) hon
  case off =>
    intro s hmode hphase
    refine ⟨_, exec_d3coldEntry s, ?_⟩
    rw [State.d3coldEntry_off hmode hphase]
    refine ⟨rfl, State.packageReset_unstarted rfl, rfl, rfl, ?_, ?_, ?_⟩
    · rw [State.setPilot_seqs, State.keepPilot_seqs, State.setPower_seqs, State.packageReset_seqs]
    · rw [State.setPilot_groups, State.keepPilot_groups, State.setPower_groups, State.packageReset_groups]
    · rw [State.setPilot_pending, State.keepPilot_pending, State.packageReset_pending, State.setPilot_pending, State.keepPilot_pending]
  case period =>
    intro s halone
    refine ⟨_, exec_spanPeriodEnd s, ?_⟩
    rw [State.spanPeriodEnd_alone halone, State.keepPilot_critR, State.keepPilot_critA, State.fld_keepPilot, State.keepPilot_mem, State.keepPilot_chuteOut]
    exact ⟨rfl, rfl, State.periodCounted_weight s, State.periodCounted_mem s, State.periodCounted_chuteOut s⟩
  case weight =>
    intro r a _
    exact ⟨weightOf_le r a, fun _ hra => weightOf_mul_le hra⟩

end Sys2Proof.Proofs
end

section
/-! PROOFS. Starts (19_boot_security_debug.md R369-R373, R375, R376; Tables SE-1, SE-2). -/
namespace Sys2Proof.Machine

/-! ### What a bring-up leaves alone -/

/-- `t` has the streams, thread groups and Bays of `s`. -/
def SameTasks (s t : State) : Prop := t.seqs = s.seqs ∧ t.groups = s.groups ∧ t.bays = s.bays

theorem SameTasks.trans {s t u : State} (h : SameTasks s t) (k : SameTasks t u) : SameTasks s u := ⟨k.1.trans h.1, k.2.1.trans h.2.1, k.2.2.trans h.2.2⟩
theorem SameTasks.refl (s : State) : SameTasks s s := ⟨rfl, rfl, rfl⟩
theorem SameButRegs.tasks {s t : State} (h : SameButRegs s t) : SameTasks s t := ⟨h.field State.seqs, h.field State.groups, h.field State.bays⟩

theorem SameTasks.foldl {α : Type} (l : List α) (f : State → α → State) (h : ∀ s x, SameTasks s (f s x)) (s : State) : SameTasks s (l.foldl f s) := by
  induction l generalizing s with
  | nil => exact SameTasks.refl s
  | cons x l ih => exact (h s x).trans (ih _)

theorem SameTasks.ite (c : Prop) [Decidable c] {s t u : State} (h : SameTasks s t) (k : SameTasks s u) : SameTasks s (if c then t else u) := by
  split_ifs
  · exact h
  · exact k

theorem State.setReg_tasks (s : State) (r : RegSpec) (is : List Nat) (v : DWord) : SameTasks s (s.setReg r is v) := ⟨rfl, rfl, rfl⟩
theorem State.setFld_tasks (s : State) (r : RegSpec) (is : List Nat) (f : Fld) (v : Nat) : SameTasks s (s.setFld r is f v) := ⟨rfl, rfl, rfl⟩
theorem State.bump_tasks (s : State) (r : RegSpec) (is : List Nat) (f : Fld) (n : Nat) : SameTasks s (s.bump r is f n) := ⟨rfl, rfl, rfl⟩
theorem State.setPilot_tasks (s : State) (f : Pilot → Pilot) : SameTasks s (s.setPilot f) := ⟨rfl, rfl, rfl⟩
theorem SameTasks.keepPilot {s t : State} (h : SameTasks s t) : SameTasks s (s.keepPilot t) := h
theorem State.setDom_tasks (s : State) (k : Nat) (on : Bool) : SameTasks s (s.setDom k on) := ⟨rfl, rfl, rfl⟩
theorem State.setDoms_tasks (s : State) (ks : List Nat) (on : Bool) : SameTasks s (s.setDoms ks on) := SameTasks.foldl _ _ (fun s k => s.setDom_tasks k on) s

theorem State.setMeas_tasks (s : State) (k : Nat) (m : BitVec 512) : SameTasks s (s.setMeas k m) := SameTasks.foldl _ _ (fun s _ => s.setReg_tasks _ _ _) s

theorem State.setCellar_tasks (s : State) (gib pkgs : Nat) (folded : Option Nat) : SameTasks s (s.setCellar gib pkgs folded) := by
  unfold State.setCellar
  dsimp only
  refine SameTasks.trans ?_ (State.setFld_tasks _ _ _ _ _)
  refine SameTasks.trans ?_ (SameTasks.foldl _ _ (fun s c => ?_) _)
  · refine SameTasks.trans ?_ (State.setFld_tasks _ _ _ _ _)
    refine SameTasks.trans ?_ (State.setFld_tasks _ _ _ _ _)
    refine SameTasks.trans ?_ (State.setFld_tasks _ _ _ _ _)
    exact (State.setFld_tasks _ _ _ _ _).trans (State.setFld_tasks _ _ _ _ _)
  · exact SameTasks.ite _ (SameTasks.ite _ (SameTasks.refl s) (State.setFld_tasks _ _ _ _ _)) (State.setFld_tasks _ _ _ _ _)

theorem State.noCellar_tasks (s : State) (fitted : Nat) : SameTasks s (s.noCellar fitted) := by
  have hset := (State.setCellar_tasks s 0 0 none).trans (State.setFld_tasks _ Reg.CEL_STAT [] F.CEL_STAT_STATE (if fitted = 0 then 0 else 4))
  exact SameTasks.ite _ hset (hset.trans (State.log_same _ _).tasks)

/-- Caches, memory and their controls are none of the tasks. -/
theorem State.setCellarCtl_tasks (s : State) (x : CellarCtl) : SameTasks s { s with cellarCtl := x } := ⟨rfl, rfl, rfl⟩
theorem State.setLarderCtl_tasks (s : State) (x : LarderCtl) : SameTasks s { s with larderCtl := x } := ⟨rfl, rfl, rfl⟩
theorem State.setLines_tasks (s t : State) : SameTasks s { s with larder := t.larder, cups := t.cups, mem := t.mem, cellar := t.cellar } := ⟨rfl, rfl, rfl⟩

theorem State.foldCellar_tasks (s : State) (p gib pkgs : Nat) : SameTasks s (s.foldCellar p gib pkgs) :=
  ((State.setCellarCtl_tasks s _).trans (State.setCellar_tasks _ gib _ (some p))).trans (State.setLines_tasks _ (s.foldCellar p gib pkgs))

theorem State.bringCellar_tasks (s : State) (x : Bringup) (warm : Bool) : SameTasks s (s.bringCellar x warm) := by
  have hstate (t : State) (h : SameTasks s t) : SameTasks s (t.setFld Reg.CEL_STAT [] F.CEL_STAT_STATE 2) := h.trans (State.setFld_tasks _ _ _ _ _)
  unfold State.bringCellar
  dsimp only
  split
  · exact State.noCellar_tasks _ _
  · split
    · exact hstate _ (State.setCellar_tasks _ _ _ _)
    · exact hstate _ (State.foldCellar_tasks _ _ _ _)
    · exact SameTasks.ite _ (hstate _ (State.setCellar_tasks _ _ _ _)) (State.noCellar_tasks _ _)
    · exact State.noCellar_tasks _ _

theorem State.bringDie_tasks (s : State) (x : Bringup) (d : Nat) : SameTasks s (s.bringDie x d) := by
  have hpoint (t : State) (h : SameTasks s t) (c : Bool) (a b : Nat) : SameTasks s (if c then ((t.setFld Reg.PWR_DIE_STAT [d] F.PWR_DIE_STAT_OP 0).setFld
      Reg.PWR_DIE_STAT [d] F.PWR_DIE_STAT_VDD_MV a).setFld Reg.PWR_DIE_STAT [d] F.PWR_DIE_STAT_ACLK_MHZ b else t) :=
    SameTasks.ite _ (((h.trans (State.setFld_tasks _ _ _ _ _)).trans (State.setFld_tasks _ _ _ _ _)).trans (State.setFld_tasks _ _ _ _ _)) h
  unfold State.bringDie
  dsimp only
  refine hpoint _ ?_ _ _ _
  refine SameTasks.trans ?_ (SameTasks.foldl _ _ (fun s k => s.setDom_tasks _ _) _)
  refine SameTasks.trans ?_ (State.setDoms_tasks _ _ _)
  refine SameTasks.trans ?_ (State.setReg_tasks _ _ _ _)
  refine SameTasks.trans ?_ (SameTasks.foldl _ _ (fun s k => s.setReg_tasks _ _ _) _)
  exact (State.setReg_tasks _ _ _ _).trans (State.setReg_tasks _ _ _ _)

theorem State.bringUnits_tasks (s : State) (x : Bringup) (warm : Bool) : SameTasks s (s.bringUnits x warm) := by
  have htrain (s : State) (j : Nat) : SameTasks s (match linkEnds[j]? with
      | some (a, b) => if s.dieState a = 2 ∧ s.dieState b = 2 then s.trainLink j (x.modules.getD j 0).toNat (x.repaired.getD j 0) else s.trainLink j 0 0
      | none => s) := by
    split
    · exact SameTasks.ite _ (State.setReg_tasks _ _ _ _) (State.setReg_tasks _ _ _ _)
    · exact SameTasks.refl s
  unfold State.bringUnits
  dsimp only
  refine SameTasks.trans ?_ (State.setDom_tasks _ _ _)
  refine SameTasks.trans ?_ (State.setDom_tasks _ _ _)
  refine SameTasks.trans ?_ (SameTasks.foldl _ _ (fun s p => s.setFld_tasks _ _ _ _) _)
  refine SameTasks.trans ?_ (State.setDoms_tasks _ _ _)
  refine SameTasks.trans ?_ (State.bringCellar_tasks _ _ _)
  refine SameTasks.trans ?_ (State.setFld_tasks _ _ _ _ _)
  refine SameTasks.trans ?_ (State.setFld_tasks _ _ _ _ _)
  refine SameTasks.trans ?_ (State.setFld_tasks _ _ _ _ _)
  refine SameTasks.trans ?_ (SameTasks.foldl _ _ (fun s d => s.setReg_tasks _ _ _) _)
  refine SameTasks.trans ?_ (SameTasks.foldl _ _ htrain _)
  refine SameTasks.trans ?_ (State.setReg_tasks _ _ _ _)
  refine SameTasks.trans ?_ (State.setReg_tasks _ _ _ _)
  refine SameTasks.trans ?_ (SameTasks.foldl _ _ (fun s d => s.bringDie_tasks x d) _)
  refine SameTasks.trans ?_ (State.setFld_tasks _ _ _ _ _)
  refine SameTasks.trans ?_ (State.setFld_tasks _ _ _ _ _)
  refine SameTasks.trans ?_ (State.setDoms_tasks _ _ _)
  exact (State.setReg_tasks _ _ _ _).trans (State.when_same _ _ _ (State.log_same _ _)).tasks

theorem State.showPilot_tasks (s : State) : SameTasks s s.showPilot := by
  unfold State.showPilot
  dsimp only
  refine SameTasks.keepPilot ?_
  have hfields (a b c d e f : Nat) : SameTasks s ((((((s.setFld Reg.SEC_STATE [] F.SEC_STATE_SVN_MIN a).setFld Reg.SEC_STATE [] F.SEC_STATE_FAILS b).setFld
      Reg.SEC_STATE [] F.SEC_STATE_LC c).setFld Reg.SEC_STATE [] F.SEC_STATE_OWNER_SET d).setFld Reg.SEC_START [] F.SEC_START_GOOD e).setFld
      Reg.SEC_START [] F.SEC_START_NUM f) :=
    (((((State.setFld_tasks _ _ _ _ _).trans (State.setFld_tasks _ _ _ _ _)).trans (State.setFld_tasks _ _ _ _ _)).trans (State.setFld_tasks _ _ _ _ _)).trans
      (State.setFld_tasks _ _ _ _ _)).trans (State.setFld_tasks _ _ _ _ _)
  exact SameTasks.ite _ (hfields _ _ _ _ _ _) ((hfields _ _ _ _ _ _).trans (SameTasks.foldl _ _ (fun s w => s.setReg_tasks _ _ _) _))

theorem State.bringUp_tasks (s : State) (x : Bringup) (warm : Bool) : SameTasks s (s.bringUp x warm) :=
  ((State.bringUnits_tasks s x warm).keepPilot.trans (State.setPilot_tasks _ _)).trans (State.showPilot_tasks _)

theorem State.applyDeletions_tasks (s : State) : SameTasks s s.applyDeletions := by
  refine SameTasks.keepPilot ((State.setFld_tasks _ _ _ _ _).trans (SameTasks.foldl _ _ (fun s e => ?_) _))
  exact SameTasks.ite _ ((State.setLarderCtl_tasks s _).trans (State.bump_tasks _ _ _ _ _)) ((State.setLarderCtl_tasks s _).trans (State.bump_tasks _ _ _ _ _))

theorem State.boxroom_tasks (s : State) : SameTasks s s.boxroom :=
  ((((State.setDoms_tasks s _ _).trans (State.setFld_tasks _ _ _ _ _)).keepPilot).trans (State.setPilot_tasks _ _)).trans (State.showPilot_tasks _)

end Sys2Proof.Machine
end

section
/-! PROOFS. Starts (19_boot_security_debug.md R369-R373, R375, R376; Tables SE-1, SE-2): the count of a start, the start itself, its failure; the pins of the board
(21_electrical_and_package.md R402, R403, R412). -/
namespace Sys2Proof.Machine

/-! ### The Pilot after each part of a start -/
section
variable (s : State)

theorem State.packageReset_pilot : s.packageReset.pilot =
    { s.pilot with phase := if s.pilot.perst ∨ s.pilot.extest ∨ s.pilot.phase = 0 then 0 else 1, warm := false, stage := 1 } := rfl

theorem State.applyDeletions_pilot : s.applyDeletions.pilot = s.pilot := State.keepPilot_pilot _ _
theorem State.applyDeletions_pending : s.applyDeletions.pending = s.pending := State.keepPilot_pending _ _

theorem State.pushCause_pilot (r : BitVec 512) : (s.pushCause r).pilot = { s.pilot with causes := (r :: s.pilot.causes).take 16 } := by
  rw [State.pushCause, State.keepPilot_pilot, State.setPilot_pilot]
theorem State.pushCause_pending (r : BitVec 512) : (s.pushCause r).pending = s.pending := by
  rw [State.pushCause, State.keepPilot_pending, State.setPilot_pending]

/-- The record of a start that fails. -/
def Pilot.failure (p : Pilot) (code detail pclk : Nat) : BitVec 512 := causeRecord p.n (if p.warm then 1 else 0) p.stage code detail pclk

theorem State.startFails_pilot (code detail pclk : Nat) : (s.startFails code detail pclk).pilot =
    { s.pilot with causes := (s.pilot.failure code detail pclk :: s.pilot.causes).take 16,
                   phase := if s.pilot.perst ∨ s.pilot.extest ∨ s.pilot.phase = 0 then 0 else 1, warm := false, stage := 1, uncounted := false } := by
  rw [State.startFails, State.setPilot_pilot, State.packageReset_pilot, State.pushCause_pilot]
  rfl
theorem State.startFails_pending (code detail pclk : Nat) : (s.startFails code detail pclk).pending = s.pending := by
  rw [State.startFails, State.setPilot_pending, State.packageReset_pending, State.pushCause_pending]
theorem State.startFails_seqs (code detail pclk : Nat) : (s.startFails code detail pclk).seqs = [] := by
  rw [State.startFails, State.setPilot_seqs, State.packageReset_seqs]

end

/-! ### Counting a start (R371) -/
section
variable {s : State} {good : Bool}

theorem State.countStart_counts (hcounted : s.pilot.uncounted = false) (hfails : s.pilot.fails < 3) (hsince : s.pilot.rpmc0 - (if good then s.pilot.good else 0) < 3) :
    s.countStart good = (s.setPilot (fun p => { p with rpmc0 := p.rpmc0 + 1, n := p.rpmc0 + 1, fails := p.fails + 1 }), false) := by
  have hfew : decide (3 ≤ max s.pilot.fails (s.pilot.rpmc0 + 1 - 1 - (if good = true then s.pilot.good else 0))) = false :=
    decide_eq_false (Nat.not_le.mpr (Nat.max_lt.mpr ⟨hfails, hsince⟩))
  simp only [State.countStart, hcounted, hfew, Bool.false_eq_true, if_false]
  rfl

theorem State.countStart_boxes (hcounted : s.pilot.uncounted = false) (hmany : 3 ≤ max s.pilot.fails (s.pilot.rpmc0 - (if good then s.pilot.good else 0))) :
    s.countStart good = (s.setPilot (fun p => { p with rpmc0 := p.rpmc0 + 1, n := p.rpmc0 + 1 }), true) := by
  have hbox : decide (3 ≤ max s.pilot.fails (s.pilot.rpmc0 + 1 - 1 - (if good = true then s.pilot.good else 0))) = true := decide_eq_true hmany
  simp only [State.countStart, hcounted, hbox, Bool.false_eq_true, if_false, if_true]
  rfl

/-- A start is counted whatever its outcome. -/
theorem State.countStart_pilot (hcounted : s.pilot.uncounted = false) :
    ∃ n, (s.countStart good).1 = s.setPilot (fun p => { p with rpmc0 := p.rpmc0 + 1, n := p.rpmc0 + 1, fails := n }) := by
  rw [State.countStart, hcounted]
  exact ⟨_, rfl⟩

end

/-! ### Cold starts (R369-R372, R375) -/
section
variable {s : State} {x : Bringup} {k v : Nat} {m : BitVec 512}

/-- The image that the ROM runs is told by the slots and SVN_MIN. -/
theorem State.chooseImage_congr {t : State} (hactive : t.pilot.active = s.pilot.active) (ha : t.pilot.slotA = s.pilot.slotA) (hb : t.pilot.slotB = s.pilot.slotB)
    (hmin : t.pilot.svnMin = s.pilot.svnMin) : t.chooseImage x = s.chooseImage x := by
  simp only [State.chooseImage, State.slotImage, hactive, ha, hb, hmin]

/-- The package's state once a cold start that does not enter Boxroom mode is counted. -/
def State.coldCounted (s : State) : State := s.packageReset.setPilot (fun p => { p with rpmc0 := p.rpmc0 + 1, n := p.rpmc0 + 1, fails := p.fails + 1 })

theorem State.coldCounted_chooseImage : s.coldCounted.chooseImage x = s.chooseImage x := State.chooseImage_congr rfl rfl rfl rfl

/-- The package's state with an image chosen: its measurement, its SVN and its slot. -/
def State.imageChosen (s : State) (k v : Nat) (m : BitVec 512) : State :=
  let t := s.coldCounted.setPilot (fun p => { p with stage := 9, lastTried := k })
  t.keepPilot (((t.setMeas 0 m).setFld Reg.SEC_STATE [] F.SEC_STATE_SVN v).setFld Reg.SEC_STATE [] F.SEC_STATE_SLOT k)

section
variable (hphase : s.pilot.phase = 1) (hrails : s.pilot.enabling = none) (hcounted : s.pilot.uncounted = false) (hfails : s.pilot.fails < 3)
  (hsince : s.pilot.rpmc0 - (if x.goodReads then s.pilot.good else 0) < 3) (hflash : x.flashOk = true) (hpuf : x.pufOk = true)
include hphase hrails hcounted hfails hsince hflash hpuf

/-- A start whose flash, PUF and image are good brings the package up. -/
theorem State.coldStart_up (himage : s.chooseImage x = some (k, v, m)) (hfatal : x.fatal = 0) (hdies : x.dies &&& x.undercrofts ≠ 0) :
    s.coldStart x = ((s.imageChosen k v m).bringUp x false).applyDeletions := by
  have hstarts : ¬ (s.pilot.phase ≠ 1 ∨ s.pilot.enabling.isSome = true) := by simp [hphase, hrails]
  have hcount : s.packageReset.countStart x.goodReads = (s.coldCounted, false) := State.countStart_counts hcounted hfails hsince
  have hchosen : s.coldCounted.chooseImage x = some (k, v, m) := State.coldCounted_chooseImage.trans himage
  rw [State.coldStart, if_neg hstarts, hcount]
  simp only [hflash, hpuf, hchosen, hfatal, hdies, ne_eq, not_true, if_false]
  rfl

/-- A start that finds no valid image fails. -/
theorem State.coldStart_noImage (himage : s.chooseImage x = none) :
    s.coldStart x = (s.coldCounted.setPilot (fun p => { p with stage := 7, lastTried := 1 - p.active })).startFails 2 0 x.pclk := by
  have hstarts : ¬ (s.pilot.phase ≠ 1 ∨ s.pilot.enabling.isSome = true) := by simp [hphase, hrails]
  have hcount : s.packageReset.countStart x.goodReads = (s.coldCounted, false) := State.countStart_counts hcounted hfails hsince
  have hchosen : s.coldCounted.chooseImage x = none := State.coldCounted_chooseImage.trans himage
  rw [State.coldStart, if_neg hstarts, hcount]
  simp only [hflash, hpuf, hchosen, not_true, if_false]

end

/-- A start that enters Boxroom mode. -/
theorem State.coldStart_boxes (hphase : s.pilot.phase = 1) (hrails : s.pilot.enabling = none) (hcounted : s.pilot.uncounted = false)
    (hmany : 3 ≤ max s.pilot.fails (s.pilot.rpmc0 - (if x.goodReads then s.pilot.good else 0))) :
    s.coldStart x = (s.packageReset.setPilot (fun p => { p with rpmc0 := p.rpmc0 + 1, n := p.rpmc0 + 1 })).boxroom := by
  have hstarts : ¬ (s.pilot.phase ≠ 1 ∨ s.pilot.enabling.isSome = true) := by simp [hphase, hrails]
  have hcount : s.packageReset.countStart x.goodReads = (s.packageReset.setPilot (fun p => { p with rpmc0 := p.rpmc0 + 1, n := p.rpmc0 + 1 }), true) :=
    State.countStart_boxes hcounted hmany
  rw [State.coldStart, if_neg hstarts, hcount]

theorem State.imageChosen_pilot : (s.imageChosen k v m).pilot =
    { s.packageReset.pilot with rpmc0 := s.pilot.rpmc0 + 1, n := s.pilot.rpmc0 + 1, fails := s.pilot.fails + 1, stage := 9, lastTried := k } := by
  rw [State.imageChosen, State.keepPilot_pilot, State.setPilot_pilot, State.coldCounted, State.setPilot_pilot]
  rfl

theorem State.imageChosen_pending : (s.imageChosen k v m).pending = s.pending := by
  rw [State.imageChosen, State.keepPilot_pending, State.setPilot_pending, State.coldCounted, State.setPilot_pending, State.packageReset_pending]

theorem State.imageChosen_tasks : SameTasks s.packageReset (s.imageChosen k v m) :=
  ((State.setPilot_tasks _ _).trans (State.setPilot_tasks _ _)).trans
    (((State.setMeas_tasks _ _ _).trans (State.setFld_tasks _ _ _ _ _)).trans (State.setFld_tasks _ _ _ _ _)).keepPilot

theorem State.packageReset_idle (s : State) : s.packageReset.seqs = [] ∧ s.packageReset.groups = [] ∧ s.packageReset.bays = [] := ⟨rfl, rfl, rfl⟩

/-- What a task-free state's task-keeping successor has. -/
theorem SameTasks.idle {s t : State} (h : SameTasks s t) (k : s.seqs = [] ∧ s.groups = [] ∧ s.bays = []) : t.seqs = [] ∧ t.groups = [] ∧ t.bays = [] := by
  obtain ⟨hseqs, hgroups, hbays⟩ := h
  obtain ⟨kseqs, kgroups, kbays⟩ := k
  exact ⟨hseqs.trans kseqs, hgroups.trans kgroups, hbays.trans kbays⟩

end

/-! ### SEC_STATE as the Pilot shows it (R372) -/

section
variable (s t : State) (r : RegSpec) (is : List Nat) (f : Fld) (v : Nat) (x : DWord)

theorem State.inBoxroom_keepPilot : (s.keepPilot t).inBoxroom = t.inBoxroom := rfl
theorem State.inBoxroom_setPilot (g : Pilot → Pilot) : (s.setPilot g).inBoxroom = s.inBoxroom := rfl

/-- Other fields of SEC_STATE leave the Boxroom bit alone, and so do other registers. -/
theorem State.inBoxroom_setFld_other (hf : f.lo ≤ f.hi) (hother : 7 < f.lo ∨ f.hi < 7) : (s.setFld Reg.SEC_STATE [] f v).inBoxroom = s.inBoxroom :=
  congrArg (· == 1) (State.fld_setFld_other s _ _ f F.SEC_STATE_BOXROOM v hf hother)
theorem State.inBoxroom_setFld_ne (hne : r.addr is ≠ Reg.SEC_STATE.addr []) : (s.setFld r is f v).inBoxroom = s.inBoxroom :=
  congrArg (· == 1) (State.fld_setFld_ne s r _ is _ f F.SEC_STATE_BOXROOM v hne)
theorem State.inBoxroom_setReg_ne (hne : r.addr is ≠ Reg.SEC_STATE.addr []) : (s.setReg r is x).inBoxroom = s.inBoxroom :=
  congrArg (· == 1) (State.fld_setReg_ne s r _ is _ F.SEC_STATE_BOXROOM x hne)

/-- The certificate's registers of a device are no part of SEC_STATE. -/
theorem State.inBoxroom_devid (g : Nat → DWord) (ws : List Nat) : (ws.foldl (fun s w => s.setReg Reg.SEC_DEVID [w] (g w)) s).inBoxroom = s.inBoxroom := by
  induction ws generalizing s with
  | nil => rfl
  | cons w ws ih =>
    have hne : Reg.SEC_DEVID.addr [w] ≠ Reg.SEC_STATE.addr [] := by simp only [RegSpec.addr, Reg.SEC_DEVID, Reg.SEC_STATE, addrOf]; omega
    rw [List.foldl_cons, ih, State.inBoxroom_setReg_ne _ _ _ _ hne]

/-- The Pilot's counters shown in SEC_STATE and SEC_START. -/
def State.countersShown (s : State) : State :=
  (((((s.setFld Reg.SEC_STATE [] F.SEC_STATE_SVN_MIN s.pilot.svnMin).setFld Reg.SEC_STATE [] F.SEC_STATE_FAILS s.pilot.fails).setFld
    Reg.SEC_STATE [] F.SEC_STATE_LC s.pilot.lifeCycle).setFld Reg.SEC_STATE [] F.SEC_STATE_OWNER_SET (if s.pilot.owner.isSome then 1 else 0)).setFld
    Reg.SEC_START [] F.SEC_START_GOOD s.pilot.good).setFld Reg.SEC_START [] F.SEC_START_NUM s.pilot.n

theorem State.showPilot_eq : s.showPilot = s.keepPilot (if s.pilot.lifeCycle = 0 then s.countersShown else
    (List.range 2).foldl (fun t w => t.setReg Reg.SEC_DEVID [w] (Config.deviceValue (4 + s.pilot.lifeCycle) w)) s.countersShown) := rfl

theorem State.countersShown_inBoxroom : s.countersShown.inBoxroom = s.inBoxroom := by
  rw [State.countersShown, State.inBoxroom_setFld_ne _ _ _ _ _ (by decide), State.inBoxroom_setFld_ne _ _ _ _ _ (by decide),
    State.inBoxroom_setFld_other _ _ _ (by decide) (by decide), State.inBoxroom_setFld_other _ _ _ (by decide) (by decide),
    State.inBoxroom_setFld_other _ _ _ (by decide) (by decide), State.inBoxroom_setFld_other _ _ _ (by decide) (by decide)]

theorem State.showPilot_inBoxroom : s.showPilot.inBoxroom = s.inBoxroom := by
  rw [State.showPilot_eq, State.inBoxroom_keepPilot]
  split_ifs
  · exact State.countersShown_inBoxroom s
  · exact (State.inBoxroom_devid _ _ _).trans (State.countersShown_inBoxroom s)

theorem State.boxroom_inBoxroom : s.boxroom.inBoxroom = true := by
  rw [State.boxroom, State.showPilot_inBoxroom, State.inBoxroom_setPilot, State.inBoxroom_keepPilot, State.inBoxroom, State.bit,
    State.fld_setFld_self _ _ _ _ _ (by decide) (by decide)]
  rfl

end

/-! ### Warm restarts, the watchdog, EXTEST (R369, R370, R382) -/
section
variable {s u : State} {x : Bringup}

theorem State.warmRestart_counted (hphase : 2 ≤ s.pilot.phase) (hcount : s.countStart x.goodReads = (u, false)) (hfatal : x.fatal = 0) (hdies : x.dies &&& x.undercrofts ≠ 0) :
    s.warmRestart x = (u.setPilot (fun p => { p with warm := true, stage := 9 })).warmReset.bringUp x true := by
  rw [State.warmRestart, if_neg (Nat.not_lt.mpr hphase), hcount]
  simp only [hfatal, hdies, ne_eq, not_true, if_false]

theorem State.watchdog_fails {stage detail : Nat} (hphase : s.pilot.phase = 1 ∨ s.pilot.phase = 2) :
    s.watchdog stage detail = (s.setPilot (fun p => { p with stage := stage })).startFails 1 detail 80000000 := if_pos hphase

theorem State.extestEntry_enters (hmode : s.power.mode ≠ 2) (hpower : s.pilot.pwrok = true) (hnew : s.pilot.extest = false) :
    s.extestEntry = (s.setPilot (fun p => { p with extest := true, fails := 0, good := p.rpmc0 })).packageReset := by
  have henters : ¬ (s.power.mode = 2 ∨ ¬ s.pilot.pwrok = true ∨ s.pilot.extest = true) := by simp [hmode, hpower, hnew]
  rw [State.extestEntry, if_neg henters]

theorem State.extestExit_leaves (hin : s.pilot.extest = true) :
    s.extestExit = s.setPilot (fun p => { p with extest := false, uncounted := true, phase := if p.perst ∨ ¬ p.pwrok then 0 else 1, stage := 1 }) := if_pos hin

end

theorem exec_coldStart (x : Bringup) (s : State) : exec (.coldStart x) s = .next (s.coldStart x) := rfl
theorem exec_warmRestart (x : Bringup) (s : State) : exec (.warmRestart x) s = .next (s.warmRestart x) := rfl
theorem exec_startWatchdog (stage detail : Nat) (s : State) : exec (.startWatchdog stage detail) s = .next (s.watchdog stage detail) := rfl
theorem exec_extestEntry (s : State) : exec .extestEntry s = .next s.extestEntry := rfl
theorem exec_extestExit (s : State) : exec .extestExit s = .next s.extestExit := rfl

/-! ### The pins of the board (R402, R403, R412) -/
section
variable {s : State} {g h stage : Nat}

theorem State.pwrokRise_rises (hoff : s.pilot.pwrok = false) :
    s.pwrokRise = (s.setPilot (fun p => { p with pwrok := true, fails := 0, uncounted := false, stage := 1, phase := if p.perst ∨ p.extest then 0 else 1 })).beginRails :=
  if_neg (by simp [hoff])

theorem State.pwrokFall_falls (hon : s.pilot.pwrok = true) :
    s.pwrokFall = (s.setPilot (fun p => { p with phase := 0 })).packageReset.setPilot (fun p =>
      { p with pwrok := false, extest := false, enables := 0, pg := 0, enabling := none, dropping := none, thermTrip := false, wakePin := false }) :=
  if_neg (not_not_intro hon)

theorem State.perstAssert_resets (hnew : s.pilot.perst = false) (hpower : s.pilot.pwrok = true) (hmode : s.power.mode ≠ 2) :
    s.perstAssert = (s.setPilot (fun p => { p with perst := true, phase := 0 })).packageReset := by
  rw [State.perstAssert, if_neg (by simp [hnew]), if_neg (by simp [hpower, hmode])]

/-- perst_n is deasserted: the package as a cold start finds it. -/
def State.perstReleased (s : State) : State := s.packageReset.setPilot (fun p => { p with perst := false, stage := 1, phase := if p.extest then 0 else 1, wakePin := false })

theorem State.perstDeassert_starts (hheld : s.pilot.perst = true) (hpower : s.pilot.pwrok = true) :
    s.perstDeassert = if s.power.mode = 2 then s.perstReleased.beginRails else s.perstReleased := by
  rw [State.perstDeassert, if_neg (not_not_intro hheld), if_neg (not_not_intro hpower)]
  rfl

/-- The power-good of the group that is awaited: the next enable follows. -/
theorem State.pgRise_next (hon : s.pilot.enables.getLsbD g = true) (hawaited : s.pilot.enabling = some g) (hnext : s.pilot.nextGroup g = some h) :
    s.pgRise g = s.setPilot (fun p => { p with pg := p.pg ||| BitVec.ofNat 5 (2 ^ g), enabling := some h, enables := p.enables ||| BitVec.ofNat 5 (2 ^ h) }) := by
  rw [State.pgRise, if_neg (not_not_intro hon), if_neg (not_not_intro hawaited), hnext]
  rfl

/-- The power-good of the last group ends the sequence. -/
theorem State.pgRise_last (hon : s.pilot.enables.getLsbD g = true) (hawaited : s.pilot.enabling = some g) (hnext : s.pilot.nextGroup g = none) :
    s.pgRise g = s.setPilot (fun p => { p with pg := p.pg ||| BitVec.ofNat 5 (2 ^ g), enabling := none, thermTrip := false }) := by
  rw [State.pgRise, if_neg (not_not_intro hon), if_neg (not_not_intro hawaited), hnext]
  rfl

/-- A power-good that falls while no rail is awaited. -/
theorem State.pgFall_unawaited (hon : s.pilot.pg.getLsbD g = true) (hnone : s.pilot.enabling = none) :
    s.pgFall g stage =
      let t := s.setPilot (fun p => { p with pg := p.pg &&& ~~~ BitVec.ofNat 5 (2 ^ g) })
      if s.pilot.dropping = some g then t.dropNext else t := by
  rw [State.pgFall, if_neg (not_not_intro hon), if_neg (by simp [hnone])]
  rfl

theorem State.dropNext_succ (hdrop : s.pilot.dropping = some (g + 1)) :
    s.dropNext = s.setPilot (fun p => { p with dropping := some g, enables := p.enables &&& ~~~ BitVec.ofNat 5 (2 ^ g) }) := by
  simp only [State.dropNext, hdrop]

theorem State.pgTimeout_fails (hawaited : s.pilot.enabling = some g) : s.pgTimeout stage = s.railsFail g stage := by
  simp only [State.pgTimeout, hawaited]

/-- The failure of the rails is the failure of a counted start, and they begin again. -/
theorem State.railsFail_pilot (hcounted : s.pilot.uncounted = false) : ∃ n, (s.railsFail g stage).pilot =
    { (((s.setPilot (fun p => { p with rpmc0 := p.rpmc0 + 1, n := p.rpmc0 + 1, fails := n })).setPilot (fun p => { p with stage := stage })).startFails 5 g 0).pilot with
      enables := 1, pg := 0, enabling := some 0, dropping := none } := by
  obtain ⟨n, hn⟩ := State.countStart_pilot (good := true) hcounted
  exact ⟨n, by rw [State.railsFail, hn, State.beginRails, State.setPilot_pilot]⟩

/-! ### One bit of the five groups -/

theorem getLsbD_groupBit (hg : g < 5) : (BitVec.ofNat 5 (2 ^ g)).getLsbD g = true := by
  rw [BitVec.getLsbD_ofNat, Nat.testBit_two_pow_self, decide_eq_true hg, Bool.true_and]
theorem getLsbD_or_groupBit (x : BitVec 5) (hg : g < 5) : (x ||| BitVec.ofNat 5 (2 ^ g)).getLsbD g = true := by
  rw [BitVec.getLsbD_or, getLsbD_groupBit hg, Bool.or_true]
theorem getLsbD_andNot_groupBit (x : BitVec 5) (hg : g < 5) : (x &&& ~~~ BitVec.ofNat 5 (2 ^ g)).getLsbD g = false := by
  rw [BitVec.getLsbD_and, BitVec.getLsbD_not, getLsbD_groupBit hg, Bool.not_true, Bool.and_false, Bool.and_false]

end

theorem exec_pilotPwrokRise (s : State) : exec .pilotPwrokRise s = .next s.pwrokRise := rfl
theorem exec_pilotPwrokFall (s : State) : exec .pilotPwrokFall s = .next s.pwrokFall := rfl
theorem exec_perstAssert (s : State) : exec .perstAssert s = .next s.perstAssert := rfl
theorem exec_perstDeassert (s : State) : exec .perstDeassert s = .next s.perstDeassert := rfl
theorem exec_pwrPgRise (g : Fin 5) (s : State) : exec (.pwrPgRise g) s = .next (s.pgRise g) := rfl
theorem exec_pwrPgTimeout (stage : Nat) (s : State) : exec (.pwrPgTimeout stage) s = .next (s.pgTimeout stage) := rfl
theorem exec_pwrPgFall (g : Fin 5) (stage : Nat) (s : State) : exec (.pwrPgFall g stage) s = .next (s.pgFall g stage) := rfl
theorem exec_enableDeassertTimeout (s : State) : exec .enableDeassertTimeout s = .next s.dropNext := rfl

end Sys2Proof.Machine

namespace Sys2Proof.Proofs
open Sys2Proof Sys2Proof.Machine

/-- Settles O44: a start by whether its count allows it and which image it finds, with the Pilot followed through each part of the bring-up. -/
theorem starts : Obligations.Starts := by
  refine ⟨?up, ?boxes, ?noImage, ?warm, ?watchdog, ?entry, ?exit⟩
  case up =>
    intro x s k v m hphase hrails hcounted hperst hextest hfails hsince hflash hpuf himage hfatal hdies
    refine ⟨_, exec_coldStart x s, ?_⟩
    have hidle := ((State.imageChosen_tasks.trans (State.bringUp_tasks (s.imageChosen k v m) x false)).trans (State.applyDeletions_tasks _)).idle (State.packageReset_idle s)
    obtain ⟨hseqs, hgroups, hbays⟩ := hidle
    rw [State.coldStart_up hphase hrails hcounted hfails hsince hflash hpuf himage hfatal hdies, State.applyDeletions_pending, bringUp_pending, State.imageChosen_pending,
      State.applyDeletions_pilot, bringUp_pilot, State.imageChosen_pilot]
    exact ⟨rfl, rfl, rfl, rfl, rfl, rfl, rfl, rfl, hseqs, hgroups, hbays, rfl⟩
  case boxes =>
    intro x s hphase hrails hcounted hmany
    refine ⟨_, exec_coldStart x s, ?_⟩
    rw [State.coldStart_boxes hphase hrails hcounted hmany, boxroom_pilot, boxroom_pending, State.setPilot_pending, State.packageReset_pending, State.setPilot_pilot]
    obtain ⟨hseqs, -, -⟩ := (State.boxroom_tasks (s.packageReset.setPilot (fun p => { p with rpmc0 := p.rpmc0 + 1, n := p.rpmc0 + 1 }))).idle (State.packageReset_idle s)
    exact ⟨State.boxroom_inBoxroom _, rfl, rfl, rfl, hseqs, rfl⟩
  case noImage =>
    intro x s hphase hrails hcounted hfails hsince hflash hpuf himage
    refine ⟨_, exec_coldStart x s, ?_⟩
    rw [State.coldStart_noImage hphase hrails hcounted hfails hsince hflash hpuf himage, State.startFails_pilot, State.startFails_pending, State.startFails_seqs, State.setPilot_pilot]
    exact ⟨rfl, rfl, rfl, rfl⟩
  case warm =>
    intro x s u hphase hcount hfatal hdies
    rw [exec_warmRestart, State.warmRestart_counted hphase hcount hfatal hdies]
  case watchdog =>
    intro stage detail s hphase
    refine ⟨_, exec_startWatchdog stage detail s, ?_⟩
    rw [State.watchdog_fails hphase, State.startFails_pilot, State.startFails_pending, State.setPilot_pilot, State.setPilot_pending]
    exact ⟨rfl, rfl, rfl⟩
  case entry =>
    intro s hmode hpower hnew
    refine ⟨_, exec_extestEntry s, ?_⟩
    rw [State.extestEntry_enters hmode hpower hnew, State.packageReset_pilot, State.packageReset_seqs, State.packageReset_pending, State.setPilot_pilot]
    exact ⟨rfl, rfl, rfl, if_pos (.inr (.inl rfl)), rfl, rfl⟩
  case exit =>
    intro s hin
    rw [exec_extestExit, State.extestExit_leaves hin]
    rfl

/-- Settles O45: each pin's change of the Pilot, the bit of a group by the bit it sets or clears. -/
theorem boardPins : Obligations.BoardPins := by
  refine ⟨?rise, ?fall, ?assert, ?deassert, ?leaveOff, ?next, ?last, ?timeout, ?ignored, ?dropped, ?dropTimeout⟩
  case rise =>
    intro s hoff hperst hextest
    refine ⟨_, exec_pilotPwrokRise s, ?_⟩
    rw [State.pwrokRise_rises hoff]
    exact ⟨rfl, rfl, if_neg (by simp [hperst, hextest]), rfl, rfl, rfl, rfl⟩
  case fall =>
    intro s hon
    refine ⟨_, exec_pilotPwrokFall s, ?_⟩
    rw [State.pwrokFall_falls hon]
    exact ⟨rfl, rfl, rfl, State.packageReset_unstarted rfl, rfl, rfl, rfl, rfl, rfl⟩
  case assert =>
    intro s hnew hpower hmode
    refine ⟨_, exec_perstAssert s, ?_⟩
    rw [State.perstAssert_resets hnew hpower hmode]
    exact ⟨rfl, State.packageReset_unstarted rfl, rfl, rfl, rfl⟩
  case deassert =>
    intro s hheld hpower hextest hmode
    refine ⟨_, exec_perstDeassert s, ?_⟩
    rw [State.perstDeassert_starts hheld hpower, if_neg hmode]
    exact ⟨rfl, if_neg (by simp [State.packageReset_pilot, hextest]), rfl, rfl, rfl⟩
  case leaveOff =>
    intro s hheld hpower hextest hmode
    refine ⟨_, exec_perstDeassert s, ?_⟩
    rw [State.perstDeassert_starts hheld hpower, if_pos hmode]
    exact ⟨rfl, if_neg (by simp [State.packageReset_pilot, hextest]), rfl, rfl, rfl, rfl⟩
  case next =>
    intro g h s hon hawaited hnext hh
    refine ⟨_, exec_pwrPgRise g s, ?_⟩
    rw [State.pgRise_next hon hawaited hnext]
    exact ⟨getLsbD_or_groupBit _ g.isLt, getLsbD_or_groupBit _ hh, rfl, rfl⟩
  case last =>
    intro s hon hawaited
    refine ⟨_, (exec_pwrPgRise 4 s).trans (congrArg Host.Outcome.next (State.pgRise_last (g := 4) hon hawaited rfl)), ?_⟩
    exact ⟨getLsbD_or_groupBit _ (by decide), rfl, rfl, rfl⟩
  case timeout =>
    intro stage g s hawaited hcounted hcold
    refine ⟨_, exec_pwrPgTimeout stage s, ?_⟩
    obtain ⟨n, hpilot⟩ := State.railsFail_pilot (g := g) (stage := stage) hcounted
    rw [State.pgTimeout_fails hawaited, hpilot, State.startFails_pilot, State.setPilot_pilot, State.setPilot_pilot, Pilot.failure, hcold]
    exact ⟨rfl, rfl, rfl, rfl⟩
  case ignored =>
    intro g stage s hon hnone hother
    refine ⟨_, exec_pwrPgFall g stage s, ?_⟩
    rw [State.pgFall_unawaited hon hnone, if_neg hother]
    exact ⟨getLsbD_andNot_groupBit _ g.isLt, rfl, rfl, rfl⟩
  case dropped =>
    intro g stage s hg hon hnone hdrop
    refine ⟨_, exec_pwrPgFall ⟨g + 1, hg⟩ stage s, ?_⟩
    have hnext : (s.setPilot (fun p => { p with pg := p.pg &&& ~~~ BitVec.ofNat 5 (2 ^ (g + 1)) })).pilot.dropping = some (g + 1) := hdrop
    rw [State.pgFall_unawaited hon hnone, if_pos hdrop, State.dropNext_succ hnext]
    exact ⟨rfl, getLsbD_andNot_groupBit _ (by omega), rfl⟩
  case dropTimeout =>
    intro g s hg hdrop
    refine ⟨_, exec_enableDeassertTimeout s, ?_⟩
    rw [State.dropNext_succ hdrop]
    exact ⟨rfl, getLsbD_andNot_groupBit _ (by omega), rfl⟩

end Sys2Proof.Proofs
end

section
/-! PROOFS. Security commands (19_boot_security_debug.md R375, R380-R384; Table SE-8): where they are allowed, and where they are not. -/
namespace Sys2Proof.Machine

/-! ### A command and its result (R384) -/
section
variable {s : State} {w : Writer} {cmd off : Nat} (f : State → State)

theorem State.secCmd_allowed (hman : isManager w = true) : s.secCmd w cmd true f = f (s.keepPilot (s.wrote Reg.SEC_CMD [] cmd)) := by
  rw [State.secCmd, hman, Bool.and_true, if_pos rfl]

theorem State.secCmd_refused (hman : isManager w = true) : s.secCmd w cmd false f = s.keepPilot (s.secResult w Reg.SEC_CMD.base 5) := by
  rw [State.secCmd, Bool.and_false, if_neg Bool.false_ne_true, State.asManager_of_manager _ hman]

theorem State.secResult_ok : s.secResult w off 0 = s.setFld Reg.SEC_CMD_STAT [] F.SEC_CMD_STAT_RESULT 0 := by
  rw [State.secResult, if_pos rfl]

/-- A command that is not allowed: result 5, and one record. -/
theorem State.secResult_state : s.secResult w off 5 = (s.setFld Reg.SEC_CMD_STAT [] F.SEC_CMD_STAT_RESULT 5).refuse w off causeState 5 := by
  have hbad : ¬ (5 : Nat) = 0 := by decide
  rw [State.secResult, if_neg hbad, if_pos (Or.inl rfl)]

theorem cmdStat_beside : BesideRecords (Reg.SEC_CMD_STAT.addr []) := .inl (by decide)

theorem State.result_secResult_state : (s.secResult w off 5).fld Reg.SEC_CMD_STAT [] F.SEC_CMD_STAT_RESULT = 5 := by
  rw [State.secResult_state, State.fld]
  exact (congrArg (fun x => fieldOf x _ _) (State.reg_log_beside _ _ cmdStat_beside (by decide))).trans (State.fld_setFld_self _ _ _ _ _ (by decide) (by decide))

theorem State.prod_secResult_state :
    (s.secResult w off 5).fld Reg.ERR_PROD [] F.ERR_PROD_PROD = (s.fld Reg.ERR_PROD [] F.ERR_PROD_PROD + 1) % 2 ^ 32 := by
  rw [State.secResult_state, State.fld_prod_refuse, State.fld_setFld_ne _ _ _ _ _ _ _ _ (by decide)]

end

/-! ### Nonces, tokens, debug (R380-R383) -/
section
variable {s t u : State} {w : Writer}

theorem State.newNonce_draws {k : Nat} (hman : isManager w = true) (hdraw : (s.keepPilot (s.wrote Reg.SEC_CMD [] 1)).draw = (k, u)) :
    s.newNonce w = (u.setNonce (Config.random k) true).setFld Reg.SEC_CMD_STAT [] F.SEC_CMD_STAT_RESULT 0 := by
  rw [State.newNonce, State.secCmd_allowed _ hman, hdraw]
  exact State.secResult_ok

/-- A token that passes every check. -/
theorem State.applyToken_accepted {vendorSig ownerSig : Bool} {a : Nat} (hman : isManager w = true) (ht : t = s.keepPilot (s.wrote Reg.SEC_CMD [] 2))
    (ha : a = t.fld Reg.SEC_TOKEN_ADDR [] F.SEC_TOKEN_ADDR_ADDR) (hok : t.tokenResult false vendorSig ownerSig = 0)
    (hu : u = t.keepPilot ((t.setNonce 0 false).setFld Reg.SEC_CMD_STAT [] F.SEC_CMD_STAT_RESULT 0)) :
    s.applyToken w false vendorSig ownerSig = u.tokenAct (t.peekNat (a + 4) 1) (t.peekNat (a + 56) 64) := by
  rw [State.applyToken, State.secCmd_allowed _ hman, ← ht]
  simp only [hok, State.secResult_ok, if_true, ha, hu]

theorem State.debugClose_closes (hman : isManager w = true) (hroom : s.inBoxroom = false) (ht : t = s.keepPilot (s.wrote Reg.SEC_CMD [] 3)) :
    s.debugClose w = (t.setDebug 0).setFld Reg.SEC_CMD_STAT [] F.SEC_CMD_STAT_RESULT 0 := by
  rw [State.debugClose, hroom, Bool.not_false, State.secCmd_allowed _ hman, ← ht, State.secResult_ok]

end

/-! ### SVN_MIN (R375) -/

/-- Showing the Pilot's counters changes registers alone. -/
theorem State.showPilot_same (s : State) : SameButRegs s s.showPilot := by
  have hdevid (g : Nat → DWord) (ws : List Nat) (t : State) : SameButRegs t (ws.foldl (fun t w => t.setReg Reg.SEC_DEVID [w] (g w)) t) := by
    induction ws generalizing t with
    | nil => exact SameButRegs.refl t
    | cons w ws ih => exact (State.setReg_same _ _ _ _).trans (ih _)
  have hcounters : SameButRegs s s.countersShown :=
    (((((State.setFld_same _ _ _ _ _).trans (State.setFld_same _ _ _ _ _)).trans (State.setFld_same _ _ _ _ _)).trans (State.setFld_same _ _ _ _ _)).trans
      (State.setFld_same _ _ _ _ _)).trans (State.setFld_same _ _ _ _ _)
  have hshown : SameButRegs s (if s.pilot.lifeCycle = 0 then s.countersShown else
      (List.range 2).foldl (fun t w => t.setReg Reg.SEC_DEVID [w] (Config.deviceValue (4 + s.pilot.lifeCycle) w)) s.countersShown) := by
    split_ifs
    · exact hcounters
    · exact hcounters.trans (hdevid _ _ _)
  rw [State.showPilot_eq, hshown.samePilot.keepPilot]
  exact hshown

section
variable {q : RegSpec} {js : List Nat}

/-- The registers that show the Pilot are SEC_STATE, SEC_START and SEC_DEVID. -/
theorem State.showPilot_reg_beside (s : State) (hstate : Reg.SEC_STATE.addr [] ≠ q.addr js) (hstart : Reg.SEC_START.addr [] ≠ q.addr js)
    (hdevid : ∀ w, Reg.SEC_DEVID.addr [w] ≠ q.addr js) : s.showPilot.reg q js = s.reg q js := by
  have hlist (g : Nat → DWord) (ws : List Nat) (t : State) : (ws.foldl (fun t w => t.setReg Reg.SEC_DEVID [w] (g w)) t).reg q js = t.reg q js := by
    induction ws generalizing t with
    | nil => rfl
    | cons w ws ih => rw [List.foldl_cons, ih, State.reg_setReg_ne _ _ _ _ _ _ (hdevid w)]
  have hcounters : s.countersShown.reg q js = s.reg q js := by
    rw [State.countersShown, State.reg_setFld_ne _ _ _ _ _ _ _ hstart, State.reg_setFld_ne _ _ _ _ _ _ _ hstart, State.reg_setFld_ne _ _ _ _ _ _ _ hstate,
      State.reg_setFld_ne _ _ _ _ _ _ _ hstate, State.reg_setFld_ne _ _ _ _ _ _ _ hstate, State.reg_setFld_ne _ _ _ _ _ _ _ hstate]
  rw [State.showPilot_eq, State.reg_keepPilot]
  split_ifs
  · exact hcounters
  · exact (hlist _ _ _).trans hcounters

end

theorem State.result_showPilot (s : State) : s.showPilot.fld Reg.SEC_CMD_STAT [] F.SEC_CMD_STAT_RESULT = s.fld Reg.SEC_CMD_STAT [] F.SEC_CMD_STAT_RESULT := by
  have hdevid (w : Nat) : Reg.SEC_DEVID.addr [w] ≠ Reg.SEC_CMD_STAT.addr [] := by simp only [RegSpec.addr, Reg.SEC_DEVID, Reg.SEC_CMD_STAT, addrOf]; omega
  rw [State.fld, State.showPilot_reg_beside s (by decide) (by decide) hdevid]
  rfl

section
variable {s : State} {w : Writer}

/-- SVN_MIN raised to the SVN of the running image. -/
def State.svnCommitted (s : State) : State :=
  ((s.wrote Reg.SEC_CMD [] 4).setFld Reg.SEC_CMD_STAT [] F.SEC_CMD_STAT_RESULT 0).setPilot (fun p => { p with svnMin := max p.svnMin (s.fld Reg.SEC_STATE [] F.SEC_STATE_SVN) })

theorem State.commitSvn_commits (hman : isManager w = true) (hroom : s.inBoxroom = false) (hcycle : s.pilot.lifeCycle = 1) : s.commitSvn w = s.svnCommitted.showPilot := by
  have hallowed : (!s.inBoxroom && s.pilot.lifeCycle == 1) = true := by simp [hroom, hcycle]
  have hsvn : (s.wrote Reg.SEC_CMD [] 4).fld Reg.SEC_STATE [] F.SEC_STATE_SVN = s.fld Reg.SEC_STATE [] F.SEC_STATE_SVN := State.fld_setReg_ne _ _ _ _ _ _ _ (by decide)
  rw [State.commitSvn, hallowed, State.secCmd_allowed _ hman, (State.wrote_samePilot _ _ _ _).keepPilot, State.secResult_ok, State.keepPilot_setFld, hsvn, State.svnCommitted]

theorem State.svnCommitted_facts : s.svnCommitted.pilot = { s.pilot with svnMin := max s.pilot.svnMin (s.fld Reg.SEC_STATE [] F.SEC_STATE_SVN) } ∧
    s.svnCommitted.fld Reg.SEC_CMD_STAT [] F.SEC_CMD_STAT_RESULT = 0 ∧ s.svnCommitted.mem = s.mem ∧ s.svnCommitted.seqs = s.seqs := by
  refine ⟨rfl, ?_, ?_, ?_⟩
  · rw [State.svnCommitted, State.fld_setPilot]
    exact State.fld_setFld_self _ _ _ _ _ (by decide) (by decide)
  · rw [State.svnCommitted, State.setPilot_mem, State.setFld_mem, State.wrote, State.setReg_mem]
  · rw [State.svnCommitted, State.setPilot_seqs, State.setFld_seqs, State.wrote, State.setReg_seqs]

/-! ### RETRY and RECOVER (R372, R375) -/

/-- A register that a package reset does not keep reads its reset value. -/
theorem Tbl.get_filter_dropped {α : Type} (p : Nat × α → Bool) (t : Tbl α) (d : α) (k : Nat) (hp : ∀ v, p (k, v) = false) : Tbl.get (t.filter p) d k = d := by
  induction t with
  | nil => rfl
  | cons e t ih =>
    obtain ⟨j, v⟩ := e
    rw [List.filter_cons]
    split_ifs with hkept
    · have hne : j ≠ k := fun h => by rw [h, hp] at hkept; cases hkept
      rw [Tbl.get, if_neg hne, ih]
    · exact ih

theorem State.packageReset_inBoxroom (s : State) : s.packageReset.inBoxroom = false := by
  have hdropped (v : DWord) : (decide (Reg.SEC_CAUSE.base ≤ Reg.SEC_STATE.addr []) && decide (Reg.SEC_STATE.addr [] < Reg.SEC_CAUSE.base + 0xC0) ||
      Reg.SEC_STATE.addr [] == Reg.CLK_EVT.base && bitAt v F.CLK_EVT_REF_BAD.lo) = false := by
    have hlow : decide (Reg.SEC_CAUSE.base ≤ Reg.SEC_STATE.addr []) = false := by decide
    have hother : (Reg.SEC_STATE.addr [] == Reg.CLK_EVT.base) = false := by decide
    rw [hlow, hother, Bool.false_and, Bool.false_and, Bool.or_false]
  have hreg : s.packageReset.reg Reg.SEC_STATE [] = resetOf Reg.SEC_STATE.fields 0 := Tbl.get_filter_dropped _ _ _ _ hdropped
  rw [State.inBoxroom, State.bit, State.fld, hreg]
  rfl

theorem State.retryStart_retries (hman : isManager w = true) (hroom : s.inBoxroom = true) : s.retryStart w = (s.wrote Reg.SEC_CMD [] 5).retryNow := by
  rw [State.retryStart, hroom, State.secCmd_allowed _ hman, (State.wrote_samePilot _ _ _ _).keepPilot]

/-- An image put into the slot that the last start did not try. -/
def Pilot.recovered (p : Pilot) (slot : Nat × Option (BitVec 512)) : Pilot :=
  if 1 - p.lastTried = 0 then { p with slotA := some slot, active := 0 } else { p with slotB := some slot, active := 1 }

theorem Pilot.recovered_active (p : Pilot) (slot : Nat × Option (BitVec 512)) : (p.recovered slot).active = 1 - p.lastTried := by
  rw [Pilot.recovered]
  split_ifs with h
  · exact h.symm
  · show 1 = 1 - p.lastTried
    omega

theorem Pilot.recovered_slot (p : Pilot) (slot : Nat × Option (BitVec 512)) :
    (if 1 - p.lastTried = 0 then (p.recovered slot).slotA else (p.recovered slot).slotB) = some slot := by
  rw [Pilot.recovered]
  split_ifs
  · rfl
  · rfl

/-- RECOVER of an image that has its form, is readable, verifies and is no older than SVN_MIN. -/
theorem State.recover_writes {u : State} {a n : Nat} (hman : isManager w = true) (hroom : s.inBoxroom = true) (hu : u = s.keepPilot (s.wrote Reg.SEC_CMD [] 6))
    (ha : a = u.fld Reg.SEC_TOKEN_ADDR [] F.SEC_TOKEN_ADDR_ADDR) (hn : n = u.fld Reg.SEC_TOKEN_LEN [] F.SEC_TOKEN_LEN_LEN) (hread : u.unreadable a n = false)
    (hmagic : u.peekNat a 4 = 0x4B53564F) (hsize : u.peekNat (a + 8) 4 ≤ 14680064) (hlen : n = 128 + u.peekNat (a + 8) 4 + 29792)
    (hsvn : s.pilot.svnMin ≤ u.peekNat (a + 4) 2) :
    ∃ m, s.recover w false true = (u.setPilot (fun p => p.recovered (u.peekNat (a + 4) 2, some m))).retryNow := by
  have hlong : ¬ n < 128 + 29792 := by omega
  have hform : ¬ (u.peekNat a 4 ≠ 0x4B53564F ∨ 14 * 1048576 < u.peekNat (a + 8) 4 ∨ n ≠ 128 + u.peekNat (a + 8) 4 + 29792) := by
    rintro (h | h | h)
    · exact h hmagic
    · omega
    · exact h hlen
  have hmin : ¬ u.peekNat (a + 4) 2 < u.pilot.svnMin := by rw [hu] at hsvn ⊢; exact Nat.not_lt.mpr hsvn
  refine ⟨BitVec.ofNat 512 (ofLeBytes (shake256 ((List.range n).map (fun k => (u.peekByte (a + k)).1)) 64)), ?_⟩
  rw [State.recover, hroom, State.secCmd_allowed _ hman, ← hu]
  simp only [← ha, ← hn, hlong, hread, hform, hmin, Bool.false_eq_true, or_self, not_true, if_false]
  rfl

end

theorem exec_newNonce (w : Writer) (s : State) : exec (.newNonce w) s = .next (s.keepPilot (s.newNonce w)) := rfl
theorem exec_applyToken (w : Writer) (fails vendorSig ownerSig : Bool) (s : State) :
    exec (.applyToken w fails vendorSig ownerSig) s = .next (s.applyToken w fails vendorSig ownerSig) := rfl
theorem exec_debugClose (w : Writer) (s : State) : exec (.debugClose w) s = .next (s.keepPilot (s.debugClose w)) := rfl
theorem exec_commitSvn (w : Writer) (s : State) : exec (.commitSvn w) s = .next (s.commitSvn w) := rfl
theorem exec_retry (w : Writer) (s : State) : exec (.retry w) s = .next (s.retryStart w) := rfl
theorem exec_recover (w : Writer) (fails sig : Bool) (s : State) : exec (.recover w fails sig) s = .next (s.recover w fails sig) := rfl

/-- Both commands that Boxroom mode does not allow end with result 5. -/
theorem exec_refused {c : Instr} {w : Writer} {s : State} (hc : c ∈ [Instr.debugClose w, .commitSvn w]) (hman : isManager w = true) (hroom : s.inBoxroom = true) :
    exec c s = .next (s.keepPilot (s.secResult w Reg.SEC_CMD.base 5)) := by
  rcases List.mem_pair.mp hc with rfl | rfl
  · rw [exec_debugClose, State.debugClose, hroom, Bool.not_true, State.secCmd_refused _ hman]
    rfl
  · rw [exec_commitSvn, State.commitSvn, hroom, Bool.not_true, Bool.false_and, State.secCmd_refused _ hman]

end Sys2Proof.Machine

namespace Sys2Proof.Proofs
open Sys2Proof Sys2Proof.Machine

/-- Settles O46: a command by whether it is allowed, and what it leaves in the Pilot and in SEC_CMD_STAT. -/
theorem securityCommands : Obligations.SecurityCommands := by
  refine ⟨?nonce, ?token, ?close, ?svn, ?retry, ?recover, ?refused⟩
  case nonce =>
    intro w s u k hman hdraw
    rw [exec_newNonce, State.newNonce_draws hman hdraw]
  case token =>
    intro w vendorSig ownerSig s t u a hman ht ha hok hu
    rw [exec_applyToken, State.applyToken_accepted hman ht ha hok hu]
  case close =>
    intro w s t hman hroom ht
    rw [exec_debugClose, State.debugClose_closes hman hroom ht]
  case svn =>
    intro w s hman hroom hcycle
    obtain ⟨hpilot, hresult, hmem, hseqs⟩ := State.svnCommitted_facts (s := s)
    refine ⟨_, exec_commitSvn w s, ?_⟩
    rw [State.commitSvn_commits hman hroom hcycle, showPilot_pilot, State.result_showPilot]
    exact ⟨hpilot, hresult, ((State.showPilot_same _).field State.mem).trans hmem, ((State.showPilot_same _).field State.seqs).trans hseqs⟩
  case retry =>
    intro w s hman hroom
    refine ⟨_, exec_retry w s, ?_⟩
    rw [State.retryStart_retries hman hroom]
    exact ⟨rfl, rfl, State.packageReset_inBoxroom _, rfl, rfl, rfl⟩
  case recover =>
    intro w s u a n hman hroom hu ha hn hread hmagic hsize hlen hsvn
    obtain ⟨m, hm⟩ := State.recover_writes hman hroom hu ha hn hread hmagic hsize hlen hsvn
    have hpilot : u.pilot = s.pilot := by rw [hu]; rfl
    refine ⟨_, exec_recover w false true s, ?_⟩
    rw [hm, ← hpilot]
    exact ⟨Pilot.recovered_active _ _, rfl, State.packageReset_inBoxroom _, congrArg (Option.map (·.1)) (Pilot.recovered_slot u.pilot (u.peekNat (a + 4) 2, some m))⟩
  case refused =>
    intro c w s hc hman hroom
    refine ⟨_, exec_refused hc hman hroom, ?_⟩
    rw [State.fld_keepPilot, State.fld_keepPilot, State.keepPilot_pilot]
    exact ⟨State.result_secResult_state, rfl, State.prod_secResult_state⟩

end Sys2Proof.Proofs
end

section
/-! PROOFS. SPDM and TDISP on a function's mailbox (19_boot_security_debug.md R376-R379; R321). -/
namespace Sys2Proof.Machine

/-! ### A mailbox that answers -/
section
variable {s : State} {f : InstId} {n : Nat} (go : State → State)

theorem State.onMailbox_of_mailbox (h : Mailbox s f) : s.onMailbox f go = go s := by
  obtain ⟨hup, hphase, hfn⟩ := h
  have hready : ¬ (s.pilot.phase < 3 ∨ f.val ≠ 0 ∧ s.vfOn = true ∧ ¬ s.vfReady = true) := by
    rw [hphase]
    rcases hfn with h0 | ⟨-, -, hready⟩
    · omega
    · simp [hready]
  have hserved : ¬ (f.val ≠ 0 ∧ (s.inBoxroom = true ∨ ¬ s.vfOn = true)) := by
    rcases hfn with h0 | ⟨hroom, hon, -⟩
    · exact fun h => h.1 h0
    · simp [hroom, hon]
  rw [State.onMailbox, if_neg (not_not_intro hup), if_neg hready, if_neg hserved]

theorem State.spdmAt_of_stage (h : Mailbox s f) (hstage : n ≤ (s.spdmOf f).stage) : s.spdmAt f n go = go s := by
  rw [State.spdmAt, State.onMailbox_of_mailbox _ h, if_pos hstage]

theorem State.inSession_of_session (h : Mailbox s f) (hopen : (s.spdmOf f).session = 2) : s.inSession f go = go s := by
  rw [State.inSession, State.onMailbox_of_mailbox _ h, if_pos hopen]

end

section
variable (s : State) (f : InstId)

theorem State.respond_samePilot (code : Nat) : SamePilot s (s.respond f code) := ⟨rfl, rfl⟩
theorem State.setSpdm_respond_samePilot (x : Spdm) (code : Nat) : SamePilot s ((s.setSpdm f x).respond f code) := ⟨rfl, rfl⟩
theorem State.toStage_respond_samePilot (n code : Nat) : SamePilot s ((s.toStage f n).respond f code) := ⟨rfl, rfl⟩
theorem State.spdmError_samePilot (code : Nat) : SamePilot s (s.spdmError f code) := ⟨rfl, rfl⟩

end

/-! ### Measurements and sessions (R376, R377) -/
section
variable {s : State} {f : InstId} {x : Spdm}

theorem State.getMeasurements_block {index : Fin 256} {b : Nat} (h : Mailbox s f) (hstage : 3 ≤ (s.spdmOf f).stage) (hnumber : index.val ≠ 0) (hall : index.val ≠ 0xFF)
    (hb : s.block f index = some b) : s.getMeasurements f index false = s.reply { who := .fn f, tag := 0x160, len := 64, data := b } := by
  rw [State.getMeasurements, State.spdmAt_of_stage _ h hstage]
  simp only [hnumber, hall, hb, if_false, Option.map_some, Bool.false_eq_true]

theorem State.keyExchange_opens (h : Mailbox s f) (hx : x = s.spdmOf f) (hstage : 3 ≤ x.stage) (hnone : x.session = 0) :
    s.keyExchange f = (s.setSpdm f { x with session := 1, number := x.number + 1, updates := 0 }).respond f 0x64 := by
  subst hx
  rw [State.keyExchange, State.spdmAt_of_stage _ h hstage, if_neg (not_not_intro hnone)]

/-- One session per function. -/
theorem State.keyExchange_second (h : Mailbox s f) (hx : x = s.spdmOf f) (hstage : 3 ≤ x.stage) (hopen : x.session ≠ 0) : s.keyExchange f = s.spdmError f 0x0A := by
  subst hx
  rw [State.keyExchange, State.spdmAt_of_stage _ h hstage, if_pos hopen]

theorem State.spdmFinish_establishes (h : Mailbox s f) (hx : x = s.spdmOf f) (hopen : x.session = 1) :
    s.spdmFinish f true = (s.setSpdm f { x with session := 2 }).respond f 0x65 := by
  subst hx
  rw [State.spdmFinish, State.onMailbox_of_mailbox _ h, if_neg (not_not_intro hopen), if_pos rfl]

theorem State.chunkSend_appends {chunk : List Byte} (h : Mailbox s f) (hx : x = s.spdmOf f) (hstage : 3 ≤ x.stage) (hchunk : chunk.length ≤ 4096)
    (hall : (x.chunks.map List.length).foldl (· + ·) chunk.length ≤ 65536) :
    s.chunkSend f chunk false = (s.setSpdm f { x with chunks := x.chunks ++ [chunk] }).respond f 0x05 := by
  subst hx
  have hfits : ¬ (4096 < chunk.length ∨ 65536 < ((s.spdmOf f).chunks.map List.length).foldl (· + ·) chunk.length) := by omega
  rw [State.chunkSend, State.spdmAt_of_stage _ h hstage, if_neg hfits]
  rfl

end

/-! ### TDISP (R321, R378) -/

theorem State.reportRanges_length (s : State) (i : Nat) : (s.reportRanges i).length = 8 := rfl

section
variable {s t : State} {v : VfId} (h : Mailbox s v.succ) (hopen : (s.spdmOf v.succ).session = 2)
include h hopen

theorem State.lockInterface_locks (hunlocked : s.tdi (v + 1) = 0) (hallowed : s.lockRefused (v + 1) = false) :
    s.lockInterface v = (s.setTdi (v + 1) 1).tdisp v 0x03 := by
  rw [State.lockInterface, State.inSession_of_session _ h hopen, if_neg (by simp [hunlocked, hallowed])]

/-- Outside the Deployed life cycle no TDI is locked. -/
theorem State.lockInterface_refused (hcycle : s.pilot.lifeCycle ≠ 1) : s.lockInterface v = s.tdispError v := by
  have hrefused : s.lockRefused (v + 1) = true := by simp [State.lockRefused, hcycle]
  rw [State.lockInterface, State.inSession_of_session _ h hopen, if_pos (Or.inr hrefused)]

theorem State.startInterface_runs (hlocked : s.tdi (v + 1) = 1) : s.startInterface v true = (s.setTdi (v + 1) 2).tdisp v 0x06 := by
  rw [State.startInterface, State.inSession_of_session _ h hopen, if_pos ⟨hlocked, rfl⟩]

theorem State.stopInterface_resets (hthere : s.inst (v + 1) ≠ 0) (ht : t = s.abortReset (v + 1) (if s.flr.get 0 (v + 1) = 1 then 1 else 2)) :
    s.stopInterface v = (t.setTdi (v + 1) 0).tdisp v 0x07 := by
  rw [State.stopInterface, State.inSession_of_session _ h hopen]
  simp only [hthere, if_false, ht]

/-- One answer for each range of the report. -/
theorem State.interfaceReport_tells (hlocked : s.tdi (v + 1) = 1 ∨ s.tdi (v + 1) = 2) :
    s.interfaceReport v = { s with replies := ((s.reportRanges (v + 1)).map
      (fun r => ({ who := .fn v.succ, tag := 0x304, len := r.2.2, data := r.1 * 2 ^ 64 + r.2.1 } : Reply))).reverse ++ s.replies } := by
  rw [State.interfaceReport, State.inSession_of_session _ h hopen, if_pos hlocked, State.foldl_reply]

end

theorem exec_getVersion (f : InstId) (s : State) : exec (.getVersion f) s = .next (s.keepPilot (s.onMailbox f (fun s => (s.toStage f 1).respond f 0x04))) := rfl
theorem exec_getCapabilities (f : InstId) (s : State) : exec (.getCapabilities f) s = .next (s.keepPilot (s.spdmAt f 1 (fun s => (s.toStage f 2).respond f 0x61))) := rfl
theorem exec_negotiateAlgorithms (f : InstId) (s : State) : exec (.negotiateAlgorithms f) s = .next (s.keepPilot (s.spdmAt f 2 (fun s => (s.toStage f 3).respond f 0x63))) := rfl
theorem exec_getMeasurements (f : InstId) (index : Fin 256) (signed : Bool) (s : State) :
    exec (.getMeasurements f index signed) s = .next (s.keepPilot (s.getMeasurements f index signed)) := rfl
theorem exec_keyExchange (f : InstId) (s : State) : exec (.keyExchange f) s = .next (s.keepPilot (s.keyExchange f)) := rfl
theorem exec_finish (f : InstId) (ok : Bool) (s : State) : exec (.finish f ok) s = .next (s.keepPilot (s.spdmFinish f ok)) := rfl
theorem exec_heartbeat (f : InstId) (s : State) : exec (.heartbeat f) s = .next (s.keepPilot (s.inSession f (fun s => s.respond f 0x68))) := rfl
theorem exec_keyUpdate (f : InstId) (s : State) : exec (.keyUpdate f) s =
    .next (s.keepPilot (s.inSession f (fun s => (s.setSpdm f { (s.spdmOf f) with updates := (s.spdmOf f).updates + 1 }).respond f 0x69))) := rfl
theorem exec_endSession (f : InstId) (s : State) : exec (.endSession f) s =
    .next (s.keepPilot (s.inSession f (fun s => (s.setSpdm f { (s.spdmOf f) with session := 0 }).respond f 0x6C))) := rfl
theorem exec_chunkSend (f : InstId) (chunk : List Byte) (last : Bool) (s : State) : exec (.chunkSend f chunk last) s = .next (s.keepPilot (s.chunkSend f chunk last)) := rfl
theorem exec_setMigrationSecret (v : VfId) (x : BitVec 256) (s : State) : exec (.setMigrationSecret v x) s = .next (s.keepPilot (s.setSecret v x)) := rfl
theorem exec_ideKm (f : InstId) (s : State) : exec (.ideKm f) s =
    .next (s.keepPilot (s.inSession f (fun s => ({ s with ide := s.ide.set false f.val true }).respond f 0x7E))) := rfl
theorem exec_lockInterfaceRequest (v : VfId) (s : State) : exec (.lockInterfaceRequest v) s = .next (s.keepPilot (s.lockInterface v)) := rfl
theorem exec_startInterfaceRequest (v : VfId) (ok : Bool) (s : State) : exec (.startInterfaceRequest v ok) s = .next (s.keepPilot (s.startInterface v ok)) := rfl
theorem exec_stopInterface (v : VfId) (s : State) : exec (.stopInterface v) s = .next (s.keepPilot (s.stopInterface v)) := rfl
theorem exec_getDeviceInterfaceReport (v : VfId) (s : State) : exec (.getDeviceInterfaceReport v) s = .next (s.keepPilot (s.interfaceReport v)) := rfl

/-- A request that the negotiation opens is answered with its code. -/
theorem exec_answered {c : Instr} {code : Nat} {f : InstId} (s : State)
    (hc : (c, code) ∈ [(Instr.getDigests f, 0x01), (.getCertificate f, 0x02), (.challenge f, 0x03), (.chunkGet f, 0x06)]) :
    exec c s = .next (s.keepPilot (s.spdmAt f 3 (fun s => s.respond f code))) := by
  simp only [List.mem_cons, List.not_mem_nil, or_false, Prod.mk.injEq] at hc
  rcases hc with ⟨rfl, rfl⟩ | ⟨rfl, rfl⟩ | ⟨rfl, rfl⟩ | ⟨rfl, rfl⟩
  · rfl
  · rfl
  · rfl
  · rfl

end Sys2Proof.Machine

namespace Sys2Proof.Proofs
open Sys2Proof Sys2Proof.Machine

/-- Settles O47: a request of a mailbox that answers, by the stage of the negotiation or the session it needs. -/
theorem spdmMessages : Obligations.SpdmMessages := by
  refine ⟨?version, ?capabilities, ?algorithms, ?answered, ?measurement, ?exchange, ?finish, ?heartbeat, ?update, ?finished, ?chunk, ?second, ?secret, ?keys, ?lock, ?start,
    ?stop, ?report, ?lockRefused⟩
  case version =>
    intro f s h
    rw [exec_getVersion, State.onMailbox_of_mailbox _ h, (State.toStage_respond_samePilot _ _ _ _).keepPilot]
  case capabilities =>
    intro f s h hstage
    rw [exec_getCapabilities, State.spdmAt_of_stage _ h hstage, (State.toStage_respond_samePilot _ _ _ _).keepPilot]
  case algorithms =>
    intro f s h hstage
    rw [exec_negotiateAlgorithms, State.spdmAt_of_stage _ h hstage, (State.toStage_respond_samePilot _ _ _ _).keepPilot]
  case answered =>
    intro c code f s hc h hstage
    rw [exec_answered s hc, State.spdmAt_of_stage _ h hstage, (State.respond_samePilot _ _ _).keepPilot]
  case measurement =>
    intro f index s b h hstage hnumber hall hb
    rw [exec_getMeasurements, State.getMeasurements_block h hstage hnumber hall hb, (State.reply_samePilot _ _).keepPilot]
  case exchange =>
    intro f s x h hx hstage hnone
    rw [exec_keyExchange, State.keyExchange_opens h hx hstage hnone, (State.setSpdm_respond_samePilot _ _ _ _).keepPilot]
  case finish =>
    intro f s x h hx hopen
    rw [exec_finish, State.spdmFinish_establishes h hx hopen, (State.setSpdm_respond_samePilot _ _ _ _).keepPilot]
  case heartbeat =>
    intro f s h hopen
    rw [exec_heartbeat, State.inSession_of_session _ h hopen, (State.respond_samePilot _ _ _).keepPilot]
  case update =>
    rintro f s _ h rfl hopen
    rw [exec_keyUpdate, State.inSession_of_session _ h hopen, (State.setSpdm_respond_samePilot _ _ _ _).keepPilot]
  case finished =>
    rintro f s _ h rfl hopen
    rw [exec_endSession, State.inSession_of_session _ h hopen, (State.setSpdm_respond_samePilot _ _ _ _).keepPilot]
  case chunk =>
    intro f chunk s x h hx hstage hchunk hall
    rw [exec_chunkSend, State.chunkSend_appends h hx hstage hchunk hall, (State.setSpdm_respond_samePilot _ _ _ _).keepPilot]
  case second =>
    intro f s x h hx hstage hopen
    rw [exec_keyExchange, State.keyExchange_second h hx hstage hopen, (State.spdmError_samePilot _ _ _).keepPilot]
  case secret =>
    intro v x s h hopen
    rw [exec_setMigrationSecret, State.setSecret, State.inSession_of_session _ h hopen]
  case keys =>
    intro f s h hopen
    rw [exec_ideKm, State.inSession_of_session _ h hopen]
  case lock =>
    intro v s h hopen hunlocked hallowed
    rw [exec_lockInterfaceRequest, State.lockInterface_locks h hopen hunlocked hallowed]
  case start =>
    intro v s h hopen hlocked
    rw [exec_startInterfaceRequest, State.startInterface_runs h hopen hlocked]
  case stop =>
    intro v s t h hopen hthere ht
    rw [exec_stopInterface, State.stopInterface_resets h hopen hthere ht]
  case report =>
    intro v s h hopen hlocked
    refine ⟨_, exec_getDeviceInterfaceReport v s, ?_⟩
    rw [State.interfaceReport_tells h hopen hlocked]
    refine ⟨?_, rfl, rfl, rfl⟩
    rw [State.keepPilot_replies, List.length_append, List.length_reverse, List.length_map, State.reportRanges_length, Nat.add_comm]
  case lockRefused =>
    intro v s h hopen hcycle
    refine ⟨_, exec_lockInterfaceRequest v s, ?_⟩
    rw [State.lockInterface_refused h hopen hcycle]
    exact ⟨rfl, rfl, rfl⟩

end Sys2Proof.Proofs
end
